-- ==== Sys2Proof/Word.lean ====
section
/-! DEFINITION. The plainest types: bytes, byte strings and the 64-bit word that holds any numeric object value (R8). -/

namespace Sys2Proof

/-- One byte on a wire or in a buffer. -/
abbrev Byte := BitVec 8

/-- A byte string, first byte first. -/
abbrev Bytes := List Byte

/-- The widest numeric object value of R8. Narrower types use the low bits, the upper bits being 0. -/
abbrev Word := BitVec 64

/-- A 256-bit frame memory word, as R114 and R116 address them. -/
abbrev MemWord := BitVec 256

end Sys2Proof
end

