-- ==== Sys2Proof/Syntax.lean ====
section
/-! DEFINITION. The commands of the block: one constructor per row of the operations and events table. Every command carries
the local elapsed time `t`, in ns, at which it happens (log entry 1, DESIGN CHOICE, unsafe). The other operands are the facts that come from outside
the block, or from a choice the manual leaves to the part (log entry 2, DESIGN CHOICE, safe). -/

namespace Sys2Proof

/-- How a Gysol frame reaches MGMT (R56) (log entry 138, DESIGN CHOICE, safe). -/
inductive Transport where
  | udp | spi | inBand | jtag
  deriving DecidableEq, Repr

/-- One occurrence signalled to XRDS (R473): the wall time of the happening, code, instance and data of R10, and whether a
rate limit keeps it from becoming a record. -/
structure Occ where
  time : Nat
  code : Nat
  inst : Nat
  data : Nat
  rcd : Bool := true
  deriving DecidableEq, Repr

/-- A stream format as the MSA and VSC SDP give it (R87, R88): active size, frame rate in 0.01 Hz, encoding (0 RGB, 1 4:4:4,
2 4:2:2, 3 4:2:0), depth, colorimetry code of 0x4005, range, and total pixels per frame. -/
structure DpFormat where
  width : Nat
  height : Nat
  rate : Nat
  enc : Nat
  depth : Nat
  colr : Nat
  limited : Bool
  total : Nat
  deriving DecidableEq, Repr

/-- The component samples of one active line: R, G, B or Y, Cb, Cr in sample order. In 4:2:0 the first line of a pair brings the
chroma line of the pair, and the chroma of the second is not used (R93). -/
structure LineSamples where
  a : List Nat
  b : List Nat
  c : List Nat
  deriving DecidableEq, Repr

/-- An epoch of a schedule (R232): level j, the primary shown (0xFF in TRIO), the slots as primary and bit, and whether the
gap after it holds a Pip. -/
structure SchedEpoch where
  level : Nat
  primary : Nat
  slots : List (Nat × Nat)
  pip : Bool
  deriving DecidableEq, Repr

/-- An IEEE 1588 Announce (R436): its domain, the sender's port identity, the values that the data-set comparison ranks in their order
(priority 1, class, accuracy, variance, priority 2, identity), and steps removed. -/
structure PtpAnnounce where
  domain : Nat
  sender : Nat
  rank : List Nat
  steps : Nat
  deriving DecidableEq, Repr

/-- A PTP message that the slave handles (R436). Times are in ns of the PTP timescale, arrivals in ns of wall time. -/
inductive PtpMsg where
  | announce (a : PtpAnnounce)
  | sync (domain sender seq : Nat)
  | followUp (domain sender seq origin : Nat)
  | delayResp (domain sender received : Nat)
  deriving DecidableEq, Repr

/-- A request as a client of the frame memory names it (R120): its port, the byte address it starts at, how many words, whether it
writes, and what a write through the best-effort port writes. -/
structure HbmRequest where
  port : Nat
  addr : Nat
  words : Nat
  write : Bool
  data : List MemWord := []
  deriving DecidableEq, Repr

/-- What went on at the ports of the frame memory since the command before: the requests that entered, the pseudo-channels whose
schedulers took their next command, in turn, each with whether an open row may go first, and the words that clients took (R120–R125). -/
structure HbmTraffic where
  issued : List HbmRequest
  turns : List (Nat × Bool)
  taken : List (Nat × Nat)
  deriving DecidableEq, Repr

/-- What a training sets on a channel, or a helper sets by hand (R134–R136): read and write delay per data lane in 1/64 UI, read and
write reference levels in 0.5% of VMEMQ, command/address delay and reference level, write clock alignment, and the count of the
stack's write-clock oscillator. -/
structure LaneFit where
  rd : List Nat := List.replicate 64 0
  wr : List Nat := List.replicate 64 0
  rdRef : Nat := 0
  wrRef : Nat := 0
  ca : Nat := 0
  caRef : Nat := 0
  wck : Nat := 0
  osc : Nat := 0
  deriving DecidableEq, Repr

/-- What drift tracking sees on a channel (R136): errors per data lane of the pattern read, the first failing address per
pseudo-channel, the move it asks of each read delay, the oscillator count, and the way it asks the write delay to move. -/
structure DriftLook where
  errors : List Nat
  first : List (Option Nat)
  rd : List Int
  osc : Nat
  wr : Int
  deriving DecidableEq, Repr

/-- The commands. -/
inductive Instr where
  /-- GYSOL_REQUEST (R56): A whole Gysol request frame reaches MGMT by UDP, SPI, in band or the JTAG mailbox. It is checked, queued and its operations run in payload order. -/
  | gysolRequest (t : Nat) (tr : Transport) (addr port : Nat) (plain : Bool) (frame : Bytes) (wait : Bool)
  /-- READ (R53): A READ operation returns count values, or the staged value when SHADOW is set. -/
  | read (t : Nat) (sid obj sub count : Nat) (shadow : Bool)
  /-- WRITE (R45): A WRITE operation checks and writes count values to an object that has no row of its own. -/
  | write (t : Nat) (sid obj sub count : Nat) (data : Bytes)
  /-- DESCRIBE (R600): A DESCRIBE operation returns the kind, type, access, P flag, role, class and BLOB length of each addressed subindex. -/
  | describe (t : Nat) (sid obj sub count : Nat)
  /-- BLOB_READ (R46): A BLOB_READ operation returns a chunk of a BLOB from the given offset. -/
  | blobRead (t : Nat) (sid obj sub offset length : Nat)
  /-- BLOB_WRITE (R54): A BLOB_WRITE chunk continues a BLOB stream in order. On LAST it checks the CRC-32C and applies or stages the BLOB. -/
  | blobWrite (t : Nat) (sid obj sub offset : Nat) (chunk : Bytes) (last : Bool) (crc : Nat)
  /-- LOG_READ (R66): A LOG_READ operation returns up to 64 event records from the given sequence number, with overrun or range status. -/
  | logRead (t : Nat) (sid start count : Nat)
  /-- SUBSCRIBE (R67): A SUBSCRIBE operation sets the session's event code mask for pushes. -/
  | subscribe (t : Nat) (sid : Nat) (mask : Bytes)
  /-- NOP (R53): A NOP operation does nothing except keep its session alive. -/
  | nop (t : Nat) (sid : Nat)
  /-- SESSION_OPEN (R72): SESSION_OPEN opens a pending session, or resumes a live one, and returns the identifier, device nonce and extended L. -/
  | sessionOpen (t : Nat) (tr : Transport) (addr role resume : Nat) (nonce : Bytes)
  /-- SESSION_CLOSE (R76): SESSION_CLOSE ends the session, releases its shadow and raises MGMT_SESSION_END. -/
  | sessionClose (t : Nat) (sid : Nat)
  /-- PENDING_SESSION_TIMEOUT (R74): A pending session with no valid request within 2 s is removed. -/
  | pendingSessionTimeout (t : Nat) (sid : Nat)
  /-- SESSION_TIMEOUT (R76): A session with no valid request for mgmt.session_timeout ends, and its shadow is discarded. -/
  | sessionTimeout (t : Nat) (sid : Nat)
  /-- BLOB_STREAM_ABANDON (R54): A BLOB stream left without a chunk for 10 s is abandoned. -/
  | blobStreamAbandon (t : Nat) (obj sub : Nat)
  /-- EVENT_PUSH (R68): A push frame of queued records is sent when 80 records wait, or 1 ms after the oldest was queued. -/
  | eventPush (t : Nat) (sid : Nat)
  /-- WRITE_FRAME (R78): The SPI host sends one Gysol frame with the WRITE_FRAME command. -/
  | writeFrame (t : Nat) (frame : Bytes) (whole wait : Bool)
  /-- READ_STATUS (R78): The SPI host reads the 4 status bytes, which clears ERROR except in the Mews-only state. -/
  | readStatus (t : Nat)
  /-- READ_FRAME (R79): The SPI host reads the next waiting response or push frame. -/
  | readFrame (t : Nat)
  /-- ARP_REQUEST (R77): An ARP request on the Ethernet port is answered. -/
  | arpRequest (t : Nat) (ip asker : Nat)
  /-- ICMP_ECHO (R77): An ICMP echo request on the Ethernet port is answered. -/
  | icmpEcho (t : Nat) (ip asker : Nat) (plain : Bool) (data : Bytes)
  /-- STATE_REQUEST_MEWS (R561): A state request MEWS from STANDBY holds the die in reset and lowers MEWS_PWREN 1 ms later. -/
  | stateRequestMews (t : Nat) (sid : Nat)
  /-- STATE_REQUEST_STANDBY (R31): A state request STANDBY ramps the light down from SERVING or DEGRADED, or leaves SAFE and clears the kill latch when allowed. -/
  | stateRequestStandby (t : Nat) (sid : Nat)
  /-- STATE_REQUEST_WARMING (R614): A state request WARMING from STANDBY starts the fast clocks, the arrays, the chains, the wheels and the band ramps. -/
  | stateRequestWarming (t : Nat) (sid : Nat)
  /-- STATE_REQUEST_SAFE (R31): A state request SAFE moves the device to SAFE with cause request. -/
  | stateRequestSafe (t : Nat) (sid : Nat)
  /-- UNIT_COMMAND (R37): A write of a unit's commanded state applies it, or holds it with HELD while the unit is in disagreement. -/
  | unitCommand (t : Nat) (sid unit value : Nat)
  /-- UNIT_FORCE (R37): A write of force applies the held command at the next frame boundary. -/
  | unitForce (t : Nat) (sid unit : Nat)
  /-- MGMT_UNIT_DISAGREE (R36): After disagree has been set for 3 s, the event is raised and the area's degraded bit sets. -/
  | mgmtUnitDisagree (t : Nat) (unit : Nat)
  /-- DISAGREE_ALLOWANCE_EXPIRY (R535): The transition allowance of a unit ends with its states still different, and disagree sets. -/
  | disagreeAllowanceExpiry (t : Nat) (unit : Nat)
  /-- PROFILE_SAVE (R48): A write of mgmt.profile_save starts saving the running P values into the older flash copy. -/
  | profileSave (t : Nat) (sid : Nat)
  /-- PROFILE_SAVE_COMPLETE (R48): The save's read-back check ends, the save count rises and 0x2031 reads SAVED or FAILED. -/
  | profileSaveComplete (t : Nat) (ok : Bool)
  /-- PROFILE_ERASE (R48): A write of mgmt.profile_erase starts erasing both profile copies. -/
  | profileErase (t : Nat) (sid : Nat)
  /-- PROFILE_ERASE_COMPLETE (R48): The erase ends, and 0x2031 reads IDLE with both copies blank. -/
  | profileEraseComplete (t : Nat)
  /-- STAGE_DISCARD (R59): The owner's write of mgmt.stage_discard empties the shadow. -/
  | stageDiscard (t : Nat) (sid : Nat)
  /-- ROLE_KEY_WRITE (R69): A 32-byte key written to a role slot replaces it and closes every session of that role. -/
  | roleKeyWrite (t : Nat) (sid role : Nat) (key : Bytes)
  /-- COMMIT (R257): A write of 0x01 to seqr.commit seals the shadow and starts validation. -/
  | commit (t : Nat) (sid : Nat)
  /-- COMMIT_VALIDATION_END (R257): Validation completes, and either the commit frame C is fixed as PENDING or the commit is refused. -/
  | commitValidationEnd (t : Nat)
  /-- SEQR_STAGE_READY (R261): Class II staging and its verify complete, and stage_progress reads 1,000. -/
  | seqrStageReady (t : Nat)
  /-- HBM_TRAIN_FULL (R134): Command 0x01 of hbmc.train_cmd runs a full HBM training in STANDBY. -/
  | hbmTrainFull (t : Nat) (sid : Nat)
  /-- HBM_TRAIN_QUICK (R135): Command 0x02 of hbmc.train_cmd runs a quick HBM training in STANDBY. -/
  | hbmTrainQuick (t : Nat) (sid : Nat)
  /-- HBM_TRAINING_DONE (R134): An HBM training completes or fails. A failure falls back to full training or quarantine. -/
  | hbmTrainingDone (t : Nat) (ok : Bool) (chan step : Nat) (repairs : List (Nat × Nat × Nat)) (fits : List (Nat × LaneFit))
  /-- ARRAY_REG_ACCESS_READ (R302): A read selected in arcd.reg_access issues a REG_READ of a maker register to the array. -/
  | arrayRegAccessRead (t : Nat) (sid ap addr : Nat)
  /-- ARRAY_REG_ACCESS_WRITE (R302): A write selected in arcd.reg_access issues a REG_WRITE of a maker register to the array. -/
  | arrayRegAccessWrite (t : Nat) (sid ap addr data : Nat)
  /-- LAMP_REG_ACCESS_READ (R386): A read selected in lamp.reg_access sends a READ frame of a driver maker register. -/
  | lampRegAccessRead (t : Nat) (sid driver addr : Nat)
  /-- LAMP_REG_ACCESS_WRITE (R386): A write selected in lamp.reg_access sends a WRITE frame of a driver maker register. -/
  | lampRegAccessWrite (t : Nat) (sid driver addr data : Nat)
  /-- ARCD_LANE_SWAP_CMD (R303): A write of arcd.lane_swap starts a commanded swap of the named logical lane at the next epoch boundary. -/
  | arcdLaneSwapCmd (t : Nat) (sid ap lane : Nat)
  /-- REP_CLEAR (R325): A write of loop.rep_clear zeroes the band's repetitive memory. -/
  | repClear (t : Nat) (sid band : Nat)
  /-- TRACE_ARM (R346): A write of loop.trace_arm arms or restarts a trace buffer. -/
  | traceArm (t : Nat) (sid buffer : Nat)
  /-- CHAIN_CMD_ENUMERATE (R366): A write of 0x01 to lamp.chain_cmd enumerates the chain. -/
  | chainCmdEnumerate (t : Nat) (sid chain : Nat)
  /-- COUNTER_SNAPSHOT (R490): A write of xrds.counter_snapshot copies all 64 counters and the wall time in one cycle. -/
  | counterSnapshot (t : Nat) (sid : Nat)
  /-- COUNTER_CLEAR (R490): A mask written to xrds.counter_clear clears the selected counters. -/
  | counterClear (t : Nat) (sid mask : Nat)
  /-- COUNTER_SOURCE_WRITE (R488): A write of a counter source applies the new source and zeroes the counter in the same cycle. -/
  | counterSourceWrite (t : Nat) (sid counter source : Nat)
  /-- TASK_PENDING_EMPTY (R486): A write of 0 to xrds.task_pending empties the input's counter. -/
  | taskPendingEmpty (t : Nat) (sid input : Nat)
  /-- TASK_STICKY_CLEAR (R485): Writing 1 to a bit of xrds.task_sticky clears that overflow flag. -/
  | taskStickyClear (t : Nat) (sid bits : Nat)
  /-- IRQ_PENDING_CLEAR (R491): Writing 1 to bits of xrds.irq_pending clears them, and IRQ_N is released when no cause remains. -/
  | irqPendingClear (t : Nat) (sid block bits : Nat)
  /-- SAT_STICKY_CLEAR (R319): Writing 1 to bits of loop.sat_sticky clears those saturation flags. -/
  | satStickyClear (t : Nat) (sid band bits : Nat)
  /-- GPIO_FUNCTION_WRITE (R571): A write of a GPIO function applies at once, ending any pulse and taking pending activations without pulses. -/
  | gpioFunctionWrite (t : Nat) (sid gpio function : Nat)
  /-- GFX_LINES_CHUNK (R155): A chunk of a graphics line stream is checked against its header, repacked and written with the build's epoch. -/
  | gfxLinesChunk (t : Nat) (sid gfx offset : Nat) (chunk : Bytes) (last : Bool) (crc : Nat)
  /-- GFX_PUBLISH (R157): A write of plaz.gfx_publish completes the graphics build as a version and sends the version-complete notice. -/
  | gfxPublish (t : Nat) (sid gfx number : Nat)
  /-- SPARE_APPROVE (R509): An approve written to mews.spare_approve starts the swap of a pending worn resource. -/
  | spareApprove (t : Nat) (sid area res : Nat)
  /-- SPARE_REJECT (R509): A reject written to mews.spare_approve removes the entry from the pending list. -/
  | spareReject (t : Nat) (sid area res : Nat)
  /-- SPARE_REJECT_RECHECK (R509): 24 h after a rejection, a resource that is still worn is raised again. -/
  | spareRejectRecheck (t : Nat) (area resource : Nat)
  /-- SPARE_POLICY_WRITE (R509): A write of mews.spare_policy applies at once. A change to AUTO starts every pending swap in list order. -/
  | sparePolicyWrite (t : Nat) (sid policy : Nat)
  /-- STRING_COMMISSION (R505): A write of mews.string_commission stores every string's efficiency as its commissioning value. -/
  | stringCommission (t : Nat) (sid : Nat)
  /-- RESET_CMD (R552): A write of mews.reset_cmd sends the response and resets the die 10 ms later with cause command. -/
  | resetCmd (t : Nat) (sid : Nat)
  /-- SWEEP_START (R465): Command 0x01 of mgmt.sweep_cmd starts the sweep program with this node as master. -/
  | sweepStart (t : Nat) (sid : Nat)
  /-- SWEEP_ABORT (R465): Command 0x02 of mgmt.sweep_cmd aborts the sweep, and the master sends END at once. -/
  | sweepAbort (t : Nat) (sid : Nat)
  /-- FW_IMAGE_WRITE (R558): A firmware image streamed to mgmt.fw_image is written to the slot not booted from and verified. -/
  | fwImageWrite (t : Nat) (sid : Nat) (image : Bytes)
  /-- MGMT_FW_UPDATE (R558): Verification of a written image ends, and the event reports verified or failed. -/
  | mgmtFwUpdate (t : Nat) (signed : Bool)
  /-- EDID_WRITE (R90): A write of ings.edid drops HPD for 500 ms so that the source rereads the EDID. -/
  | edidWrite (t : Nat) (sid port : Nat) (edid : Bytes)
  /-- HPD_REASSERT (R90): At the end of a 500 ms HPD drop, the sink asserts HPD again. -/
  | hpdReassert (t : Nat) (port : Nat)
  /-- WALL_JOIN (R453): A write of seqr.wall_join seals the shadow, validates it, and sends READY or REFUSED to the coordinator. -/
  | wallJoin (t : Nat) (sid id : Nat)
  /-- WALL_COMMIT_START (R453): The start record written to the holder begins a coordinated wall commit. -/
  | wallCommitStart (t : Nat) (sid : Nat) (start : Bytes)
  /-- INGS_LINK_UP (R107): DP link training succeeds on a sink, and ingest waits for the next vertical blanking. -/
  | ingsLinkUp (t : Nat) (port rate lanes : Nat) (fmt : DpFormat)
  /-- DP_SYMBOL_LOCK_LOST (R107): A sink loses symbol lock. Versions being written are discarded, and IRQ_HPD is pulsed. -/
  | dpSymbolLockLost (t : Nat) (port : Nat)
  /-- DP_RETRAIN_TIMEOUT (R91): When the source has not retrained 1 s after a loss, the sink drops HPD for 500 ms. -/
  | dpRetrainTimeout (t : Nat) (port : Nat)
  /-- INGS_FORMAT_CHANGE (R107): An MSA change mid-stream discards the versions being written, and the format is checked against R88 and R92. -/
  | ingsFormatChange (t : Nat) (port : Nat) (fmt : DpFormat)
  /-- CURRENCY_SDP (R104): A currency SDP is checked and taken for the next frame, or discarded with an error. -/
  | currencySdp (t : Nat) (port : Nat) (packet : Bytes)
  /-- DP_FRAME_START (R101): The first active pixel of a frame arrives and is stamped as arrival time for capture. -/
  | dpFrameStart (t : Nat) (port : Nat)
  /-- DP_LINE_RECEIVED (R110): An active line arrives. Its digest is computed, and it is written unless STATIC skips it. -/
  | dpLineReceived (t : Nat) (port : Nat) (samples : LineSamples)
  /-- LINE_WRITE_ACCEPTED (R100): HBMC accepts every word of a line, and its line-valid bit is set. -/
  | lineWriteAccepted (t : Nat) (layer line : Nat)
  /-- DP_FRAME_END (R105): The vertical blanking after the last active line ends the frame, and short or long frames are handled. -/
  | dpFrameEnd (t : Nat) (port : Nat)
  /-- VERSION_COMPLETE (R97): HBMC accepts the last word, the version completes, and the notice and vote report go to CURG. -/
  | versionComplete (t : Nat) (layer : Nat)
  /-- STATIC_COPY_COMPLETE (R111): The copy of skipped lines into the writing buffer completes, and the version may complete. -/
  | staticCopyComplete (t : Nat) (layer : Nat) (ok : Bool)
  /-- HBM_READ_RETURN (R127): A read returns with its ECC severity. Errors are counted, rows are tracked and poisoned words are flagged. -/
  | hbmReadReturn (t : Nat) (port severity : Nat) (io : HbmTraffic)
  /-- ROW_SHADOW_COPY_DONE (R132): The copy of a row into a shadow ends, and all accesses move to the shadow. -/
  | rowShadowCopyDone (t : Nat) (shadow : Nat)
  /-- HBMC_REQ_TIMEOUT (R126): A request not completed 20 µs after entering its FIFO completes with an error or poison. -/
  | hbmcReqTimeout (t : Nat) (port chan : Nat)
  /-- HBMC_PARITY_REPLAY (R129): A stack parity alert stops the channel, and the commands in the alert window are replayed. -/
  | hbmcParityReplay (t : Nat) (chan pc kind replayed : Nat) (onReplay : Bool)
  /-- HBM_RETRAIN_DONE (R130): A channel's incremental retraining ends, and the channel returns to ACTIVE or is QUARANTINED. -/
  | hbmRetrainDone (t : Nat) (chan step : Nat) (ok : Bool)
  /-- HBM_SCRUB_PASS (R128): The patrol scrub reads and rewrites words on its schedule. -/
  | hbmScrubPass (t : Nat) (severity : Nat)
  /-- HBM_DRIFT_TRACK (R136): Every 100 ms, the read and write delays of each channel are moved by at most one step. -/
  | hbmDriftTrack (t : Nat) (chan : Nat) (look : DriftLook)
  /-- HBM_REFRESH (R137): A per-bank refresh falls due at the nominal or halved interval. -/
  | hbmRefresh (t : Nat) (pseudo : Nat) (postpone : Bool)
  /-- HBM_STACK_TEMP_READ (R137): Every 1 ms, the stack temperature is read and crossings of 85 °C are reported. -/
  | hbmStackTempRead (t : Nat) (stack : Nat) (temp : Int)
  /-- HBM_ROW_TRACKER_EXPIRY (R127): A row tracker entry with no error for 24 h is freed. -/
  | hbmRowTrackerExpiry (t : Nat) (stack entry : Nat)
  /-- FRAME_BOUNDARY (R13): At each scheduled boundary the frame count advances, the prepared frame flips, and versions and latches for the next frame are fixed. -/
  | frameBoundary (t : Nat) (late : Int) (mismatch : Bool)
  /-- SIGNATURE_FINAL (R163): A signature region's last line is composed. Its CRC is final, passed to CURG and compared. -/
  | signatureFinal (t : Nat) (region : Nat)
  /-- BAND_ESTIMATE_LATCH (R327): At B(F−1) − 50 µs, LOOP latches band temperatures and computes chromaticity, targets and N(F). -/
  | bandEstimateLatch (t : Nat)
  /-- SCHEDULE_DELIVERY (R234): The compiler delivers the checked schedule of frame F to SEQR and LOOP. -/
  | scheduleDelivery (t : Nat) (group : Nat) (found : List (List SchedEpoch)) (us : Nat)
  /-- COMPILE_DEADLINE (R248): With no schedule by B(F) − 100 µs, the safe schedule is run and a fallback is raised. -/
  | compileDeadline (t : Nat) (group : Nat)
  /-- PLGN_PLANE_LATE (R237): At B(F) − 10 µs, planes not yet written count as missing for their slots. -/
  | plgnPlaneLate (t : Nat) (late : List (Nat × Nat × Nat))
  /-- SLOT_RESET (R247): At a block's slot reset instant, the block shows its loaded plane. -/
  | slotReset (t : Nat) (group slot block : Nat)
  /-- BLOCK_LOAD_WINDOW (R287): A block's load window opens, and ARCD sends the block transfer with its RESET, or a zero block. -/
  | blockLoadWindow (t : Nat) (ap slot block : Nat) (next inRing : Bool)
  /-- EPOCH_CLEAR (R247): At its epoch clear instant, a block 0 to 14 is cleared. -/
  | epochClear (t : Nat) (group epoch block : Nat)
  /-- GLOBAL_RESET (R247): At the epoch's global reset, every array resets and the epoch-end strobe starts the gap. -/
  | globalReset (t : Nat) (group epoch : Nat)
  /-- PIP_WINDOW (R379): The Pip window runs with every mirror off, and dump and pickoff means are taken. -/
  | pipWindow (t : Nat) (group : Nat) (sums : List (Int × Bool))
  /-- WHEEL_MARK_PASS (R267): A wheel's reference mark passes, and the phase error is computed and passed to WHEL. -/
  | wheelMarkPass (t : Nat) (wheel : Nat)
  /-- SEQR_WHEEL_PHASE (R268): A wheel enters or leaves phase after its run of frames. -/
  | seqrWheelPhase (t : Nat) (wheel : Nat)
  /-- FSYNC_EDGE (R270): A rising edge on FSYNC_IN is timestamped, and the slave schedule is slewed towards it. -/
  | fsyncEdge (t : Nat) (width : Nat)
  /-- FSYNC_EDGE_MISSING (R270): No edge within ±2 µs of its expected time puts the slave in HOLDOVER. -/
  | fsyncEdgeMissing (t : Nat)
  /-- FSYNC_LOST (R270): After 16 consecutive missing edges, the slave is LOST. -/
  | fsyncLost (t : Nat)
  /-- ACK (R294): An ACK from the array covers sent sequences. Reject bits cause a light hold. -/
  | ack (t : Nat) (ap : Nat) (msg : Bytes)
  /-- STATUS (R293): A STATUS message from the array updates its state, flags, temperature and lane lock. -/
  | status (t : Nat) (ap : Nat) (msg : Bytes)
  /-- REG_DATA (R293): A REG_DATA message returns an array register value or status. -/
  | regData (t : Nat) (ap : Nat) (msg : Bytes)
  /-- ECHO (R301): An ECHO message returns the round-trip turnaround for latency measurement. -/
  | echo (t : Nat) (ap : Nat) (msg : Bytes)
  /-- FAULT (R299): A FAULT message from the array parks it and raises ARCD_ARRAY_FAULT. -/
  | fault (t : Nat) (ap : Nat) (msg : Bytes)
  /-- LANE (R303): A LANE message updates a lane's error grading and may mark it worn. -/
  | lane (t : Nat) (ap : Nat) (msg : Bytes)
  /-- LANE_SWAP_SEND (R303): With DUP_ALIGNED, LANE_SWAP is sent in the payload-free window of an epoch boundary. -/
  | laneSwapSend (t : Nat) (ap codeword : Nat)
  /-- LANE_SWAP_CODEWORD (R303): At codeword N, the logical lane moves to the spare. -/
  | laneSwapCodeword (t : Nat) (ap : Nat)
  /-- ARCD_LANE_SPARED (R303): After 64 more DUP codewords, the old lane becomes the worn spare in TRAIN. -/
  | arcdLaneSpared (t : Nat) (ap : Nat)
  /-- ARCD_ACK_TIMEOUT (R294): A word not covered by an ACK within 2 µs is counted. -/
  | arcdAckTimeout (t : Nat) (ap : Nat)
  /-- ARCD_RETURN_SILENT (R294): No return message for 100 µs parks the array and starts retraining. -/
  | arcdReturnSilent (t : Nat) (ap : Nat)
  /-- KEEPALIVE_SEND (R289): A KEEPALIVE is sent within each keepalive period. -/
  | keepaliveSend (t : Nat) (ap : Nat)
  /-- ARRAY_TRAINING (R300): Array port training runs its steps at BOOT, on command or after a cause of R299. -/
  | arrayTraining (t : Nat) (ap : Nat)
  /-- ARRAY_TRAINING_DONE (R300): Training ends with the array READY and parked, or FAULT with the failing step. -/
  | arrayTrainingDone (t : Nat) (ap step : Nat) (regs : List Nat) (roundTrip turnaround : Nat)
  /-- LOOP_TICK (R320): At each sample tick, window means are delivered and set-points are computed per string. -/
  | loopTick (t : Nat) (sums : List (Int × Bool))
  /-- LOOP_FEEDBACK_LOST (R316): No pickoff mean for 2 ticks takes the band to HOLD_MODEL. -/
  | loopFeedbackLost (t : Nat) (band : Nat)
  /-- LOOP_IMPLAUSIBLE (R341): Readings off the model by more than 12% for 32 windows take the band to HOLD_MODEL. -/
  | loopImplausible (t : Nat) (band : Nat)
  /-- BAND_FROZEN (R341): A variance below the floor across 256 readings takes the band to HOLD_MODEL. -/
  | bandFrozen (t : Nat) (band : Nat)
  /-- BAND_CLOSE (R344): After 64 plausible valid windows, the band closes bumplessly with preloaded integrators. -/
  | bandClose (t : Nat) (band : Nat)
  /-- WARM_RAMP_COMPLETE (R334): A band's warm-up ramp of warm_frames frames ends. -/
  | warmRampComplete (t : Nat) (band : Nat)
  /-- CAL_FREEZE (R339): After 4 frames of failing Pips, the band's calibration and probing freeze. -/
  | calFreeze (t : Nat) (band : Nat)
  /-- PILOT_RUN_END (R338): A 64-tick pilot run ends, and string efficiencies are updated or the run is discarded. -/
  | pilotRunEnd (t : Nat) (band : Nat)
  /-- TRACE_TRIGGER (R346): An armed trace buffer meets its trigger and records its post-trigger entries. -/
  | traceTrigger (t : Nat) (buffer : Nat)
  /-- LOOP_TRACE_DONE (R346): A trace buffer has recorded its entries after the trigger and reads DONE. -/
  | loopTraceDone (t : Nat) (buffer : Nat)
  /-- APPLY_LAUNCH (R359): An /A/ is launched Δ before its instant on both chains so that every driver applies together. -/
  | applyLaunch (t : Nat) (bands : Nat)
  /-- SET_SEND (R362): A SET frame carrying set-points for the next APPLY is sent on a chain. -/
  | setSend (t : Nat) (chain bands ahead bank at_ : Nat)
  /-- STATUS_FRAME_SEND (R363): A STATUS frame is sent on each chain in every tick period. -/
  | statusFrameSend (t : Nat) (chain : Nat)
  /-- LAMP_FRAME_RETURN (R356): A frame returns on LRX with acks and filled fields, and is checked. -/
  | lampFrameReturn (t : Nat) (chain : Nat) (frame : Bytes)
  /-- LAMP_DRIVER_LOST (R368): A driver whose ack is missing for 100 µs is LOST, and its strings are KILLED. -/
  | lampDriverLost (t : Nat) (driver : Nat)
  /-- LAMP_CHAIN_DOWN (R368): A chain with no lock or no intact frame for 100 µs goes DOWN, sends /X/ and drops its kill pin. -/
  | lampChainDown (t : Nat) (chain cause : Nat)
  /-- CHAIN_ENUMERATE (R366): Enumeration runs at WARMING entry or every 100 ms while DOWN, and brings the chain UP or to FAULT. -/
  | chainEnumerate (t : Nat) (chain count : Nat) (regs : List (List Nat)) (loop : Nat)
  /-- LAMP_INTERLOCK (R373): An interlock input opens. The kill latch sets, kill pins drop, /X/ is sent and SAFE follows. -/
  | lampInterlock (t : Nat) (input : Nat)
  /-- INTERLOCK_CLOSE (R389): An interlock input returns high and the closing is reported. -/
  | interlockClose (t : Nat) (input : Nat)
  /-- LAMP_INTLK_DISCREPANCY (R375): The two interlock inputs differ for longer than the discrepancy time. -/
  | lampIntlkDiscrepancy (t : Nat)
  /-- SLOW_CONVERSION (R381): Every 100 µs, the next slow channel is converted and its value is updated. -/
  | slowConversion (t : Nat) (code vio : Nat)
  /-- LAMP_SENSOR_LOST (R383): An NTC channel is lost after 3 bad conversions, or restored after 8 good ones. -/
  | lampSensorLost (t : Nat) (channel : Nat)
  /-- LAMP_RAIL (R385): A RAIL channel leaves or returns to its window after 3 conversions. -/
  | lampRail (t : Nat) (channel : Nat)
  /-- WHEEL_RUN (R399): A run command to a stopped wheel starts the 20 ms listen with gates off. -/
  | wheelRun (t : Nat) (wheel : Nat)
  /-- WHEEL_STOP (R409): A stop command brakes or coasts the wheel under stop_mode. -/
  | wheelStop (t : Nat) (wheel : Nat)
  /-- WHEL_CATCH (R399): The listen ends, and the speed ratio decides synchronising, aligning, coasting or braking. -/
  | whelCatch (t : Nat) (wheel : Nat) (amp : Int)
  /-- ALIGN_END (R400): Alignment current ends after align_time, and open-loop ramping starts. -/
  | alignEnd (t : Nat) (wheel : Nat)
  /-- OPEN_LOOP_HANDOVER (R400): At hand-over speed with 6 good crossings, the observer takes over in closed loop. -/
  | openLoopHandover (t : Nat) (wheel : Nat)
  /-- WHEL_START_FAIL (R400): A start without hand-over, or not LOCKED in 60 s, fails and restarts or faults. -/
  | whelStartFail (t : Nat) (wheel : Nat)
  /-- WHEEL_LOCKED (R398): Speed, phase and index conditions hold, and the wheel enters LOCKED. -/
  | wheelLocked (t : Nat) (wheel : Nat)
  /-- ZERO_CROSSING (R394): A back-EMF zero crossing is timestamped, the observer updates, and commutation is scheduled. -/
  | zeroCrossing (t : Nat) (wheel period : Nat) (late : Int) (backward : Bool)
  /-- PWM_PERIOD_SAMPLE (R392): The shunt is sampled mid-period, and over-limit current cuts the gate or faults. -/
  | pwmPeriodSample (t : Nat) (wheel micro : Nat)
  /-- WHEEL_FAULT_INPUT (R393): A low on Wn_FAULT_N turns every gate off and sends the channel to FAULT. -/
  | wheelFaultInput (t : Nat) (wheel : Nat) (low : Bool)
  /-- INDEX_EDGE (R396): An index edge is timestamped and its period is checked against the prediction. -/
  | indexEdge (t : Nat) (wheel period width : Nat)
  /-- INDEX_MISSING (R396): No index edge for 1.5 predicted revolutions. -/
  | indexMissing (t : Nat) (wheel : Nat)
  /-- WHEL_LOCK_LOST (R405): The observer loses the rotor. Gates turn off, pump light is gated and recovery starts. -/
  | whelLockLost (t : Nat) (wheel cause : Nat)
  /-- WHEEL_RECOVERY_TIMEOUT (R406): A recovery not LOCKED within 5 s counts as a failed start. -/
  | wheelRecoveryTimeout (t : Nat) (wheel : Nat)
  /-- WHEEL_STANDSTILL (R401): The vector amplitude stays below bemf_floor for 100 ms, and braking ends. -/
  | wheelStandstill (t : Nat) (wheel : Nat)
  /-- WHEEL_COAST_TIMEOUT (R399): A coasting catch not below 1% speed within 5 s changes to BRAKING. -/
  | wheelCoastTimeout (t : Nat) (wheel : Nat)
  /-- HELLO (R428): A HELLO frame arrives on a Uane port and keeps it UP or carries swap data. -/
  | hello (t : Nat) (port : Nat) (intact : Bool) (payload : Bytes) (ser : List Nat)
  /-- HELLO_SEND (R428): Every 2 µs, a HELLO is sent on every port that is training or up. -/
  | helloSend (t : Nat) (aligned : Nat)
  /-- HELLO_TIMEOUT (R428): No intact HELLO for 10 µs takes the port DOWN. -/
  | helloTimeout (t : Nat) (port : Nat)
  /-- UANE_LOCK_LOST (R428): A receive lane carrying a logical lane loses lock and is not swapped in time, so the port goes DOWN. -/
  | uaneLockLost (t : Nat) (port lane : Nat)
  /-- UANE_PORT_TRAINING (R427): Training of a port commanded UP starts, retried every 1 ms. -/
  | uanePortTraining (t : Nat) (port : Nat) (locked : Bool)
  /-- UANE_TRAINING_TIMEOUT (R427): A port not UP within 50 ms goes DOWN with cause 0x0004. -/
  | uaneTrainingTimeout (t : Nat) (port : Nat)
  /-- UANE_LANE_SWAP (R429): At codeword N, both ends take the logical lane from the spare. -/
  | uaneLaneSwap (t : Nat) (port : Nat) (sending : Bool)
  /-- TOPO (R425): A TOPO frame arrives and may trigger route recomputation or detect a duplicate identifier. -/
  | topo (t : Nat) (src : Nat) (payload : Bytes)
  /-- TOPO_SEND (R425): Every 1 ms, or on a port change, this node broadcasts TOPO. -/
  | topoSend (t : Nat)
  /-- TOPO_STALE (R425): A node whose TOPO has not arrived for 3 ms becomes unreachable. -/
  | topoStale (t : Nat)
  /-- UANE_TIME (R433): A TIME frame arrives, link delay and offset are computed, and the counter is disciplined. -/
  | uaneTime (t : Nat) (port : Nat) (payload : Bytes) (tenths : Nat)
  /-- TIME_SEND (R433): A TIME frame is sent on each up port every time_interval. -/
  | timeSend (t : Nat)
  /-- UANE_FRAME_FORWARD (R422): A frame for another node is queued whole and forwarded by class, or dropped. -/
  | uaneFrameForward (t : Nat) (port : Nat) (frame : Bytes) (tenths : Nat) (named : Bool)
  /-- VOTE_REPORT (R460): The coordinator receives a member's vote report for a window. -/
  | voteReport (t : Nat) (report : Bytes)
  /-- AGREEMENT (R190): An agreement arrives and is accepted, ignored, marked as a conflict or discarded late. -/
  | agreement (t : Nat) (agreement : Bytes)
  /-- AGREEMENT_ISSUE (R459): At A(F), the coordinator forms and broadcasts an agreement for each window. -/
  | agreementIssue (t : Nat)
  /-- AGREEMENT_REPEAT (R459): 50 µs after issue, each agreement is sent again under a new sequence number. -/
  | agreementRepeat (t : Nat)
  /-- LEASE (R450): A LEASE frame renews the lease, and may cause a yield or origin adoption. -/
  | lease (t : Nat) (lease : Bytes)
  /-- LEASE_EXPIRY (R449): Three boundaries without renewal expire the lease, and the next successor takes the role. -/
  | leaseExpiry (t : Nat)
  /-- PREPARE (R453): A participant receiving PREPARE answers READY or REFUSED. -/
  | prepare (t : Nat) (src id : Nat)
  /-- READY (R453): The coordinator records a participant's READY, and sends GO when all are ready. -/
  | ready (t : Nat) (node id : Nat)
  /-- REFUSED (R453): The coordinator receives REFUSED and broadcasts ABORT. -/
  | refused (t : Nat) (id : Nat)
  /-- GO (R453): A participant receiving GO stages the wall commit frame G and sends ACK. -/
  | go (t : Nat) (src id g : Nat)
  /-- COMMIT_ACK (R453): The coordinator records a participant's ACK. -/
  | commitAck (t : Nat) (node id : Nat)
  /-- ABORT (R453): A joined participant receiving ABORT refuses its commit with WALL_ABORT. -/
  | abort (t : Nat) (id : Nat)
  /-- PREPARE_REPEAT (R453): Every 10 ms, the coordinator broadcasts PREPARE again. -/
  | prepareRepeat (t : Nat)
  /-- GO_REPEAT (R453): Every 100 µs, GO is repeated until all ACK or t(G) − 200 µs. -/
  | goRepeat (t : Nat)
  /-- WALL_JOIN_TIMEOUT (R453): Not every participant READY within wall_join_timeout makes the coordinator broadcast ABORT. -/
  | wallJoinTimeout (t : Nat)
  /-- WALL_JOIN_EXPIRY (R455): A joined participant without GO or ABORT within twice the timeout refuses with WALL_FRAME_MISSED. -/
  | wallJoinExpiry (t : Nat)
  /-- SEQR_WALL_COMMIT (R455): At t(G) − 200 µs, participants that sent no ACK are reported. -/
  | seqrWallCommit (t : Nat)
  /-- LUMA_REPORT (R463): The coordinator takes a node's headroom and achievable luminance report. -/
  | lumaReport (t : Nat) (node : Nat) (report : Bytes)
  /-- LUMA_SET (R464): A LUMA SET is received and applied to the wall target envelope at B(G). -/
  | lumaSet (t : Nat) (set : Bytes)
  /-- LUMA_SET_REPEAT (R464): Every 64 frames, the coordinator repeats its latest SET. -/
  | lumaSetRepeat (t : Nat)
  /-- SWEEP_STEP (R467): A participant receiving STEP shows the pattern from S_k and measures it. -/
  | sweepStep (t : Nat) (master : Nat) (payload : Bytes)
  /-- SWEEP_RESULT (R468): The master records a participant's result, and sends the next step when all have arrived. -/
  | sweepResult (t : Nat) (node : Nat) (payload : Bytes)
  /-- SWEEP_COLLECT (R468): A node receiving COLLECT resends every result it holds for the sweep. -/
  | sweepCollect (t : Nat) (master sweep : Nat)
  /-- SWEEP_END (R468): A node receiving END discards its results for the sweep. -/
  | sweepEnd (t : Nat) (sweep : Nat)
  /-- SWEEP_STEP_TIMEOUT (R468): 100 ms after a step ends without every result, the master sends COLLECTs and the next step. -/
  | sweepStepTimeout (t : Nat)
  /-- MGMT_SWEEP (R469): A node with no STEP within sweep_timeout returns to content. -/
  | mgmtSweep (t : Nat)
  /-- PIXEL (R440): A PIXEL segment arrives and is written, starts a newer version, or is dropped. -/
  | pixel (t : Nat) (src : Nat) (spec payload : Bytes)
  /-- PIXEL_END (R440): A PIXEL END completes the transit version, or discards it on ABORT. -/
  | pixelEnd (t : Nat) (src : Nat) (spec payload : Bytes)
  /-- TRANSIT_LINE_SEND (R438): A line accepted by HBMC is read back and sent as PIXEL segments on its stream. -/
  | transitLineSend (t : Nat) (stream line : Nat)
  /-- TRANSIT_END_TIMEOUT (R440): No END within 50 ms of a version's last frame discards the version. -/
  | transitEndTimeout (t : Nat) (layer : Nat)
  /-- MGMT (R443): A MGMT frame carrying a Gysol frame is delivered to its destination or gateway. -/
  | mgmt (t : Nat) (port src : Nat) (spec payload : Bytes)
  /-- PTP_MESSAGE (R436): An IEEE 1588 Announce, Sync, Follow_Up or Delay_Resp message updates PTP state and offset. -/
  | ptpMessage (t : Nat) (msg : PtpMsg)
  /-- PPS_EDGE (R437): TIME_PPS rises at each whole second of wall time and falls 100 µs later. -/
  | ppsEdge (t : Nat) (rises : Bool)
  /-- EVENT_OCCURRENCE (R474): XRDS captures occurrences in a cycle, numbers records and updates routes, counters and pending bits. -/
  | eventOccurrence (t : Nat) (occs : List Occ)
  /-- XRDS_EVENTS_LOST (R477): When the capture queue falls below 240 after a loss, the loss record is written. -/
  | xrdsEventsLost (t : Nat)
  /-- TASK_ACTIVATION (R484): A consumer takes one pending activation of a task input and acts on it. -/
  | taskActivation (t : Nat) (input : Nat)
  /-- GPIO_PULSE_END (R487): A GPIO event pulse's high and low times end, allowing the next activation. -/
  | gpioPulseEnd (t : Nat) (gpio : Nat)
  /-- DIE_TEMP_CONVERSION (R494): Every 20 µs, each die sensor converts its temperature. -/
  | dieTempConversion (t : Nat) (temps : List Int)
  /-- MEWS_THERMAL_WARN (R495): The warning level is entered or left after its count of conversions. -/
  | mewsThermalWarn (t : Nat)
  /-- MEWS_THERMAL_THROTTLE (R498): The throttle level is entered or left, and throttle stepping starts or restores. -/
  | mewsThermalThrottle (t : Nat)
  /-- MEWS_THERMAL_SHUTDOWN (R497): The shutdown level sets the kill latch in hardware, and the device enters SAFE. -/
  | mewsThermalShutdown (t : Nat)
  /-- THERMAL_DIE_RESET (R552): 100 ms after a thermal shutdown, the Mews resets the die. -/
  | thermalDieReset (t : Nat)
  /-- DIE_SENSOR_EXCLUDED (R496): A die sensor is excluded after 16 bad conversions, or returns after 256 good ones. -/
  | dieSensorExcluded (t : Nat) (sensor : Nat)
  /-- THROTTLE_INTERVAL (R498): Each throttle interval raises d or sheds a layer, or restores them after clearing. -/
  | throttleInterval (t : Nat)
  /-- LAMP_BOARD_LEVEL (R501): A lamp-board NTC channel enters or leaves a thermal level after 4 conversions. -/
  | lampBoardLevel (t : Nat) (channel : Nat)
  /-- LAMP_THROTTLE_INTERVAL (R502): Each interval tightens or relaxes the band current cap by the step factor. -/
  | lampThrottleInterval (t : Nat)
  /-- RC_TRIM_UPDATE (R504): Once per second, the RC trim entry is moved towards the crystal count. -/
  | rcTrimUpdate (t : Nat) (error : Int)
  /-- CRYSTAL_CHECK (R542): The crystal count is compared with the RC, and the crystal is RUNNING or FAILED. -/
  | crystalCheck (t : Nat) (cycles : Nat)
  /-- CRYSTAL_EDGE_TIMEOUT (R542): No crystal edge for 10 ms marks the crystal FAILED. -/
  | crystalEdgeTimeout (t : Nat)
  /-- MEWS_WEAR (R506): A resource first becomes worn or failed, and is listed and queued for a spare. -/
  | mewsWear (t : Nat) (area resource state value : Nat)
  /-- BANK_SWAP_MIRRORED (R512): Every unit of the worn Arcade bank has been rewritten to the spare, and reads move at the next epoch boundary. -/
  | bankSwapMirrored (t : Nat)
  /-- CLKS_SPARED (R513): The spare synthesiser locks and aligns, and its domains switch to it. -/
  | clksSpared (t : Nat)
  /-- STRING_RAMP_END (R516): After 256 frames of ramp, the worn string retires and the spare becomes ACTIVE. -/
  | stringRampEnd (t : Nat)
  /-- MGMT_CORE_SPARED (R522): A core with no heartbeat for 1 ms is held in reset, and its tasks move to the spare. -/
  | mgmtCoreSpared (t : Nat) (core : Nat) (held : List Nat) (sectors : Nat)
  /-- MGMT_FW_WATCHDOG (R523): A task missing its watchdog has its leases revoked and is restarted, or the firmware restarts. -/
  | mgmtFwWatchdog (t : Nat) (task : Nat) (held : List Nat) (sectors : Nat) (retained : Bool)
  /-- BUS_TRANSACTION_TIMEOUT (R520): An internal bus write unanswered after 4 µs is retried, the port is reset, and the units are marked disagree. -/
  | busTransactionTimeout (t : Nat) (area : Nat) (answered : Bool)
  /-- MEWS_WATCHDOG (R525): The Mews watchdog expires, sets the kill latch and enters SAFE. -/
  | mewsWatchdog (t : Nat)
  /-- WATCHDOG_DIE_RESET (R525): 100 ms after a Mews watchdog, the die is reset with cause 0x03. -/
  | watchdogDieReset (t : Nat)
  /-- AUTO_WARM_REQUEST (R526): After a watchdog reset reaches STANDBY, the Mews itself requests WARMING when allowed. -/
  | autoWarmRequest (t : Nat)
  /-- MGMT_LEASE_REVOKED (R530): A resource lease expires and is revoked, and the holder is restarted. -/
  | mgmtLeaseRevoked (t : Nat) (lease sectors : Nat)
  /-- CLKS_LOCKED (R547): A synthesiser locks in a band, and its domain clocks are released. -/
  | clksLocked (t : Nat) (pll band : Nat) (err : Int)
  /-- CLKS_BAND_MISS (R546): None of the five table bands locks, and a full band search starts. -/
  | clksBandMiss (t : Nat) (pll : Nat)
  /-- CLKS_LOCK_LOST (R548): A synthesiser loses lock, coasts and retries. -/
  | clksLockLost (t : Nat) (pll : Nat) (err : Int)
  /-- CLKS_HOLDOVER_LIMIT (R548): A synthesiser not relocked within 10 ms has failed and moves to a spare. -/
  | clksHoldoverLimit (t : Nat) (pll : Nat)
  /-- CLKS_REF_LOST (R549): A REF window out of range declares REF LOST, and every synthesiser enters holdover. -/
  | clksRefLost (t : Nat)
  /-- REF_GOOD (R549): 64 good REF windows declare REF GOOD, and the synthesisers relock. -/
  | refGood (t : Nat)
  /-- DOMAIN_GATE (R544): A clock domain whose blocks are all idle closes its root gate, or opens it on request. -/
  | domainGate (t : Nat) (domain : Nat) (idle : Bool)
  /-- POWER_ON (R552): VAON applied starts the Mews and a power-on reset. -/
  | powerOn (t : Nat)
  /-- RESET_N_LOW (R552): RESET_N held low for 1 µs or more resets the die. -/
  | resetNLow (t : Nat)
  /-- RAIL_OUT_OF_RANGE (R560): A monitored rail out of range for 10 µs holds the die in reset and undrives the kill and gate pins. -/
  | railOutOfRange (t : Nat) (rail : Nat)
  /-- RAIL_RECOVERED (R560): Every rail in range for 1 ms with RESET_N high releases the die. -/
  | railRecovered (t : Nat)
  /-- RESET_RELEASE (R554): A die reset release runs BOOT: rail and REF checks, PLL locks, image check, firmware start and training. -/
  | resetRelease (t : Nat) (sigs : List Bool) (eeprom : Bytes) (kib : Nat) (sfdp logOk : Bool)
  /-- BOOT_COMPLETE (R554): When training ends and the die is cool enough, BOOT moves to STANDBY or to SAFE. -/
  | bootComplete (t : Nat)
  /-- BOOT_RETRY (R558): With no valid image, the boot ROM rereads the flash every 10 s. -/
  | bootRetry (t : Nat) (sigs : List Bool)
  /-- WAKE_GPIO_EDGE (R563): A selected edge on GPIO0 or GPIO1 in MEWS state wakes the part into BOOT. -/
  | wakeGpioEdge (t : Nat) (gpio : Nat) (rising : Bool)
  /-- WAKE_TIMER (R563): Expiry of mews.wake_timer in MEWS state wakes the part. -/
  | wakeTimer (t : Nat)
  /-- TAP_RESET (R617): Test-Logic-Reset or TRST_N low resets the TAP to IDCODE. -/
  | tapReset (t : Nat)
  /-- IDCODE (R617): The IDCODE instruction selects the 32-bit identity register. -/
  | idcode (t : Nat)
  /-- EXTEST (R619): EXTEST drives and samples the boundary register, with the kill, gate and power-enable balls observe-only. -/
  | extest (t : Nat) (cells sample : Nat)
  /-- SAMPLE_PRELOAD (R619): SAMPLE/PRELOAD captures and preloads the boundary register. -/
  | samplePreload (t : Nat) (cells sample : Nat)
  /-- BYPASS (R618): BYPASS, or any unlisted opcode, selects the 1-bit bypass register. -/
  | bypass (t : Nat) (opcode : Nat)
  /-- MAILBOX (R621): A mailbox word is shifted, building a Gysol frame with SERVICE rights or returning a response word. -/
  | mailbox (t : Nat) (ctl data : Nat) (busy wait : Bool)
  /-- PEEK (R622): A PEEK access reads or writes frame memory or the Arcade, bypassing every check. -/
  | peek (t : Nat) (valid write : Bool) (space addr data : Nat) (timely : Bool)
  /-- DIE_RESET (R618): The DIE_RESET instruction resets the die with cause JTAG on each entry to Run-Test/Idle. -/
  | dieReset (t : Nat)
  /-- UANE_FRAMING_LOST (R416): A Uane receiver that meets an uncorrectable codeword or a header with a bad CRC loses framing and discards flits until a later pointer names a header. -/
  | uaneFramingLost (t : Nat) (port : Nat)
  /-- VAON_REMOVED (R581): VAON below 0.700 V for 10 µs counts as removal of VAON, which clears the Mews and its log. -/
  | vaonRemoved (t : Nat)
  /-- WAKE_RESET_N_RISE (R563): A rising edge of RESET_N in MEWS state raises MEWS_PWREN and starts the power-up into BOOT. -/
  | wakeResetNRise (t : Nat)
  /-- GPIO_INPUT_EDGE (R488): A rising edge at a GPIO ball outside MEWS state adds 1 to every GPIO_RISE counter that selects it, which may raise a compare match. -/
  | gpioInputEdge (t : Nat) (gpio : Nat) (high : Bool)
  /-- CYCLES_COUNTER_COMPARE (R489): A counter of kind CYCLES that counts its clock domain passes its non-zero compare value and raises event 0x32. -/
  | cyclesCounterCompare (t : Nat) (domain cycles : Nat)
  /-- GATEWAY_TAG_EXPIRY (R443): A gateway tag unused for mgmt.session_timeout expires, so later frames that carry it are dropped as unknown. -/
  | gatewayTagExpiry (t : Nat) (tag : Nat)
  /-- DP_LINK_TRAINING_FAIL (R87): Source-initiated link training at an unadvertised rate or lane count fails, the failure is reported in DPCD link status, and the port stays TRAINING. -/
  | dpLinkTrainingFail (t : Nat) (port rate lanes : Nat)
  /-- SYNTHESISER_SEARCH_FAILED (R546): A full search of all 64 VCO bands ends without lock, the synthesiser has failed, and the spare takes its target. -/
  | synthesiserSearchFailed (t : Nat) (pll : Nat)
  deriving DecidableEq, Repr

end Sys2Proof
end

