-- ==== Sys2Proof/Decode.lean ====
section
/-! DEFINITION. The command a table word spells. The operations and events table gives no row any bits, so no word spells a
command. -/

namespace Sys2Proof

/-- The command that a word of `nbits` bits spells by the table's bits: none for every word (log entry 3, DESIGN CHOICE, safe). -/
def decodeTableWord (_nbits _w : Nat) : Option Instr := none

end Sys2Proof
end

