-- ==== Sys2Proof/Machine/Bits.lean ====
section
/-! DEFINITION. Bit fields, signed views, rounding, byte order and sparse maps, used by every family. -/

namespace Sys2Proof.Machine

/-- Field [hi:lo] of a number, in the notation of R11. -/
def fld (v hi lo : Nat) : Nat := (v >>> lo) % 2 ^ (hi + 1 - lo)

/-- Bit `k` of a number. -/
def bit (v k : Nat) : Bool := v.testBit k

/-- 1 for true, 0 for false: a BOOL of R8. -/
def b2n (b : Bool) : Nat := if b then 1 else 0

/-- Two's-complement reading of a `w`-bit number. -/
def toS (w v : Nat) : Int :=
  let u := v % 2 ^ w
  if u < 2 ^ (w - 1) then (u : Int) else (u : Int) - (2 ^ w : Nat)

/-- Two's-complement writing of an integer in `w` bits. -/
def ofS (w : Nat) (i : Int) : Nat := (i % (2 ^ w : Nat)).toNat

/-- An integer clamped to `lo … hi`. -/
def clampI (lo hi i : Int) : Int := if i < lo then lo else if hi < i then hi else i

/-- A number clamped to at most `m`. -/
def sat (m v : Nat) : Nat := if m < v then m else v

/-- Saturating S16. -/
def satS16 (i : Int) : Int := clampI (-32768) 32767 i

/-- Saturating S32. -/
def satS32 (i : Int) : Int := clampI (-2147483648) 2147483647 i

/-- Quotient rounded half up, for non-negative operands. -/
def divHalfUp (a b : Nat) : Nat := (2 * a + b) / (2 * b)

/-- Quotient rounded up. -/
def divCeil (a b : Nat) : Nat := (a + b - 1) / b

/-- Quotient of an integer by a positive divisor, rounded half away from zero. -/
def divAway (a : Int) (b : Nat) : Int :=
  if a < 0 then - ((divHalfUp a.natAbs b : Nat) : Int) else ((divHalfUp a.natAbs b : Nat) : Int)

/-- Quotient of an integer by a positive divisor, truncated towards zero. -/
def divTrunc (a : Int) (b : Nat) : Int :=
  if a < 0 then - ((a.natAbs / b : Nat) : Int) else ((a.natAbs / b : Nat) : Int)

/-- The bytes of `v`, `n` of them, least significant first (R45). -/
def toLE : Nat → Nat → Bytes
  | 0, _ => []
  | n + 1, v => BitVec.ofNat 8 v :: toLE n (v / 256)

/-- The number a little-endian byte string spells (R45). -/
def ofLE : Bytes → Nat
  | [] => 0
  | b :: bs => b.toNat + 256 * ofLE bs

/-- The number a big-endian byte string spells. -/
def ofBE (bs : Bytes) : Nat := bs.foldl (fun a b => a * 256 + b.toNat) 0

/-- Bytes `lo … lo + n − 1` of a byte string. -/
def slice (bs : Bytes) (lo n : Nat) : Bytes := (bs.drop lo).take n

/-- The little-endian number in bytes `lo … lo + n − 1`. -/
def leAt (bs : Bytes) (lo n : Nat) : Nat := ofLE (slice bs lo n)

/-- Zero bytes that bring a length to a multiple of 4 (R52). -/
def padLen (n : Nat) : Nat := (4 - n % 4) % 4

/-- A byte string padded with 0x00 to a multiple of 4 bytes (R52). -/
def pad4 (bs : Bytes) : Bytes := bs ++ List.replicate (padLen bs.length) 0

/-- ASCII bytes of a text. -/
def ascii (s : String) : Bytes := s.toList.map fun c => BitVec.ofNat 8 c.toNat

/-- Element `i` of a list replaced; the list itself when there is none. -/
def setAt {α : Type} (l : List α) (i : Nat) (a : α) : List α := l.set i a

/-- Element `i` of a list changed by `f`. -/
def modAt {α : Type} : List α → Nat → (α → α) → List α
  | [], _, _ => []
  | a :: l, 0, f => f a :: l
  | a :: l, i + 1, f => a :: modAt l i f

/-- Element `i` of a list of numbers, 0 when there is none. -/
def natAt (l : List Nat) (i : Nat) : Nat := l.getD i 0

/-- The numbers `0 … n − 1`. -/
def upTo (n : Nat) : List Nat := List.range n

/-- `g 0 + … + g (n − 1)`. -/
def sumTo (n : Nat) (g : Nat → Nat) : Nat := (upTo n).foldl (fun a i => a + g i) 0

/-- Sum of integers over a list. -/
def sumI {α : Type} (l : List α) (g : α → Int) : Int := l.foldl (fun a x => a + g x) 0

/-- Bitwise sum of `2^k` for the `k < n` that satisfy `p`. -/
def maskOf (n : Nat) (p : Nat → Bool) : Nat := sumTo n fun k => if p k then 2 ^ k else 0

/-- Bit `k` set or cleared. -/
def setBit (v k : Nat) (b : Bool) : Nat :=
  if v.testBit k then (if b then v else v - 2 ^ k) else (if b then v + 2 ^ k else v)

/-- The bits of `v` that `m` does not hold. -/
def clearBits (v m : Nat) : Nat := v - (v &&& m)

/-! ## Sparse maps: strictly rising keys, no entry equal to the value an unlisted key reads as. -/

/-- The entry of key `k`. -/
def mapGet {α : Type} : List (Nat × α) → Nat → Option α
  | [], _ => none
  | (j, a) :: m, k => if j = k then some a else mapGet m k

/-- The map without key `k`. -/
def mapErase {α : Type} : List (Nat × α) → Nat → List (Nat × α)
  | [], _ => []
  | (j, a) :: m, k => if j = k then m else (j, a) :: mapErase m k

/-- The map with key `k` holding `a`, keys kept in rising order. -/
def mapPut {α : Type} : List (Nat × α) → Nat → α → List (Nat × α)
  | [], k, a => [(k, a)]
  | (j, b) :: m, k, a =>
    if k < j then (k, a) :: (j, b) :: m
    else if j = k then (k, a) :: m
    else (j, b) :: mapPut m k a

/-- A write that keeps the form canonical: the default value removes the entry. -/
def mapSet {α : Type} [DecidableEq α] (d : α) (m : List (Nat × α)) (k : Nat) (a : α) : List (Nat × α) :=
  if a = d then mapErase m k else mapPut m k a

/-- Every key above `lo`, in strictly rising order. -/
def mapRising {α : Type} : List (Nat × α) → Bool
  | [] => true
  | [_] => true
  | (j, _) :: (k, b) :: m => decide (j < k) && mapRising ((k, b) :: m)

end Sys2Proof.Machine
end

