-- ==== Sys2Proof/Machine/LineCode.lean ====
section
/-! DEFINITION. Line codes: the RS(544,514) codewords, the PRBS31 scrambler and the PAM4 levels of a forward lane of an array link and of
a Uane lane (R275, R276, R413, R414). -/

namespace Sys2Proof.Machine

/-! ## The field of 1,024 elements over x¹⁰ + x³ + 1, of the code that R275 names by its standard -/

/-- An element times x (log entry 164, PRESUMED, unsafe). -/
def gfTwice (a : Nat) : Nat := if a < 512 then 2 * a else (2 * a) ^^^ 0x409

/-- The product of two elements: `b`'s lowest `n` bits still to take. -/
def gfMulFrom : Nat → Nat → Nat → Nat
  | 0, _, _ => 0
  | n + 1, a, b => (if b % 2 = 1 then a else 0) ^^^ gfMulFrom n (gfTwice a) (b / 2)

def gfMul (a b : Nat) : Nat := gfMulFrom 10 a b

/-- The `k`-th power of x. -/
def gfPow (k : Nat) : Nat := (upTo k).foldl (fun a _ => gfTwice a) 1

/-! ## The code: 514 data symbols and 30 parity symbols -/

/-- A polynomial, highest term first, times (z + r). -/
def polyTimes (r : Nat) (p : List Nat) : List Nat := List.zipWith (· ^^^ ·) (p ++ [0]) (0 :: p.map (gfMul r))

/-- The generator below its leading 1: 30 coefficients of the product of (z + xʲ), j = 0 to 29, highest term first. -/
def rsGenerator : List Nat := ((upTo 30).foldl (fun p j => polyTimes (gfPow j) p) [1]).drop 1

/-- The remainder register after one more data symbol. -/
def rsStep (gen reg : List Nat) (sym : Nat) : List Nat :=
  let f := sym ^^^ reg.headD 0
  List.zipWith (fun g r => gfMul f g ^^^ r) gen (reg.drop 1 ++ [0])

/-- The 30 parity symbols of a message, highest term first. -/
def rsParity (msg : List Nat) : List Nat := msg.foldl (rsStep rsGenerator) (List.replicate 30 0)

/-- A message with its parity symbols. -/
def rsEncode (msg : List Nat) : List Nat := msg ++ rsParity msg

/-- A received word's value at z = xʲ: 0 for each j below 30 in a codeword. -/
def rsSyndrome (word : List Nat) (j : Nat) : Nat := word.foldl (fun a c => gfMul a (gfPow j) ^^^ c) 0

/-! ## A codeword of a lane (R275, R276) -/

/-- `n` outputs of the PRBS31 generator x³¹ + x²⁸ + 1, first one highest: each output is the sum of the two taps, and is shifted in at
bit 0 (log entry 163, DEDUCED, unsafe). -/
def prbs31 : Nat → Nat → Nat → Nat
  | 0, _, acc => acc
  | n + 1, st, acc =>
    let b := (st / 2 ^ 30 + st / 2 ^ 27) % 2
    prbs31 n ((2 * st + b) % 2 ^ 31) (2 * acc + b)

/-- The state that the scrambler starts a codeword from. -/
def scrambleSeed (count lane : Nat) : Nat := count % 2 ^ 24 * 128 + lane % 16 * 8 + 5

/-- The 40-bit lane overhead of an array link. -/
def laneOverhead (lane count mode : Nat) : Nat := 0xB6 * 2 ^ 32 + lane % 16 * 2 ^ 28 + count % 2 ^ 24 * 16 + mode % 16

/-- The 40-bit lane overhead of a Uane lane (R414). -/
def uaneOverhead (lane mode count pointer : Nat) : Nat :=
  0xA * 2 ^ 36 + lane % 8 * 2 ^ 33 + mode % 4 * 2 ^ 31 + count % 2 ^ 24 * 2 ^ 7 + pointer % 2 ^ 7

/-- The 5,140 bits of a message, the first sent highest: the overhead, then 85 lane words of 60 bits, scrambled. -/
def laneMessage (overhead lane count : Nat) (words : List Nat) : Nat :=
  let payload := (upTo 85).foldl (fun a j => a * 2 ^ 60 + natAt words j % 2 ^ 60) 0
  overhead * 2 ^ 5100 + (payload ^^^ prbs31 5100 (scrambleSeed count lane) 0)

/-- The 514 data symbols of a message. -/
def laneSymbols (msg : Nat) : List Nat := (upTo 514).map fun k => msg >>> (10 * (513 - k)) % 1024

/-- The Gray-coded PAM4 level of two bits. -/
def pam4 (two : Nat) : Int :=
  match two % 4 with
  | 0 => -3
  | 1 => -1
  | 3 => 1
  | _ => 3

/-- The five PAM4 symbols of a 10-bit symbol, msb first. -/
def pam4Of (sym : Nat) : List Int := (upTo 5).map fun k => pam4 (sym >>> (8 - 2 * k))

/-- A codeword of a lane as it is sent, with its overhead: 2,720 PAM4 symbols. -/
def codewordOf (overhead lane count : Nat) (words : List Nat) : List Int :=
  (rsEncode (laneSymbols (laneMessage overhead lane count words))).flatMap pam4Of

/-- A codeword of a lane of an array link. -/
def laneCodeword (lane count mode : Nat) (words : List Nat) : List Int := codewordOf (laneOverhead lane count mode) lane count words

/-- A codeword of a Uane lane. -/
def uaneCodeword (lane mode count pointer : Nat) (words : List Nat) : List Int :=
  codewordOf (uaneOverhead lane mode count pointer) (lane % 8) count words

end Sys2Proof.Machine
end

