-- ==== Sys2Proof/Machine/FixMath.lean ====
section
/-! DEFINITION. Logarithm, exponential, power and sine in fixed point with 96 fraction bits, for the tables and conversions
that the manual defines by such functions (R152, R197, R198, R382). Log entry 3 says how exact they are. -/

namespace Sys2Proof.Machine

/-- 1.0 with 96 fraction bits. -/
def fxOne : Int := 2 ^ 96

/-- ln 2 with 96 fraction bits. -/
def fxLn2 : Int := 54916777467707473351141471128

/-- ln 10 with 96 fraction bits. -/
def fxLn10 : Int := 182429585950654714090129938606

/-- π with 96 fraction bits. -/
def fxPi : Int := 248902613312231085230521944622

def fxMul (a b : Int) : Int := a * b / fxOne

def fxDiv (a b : Int) : Int := a * fxOne / b

/-- A ratio of numbers in fixed point. -/
def fxRat (a : Int) (b : Nat) : Int := a * fxOne / b

/-- Taylor sum of the exponential: `n` more terms, the running term `t` being the `k`-th. -/
def fxExpSum : Nat → Int → Int → Nat → Int
  | 0, _, _, _ => 0
  | n + 1, x, t, k => t + fxExpSum n x (fxMul t x / ((k : Int) + 1)) (k + 1)

/-- e^x. -/
def fxExp (x : Int) : Int :=
  let k := x / fxLn2
  let e := fxExpSum 40 (x - k * fxLn2) fxOne 0
  if 0 ≤ k then e * 2 ^ k.toNat else e / 2 ^ (-k).toNat

/-- Sum of z^(2i+1) / (2i+1): `n` more terms. -/
def fxAtanhSum : Nat → Int → Int → Nat → Int
  | 0, _, _, _ => 0
  | n + 1, z2, p, k => p / ((2 * k + 1 : Nat) : Int) + fxAtanhSum n z2 (fxMul p z2) (k + 1)

/-- ln x of a positive x (log entry 8, DESIGN CHOICE, unsafe). -/
def fxLn (x : Int) : Int :=
  let k : Int := (Nat.log2 x.toNat : Int) - 96
  let m := if 0 ≤ k then x / 2 ^ k.toNat else x * 2 ^ (-k).toNat
  let z := fxDiv (m - fxOne) (m + fxOne)
  k * fxLn2 + 2 * fxAtanhSum 40 (fxMul z z) z 0

/-- x^y, 0 for x = 0. -/
def fxPow (x y : Int) : Int := if x ≤ 0 then 0 else fxExp (fxMul y (fxLn x))

/-- Taylor sum of the sine: `n` more terms. -/
def fxSinSum : Nat → Int → Int → Nat → Int
  | 0, _, _, _ => 0
  | n + 1, x2, t, k => t + fxSinSum n x2 (-(fxMul t x2) / (((2 * k + 2) * (2 * k + 3) : Nat) : Int)) (k + 1)

/-- sin(π x). -/
def fxSinPi (x : Int) : Int :=
  let r := (x + fxOne) % (2 * fxOne) - fxOne
  let a := fxMul fxPi r
  fxSinSum 24 (fxMul a a) a 0

/-- `m × x` rounded half up to a number. -/
def fxRound (m : Int) (x : Int) : Int := (2 * m * x + fxOne) / (2 * fxOne)

end Sys2Proof.Machine
end

