-- ==== Sys2Proof/Machine/Objects.lean ====
section
/-! DEFINITION. The object dictionary's fixed part: every object the chapters' tables list, with its kind (R598), type
(R8), access (R9), P flag, default and range, and the lookups, range checks, roles (R605) and commit classes (R606)
over them. Running values stand in the state. -/

namespace Sys2Proof.Machine

/-- Kind of an object (R44). -/
inductive Kind where
  | scalar | record | array
  deriving DecidableEq, Repr

/-- Type of an object's values (R8). -/
inductive Ty where
  | bool | u8 | u16 | u32 | u64 | s16 | s32 | q15 | w36 | enum8 | time64 | str32 | blob
  deriving DecidableEq, Repr

/-- Access code of an object (R9). -/
inductive Acc where
  | ro | rw | rs | wc | rp
  deriving DecidableEq, Repr

/-- What values a write may carry. The named forms are the field layouts that the object tables give
(log entry 60, DEDUCED, unsafe). -/
inductive Rng where
  | any
  | nat (lo hi : Nat)
  | natOr (lo hi alt : Nat)
  | int (lo hi : Int)
  | one (l : List Nat)
  | blob (lo hi : Nat)
  | perm
  | halves (lo hi : Nat)
  | dims (w h : Nat)
  | regAcc (lsb lo hi : Nat)
  | bandMap
  | strChan
  | txStream
  | rxSource
  | route
  | counterSrc
  | spareCmd
  | gpioFn
  | trace
  deriving DecidableEq, Repr

/-- One row of an object table: number, kind, the subindices the row covers, the object's highest subindex, type,
access, P flag, default (its raw bits) and range. -/
structure Desc where
  num : Nat
  kind : Kind
  lo : Nat
  hi : Nat
  top : Nat
  ty : Ty
  acc : Acc
  p : Bool
  dflt : Nat
  rng : Rng
  deriving DecidableEq, Repr

/-- The objects of area 0x0, in number order, as the object tables of its chapters list them. -/
def area0p0 : List Desc := [
  ⟨0x0000, .scalar, 0, 0, 0, .str32, .rp, true, 0, .any⟩, -- mews.device_name, R601
  ⟨0x0001, .scalar, 0, 0, 0, .str32, .rp, true, 0, .any⟩, -- mews.ordering_code, R601
  ⟨0x0002, .scalar, 0, 0, 0, .str32, .rp, true, 0, .any⟩, -- mews.serial, R601
  ⟨0x0003, .scalar, 0, 0, 0, .u32, .ro, false, 0, .any⟩, -- mews.fw_version, R601
  ⟨0x0004, .scalar, 0, 0, 0, .str32, .rp, true, 0, .any⟩, -- mews.stepping, R601
  ⟨0x0010, .scalar, 0, 0, 0, .enum8, .ro, false, 1, .any⟩, -- mews.device_state, R33
  ⟨0x0011, .scalar, 0, 0, 0, .enum8, .wc, false, 0, .one [0, 2, 3, 6]⟩, -- mews.state_request, R33
  ⟨0x0012, .scalar, 0, 0, 0, .enum8, .ro, false, 0, .any⟩, -- mews.safe_cause, R33
  ⟨0x0013, .scalar, 0, 0, 0, .u16, .ro, false, 0, .any⟩, -- mews.degraded_mask, R33
  ⟨0x0014, .scalar, 0, 0, 0, .u32, .rw, true, 30000, .nat 1000 600000⟩, -- mews.warmup_limit, R33
  ⟨0x0015, .scalar, 0, 0, 0, .u32, .rw, true, 0, .nat 0 2592000⟩, -- mews.wake_timer, R564
  ⟨0x0016, .scalar, 0, 0, 0, .bool, .wc, false, 0, .any⟩, -- mews.reset_cmd, R564
  ⟨0x0017, .scalar, 0, 0, 0, .enum8, .ro, false, 0, .any⟩, -- mews.xtal_state, R564
  ⟨0x0018, .scalar, 0, 0, 0, .time64, .ro, false, 0, .any⟩, -- mews.time_count, R564
  ⟨0x0019, .scalar, 0, 0, 0, .blob, .ro, false, 0, .any⟩, -- mews.rc_trim, R564
  ⟨0x001A, .scalar, 0, 0, 0, .u8, .ro, false, 0, .any⟩, -- mews.rail_state, R564
  ⟨0x0020, .array, 0, 11, 11, .s16, .ro, false, 0, .any⟩, -- mews.die_temp, R518
  ⟨0x0021, .scalar, 0, 0, 0, .s16, .ro, false, 0, .any⟩, -- mews.die_temp_max, R518
  ⟨0x0022, .scalar, 0, 0, 0, .enum8, .ro, false, 0, .any⟩, -- mews.thermal_level, R518
  ⟨0x0023, .array, 0, 11, 11, .enum8, .ro, false, 0, .any⟩, -- mews.die_sensor_state, R518
  ⟨0x0024, .scalar, 0, 0, 0, .u16, .rw, true, 2000, .nat 200 60000⟩, -- mews.throttle_interval, R518
  ⟨0x0025, .scalar, 0, 0, 0, .u8, .rs, true, 4, .nat 0 4⟩, -- mews.throttle_max_codes, R518
  ⟨0x0026, .array, 0, 15, 15, .u8, .rs, true, 0, .nat 0 15⟩, -- mews.shed_priority, R518
  ⟨0x0027, .scalar, 0, 0, 0, .u16, .ro, false, 0, .any⟩, -- mews.shed_layers, R518
  ⟨0x0030, .array, 0, 23, 23, .u32, .rs, true, 0x4600410, .any⟩, -- mews.lamp_warn, R518
  ⟨0x0031, .array, 0, 23, 23, .u32, .rs, true, 0x50004b0, .any⟩, -- mews.lamp_throttle, R518
  ⟨0x0032, .array, 0, 23, 23, .u32, .rs, true, 0x5a00500, .any⟩, -- mews.lamp_shutdown, R518
  ⟨0x0033, .scalar, 0, 0, 0, .u16, .rs, true, 27853, .nat 16384 32767⟩, -- mews.lamp_cap_step, R518
  ⟨0x0034, .scalar, 0, 0, 0, .u16, .rs, true, 16384, .nat 8192 32767⟩, -- mews.lamp_cap_floor, R518
  ⟨0x0040, .scalar, 0, 0, 0, .enum8, .rw, true, 0, .nat 0 1⟩, -- mews.spare_policy, R518
  ⟨0x0041, .scalar, 0, 0, 0, .blob, .ro, false, 0, .any⟩, -- mews.spare_pending, R518
  ⟨0x0042, .scalar, 0, 0, 0, .u32, .wc, false, 0, .spareCmd⟩, -- mews.spare_approve, R518
  ⟨0x0043, .scalar, 0, 0, 0, .u64, .ro, false, 0, .any⟩, -- mews.spare_inventory, R518
  ⟨0x0044, .scalar, 0, 0, 0, .bool, .wc, false, 0, .any⟩, -- mews.string_commission, R518
  ⟨0x0045, .scalar, 0, 0, 0, .u8, .rw, true, 70, .nat 30 95⟩, -- mews.string_wear_pct, R518
  ⟨0x0046, .scalar, 0, 0, 0, .u32, .rw, true, 100, .nat 1 100000⟩, -- mews.bank_ecc_limit, R518
  ⟨0x0047, .scalar, 0, 0, 0, .u8, .rw, true, 3, .nat 1 100⟩, -- mews.pll_loss_limit, R518
  ⟨0x0048, .scalar, 0, 0, 0, .u32, .rw, true, 10000, .nat 1 10000000⟩, -- mews.hbm_ce_limit, R518
  ⟨0x0049, .scalar, 0, 0, 0, .u32, .ro, false, 0, .any⟩, -- mews.sram_ce, R518
  ⟨0x004A, .scalar, 0, 0, 0, .blob, .ro, false, 0, .any⟩] -- mews.wear_list, R518

/-- The objects of area 0x0, continued. -/
def area0p1 : List Desc := [
  ⟨0x0050, .scalar, 0, 0, 0, .bool, .rw, true, 1, .any⟩, -- mews.recover_warm, R539
  ⟨0x0051, .scalar, 0, 0, 0, .u8, .rw, true, 3, .nat 0 10⟩, -- mews.recover_limit, R539
  ⟨0x0052, .scalar, 0, 0, 0, .u32, .ro, false, 0, .any⟩, -- mews.reset_count, R539
  ⟨0x0053, .scalar, 0, 0, 0, .enum8, .ro, false, 1, .any⟩] -- mews.reset_cause, R539

/-- Every object of area 0x0. -/
def area0 : List Desc := area0p0 ++ area0p1

/-- The objects of area 0x1, in number order, as the object tables of its chapters list them. -/
def area1 : List Desc := [
  ⟨0x1000, .array, 0, 9, 9, .enum8, .ro, false, 0, .any⟩, -- clks.pll_state, R564
  ⟨0x1001, .array, 0, 9, 9, .u8, .ro, false, 0, .any⟩, -- clks.pll_target, R564
  ⟨0x1002, .array, 0, 9, 9, .u8, .ro, false, 0, .any⟩, -- clks.pll_band, R564
  ⟨0x1003, .array, 0, 9, 9, .s16, .ro, false, 0, .any⟩, -- clks.pll_error, R564
  ⟨0x1004, .scalar, 0, 0, 0, .enum8, .ro, false, 0, .any⟩, -- clks.ref_state, R564
  ⟨0x1005, .array, 0, 24, 24, .enum8, .ro, false, 0, .any⟩, -- clks.domain_state, R564
  ⟨0x1006, .array, 0, 24, 24, .u8, .ro, false, 0, .any⟩, -- clks.domain_source, R564
  ⟨0x1010, .array, 0, 7, 7, .blob, .rw, true, 0, .blob 16 16⟩, -- clks.band_table, R564
  ⟨0x1011, .array, 0, 9, 9, .u32, .ro, false, 0, .any⟩, -- clks.lock_count, R564
  ⟨0x1012, .array, 0, 9, 9, .u32, .ro, false, 0, .any⟩] -- clks.holdover_ms, R564

/-- The objects of area 0x2, in number order, as the object tables of its chapters list them. -/
def area2 : List Desc := [
  ⟨0x2000, .scalar, 0, 0, 0, .u32, .rw, true, 0xc0a80064, .any⟩, -- mgmt.ip_addr, R85
  ⟨0x2001, .scalar, 0, 0, 0, .u32, .rw, true, 0xffffff00, .any⟩, -- mgmt.ip_mask, R85
  ⟨0x2002, .scalar, 0, 0, 0, .u32, .rw, true, 0, .any⟩, -- mgmt.ip_gateway, R85
  ⟨0x2003, .scalar, 0, 0, 0, .u16, .rw, true, 45504, .nat 1 65535⟩, -- mgmt.udp_port, R85
  ⟨0x2004, .scalar, 0, 0, 0, .u64, .rp, true, 0, .any⟩, -- mgmt.mac_addr, R85
  ⟨0x2010, .scalar, 0, 0, 0, .u16, .ro, false, 0, .any⟩, -- mgmt.req_seq_last, R85
  ⟨0x2011, .scalar, 0, 0, 0, .u32, .ro, false, 0, .any⟩, -- mgmt.evt_seq_next, R85
  ⟨0x2012, .scalar, 0, 0, 0, .u32, .ro, false, 0, .any⟩, -- mgmt.evt_seq_oldest, R85
  ⟨0x2013, .scalar, 0, 0, 0, .u32, .rw, true, 60000, .nat 5000 3600000⟩, -- mgmt.session_timeout, R85
  ⟨0x2014, .array, 0, 7, 7, .u64, .ro, false, 0, .any⟩, -- mgmt.session_info, R85
  ⟨0x2016, .scalar, 0, 0, 0, .u32, .ro, false, 0, .any⟩, -- mgmt.rx_dropped, R85
  ⟨0x2017, .scalar, 0, 0, 0, .u32, .ro, false, 0, .any⟩, -- mgmt.req_seq_ext, R85
  ⟨0x2018, .scalar, 0, 0, 0, .u32, .ro, false, 0, .any⟩, -- mgmt.auth_fail, R85
  ⟨0x2019, .scalar, 0, 0, 0, .u32, .ro, false, 0, .any⟩, -- mgmt.rx_malformed, R85
  ⟨0x2020, .scalar, 0, 0, 0, .u16, .ro, false, 0, .any⟩, -- mgmt.stage_owner, R85
  ⟨0x2021, .scalar, 0, 0, 0, .bool, .wc, false, 0, .any⟩, -- mgmt.stage_discard, R85
  ⟨0x2030, .scalar, 0, 0, 0, .bool, .wc, false, 0, .any⟩, -- mgmt.profile_save, R85
  ⟨0x2031, .scalar, 0, 0, 0, .enum8, .ro, false, 0, .any⟩, -- mgmt.profile_status, R85
  ⟨0x2032, .scalar, 0, 0, 0, .bool, .wc, false, 0, .any⟩, -- mgmt.profile_erase, R85
  ⟨0x2033, .scalar, 0, 0, 0, .u16, .ro, false, 0, .any⟩, -- mgmt.profile_skipped, R611
  ⟨0x2034, .scalar, 0, 0, 0, .u32, .ro, false, 0, .any⟩, -- mgmt.profile_bytes, R611
  ⟨0x2040, .record, 1, 3, 3, .blob, .wc, false, 0, .blob 32 32⟩, -- mgmt.role_key, R85
  ⟨0x2050, .scalar, 0, 0, 0, .blob, .rw, false, 0, .blob 20 16388⟩, -- mgmt.sweep_program, R471
  ⟨0x2051, .scalar, 0, 0, 0, .enum8, .wc, false, 0, .nat 1 2⟩, -- mgmt.sweep_cmd, R471
  ⟨0x2052, .scalar, 0, 0, 0, .u64, .ro, false, 0, .any⟩, -- mgmt.sweep_status, R471
  ⟨0x2053, .scalar, 0, 0, 0, .blob, .ro, false, 0, .any⟩, -- mgmt.sweep_results, R471
  ⟨0x2054, .scalar, 0, 0, 0, .u8, .ro, false, 0, .any⟩, -- mgmt.sweep_held, R471
  ⟨0x2055, .scalar, 0, 0, 0, .u16, .rw, true, 2000, .nat 500 60000⟩, -- mgmt.sweep_timeout, R471
  ⟨0x2060, .array, 0, 31, 31, .u64, .ro, false, 0, .any⟩, -- mgmt.lease, R539
  ⟨0x2061, .array, 0, 31, 31, .u32, .ro, false, 0, .any⟩, -- mgmt.lease_revokes, R539
  ⟨0x2062, .scalar, 0, 0, 0, .u32, .ro, false, 0, .any⟩, -- mgmt.bus_timeouts, R539
  ⟨0x2063, .scalar, 0, 0, 0, .u32, .ro, false, 0, .any⟩, -- mgmt.fw_restarts, R539
  ⟨0x2070, .array, 0, 1, 1, .u64, .ro, false, 0, .any⟩, -- mgmt.fw_slot, R564
  ⟨0x2071, .scalar, 0, 0, 0, .blob, .wc, false, 0, .blob 0 8388608⟩, -- mgmt.fw_image, R564
  ⟨0x2072, .scalar, 0, 0, 0, .u64, .ro, false, 0, .any⟩] -- mgmt.flash_info, R564

/-- The objects of area 0x3, in number order, as the object tables of its chapters list them. -/
def area3 : List Desc := [
  ⟨0x3000, .scalar, 0, 0, 0, .u16, .ro, false, 0, .any⟩, -- xrds.log_held, R493
  ⟨0x3001, .scalar, 0, 0, 0, .u32, .ro, false, 0, .any⟩, -- xrds.events_lost, R493
  ⟨0x3002, .scalar, 0, 0, 0, .u16, .ro, false, 0, .any⟩, -- xrds.queue_level, R493
  ⟨0x3003, .scalar, 0, 0, 0, .u16, .ro, false, 0, .any⟩, -- xrds.queue_peak, R493
  ⟨0x3010, .array, 0, 75, 75, .u64, .rw, true, 0xff0000000000, .route⟩, -- xrds.route, R493
  ⟨0x3011, .array, 0, 37, 37, .u8, .rw, true, 0, .nat 0 1⟩, -- xrds.task_config, R493
  ⟨0x3012, .array, 0, 37, 37, .u8, .rw, false, 0, .one [0]⟩, -- xrds.task_pending, R493
  ⟨0x3013, .array, 0, 37, 37, .u32, .ro, false, 0, .any⟩, -- xrds.task_overflow, R493
  ⟨0x3014, .scalar, 0, 0, 0, .u64, .rw, false, 0, .any⟩, -- xrds.task_sticky, R493
  ⟨0x3015, .array, 0, 37, 37, .u32, .ro, false, 0, .any⟩, -- xrds.task_activations, R493
  ⟨0x3020, .array, 0, 63, 63, .u64, .rw, true, 0, .counterSrc⟩, -- xrds.counter_source, R493
  ⟨0x3021, .array, 0, 63, 63, .u64, .ro, false, 0, .any⟩, -- xrds.counter_value, R493
  ⟨0x3022, .array, 0, 63, 63, .u64, .rw, true, 0, .nat 0 281474976710655⟩, -- xrds.counter_compare, R493
  ⟨0x3023, .scalar, 0, 0, 0, .bool, .wc, false, 0, .any⟩, -- xrds.counter_snapshot, R493
  ⟨0x3024, .array, 0, 63, 63, .u64, .ro, false, 0, .any⟩, -- xrds.counter_snap, R493
  ⟨0x3025, .scalar, 0, 0, 0, .time64, .ro, false, 0, .any⟩, -- xrds.counter_snap_time, R493
  ⟨0x3026, .scalar, 0, 0, 0, .u64, .wc, false, 0, .any⟩, -- xrds.counter_clear, R493
  ⟨0x3027, .scalar, 0, 0, 0, .u64, .rw, true, 0, .any⟩, -- xrds.clear_mask, R493
  ⟨0x3030, .array, 0, 3, 3, .u64, .rw, true, 0, .any⟩, -- xrds.irq_mask, R493
  ⟨0x3031, .array, 0, 3, 3, .u64, .rw, false, 0, .any⟩, -- xrds.irq_pending, R493
  ⟨0x3032, .scalar, 0, 0, 0, .u8, .rw, true, 1, .nat 0 7⟩, -- xrds.irq_sources, R493
  ⟨0x3033, .scalar, 0, 0, 0, .u8, .ro, false, 0, .any⟩, -- xrds.irq_state, R493
  ⟨0x3040, .array, 0, 15, 15, .u16, .rw, true, 100, .nat 1 65535⟩, -- xrds.gpio_pulse, R493
  ⟨0x3041, .array, 0, 15, 15, .enum8, .rw, true, 0, .gpioFn⟩, -- xrds.gpio_function, R570
  ⟨0x3042, .scalar, 0, 0, 0, .u16, .rw, false, 0, .any⟩, -- xrds.gpio_out, R570
  ⟨0x3043, .scalar, 0, 0, 0, .u16, .ro, false, 0, .any⟩] -- xrds.gpio_in, R570

/-- The objects of area 0x4, in number order, as the object tables of its chapters list them. -/
def area4 : List Desc := [
  ⟨0x4000, .array, 0, 1, 1, .bool, .rw, true, 1, .any⟩, -- ings.port_enable, R112
  ⟨0x4001, .array, 0, 1, 1, .enum8, .rw, true, 6, .nat 0 6⟩, -- ings.max_link_rate, R112
  ⟨0x4002, .array, 0, 1, 1, .u8, .rw, true, 4, .one [1, 2, 4]⟩, -- ings.max_lanes, R112
  ⟨0x4003, .array, 0, 1, 1, .enum8, .ro, false, 0, .any⟩, -- ings.port_status, R112
  ⟨0x4004, .array, 0, 1, 1, .u16, .ro, false, 0, .any⟩, -- ings.link, R112
  ⟨0x4005, .array, 0, 1, 1, .u64, .ro, false, 0, .any⟩, -- ings.in_format, R112
  ⟨0x4009, .scalar, 0, 0, 0, .u32, .ro, false, 0, .any⟩, -- ings.sdp_oui, R112
  ⟨0x4010, .array, 0, 7, 7, .enum8, .rs, true, 255, .one [0, 1, 255]⟩, -- ings.target_port, R112
  ⟨0x4011, .array, 0, 7, 7, .u64, .rs, true, 0, .any⟩, -- ings.target_rect, R112
  ⟨0x4012, .array, 0, 7, 7, .enum8, .rs, true, 0, .nat 0 1⟩, -- ings.frame_mode, R112
  ⟨0x4013, .array, 0, 7, 7, .u8, .rs, true, 3, .nat 3 6⟩, -- ings.buffer_count, R112
  ⟨0x4015, .array, 0, 7, 7, .enum8, .rs, true, 0, .nat 0 1⟩, -- ings.version_src, R112
  ⟨0x4016, .array, 0, 7, 7, .enum8, .rs, true, 0, .nat 0 1⟩, -- ings.time_src, R112
  ⟨0x4017, .array, 0, 7, 7, .u8, .rw, true, 8, .nat 0 255⟩, -- ings.static_frames, R112
  ⟨0x4020, .array, 0, 1, 1, .blob, .rw, true, 0, .blob 128 512⟩, -- ings.edid, R112
  ⟨0x4030, .array, 0, 7, 7, .u32, .ro, false, 0, .any⟩, -- ings.layer_version, R112
  ⟨0x4031, .array, 0, 7, 7, .time64, .ro, false, 0, .any⟩, -- ings.layer_capture, R112
  ⟨0x4032, .array, 0, 7, 7, .blob, .ro, false, 0, .any⟩, -- ings.line_valid, R112
  ⟨0x4033, .array, 0, 7, 7, .bool, .ro, false, 0, .any⟩, -- ings.layer_static, R112
  ⟨0x4034, .array, 0, 7, 7, .u32, .ro, false, 0, .any⟩, -- ings.short_count, R112
  ⟨0x4035, .array, 0, 7, 7, .u32, .ro, false, 0, .any⟩, -- ings.long_count, R112
  ⟨0x4036, .array, 0, 7, 7, .u32, .ro, false, 0, .any⟩, -- ings.drop_count, R112
  ⟨0x4037, .array, 0, 1, 1, .u32, .ro, false, 0, .any⟩] -- ings.sdp_errors, R112

/-- The objects of area 0x5, in number order, as the object tables of its chapters list them. -/
def area5 : List Desc := [
  ⟨0x5000, .scalar, 0, 0, 0, .enum8, .ro, false, 0, .any⟩, -- hbmc.status, R139
  ⟨0x5001, .scalar, 0, 0, 0, .u8, .rs, true, 12, .nat 8 16⟩, -- hbmc.grain, R139
  ⟨0x5002, .scalar, 0, 0, 0, .u64, .ro, false, 0x7ffc00000, .any⟩, -- hbmc.usable, R139
  ⟨0x5010, .array, 0, 31, 31, .enum8, .ro, false, 0, .any⟩, -- hbmc.channel_state, R139
  ⟨0x5011, .array, 0, 1, 1, .s16, .ro, false, 0, .any⟩, -- hbmc.stack_temp, R139
  ⟨0x5020, .array, 0, 63, 63, .u64, .ro, false, 0, .any⟩, -- hbmc.region, R139
  ⟨0x5030, .array, 0, 7, 7, .u32, .rs, true, 0, .any⟩, -- hbmc.port_reserve, R139
  ⟨0x5031, .array, 0, 7, 7, .u32, .rs, true, 0, .any⟩, -- hbmc.port_panic, R139
  ⟨0x5032, .array, 0, 8, 8, .u16, .ro, false, 0, .any⟩, -- hbmc.port_level, R139
  ⟨0x5033, .array, 0, 7, 7, .u32, .ro, false, 0, .any⟩, -- hbmc.port_panic_count, R139
  ⟨0x5034, .array, 0, 8, 8, .u64, .ro, false, 0, .any⟩, -- hbmc.port_bytes, R139
  ⟨0x5035, .array, 0, 8, 8, .u32, .ro, false, 0, .any⟩, -- hbmc.port_timeouts, R139
  ⟨0x5040, .scalar, 0, 0, 0, .u16, .rw, true, 16, .nat 1 1024⟩, -- hbmc.row_ce_threshold, R139
  ⟨0x5041, .array, 0, 31, 31, .u32, .ro, false, 0, .any⟩, -- hbmc.ce_count, R139
  ⟨0x5042, .array, 0, 31, 31, .u32, .ro, false, 0, .any⟩, -- hbmc.ue_count, R139
  ⟨0x5043, .array, 0, 31, 31, .u32, .ro, false, 0, .any⟩, -- hbmc.replay_count, R139
  ⟨0x5044, .array, 0, 31, 31, .u32, .ro, false, 0, .any⟩, -- hbmc.row_shadow, R139
  ⟨0x5045, .array, 0, 31, 31, .u64, .ro, false, 0xffffffffff, .any⟩, -- hbmc.lane_repair, R139
  ⟨0x5046, .array, 0, 31, 31, .u16, .ro, false, 0, .any⟩, -- hbmc.ppr_remaining, R139
  ⟨0x5047, .scalar, 0, 0, 0, .u32, .rw, true, 24, .nat 1 168⟩, -- hbmc.scrub_period, R139
  ⟨0x5051, .scalar, 0, 0, 0, .enum8, .wc, false, 0, .nat 1 2⟩, -- hbmc.train_cmd, R139
  ⟨0x5061, .scalar, 0, 0, 0, .blob, .rw, false, 0, .blob 1024 1024⟩] -- hbmc.pat_user, R139

/-- The objects of area 0x6, in number order, as the object tables of its chapters list them. -/
def area6 : List Desc := [
  ⟨0x6000, .array, 0, 15, 15, .enum8, .rs, true, 255, .one [0, 1, 2, 3, 255]⟩, -- plaz.layer_group, R166
  ⟨0x6001, .array, 0, 15, 15, .bool, .rs, true, 0, .any⟩, -- plaz.layer_enable, R166
  ⟨0x6002, .array, 0, 7, 7, .u64, .rs, true, 0, .any⟩, -- plaz.layer_src, R166
  ⟨0x6003, .array, 0, 15, 15, .u64, .rs, true, 0, .any⟩, -- plaz.layer_dst, R166
  ⟨0x6004, .array, 0, 15, 15, .u8, .rs, true, 255, .nat 0 255⟩, -- plaz.layer_alpha, R166
  ⟨0x6005, .array, 0, 7, 7, .enum8, .rs, true, 0, .nat 0 1⟩, -- plaz.scale_mode, R166
  ⟨0x6006, .array, 0, 7, 7, .u64, .rs, true, 0x10000000100000, .halves 16384 4194304⟩, -- plaz.scale_step, R166
  ⟨0x6007, .array, 0, 7, 7, .u64, .rs, true, 0, .any⟩, -- plaz.scale_init, R166
  ⟨0x6008, .array, 0, 7, 7, .blob, .rs, true, 0, .blob 1024 1024⟩, -- plaz.coef_h, R166
  ⟨0x6009, .array, 0, 7, 7, .blob, .rs, true, 0, .blob 768 768⟩, -- plaz.coef_v, R166
  ⟨0x6010, .scalar, 0, 0, 0, .enum8, .rs, true, 0, .nat 0 1⟩, -- plaz.blend_mode, R166
  ⟨0x6011, .scalar, 0, 0, 0, .u64, .rs, true, 0xfedcba9876543210, .any⟩, -- plaz.blend_order, R166
  ⟨0x6012, .array, 0, 3, 3, .w36, .rs, true, 0, .any⟩, -- plaz.background, R166
  ⟨0x6013, .scalar, 0, 0, 0, .u32, .ro, false, 0, .any⟩, -- plaz.fetch_load, R166
  ⟨0x6014, .array, 0, 3, 3, .enum8, .rs, true, 0, .nat 0 3⟩, -- plaz.group_space, R166
  ⟨0x6015, .scalar, 0, 0, 0, .u16, .rw, true, 120, .nat 0 65535⟩, -- plaz.sleep_refresh, R166
  ⟨0x6016, .array, 0, 3, 3, .bool, .ro, false, 0, .any⟩, -- plaz.group_quiet, R166
  ⟨0x6020, .array, 0, 31, 31, .u64, .rs, true, 0, .any⟩, -- plaz.sig_rect, R166
  ⟨0x6021, .array, 0, 31, 31, .enum8, .rs, true, 0, .nat 0 3⟩, -- plaz.sig_group, R166
  ⟨0x6022, .array, 0, 31, 31, .u32, .ro, false, 0, .any⟩, -- plaz.sig_value, R166
  ⟨0x6023, .array, 0, 31, 31, .u64, .ro, false, 0, .any⟩, -- plaz.sig_frame, R166
  ⟨0x6030, .array, 0, 7, 7, .u32, .rs, true, 0, .dims 7680 4320⟩, -- plaz.gfx_size, R166
  ⟨0x6031, .array, 0, 7, 7, .u8, .rs, true, 3, .nat 3 6⟩, -- plaz.gfx_buffer_count, R166
  ⟨0x6032, .array, 0, 7, 7, .blob, .rw, false, 0, .blob 0 16777216⟩, -- plaz.gfx_lines, R166
  ⟨0x6033, .array, 0, 7, 7, .time64, .rw, false, 0, .any⟩, -- plaz.gfx_declared_time, R166
  ⟨0x6034, .array, 0, 7, 7, .u32, .wc, false, 0, .any⟩, -- plaz.gfx_publish, R166
  ⟨0x6035, .array, 0, 7, 7, .u16, .ro, false, 0, .any⟩, -- plaz.gfx_next_line, R166
  ⟨0x6036, .array, 0, 7, 7, .u32, .ro, false, 0, .any⟩] -- plaz.gfx_version, R166

/-- The objects of area 0x7, in number order, as the object tables of its chapters list them. -/
def area7 : List Desc := [
  ⟨0x7100, .array, 0, 15, 15, .u32, .rs, true, 0xf4240, .nat 1000 60000000⟩, -- curg.layer_max_age, R193
  ⟨0x7101, .array, 0, 15, 15, .u8, .rs, true, 50, .nat 1 99⟩, -- curg.layer_aging_pct, R193
  ⟨0x7102, .array, 0, 15, 15, .u64, .rs, true, 0, .any⟩, -- curg.hb_rect, R193
  ⟨0x7103, .array, 0, 15, 15, .u16, .rs, true, 16, .nat 1 65535⟩, -- curg.hb_versions, R193
  ⟨0x7104, .array, 0, 15, 15, .u8, .rs, true, 0, .nat 0 255⟩, -- curg.span_window, R193
  ⟨0x7105, .array, 0, 15, 15, .enum8, .rs, true, 0, .nat 0 1⟩, -- curg.stale_mode, R193
  ⟨0x7106, .array, 0, 15, 15, .u8, .rs, true, 15, .nat 0 15⟩, -- curg.border_edges, R193
  ⟨0x7108, .array, 0, 3, 3, .w36, .rs, true, 0xfffa00000, .any⟩, -- curg.hatch_colour, R193
  ⟨0x7109, .array, 0, 3, 3, .u64, .rs, true, 0, .any⟩, -- curg.canvas_origin, R193
  ⟨0x7110, .array, 0, 15, 15, .enum8, .ro, false, 0, .any⟩, -- curg.layer_state, R193
  ⟨0x7111, .array, 0, 15, 15, .u32, .ro, false, 0, .any⟩, -- curg.layer_shown, R193
  ⟨0x7112, .array, 0, 15, 15, .u32, .ro, false, 0, .any⟩, -- curg.layer_age, R193
  ⟨0x7113, .array, 0, 15, 15, .u8, .ro, false, 0, .any⟩, -- curg.layer_flags, R193
  ⟨0x7114, .array, 0, 15, 15, .u16, .ro, false, 0, .any⟩, -- curg.hb_count, R193
  ⟨0x7115, .array, 0, 15, 15, .u16, .ro, false, 0, .any⟩, -- curg.invalid_lines, R193
  ⟨0x7120, .array, 0, 31, 31, .u32, .rs, true, 0, .any⟩, -- curg.sig_expected, R193
  ⟨0x7121, .array, 0, 31, 31, .enum8, .rs, true, 0, .nat 0 2⟩, -- curg.sig_action, R193
  ⟨0x7122, .array, 0, 31, 31, .enum8, .ro, false, 0, .any⟩, -- curg.sig_state, R193
  ⟨0x7123, .array, 0, 31, 31, .u32, .ro, false, 0, .any⟩, -- curg.sig_mismatch_count, R193
  ⟨0x7130, .array, 0, 15, 15, .u32, .ro, false, 0, .any⟩, -- curg.vote_agreed, R193
  ⟨0x7131, .array, 0, 15, 15, .u32, .ro, false, 0, .any⟩, -- curg.vote_fail_count, R193
  ⟨0x7140, .record, 1, 255, 255, .blob, .rs, true, 0, .blob 0 1024⟩, -- curg.window_nodes, R471
  ⟨0x7141, .scalar, 0, 0, 0, .u32, .ro, false, 0, .any⟩, -- curg.window_table_crc, R471
  ⟨0x7142, .record, 1, 255, 255, .blob, .ro, false, 0, .any⟩] -- curg.agreement_issued, R471

/-- The objects of area 0x8, in number order, as the object tables of its chapters list them. -/
def area8 : List Desc := [
  ⟨0x8001, .scalar, 0, 0, 0, .u32, .rs, true, 0x500d5439, .any⟩, -- colr.white_xy, R211
  ⟨0x8002, .array, 0, 3, 3, .u16, .rs, true, 1000, .nat 100 10000⟩, -- colr.peak_luminance, R211
  ⟨0x8003, .array, 0, 3, 3, .enum8, .rs, true, 0, .nat 0 1⟩, -- colr.eotf_select, R211
  ⟨0x8004, .array, 0, 3, 3, .blob, .rs, true, 0, .blob 16384 16384⟩, -- colr.eotf_table, R211
  ⟨0x8005, .array, 0, 3, 3, .blob, .ro, false, 0, .any⟩, -- colr.hlg_gain, R211
  ⟨0x8006, .array, 0, 3, 3, .enum8, .rs, true, 0, .nat 0 1⟩, -- colr.range_mode, R211
  ⟨0x8007, .scalar, 0, 0, 0, .u8, .rs, true, 2, .nat 0 16⟩, -- colr.matrix_deadband, R211
  ⟨0x8010, .array, 0, 3, 3, .blob, .ro, false, 0, .any⟩, -- colr.matrix, R211
  ⟨0x8011, .array, 0, 3, 3, .u64, .ro, false, 0, .any⟩, -- colr.matrix_frame, R211
  ⟨0x8012, .array, 0, 3, 3, .blob, .ro, false, 0, .any⟩, -- colr.source_matrix, R211
  ⟨0x8013, .array, 0, 3, 3, .u32, .ro, false, 0, .any⟩, -- colr.late_count, R211
  ⟨0x8020, .array, 0, 3, 3, .blob, .rs, true, 0, .blob 12810 12810⟩, -- colr.uni_map, R211
  ⟨0x8021, .array, 0, 3, 3, .bool, .rs, true, 1, .any⟩, -- colr.uni_enable, R211
  ⟨0x8030, .array, 0, 3, 3, .u32, .ro, false, 0, .any⟩, -- colr.clip_pixels, R211
  ⟨0x8031, .array, 0, 3, 3, .u16, .rs, true, 100, .any⟩] -- colr.clip_warn, R211

/-- The objects of area 0x9, in number order, as the object tables of its chapters list them. -/
def area9 : List Desc := [
  ⟨0x9000, .array, 0, 3, 3, .u8, .ro, false, 0, .any⟩, -- plgn.scale, R240
  ⟨0x9001, .array, 0, 3, 3, .u32, .ro, false, 0, .any⟩, -- plgn.slot_period, R240
  ⟨0x9002, .array, 0, 3, 3, .u16, .ro, false, 0, .any⟩, -- plgn.slot_count, R240
  ⟨0x9003, .array, 0, 3, 3, .u8, .ro, false, 0, .any⟩, -- plgn.epochs_min, R240
  ⟨0x9004, .array, 0, 3, 3, .u8, .ro, false, 0, .any⟩, -- plgn.epochs_allowed, R240
  ⟨0x9005, .array, 0, 3, 3, .u16, .ro, false, 0, .any⟩, -- plgn.duty_committed, R240
  ⟨0x9006, .array, 0, 3, 3, .u16, .ro, false, 0, .any⟩, -- plgn.duty_achieved, R240
  ⟨0x9007, .array, 0, 3, 3, .u32, .ro, false, 0, .any⟩, -- plgn.block_time, R240
  ⟨0x9008, .array, 0, 3, 3, .u32, .ro, false, 0, .any⟩, -- plgn.settle, R240
  ⟨0x9010, .scalar, 0, 0, 0, .u16, .rs, true, 9500, .nat 5000 10000⟩, -- plgn.duty_floor, R240
  ⟨0x9011, .scalar, 0, 0, 0, .u8, .rs, true, 8, .nat 0 16⟩, -- plgn.pip_count, R240
  ⟨0x9012, .scalar, 0, 0, 0, .u8, .rs, true, 1, .nat 0 8⟩, -- plgn.extra_epochs, R240
  ⟨0x9013, .scalar, 0, 0, 0, .u8, .rs, true, 2, .nat 1 8⟩, -- plgn.min_l1_epochs, R240
  ⟨0x9014, .scalar, 0, 0, 0, .u32, .rs, true, 500, .nat 50 5000⟩, -- plgn.centroid_limit, R240
  ⟨0x9015, .scalar, 0, 0, 0, .u32, .rs, true, 200, .nat 50 2000⟩, -- plgn.max_dark, R240
  ⟨0x9016, .scalar, 0, 0, 0, .u16, .rs, true, 1000, .nat 100 3000⟩, -- plgn.t_current, R240
  ⟨0x9017, .scalar, 0, 0, 0, .u32, .rw, true, 2000, .nat 100 50000⟩, -- plgn.compile_budget, R240
  ⟨0x9018, .array, 0, 3, 3, .bool, .rs, true, 1, .any⟩, -- plgn.dither_enable, R240
  ⟨0x9020, .array, 0, 3, 3, .blob, .ro, false, 0, .any⟩, -- plgn.schedule, R240
  ⟨0x9021, .array, 0, 3, 3, .blob, .ro, false, 0, .any⟩, -- plgn.safe_schedule, R240
  ⟨0x9022, .array, 0, 3, 3, .blob, .ro, false, 0, .any⟩, -- plgn.histogram, R240
  ⟨0x9023, .array, 0, 3, 3, .u32, .ro, false, 0, .any⟩, -- plgn.fallback_count, R240
  ⟨0x9024, .array, 0, 3, 3, .u8, .ro, false, 0, .any⟩, -- plgn.throttle_codes, R240
  ⟨0x9025, .array, 0, 3, 3, .u32, .ro, false, 0, .any⟩] -- plgn.compile_time, R240

/-- The objects of area 0xA, in number order, as the object tables of its chapters list them. -/
def areaA : List Desc := [
  ⟨0xA001, .array, 0, 3, 3, .u32, .ro, false, 0, .any⟩, -- arcd.array_id, R308
  ⟨0xA002, .array, 0, 3, 3, .u32, .ro, false, 0, .any⟩, -- arcd.array_geometry_max, R308
  ⟨0xA003, .array, 0, 3, 3, .u32, .ro, false, 0, .any⟩, -- arcd.array_settle, R308
  ⟨0xA004, .array, 0, 3, 3, .u32, .ro, false, 0, .any⟩, -- arcd.array_delay, R308
  ⟨0xA005, .array, 0, 3, 3, .u32, .ro, false, 0, .any⟩, -- arcd.array_park_time, R308
  ⟨0xA006, .array, 0, 3, 3, .s16, .ro, false, 0, .any⟩, -- arcd.array_temp, R308
  ⟨0xA007, .array, 0, 3, 3, .u16, .ro, false, 0, .any⟩, -- arcd.array_flags, R308
  ⟨0xA009, .array, 0, 3, 3, .u64, .wc, false, 0, .regAcc 32 0x100 0x1FF⟩, -- arcd.reg_access, R308
  ⟨0xA010, .array, 0, 3, 3, .u64, .ro, false, 0x876543210, .any⟩, -- arcd.lane_map, R308
  ⟨0xA011, .array, 0, 3, 3, .blob, .ro, false, 0, .any⟩, -- arcd.lane_ser, R308
  ⟨0xA012, .scalar, 0, 0, 0, .u32, .rw, true, 10000, .nat 100 1000000⟩, -- arcd.lane_ser_limit, R308
  ⟨0xA013, .array, 0, 3, 3, .enum8, .ro, false, 0, .any⟩, -- arcd.spare_state, R308
  ⟨0xA014, .array, 0, 3, 3, .u8, .wc, false, 0, .nat 0 7⟩, -- arcd.lane_swap, R308
  ⟨0xA020, .array, 0, 3, 3, .u64, .ro, false, 0, .any⟩, -- arcd.blocks_loaded, R308
  ⟨0xA021, .scalar, 0, 0, 0, .u16, .rw, true, 8, .nat 1 20⟩, -- arcd.keepalive_period, R308
  ⟨0xA022, .array, 0, 3, 3, .u32, .ro, false, 0, .any⟩, -- arcd.rejects, R308
  ⟨0xA023, .array, 0, 3, 3, .u32, .ro, false, 0, .any⟩, -- arcd.ack_timeouts, R308
  ⟨0xA024, .array, 0, 3, 3, .u32, .ro, false, 0, .any⟩, -- arcd.ret_errors, R308
  ⟨0xA025, .array, 0, 3, 3, .u32, .ro, false, 0, .any⟩, -- arcd.underruns, R308
  ⟨0xA026, .array, 0, 3, 3, .u32, .ro, false, 0, .any⟩, -- arcd.blanks, R308
  ⟨0xA030, .scalar, 0, 0, 0, .u16, .ro, false, 511, .any⟩, -- arcd.bank_state, R308
  ⟨0xA031, .scalar, 0, 0, 0, .u32, .ro, false, 0, .any⟩] -- arcd.ring_size, R308

/-- The objects of area 0xB, in number order, as the object tables of its chapters list them. -/
def areaB : List Desc := [
  ⟨0xB000, .scalar, 0, 0, 0, .enum8, .ro, false, 0, .any⟩, -- seqr.status, R272
  ⟨0xB001, .scalar, 0, 0, 0, .u32, .rs, true, 0x1d4c0, .nat 24000 240000⟩, -- seqr.frame_rate, R272
  ⟨0xB002, .record, 1, 1, 2, .time64, .ro, false, 0, .any⟩, -- seqr.frame_origin, R272
  ⟨0xB002, .record, 2, 2, 2, .u64, .ro, false, 0, .any⟩, -- seqr.frame_origin, R272
  ⟨0xB003, .scalar, 0, 0, 0, .u32, .ro, false, 0, .any⟩, -- seqr.period_min, R272
  ⟨0xB010, .scalar, 0, 0, 0, .u8, .wc, false, 0, .one [1]⟩, -- seqr.commit, R272
  ⟨0xB011, .scalar, 0, 0, 0, .u64, .ro, false, 0, .any⟩, -- seqr.commit_status, R272
  ⟨0xB012, .scalar, 0, 0, 0, .u64, .rs, false, 0, .any⟩, -- seqr.wall_commit_frame, R272
  ⟨0xB013, .scalar, 0, 0, 0, .u16, .ro, false, 1000, .any⟩, -- seqr.stage_progress, R272
  ⟨0xB014, .scalar, 0, 0, 0, .u64, .ro, false, 0, .any⟩, -- seqr.commit_frame, R272
  ⟨0xB020, .scalar, 0, 0, 0, .u64, .ro, false, 0, .any⟩, -- seqr.frame_count, R272
  ⟨0xB021, .scalar, 0, 0, 0, .time64, .ro, false, 0, .any⟩, -- seqr.last_flip_time, R272
  ⟨0xB022, .scalar, 0, 0, 0, .s32, .ro, false, 0, .any⟩, -- seqr.flip_error, R272
  ⟨0xB023, .scalar, 0, 0, 0, .u32, .rw, true, 7200, .any⟩, -- seqr.flip_log_interval, R272
  ⟨0xB024, .record, 1, 1, 2, .u64, .ro, false, 0, .any⟩, -- seqr.flip, R272
  ⟨0xB024, .record, 2, 2, 2, .time64, .ro, false, 0, .any⟩, -- seqr.flip, R272
  ⟨0xB025, .scalar, 0, 0, 0, .u32, .ro, false, 0, .any⟩, -- seqr.rephase_count, R272
  ⟨0xB030, .scalar, 0, 0, 0, .enum8, .rs, true, 0, .nat 0 6⟩, -- seqr.group_layout, R272
  ⟨0xB031, .scalar, 0, 0, 0, .u8, .rs, true, 0, .nat 0 15⟩, -- seqr.array_enable, R272
  ⟨0xB032, .array, 0, 3, 3, .u32, .rs, true, 0x1e0010e0, .any⟩, -- seqr.array_geometry, R272
  ⟨0xB033, .array, 0, 3, 3, .u32, .ro, false, 0, .any⟩, -- seqr.array_latency, R272
  ⟨0xB040, .array, 0, 1, 1, .enum8, .rs, true, 0, .nat 0 1⟩, -- seqr.wheel_lock, R272
  ⟨0xB041, .array, 0, 1, 1, .u8, .rs, true, 1, .nat 1 8⟩, -- seqr.wheel_revs, R272
  ⟨0xB042, .array, 0, 1, 1, .u16, .rs, true, 0, .nat 0 35999⟩, -- seqr.wheel_phase, R272
  ⟨0xB043, .array, 0, 1, 1, .s16, .ro, false, 0, .any⟩, -- seqr.wheel_phase_err, R272
  ⟨0xB044, .array, 0, 1, 1, .bool, .ro, false, 0, .any⟩, -- seqr.wheel_in_phase, R272
  ⟨0xB050, .scalar, 0, 0, 0, .enum8, .rs, true, 0, .nat 0 2⟩, -- seqr.fsync_mode, R272
  ⟨0xB051, .scalar, 0, 0, 0, .s32, .rs, true, 0, .int (-100000) 100000⟩, -- seqr.fsync_delay, R272
  ⟨0xB052, .scalar, 0, 0, 0, .enum8, .ro, false, 0, .any⟩, -- seqr.fsync_state, R272
  ⟨0xB053, .scalar, 0, 0, 0, .s32, .ro, false, 0, .any⟩, -- seqr.fsync_error, R272
  ⟨0xB060, .scalar, 0, 0, 0, .u32, .wc, false, 0, .nat 1 4294967295⟩, -- seqr.wall_join, R471
  ⟨0xB061, .scalar, 0, 0, 0, .blob, .wc, false, 0, .blob 14 224⟩, -- seqr.wall_commit_start, R471
  ⟨0xB062, .scalar, 0, 0, 0, .u16, .rw, true, 1000, .nat 100 10000⟩, -- seqr.wall_join_timeout, R471
  ⟨0xB063, .scalar, 0, 0, 0, .blob, .ro, false, 0, .any⟩, -- seqr.wall_commit_result, R471
  ⟨0xB064, .scalar, 0, 0, 0, .bool, .rs, true, 1, .any⟩, -- seqr.coord_eligible, R471
  ⟨0xB065, .scalar, 0, 0, 0, .u16, .ro, false, 0, .any⟩, -- seqr.coordinator, R471
  ⟨0xB066, .scalar, 0, 0, 0, .u32, .ro, false, 0, .any⟩, -- seqr.coord_term, R471
  ⟨0xB067, .scalar, 0, 0, 0, .u16, .rs, true, 500, .nat 50 2000⟩, -- seqr.vote_lead, R471
  ⟨0xB068, .scalar, 0, 0, 0, .u8, .rs, true, 3, .nat 0 16⟩, -- seqr.vote_grace, R471
  ⟨0xB06A, .scalar, 0, 0, 0, .u8, .ro, false, 2, .any⟩] -- seqr.wall_horizon, R471

/-- The objects of area 0xC, in number order, as the object tables of its chapters list them. -/
def areaCp0 : List Desc := [
  ⟨0xC002, .array, 0, 47, 47, .enum8, .rs, true, 255, .one [0, 1, 2, 3, 255]⟩, -- loop.string_band, R347
  ⟨0xC003, .array, 0, 47, 47, .enum8, .rs, true, 0, .nat 0 2⟩, -- loop.string_role, R347
  ⟨0xC004, .array, 0, 3, 3, .enum8, .rs, true, 0, .nat 0 2⟩, -- loop.band_kind, R347
  ⟨0xC005, .array, 0, 3, 3, .u16, .rs, true, 65535, .bandMap⟩, -- loop.band_map, R347
  ⟨0xC006, .scalar, 0, 0, 0, .u16, .rs, true, 10000, .nat 2000 64000⟩, -- loop.sample_period, R347
  ⟨0xC007, .array, 0, 3, 3, .u8, .rs, true, 0, .nat 0 7⟩, -- loop.adc_pickoff, R347
  ⟨0xC008, .array, 0, 3, 3, .u8, .rs, true, 255, .natOr 0 7 255⟩, -- loop.adc_dump, R347
  ⟨0xC009, .array, 0, 3, 3, .enum8, .rs, true, 0, .nat 0 1⟩, -- loop.ref_mode, R347
  ⟨0xC00A, .array, 0, 3, 3, .u16, .rs, true, 3333, .any⟩, -- loop.band_rated_y, R347
  ⟨0xC00B, .scalar, 0, 0, 0, .u8, .rs, true, 2, .nat 0 8⟩, -- loop.pip_level, R347
  ⟨0xC00C, .scalar, 0, 0, 0, .u8, .rs, true, 3, .nat 0 15⟩, -- loop.probe_pip, R347
  ⟨0xC00D, .array, 0, 3, 3, .u16, .rs, true, 0, .any⟩, -- loop.led_current, R347
  ⟨0xC00E, .array, 0, 3, 3, .u16, .rs, true, 32768, .any⟩, -- loop.band_split, R347
  ⟨0xC00F, .array, 0, 3, 3, .u32, .rw, true, 0x10000, .any⟩, -- loop.dump_scale, R347
  ⟨0xC010, .array, 0, 47, 47, .u32, .rs, true, 0x14000, .any⟩, -- loop.kp, R347
  ⟨0xC011, .array, 0, 47, 47, .u32, .rs, true, 4096, .any⟩, -- loop.ki, R347
  ⟨0xC012, .array, 0, 47, 47, .u32, .rs, true, 0, .any⟩, -- loop.kd, R347
  ⟨0xC013, .array, 0, 47, 47, .u16, .rs, true, 16384, .any⟩, -- loop.kd_filter, R347
  ⟨0xC014, .array, 0, 3, 3, .blob, .rs, true, 0, .blob 128 128⟩, -- loop.gain_table, R347
  ⟨0xC015, .array, 0, 3, 3, .bool, .rs, true, 1, .any⟩, -- loop.rep_enable, R347
  ⟨0xC016, .array, 0, 3, 3, .u16, .rs, true, 1638, .any⟩, -- loop.rep_gain, R347
  ⟨0xC017, .array, 0, 3, 3, .u16, .rs, true, 32440, .any⟩, -- loop.rep_forget, R347
  ⟨0xC018, .array, 0, 3, 3, .blob, .ro, false, 0, .any⟩, -- loop.rep_memory, R347
  ⟨0xC019, .array, 0, 3, 3, .bool, .wc, false, 0, .any⟩, -- loop.rep_clear, R347
  ⟨0xC020, .array, 0, 3, 3, .blob, .rs, true, 0, .blob 12 12⟩, -- loop.colour_model, R347
  ⟨0xC021, .array, 0, 47, 47, .u16, .ro, false, 0, .any⟩, -- loop.string_eff, R347
  ⟨0xC022, .array, 0, 47, 47, .s16, .rs, true, 0, .any⟩, -- loop.string_tempco, R347
  ⟨0xC024, .array, 0, 3, 3, .s16, .ro, false, 0, .any⟩, -- loop.band_temp, R347
  ⟨0xC025, .array, 0, 3, 3, .u32, .ro, false, 0, .any⟩, -- loop.band_xy, R347
  ⟨0xC026, .array, 0, 3, 3, .u16, .ro, false, 16384, .any⟩, -- loop.pick_cal, R347
  ⟨0xC030, .record, 1, 1, 5, .u16, .rs, true, 0, .nat 0 10000⟩, -- loop.wall_target, R28
  ⟨0xC030, .record, 2, 2, 5, .u16, .rs, true, 10000, .nat 0 10000⟩, -- loop.wall_target, R28
  ⟨0xC030, .record, 3, 3, 5, .u16, .rs, true, 20, .nat 0 10000⟩, -- loop.wall_target, R28
  ⟨0xC030, .record, 4, 4, 5, .enum8, .ro, false, 0, .any⟩, -- loop.wall_target, R28
  ⟨0xC030, .record, 5, 5, 5, .u16, .ro, false, 0, .any⟩, -- loop.wall_target, R28
  ⟨0xC031, .record, 1, 1, 5, .u16, .rs, true, 0, .nat 0 32767⟩, -- loop.band_current_env 0, R28
  ⟨0xC031, .record, 2, 2, 5, .u16, .rs, true, 32767, .nat 0 32767⟩, -- loop.band_current_env 0, R28
  ⟨0xC031, .record, 3, 3, 5, .u16, .rs, true, 0, .nat 0 32767⟩, -- loop.band_current_env 0, R28
  ⟨0xC031, .record, 4, 4, 5, .enum8, .ro, false, 0, .any⟩, -- loop.band_current_env 0, R28
  ⟨0xC031, .record, 5, 5, 5, .u16, .ro, false, 0, .any⟩] -- loop.band_current_env 0, R28

/-- The objects of area 0xC, continued. -/
def areaCp1 : List Desc := [
  ⟨0xC032, .record, 1, 1, 5, .u16, .rs, true, 0, .nat 0 32767⟩, -- loop.band_current_env 1, R28
  ⟨0xC032, .record, 2, 2, 5, .u16, .rs, true, 32767, .nat 0 32767⟩, -- loop.band_current_env 1, R28
  ⟨0xC032, .record, 3, 3, 5, .u16, .rs, true, 0, .nat 0 32767⟩, -- loop.band_current_env 1, R28
  ⟨0xC032, .record, 4, 4, 5, .enum8, .ro, false, 0, .any⟩, -- loop.band_current_env 1, R28
  ⟨0xC032, .record, 5, 5, 5, .u16, .ro, false, 0, .any⟩, -- loop.band_current_env 1, R28
  ⟨0xC033, .record, 1, 1, 5, .u16, .rs, true, 0, .nat 0 32767⟩, -- loop.band_current_env 2, R28
  ⟨0xC033, .record, 2, 2, 5, .u16, .rs, true, 32767, .nat 0 32767⟩, -- loop.band_current_env 2, R28
  ⟨0xC033, .record, 3, 3, 5, .u16, .rs, true, 0, .nat 0 32767⟩, -- loop.band_current_env 2, R28
  ⟨0xC033, .record, 4, 4, 5, .enum8, .ro, false, 0, .any⟩, -- loop.band_current_env 2, R28
  ⟨0xC033, .record, 5, 5, 5, .u16, .ro, false, 0, .any⟩, -- loop.band_current_env 2, R28
  ⟨0xC034, .record, 1, 1, 5, .u16, .rs, true, 0, .nat 0 32767⟩, -- loop.band_current_env 3, R28
  ⟨0xC034, .record, 2, 2, 5, .u16, .rs, true, 32767, .nat 0 32767⟩, -- loop.band_current_env 3, R28
  ⟨0xC034, .record, 3, 3, 5, .u16, .rs, true, 0, .nat 0 32767⟩, -- loop.band_current_env 3, R28
  ⟨0xC034, .record, 4, 4, 5, .enum8, .ro, false, 0, .any⟩, -- loop.band_current_env 3, R28
  ⟨0xC034, .record, 5, 5, 5, .u16, .ro, false, 0, .any⟩, -- loop.band_current_env 3, R28
  ⟨0xC039, .array, 0, 47, 47, .u16, .rs, true, 32767, .any⟩, -- loop.string_max, R347
  ⟨0xC040, .array, 0, 3, 3, .u16, .ro, false, 0, .any⟩, -- loop.band_target, R347
  ⟨0xC041, .array, 0, 3, 3, .u16, .ro, false, 32768, .any⟩, -- loop.scale, R347
  ⟨0xC042, .scalar, 0, 0, 0, .u16, .ro, false, 0, .any⟩, -- loop.headroom, R347
  ⟨0xC043, .scalar, 0, 0, 0, .u16, .ro, false, 0, .any⟩, -- loop.achievable, R347
  ⟨0xC044, .scalar, 0, 0, 0, .u32, .rs, true, 0x6b2bc, .any⟩, -- loop.weight_ref, R347
  ⟨0xC045, .scalar, 0, 0, 0, .u16, .rs, true, 240, .nat 1 65535⟩, -- loop.warm_frames, R347
  ⟨0xC046, .scalar, 0, 0, 0, .u16, .rs, true, 10000, .nat 0 10000⟩, -- loop.wall_request, R471
  ⟨0xC047, .scalar, 0, 0, 0, .u16, .rs, true, 20, .nat 1 1000⟩, -- loop.wall_raise_margin, R471
  ⟨0xC048, .scalar, 0, 0, 0, .u16, .ro, false, 65535, .any⟩, -- loop.wall_min_achievable, R471
  ⟨0xC050, .array, 0, 3, 3, .u16, .rs, true, 4, .any⟩, -- loop.frozen_floor, R347
  ⟨0xC052, .array, 0, 3, 3, .u8, .ro, false, 0, .any⟩, -- loop.band_fault, R347
  ⟨0xC053, .array, 0, 3, 3, .u16, .rw, false, 0, .any⟩, -- loop.sat_sticky, R347
  ⟨0xC054, .array, 0, 3, 3, .u16, .ro, false, 0, .any⟩, -- loop.derate_cap, R347
  ⟨0xC060, .array, 0, 3, 3, .u64, .rw, false, 0, .trace⟩, -- loop.trace_config, R347
  ⟨0xC061, .array, 0, 3, 3, .bool, .wc, false, 0, .any⟩, -- loop.trace_arm, R347
  ⟨0xC062, .array, 0, 3, 3, .u64, .ro, false, 0, .any⟩, -- loop.trace_state, R347
  ⟨0xC063, .array, 0, 3, 3, .blob, .ro, false, 0, .any⟩] -- loop.trace_data, R347

/-- Every object of area 0xC. -/
def areaC : List Desc := areaCp0 ++ areaCp1

/-- The objects of area 0xD, in number order, as the object tables of its chapters list them. -/
def areaD : List Desc := [
  ⟨0xD000, .array, 0, 1, 1, .enum8, .wc, false, 0, .one [1]⟩, -- lamp.chain_cmd, R388
  ⟨0xD002, .array, 0, 1, 1, .u8, .rs, true, 0, .nat 0 6⟩, -- lamp.chain_drivers, R388
  ⟨0xD003, .array, 0, 1, 1, .enum8, .ro, false, 0, .any⟩, -- lamp.chain_state, R388
  ⟨0xD004, .array, 0, 14, 14, .u16, .rs, true, 100, .any⟩, -- lamp.hop_delay, R388
  ⟨0xD005, .array, 0, 1, 1, .u32, .ro, false, 0, .any⟩, -- lamp.loop_time, R388
  ⟨0xD006, .scalar, 0, 0, 0, .u16, .ro, false, 0, .any⟩, -- lamp.apply_lead, R388
  ⟨0xD007, .array, 0, 13, 13, .u32, .ro, false, 0, .any⟩, -- lamp.driver_id, R388
  ⟨0xD008, .array, 0, 13, 13, .u32, .ro, false, 0, .any⟩, -- lamp.driver_status, R388
  ⟨0xD009, .array, 0, 13, 13, .u64, .wc, false, 0, .regAcc 40 0x80 0xFF⟩, -- lamp.reg_access, R388
  ⟨0xD00A, .array, 0, 1, 1, .u32, .ro, false, 0, .any⟩, -- lamp.frame_errors, R388
  ⟨0xD00B, .scalar, 0, 0, 0, .u16, .rs, true, 100, .nat 20 1000⟩, -- lamp.driver_watchdog, R388
  ⟨0xD010, .array, 0, 47, 47, .u8, .rs, true, 255, .strChan⟩, -- lamp.string_channel, R388
  ⟨0xD011, .array, 0, 47, 47, .u16, .ro, false, 0, .any⟩, -- lamp.string_value, R388
  ⟨0xD020, .scalar, 0, 0, 0, .u8, .ro, false, 0, .any⟩, -- lamp.intlk_state, R388
  ⟨0xD021, .scalar, 0, 0, 0, .u16, .ro, false, 0, .any⟩, -- lamp.kill_cause, R388
  ⟨0xD024, .scalar, 0, 0, 0, .u16, .rs, true, 100, .nat 10 1000⟩, -- lamp.intlk_discrepancy, R388
  ⟨0xD025, .scalar, 0, 0, 0, .u32, .ro, false, 0, .any⟩, -- lamp.intlk_count, R388
  ⟨0xD030, .array, 0, 7, 7, .u16, .rs, true, 16384, .any⟩, -- lamp.adc_gain, R388
  ⟨0xD031, .array, 0, 7, 7, .s16, .ro, false, 0, .any⟩, -- lamp.adc_offset, R388
  ⟨0xD032, .array, 0, 7, 7, .s16, .ro, false, 0, .any⟩, -- lamp.adc_mean, R388
  ⟨0xD033, .array, 0, 7, 7, .u32, .ro, false, 0, .any⟩, -- lamp.adc_clips, R388
  ⟨0xD034, .array, 0, 7, 7, .u16, .rs, true, 0, .nat 0 1000⟩, -- lamp.adc_delay, R388
  ⟨0xD040, .array, 0, 23, 23, .enum8, .rs, true, 0, .nat 0 3⟩, -- lamp.sense_kind, R388
  ⟨0xD041, .array, 0, 23, 23, .u64, .rs, true, 0, .any⟩, -- lamp.sense_param, R388
  ⟨0xD042, .array, 0, 23, 23, .u8, .rs, true, 0, .nat 0 15⟩, -- lamp.sense_band, R388
  ⟨0xD043, .array, 0, 23, 23, .s32, .ro, false, 0, .any⟩, -- lamp.sense_value, R388
  ⟨0xD044, .array, 0, 23, 23, .enum8, .ro, false, 0, .any⟩, -- lamp.sense_state, R388
  ⟨0xD045, .array, 0, 47, 47, .u8, .rs, true, 255, .natOr 0 23 255⟩] -- lamp.string_sensor, R388

/-- The objects of area 0xE, in number order, as the object tables of its chapters list them. -/
def areaE : List Desc := [
  ⟨0xE001, .array, 0, 1, 1, .enum8, .rs, true, 0, .nat 0 1⟩, -- whel.config, R411
  ⟨0xE002, .array, 0, 1, 1, .u8, .rs, true, 2, .nat 1 8⟩, -- whel.pole_pairs, R411
  ⟨0xE003, .array, 0, 1, 1, .u16, .rs, true, 7200, .nat 0 18000⟩, -- whel.run_speed, R411
  ⟨0xE004, .array, 0, 1, 1, .enum8, .rs, true, 0, .nat 0 2⟩, -- whel.index, R411
  ⟨0xE005, .array, 0, 1, 1, .enum8, .rs, true, 0, .nat 0 1⟩, -- whel.gate_mode, R411
  ⟨0xE006, .array, 0, 1, 1, .enum8, .rs, true, 0, .nat 0 1⟩, -- whel.catch_mode, R411
  ⟨0xE007, .array, 0, 1, 1, .enum8, .rs, true, 1, .nat 0 1⟩, -- whel.stop_mode, R411
  ⟨0xE010, .array, 0, 1, 1, .u32, .rs, true, 40000, .nat 20000 100000⟩, -- whel.pwm_freq, R411
  ⟨0xE011, .array, 0, 1, 1, .u16, .rs, true, 200, .nat 20 2000⟩, -- whel.dead_time, R411
  ⟨0xE012, .array, 0, 1, 1, .u16, .rs, true, 2000, .any⟩, -- whel.current_limit, R411
  ⟨0xE013, .array, 0, 1, 1, .u16, .rs, true, 100, .any⟩, -- whel.isense_scale, R411
  ⟨0xE014, .array, 0, 1, 1, .u16, .rs, true, 1000, .any⟩, -- whel.brake_current, R411
  ⟨0xE015, .array, 0, 1, 1, .u8, .rs, true, 255, .natOr 0 23 255⟩, -- whel.bus_channel, R411
  ⟨0xE016, .array, 0, 1, 1, .u16, .rs, true, 26000, .any⟩, -- whel.bus_max, R411
  ⟨0xE017, .array, 0, 1, 1, .u16, .rs, true, 800, .any⟩, -- whel.align_current, R411
  ⟨0xE018, .array, 0, 1, 1, .u16, .rs, true, 200, .nat 10 5000⟩, -- whel.align_time, R411
  ⟨0xE019, .array, 0, 1, 1, .u16, .rs, true, 500, .any⟩, -- whel.start_accel, R411
  ⟨0xE01A, .array, 0, 1, 1, .u16, .rs, true, 600, .any⟩, -- whel.handover_rpm, R411
  ⟨0xE01B, .array, 0, 1, 1, .u16, .rs, true, 2000, .nat 100 20000⟩, -- whel.accel, R411
  ⟨0xE01C, .array, 0, 1, 1, .u8, .rs, true, 3, .nat 1 10⟩, -- whel.start_tries, R411
  ⟨0xE01D, .array, 0, 1, 1, .u16, .rs, true, 0, .nat 0 300⟩, -- whel.advance, R411
  ⟨0xE01E, .array, 0, 1, 1, .u16, .rs, true, 1000, .any⟩, -- whel.ke, R411
  ⟨0xE01F, .array, 0, 1, 1, .u16, .rs, true, 20, .any⟩, -- whel.bemf_floor, R411
  ⟨0xE020, .array, 0, 1, 1, .u32, .rs, true, 8192, .any⟩, -- whel.speed_kp, R411
  ⟨0xE021, .array, 0, 1, 1, .u32, .rs, true, 512, .any⟩, -- whel.speed_ki, R411
  ⟨0xE022, .array, 0, 1, 1, .u16, .rs, true, 33, .any⟩, -- whel.phase_trim_gain, R411
  ⟨0xE023, .array, 0, 1, 1, .u16, .rs, true, 24, .nat 1 1200⟩, -- whel.relight_frames, R411
  ⟨0xE030, .array, 0, 1, 1, .s16, .ro, false, 0, .any⟩, -- whel.speed, R411
  ⟨0xE031, .array, 0, 1, 1, .s16, .ro, false, 0, .any⟩, -- whel.phase_err, R411
  ⟨0xE032, .array, 0, 1, 1, .s16, .ro, false, 0, .any⟩, -- whel.index_err, R411
  ⟨0xE033, .array, 0, 1, 1, .u16, .ro, false, 0, .any⟩, -- whel.current, R411
  ⟨0xE034, .array, 0, 1, 1, .u32, .ro, false, 0, .any⟩, -- whel.lock_losses, R411
  ⟨0xE035, .array, 0, 1, 1, .u32, .ro, false, 0, .any⟩, -- whel.starts, R411
  ⟨0xE036, .array, 0, 1, 1, .u16, .ro, false, 0, .any⟩] -- whel.fault_cause, R411

/-- The objects of area 0xF, in number order, as the object tables of its chapters list them. -/
def areaF : List Desc := [
  ⟨0xF001, .scalar, 0, 0, 0, .enum8, .rs, true, 0, .nat 0 2⟩, -- uane.topology, R445
  ⟨0xF002, .scalar, 0, 0, 0, .u16, .rw, true, 256, .nat 1 65534⟩, -- uane.node_id, R445
  ⟨0xF003, .array, 0, 3, 3, .u16, .ro, false, 0, .any⟩, -- uane.neighbour, R445
  ⟨0xF004, .array, 0, 3, 3, .u32, .ro, false, 0x43210, .any⟩, -- uane.lane_map, R445
  ⟨0xF005, .array, 0, 3, 3, .blob, .ro, false, 0, .any⟩, -- uane.lane_ser, R445
  ⟨0xF006, .scalar, 0, 0, 0, .u32, .rw, true, 10000, .nat 100 1000000⟩, -- uane.lane_ser_limit, R445
  ⟨0xF007, .array, 0, 3, 3, .enum8, .ro, false, 0, .any⟩, -- uane.spare_state, R445
  ⟨0xF008, .scalar, 0, 0, 0, .u8, .rw, true, 3, .nat 0 15⟩, -- uane.port_boot, R445
  ⟨0xF010, .scalar, 0, 0, 0, .u32, .ro, false, 0, .any⟩, -- uane.topo_version, R445
  ⟨0xF011, .scalar, 0, 0, 0, .u16, .ro, false, 1, .any⟩, -- uane.node_count, R445
  ⟨0xF012, .scalar, 0, 0, 0, .u8, .ro, false, 0, .any⟩, -- uane.path_max, R445
  ⟨0xF013, .scalar, 0, 0, 0, .blob, .ro, false, 0, .any⟩, -- uane.routes, R445
  ⟨0xF020, .scalar, 0, 0, 0, .u8, .rs, true, 128, .nat 0 255⟩, -- uane.time_priority, R445
  ⟨0xF021, .scalar, 0, 0, 0, .enum8, .ro, false, 0, .any⟩, -- uane.time_state, R445
  ⟨0xF022, .scalar, 0, 0, 0, .u16, .ro, false, 0, .any⟩, -- uane.time_master, R445
  ⟨0xF023, .scalar, 0, 0, 0, .u8, .ro, false, 255, .any⟩, -- uane.time_parent, R445
  ⟨0xF024, .scalar, 0, 0, 0, .u8, .ro, false, 0, .any⟩, -- uane.time_depth, R445
  ⟨0xF025, .scalar, 0, 0, 0, .s32, .ro, false, 0, .any⟩, -- uane.time_offset, R445
  ⟨0xF026, .array, 0, 3, 3, .u32, .ro, false, 0, .any⟩, -- uane.link_delay, R445
  ⟨0xF027, .scalar, 0, 0, 0, .u8, .rs, true, 8, .nat 2 64⟩, -- uane.time_interval, R445
  ⟨0xF028, .scalar, 0, 0, 0, .bool, .rs, true, 0, .any⟩, -- uane.pps_enable, R445
  ⟨0xF030, .scalar, 0, 0, 0, .enum8, .rs, true, 0, .nat 0 1⟩, -- uane.ptp_mode, R445
  ⟨0xF031, .scalar, 0, 0, 0, .u8, .rs, true, 0, .nat 0 127⟩, -- uane.ptp_domain, R445
  ⟨0xF032, .scalar, 0, 0, 0, .enum8, .ro, false, 0, .any⟩, -- uane.ptp_state, R445
  ⟨0xF033, .scalar, 0, 0, 0, .u64, .ro, false, 0, .any⟩, -- uane.ptp_gm, R445
  ⟨0xF034, .scalar, 0, 0, 0, .s32, .ro, false, 0, .any⟩, -- uane.ptp_offset, R445
  ⟨0xF040, .array, 0, 15, 15, .u32, .rs, true, 0, .txStream⟩, -- uane.tx_stream, R445
  ⟨0xF041, .array, 0, 15, 15, .u64, .rs, true, 0, .any⟩, -- uane.tx_rect, R445
  ⟨0xF042, .array, 0, 7, 7, .u32, .rs, true, 0, .rxSource⟩, -- uane.rx_source, R445
  ⟨0xF043, .array, 0, 7, 7, .u32, .rs, true, 0, .any⟩, -- uane.rx_size, R445
  ⟨0xF052, .array, 0, 3, 3, .u64, .ro, false, 0, .any⟩, -- uane.drops, R445
  ⟨0xF053, .array, 0, 3, 3, .u32, .ro, false, 0, .any⟩, -- uane.crc_errors, R445
  ⟨0xF054, .array, 0, 7, 7, .u32, .ro, false, 0, .any⟩] -- uane.transit_lost, R445
/-- The object table of an area. -/
def areaTable : Nat → List Desc
  | 0x0 => area0 | 0x1 => area1 | 0x2 => area2 | 0x3 => area3 | 0x4 => area4 | 0x5 => area5 | 0x6 => area6 | 0x7 => area7
  | 0x8 => area8 | 0x9 => area9 | 0xA => areaA | 0xB => areaB | 0xC => areaC | 0xD => areaD | 0xE => areaE | 0xF => areaF
  | _ => []

/-- Unit families of R599: family number and the number of instances. -/
def unitFamilies : List (Nat × Nat) :=
  [(0x4008, 2), (0x6017, 16), (0xA000, 4), (0xC000, 4), (0xC001, 48), (0xD001, 14), (0xE000, 2), (0xF000, 4)]

/-- Wire number of the record view of instance `n` of family `b` (R599). -/
def viewNum (b n : Nat) : Nat := (b &&& 0xF000) ||| 0x800 ||| ((b &&& 0x1F) <<< 6) ||| n

/-- The family and instance a record view number names (R599). -/
def viewOf (w : Nat) : Option (Nat × Nat) :=
  (unitFamilies.find? fun f => decide (viewNum f.1 0 ≤ w) && decide (w < viewNum f.1 0 + f.2)).map
    fun f => (f.1, w - viewNum f.1 0)

/-- Layers take no command through their unit record (R603). -/
def layerFamily : Nat := 0x6017

/-- Field `f` of a unit record (R35). The layer family's `commanded` is read-only (R603). -/
def unitField (fam w f : Nat) : Option Desc :=
  match f with
  | 1 => some ⟨w, .record, 1, 1, 6, .enum8, if fam = layerFamily then .ro else .rw, false, 0, .any⟩
  | 2 => some ⟨w, .record, 2, 2, 6, .enum8, .ro, false, 0, .any⟩
  | 3 => some ⟨w, .record, 3, 3, 6, .bool, .ro, false, 0, .any⟩
  | 4 => some ⟨w, .record, 4, 4, 6, .u32, .ro, false, 0, .any⟩
  | 5 => some ⟨w, .record, 5, 5, 6, .enum8, .ro, false, 0xFF, .any⟩
  | 6 => some ⟨w, .record, 6, 6, 6, .bool, if fam = layerFamily then .ro else .wc, false, 0, .any⟩
  | _ => none

/-- The table row of an object and subindex (R597, R598, R599). Subindex 0x00 of a RECORD has no row of its own (R44). -/
def lookup (obj sub : Nat) : Option Desc :=
  match viewOf obj with
  | some (fam, _) => unitField fam obj sub
  | none => (areaTable (obj / 4096)).find? fun d => d.num = obj && decide (d.lo ≤ sub) && decide (sub ≤ d.hi)

/-- Whether the object exists on the wire (R597, R599). -/
def objExists (obj : Nat) : Bool :=
  (viewOf obj).isSome || (areaTable (obj / 4096)).any fun d => d.num = obj

/-- Kind of an object that exists. -/
def objKind (obj : Nat) : Kind :=
  match viewOf obj with
  | some _ => .record
  | none => (((areaTable (obj / 4096)).find? fun d => d.num = obj).map Desc.kind).getD .scalar

/-- The highest subindex of an object (R44). -/
def objTop (obj : Nat) : Nat :=
  match viewOf obj with
  | some _ => 6
  | none => (((areaTable (obj / 4096)).find? fun d => d.num = obj).map Desc.top).getD 0

/-- The dictionary key of an object and subindex. -/
def okey (obj sub : Nat) : Nat := obj * 256 + sub

/-- Width in bytes of a type on the wire (R8). A BLOB has no fixed width. -/
def Ty.width : Ty → Nat
  | .bool | .u8 | .enum8 => 1
  | .u16 | .s16 | .q15 => 2
  | .u32 | .s32 => 4
  | .w36 => 5
  | .u64 | .time64 => 8
  | .str32 => 32
  | .blob => 0

/-- Type code of DESCRIBE (R600). -/
def Ty.code : Ty → Nat
  | .bool => 1 | .u8 => 2 | .u16 => 3 | .u32 => 4 | .u64 => 5 | .s16 => 6 | .s32 => 7 | .q15 => 8 | .w36 => 9
  | .enum8 => 10 | .time64 => 11 | .str32 => 12 | .blob => 13

/-- Access code of DESCRIBE (R600). -/
def Acc.code : Acc → Nat
  | .ro => 1 | .rw => 2 | .rs => 3 | .wc => 4 | .rp => 5

/-- Kind code of DESCRIBE (R600). -/
def Kind.code : Kind → Nat
  | .scalar => 0 | .record => 1 | .array => 2

/-- Objects whose writes need SERVICE (R605). -/
def serviceOnly (obj : Nat) : Bool :=
  [0x0016, 0x0030, 0x0031, 0x0032, 0x0044, 0x1010, 0x2000, 0x2001, 0x2002, 0x2003, 0x2032, 0x2040, 0x2071, 0x5051, 0x5061,
   0xA009, 0xC002, 0xC004, 0xC00A, 0xC00F, 0xC020, 0xC022, 0xC039, 0xD002, 0xD004, 0xD009, 0xD010, 0xD024, 0xD040, 0xD041,
   0xE001, 0xE002, 0xE004, 0xE005, 0xE011, 0xE012, 0xE013, 0xE01E, 0xF002].contains obj

/-- Role code needed to write an object that some role may write: OPERATE or SERVICE (R70, R605). -/
def writeRole (obj : Nat) : Nat := if serviceOnly obj then 3 else 2

/-- Class II objects (R606). -/
def classTwo : List Nat := [0x8002, 0x8004, 0x8020]

/-- Class III objects (R256). -/
def classThree : List Nat := [0x5001, 0xB001, 0xB030, 0xB031, 0xB032, 0xB050]

/-- Commit class code of an object of access `a` (R256, R606). -/
def commitClass (obj : Nat) (a : Acc) : Nat :=
  if a = .rs then (if classThree.contains obj then 3 else if classTwo.contains obj then 2 else 1) else 0

/-- Whether a value of `w` bytes is in an object's range. `v` is the raw value; BLOB ranges bound the length. -/
def inRange (t : Ty) (r : Rng) (v : Nat) : Bool :=
  match r with
  | .any => true
  | .nat lo hi => decide (lo ≤ v) && decide (v ≤ hi)
  | .natOr lo hi alt => (decide (lo ≤ v) && decide (v ≤ hi)) || decide (v = alt)
  | .int lo hi => let i := toS (8 * t.width) v; decide (lo ≤ i) && decide (i ≤ hi)
  | .one l => l.contains v
  | .blob lo hi => decide (lo ≤ v) && decide (v ≤ hi)
  | .perm => (upTo 16).all fun k => (upTo 16).any fun j => fld v (4 * j + 3) (4 * j) = k
  | .halves lo hi =>
    [fld v 63 32, fld v 31 0].all fun h => decide (lo ≤ h) && decide (h ≤ hi)
  | .dims w h => decide (1 ≤ fld v 31 16) && decide (fld v 31 16 ≤ w) && decide (1 ≤ fld v 15 0) && decide (fld v 15 0 ≤ h)
  | .regAcc lsb lo hi =>
    let a := if lsb = 32 then fld v 47 32 else fld v 39 32
    decide (lo ≤ a) && decide (a ≤ hi)
  | .bandMap => v = 0xFFFF || (decide (fld v 15 8 ≤ 3) && decide (fld v 7 0 ≤ 2))
  | .strChan => v = 0xFF || (fld v 3 2 = 0 && decide (fld v 6 4 ≤ 5))
  | .txStream => decide (fld v 31 24 ≤ 7) || fld v 31 24 = 0xFF
  | .rxSource => decide (fld v 7 0 ≤ 1)
  | .route => fld v 62 56 = 0 && fld v 23 0 = 0
  | .counterSrc =>
    let k := fld v 63 56
    let n := fld v 55 48
    fld v 23 0 = 0 && decide (k ≤ 6) &&
      (if k = 1 then true
       else if k = 2 || k = 3 then decide (n ≤ 37)
       else if k = 4 then decide (1 ≤ n) && decide (n ≤ 25)
       else if k = 6 then decide (n ≤ 15) else n = 0)
  | .spareCmd => fld v 30 20 = 0 && fld v 15 14 = 0
  | .gpioFn => decide (v ≤ 5)
  | .trace => decide (fld v 63 56 ≤ 3) && decide (fld v 55 48 ≤ 47) && decide (fld v 47 40 ≤ 0x0D) && decide (fld v 39 32 ≤ 2) &&
      decide (fld v 15 0 ≤ 16383)

/-- Whether a raw value is in the range of the object's table row; GPIO functions 4 and 5 are for GPIO0 and GPIO1 (R492). -/
def Desc.accepts (d : Desc) (sub v : Nat) : Bool :=
  inRange d.ty d.rng v && (d.rng != .gpioFn || decide (v < 4) || decide (sub < 2))

end Sys2Proof.Machine
end

