-- ==== Sys2Proof/Config.lean ====
section
/-! DEFINITION. What one part fixes at manufacture, and the free values: constants without a body, so that no proof can lean
on a value the manual leaves open. -/

namespace Sys2Proof.Config

/-- Free values: the `n`-th value drawn by the model where the manual leaves a value open. -/
opaque free (n : Nat) : Nat

/-- 8 random bytes from the part's generator, for SESSION_OPEN (R72), by draw number. -/
opaque nonce (n : Nat) : Word

/-- 0x0001, true for ETN-8W (R2). It and the other data of manufacture are fixed for each part (log entry 18, DESIGN CHOICE, safe). -/
opaque wideTemperature : Bool

/-- 0x0002, the serial number (R601). -/
opaque serial : Bytes

/-- 0x2004, the Ethernet MAC address (R85). -/
opaque macAddr : Nat

/-- 0x4009, the OUI of the currency SDP (R112). -/
opaque sdpOui : Nat

/-- 0x5046, post-package repairs left on a channel when the part is new (R133). -/
opaque pprNew (channel : Nat) : Nat

/-- Units of 256 B that MGMT allocates for Uane transit, for tables and for firmware, by owner code of 0x5020 (R115, R119). -/
opaque serviceUnits (owner : Nat) : Nat

/-- 0x1010, the factory band table: VCO band of a target at a temperature step (R546). -/
opaque bandFactory (target step : Nat) : Nat

/-- 0x0019, the factory RC trim table (R504). -/
opaque rcTrimFactory (entry : Nat) : Nat

/-- Frames, less one, over which the light ramps down before STANDBY (R31). -/
opaque standbyRamp : Nat

/-- The fixed launch and receive latencies of an array port, in 0.1 ns (R301). -/
opaque alinkLaunch (port : Nat) : Nat
opaque alinkReceive (port : Nat) : Nat

/-- How far ahead of their ticks an array port launches words, in ns over the 1 µs that R289 asks for, by the port's next free word. -/
opaque alinkLead (port word : Nat) : Nat

end Sys2Proof.Config
end

