-- ==== Sys2Proof/Machine/State.lean ====
section
/-! DEFINITION. The state of the block: one structure per subsystem, the object dictionary's running values, the
queue of waiting commands, and the state right after reset. -/

namespace Sys2Proof.Machine

/-- Why the block stops. The spec has no error that stops the block: every fault it describes is taken by raising an event, setting a
status or moving to another state, and the block goes on. No command raises a fault, so the type has no constructor, which is
safe: no outcome of the model is a stop that the block does not have. -/
inductive Fault
  deriving DecidableEq, Repr

/-- Why a command has no meaning. -/
inductive Refusal where
  /-- Raised only by the arms of the dispatcher for a command without a meaning yet. Safe: nothing follows from it. -/
  | notModelled (mnemonic : String)
  deriving DecidableEq, Repr

/-- A value of the object dictionary: a number's raw bits, or the bytes of a BLOB or text (R8). -/
inductive Val where
  | num (w : Word)
  | bytes (b : Bytes)
  deriving DecidableEq, Repr

/-- An event record (R10). -/
structure EvRec where
  seq : Nat
  time : Nat
  code : Nat
  inst : Nat
  data : Nat
  deriving DecidableEq, Repr

/-- Device states (R30). -/
inductive DevState where
  | mews | boot | standby | warming | serving | degraded | safe
  deriving DecidableEq, Repr

/-- The code of a device state (R30). -/
def DevState.code : DevState → Nat
  | .mews => 0 | .boot => 1 | .standby => 2 | .warming => 3 | .serving => 4 | .degraded => 5 | .safe => 6

/-- Dictionary values: running values that differ from their default, staged values, and who owns the shadow
(R47, R59, R60). -/
structure Dict where
  vals : List (Nat × Val) := []
  shadow : List (Nat × Val) := []
  owner : Nat := 0
  isSealed : Bool := false
  /-- Status of the last write to each WC object, by object key (R9). -/
  cmdStatus : List (Nat × Nat) := []
  deriving DecidableEq, Repr

/-- A unit state record (R35): commanded, observed, disagree and since when, the held command (0xFF none), whether it was
forced, the later of the last command and the last observed change, and whether event 0x20 was raised. -/
structure UnitRec where
  cmd : Nat := 0
  obs : Nat := 0
  dis : Bool := false
  disSince : Nat := 0
  held : Nat := 0xFF
  forced : Bool := false
  chg : Nat := 0
  evt : Bool := false
  deriving DecidableEq, Repr

/-- Pins that the model drives. -/
inductive Pin where
  | kill (n : Nat) | irqN | gpio (n : Nat) | mewsPwren | timePps | fsyncOut | hpd (port : Nat) | irqHpd (port : Nat)
  | gate (wheel : Nat)
  deriving DecidableEq, Repr

/-- A push record waiting in a session's queue, with the local time it was queued (R68). -/
structure PushItem where
  rcd : EvRec
  at_ : Nat
  deriving DecidableEq, Repr

/-- A Gysol session (R61–R76). `executed` lists the extended numbers executed in the replay window, `cache` their request
CRC and response. `newKey` is the key of a resume that has had no valid request yet (R75). -/
structure Session where
  id : Nat
  /-- Its slot of 0x2014. -/
  slot : Nat := 0
  role : Nat
  key : Bytes
  newKey : Option Bytes := none
  isPending : Bool := true
  openedAt : Nat := 0
  resumedAt : Nat := 0
  lastValid : Nat := 0
  last : Nat := 0
  /-- The extended numbers executed, from L − 63 up; with L below 63 they can be negative (R62). -/
  executed : List Int := []
  cache : List (Int × Nat × Bytes) := []
  mask : Nat := 0
  pushes : List PushItem := []
  pushSeq : Nat := 0
  transport : Transport := .udp
  addr : Nat := 0
  /-- Its latest valid request reached the unison view (R626). -/
  view : Bool := false
  deriving DecidableEq, Repr

/-- A relay session of the unison view on a member (R626): the host's session, the member's die, the role, 0 opening, 1 open or 2
absent, the member's session with its key, the nonce sent, the last number used and the last push taken. -/
structure Relay where
  sid : Nat
  die : Nat
  role : Nat
  st : Nat := 0
  id : Nat := 0
  key : Bytes := []
  nonce : Bytes := []
  seq : Nat := 0
  pushSeq : Nat := 0
  deriving DecidableEq, Repr

/-- A request of the unison view that waits for members (R627): the host's session and extended number (without a session 0 and the
number it is relayed under), where it came from, the frame, what is relayed, the answer of die 0, the members waited for with the
number sent (0: not sent), and the answers: the die that sent it, its frame status and its payload. -/
structure RelayJob where
  sid : Nat
  ext : Int
  tr : Transport
  addr : Nat
  frame : Bytes
  nops : Nat
  body : Bytes
  own : Bytes
  waits : List (Nat × Nat)
  got : List (Nat × Nat × Bytes) := []
  deriving DecidableEq, Repr

/-- A frame waiting in the request queue (R58). -/
structure QFrame where
  tr : Transport
  addr : Nat
  bytes : Bytes
  deriving DecidableEq, Repr

/-- An open BLOB stream: object key, session, bytes so far, local time of the last chunk (R54). -/
structure BlobStream where
  key : Nat
  sid : Nat
  data : Bytes
  lastAt : Nat
  deriving DecidableEq, Repr

/-- One copy of the flash profile (R47, R609). -/
inductive ProfCopy where
  | blank
  | failed
  | valid (saveCount fwVersion : Nat) (entries : List (Nat × Val))
  deriving DecidableEq, Repr

/-- A running profile command: a save with the entries taken as it started, or an erase (R48, R608). -/
inductive ProfJob where
  | save (entries : List (Nat × Val))
  | erase
  deriving DecidableEq, Repr

/-- MGMT: sessions, the request queue, the flash profile, and the SPI host port (R44–R86, R609–R612). -/
structure Gysol where
  sessions : List Session := []
  queue : List QFrame := []
  rxDropped : Nat := 0
  authFail : Nat := 0
  rxMalformed : Nat := 0
  /-- Local time of the last event 0x22. -/
  authEvent : Option Nat := none
  streams : List BlobStream := []
  roleKeys : List Bytes := List.replicate 3 (List.replicate 32 0)
  copyA : ProfCopy := .blank
  copyB : ProfCopy := .blank
  /-- 0x2031: 0 IDLE, 1 BUSY, 2 SAVED, 3 FAILED. -/
  profStatus : Nat := 0
  /-- What runs while BUSY: none, a save with the entries taken at its start, or an erase. -/
  profJob : Option ProfJob := none
  /-- The command waiting for the running one to end: true a save, false an erase (R612). -/
  profWaiting : Option Bool := none
  profSkipped : Nat := 0
  /-- Frames ready for the SPI host: responses, then pushes (R78). -/
  spiResp : List Bytes := []
  spiPush : List Bytes := []
  spiError : Bool := false
  /-- The Ethernet settings loaded at reset, which apply until the next (R85): address, mask, gateway, port. -/
  netIp : Nat := 0xC0A80064
  netMask : Nat := 0xFFFFFF00
  netGateway : Nat := 0
  netPort : Nat := 45504
  /-- The JTAG mailbox (R620, R621): its code mask, pushes, push number, responses and pushes ready to be captured, the words of
  a request shifted in so far, and the words of the frame being captured. -/
  mbMask : Nat := 0
  mbPushes : List PushItem := []
  mbPushSeq : Nat := 0
  mbResp : List Bytes := []
  mbPush : List Bytes := []
  mbIn : Bytes := []
  mbOut : Bytes := []
  /-- An image streamed through the boot ROM or the firmware, waiting for its check: slot (R558, R623). -/
  imgStream : Option Nat := none
  relays : List Relay := []
  jobs : List RelayJob := []
  deriving DecidableEq, Repr

/-- A complete version of a layer (R95, R97). `map` is the line-valid map, line y in bit y; `rows` is the buffer height,
`width` its width; `hb` and `hbDigest` the heartbeat count and value (R174, R175). -/
structure Version where
  num : Nat
  capture : Nat
  /-- Local time of its completion or publish (R98, R158, R169). -/
  done : Nat
  buf : Nat
  epoch : Nat
  colr : Nat := 0
  width : Nat := 0
  rows : Nat := 0
  map : Nat := 0
  digests : List Nat := []
  hb : Nat := 0
  hbDigest : Nat := 0
  deriving DecidableEq, Repr

/-- A version being written (R97, R111). `got` holds the buffer lines that arrived, `acc` those HBMC accepted, `skipped`
those a STATIC layer did not write. -/
structure Writing where
  num : Nat
  capture : Nat
  buf : Nat
  colr : Nat := 0
  width : Nat := 0
  rows : Nat := 0
  got : Nat := 0
  acc : Nat := 0
  skipped : Nat := 0
  digests : List Nat := []
  /-- Lines skipped so far are to be copied (R111). -/
  copying : Bool := false
  ended : Bool := false
  deriving DecidableEq, Repr

/-- One video layer of INGS (R92–R111). Versions are listed newest first. -/
structure VLayer where
  versions : List Version := []
  writing : Option Writing := none
  /-- A version whose frame has ended and whose last words or copied lines HBMC has still to accept, while the next frame is written
  (R97, R111). -/
  finishing : Option Writing := none
  /-- The buffer taken for the next frame, none when none could be taken (R97). -/
  nextBuf : Option Nat := some 0
  /-- No buffer could be taken at the completion, and one frame has been dropped for it (R97). -/
  retry : Bool := false
  isStatic : Bool := false
  matchRun : Nat := 0
  /-- Newest number published on the layer, 0 when none. -/
  published : Nat := 0
  short : Nat := 0
  long : Nat := 0
  drops : Nat := 0
  deriving DecidableEq, Repr

/-- The valid fields of a currency SDP (R103). -/
structure Sdp where
  time : Option Nat
  frame : Option Nat
  deriving DecidableEq, Repr

/-- What the DPCD link-status fields of a sink report: nothing since HPD rose, a trained link, a loss of it, or a training that failed
(R87, R91). -/
inductive DpcdLink where
  | idle | trained | lost | failed
  deriving DecidableEq, Repr

/-- One DisplayPort sink (R87–R91, R104–R107). Its status is its unit record's observed state. -/
structure DpPort where
  dpcd : DpcdLink := .idle
  rate : Nat := 0
  lanes : Nat := 0
  fmt : Option DpFormat := none
  hpd : Bool := false
  hpdBackAt : Option Nat := none
  advRate : Nat := 6
  advLanes : Nat := 4
  lostAt : Option Nat := none
  /-- Format accepted under R88. -/
  good : Bool := false
  active : Bool := false
  lines : Nat := 0
  arrival : Nat := 0
  dropRest : Bool := false
  /-- In 4:2:0, the chroma line of the last pair of lines, and a second line of a pair that waits for the chroma line below it (R93). -/
  chroma : List Nat × List Nat := ([], [])
  held : Option (Nat × LineSamples) := none
  sdp : Option Sdp := none
  sdpErrors : Nat := 0
  deriving DecidableEq, Repr

/-- INGS (R87–R113). -/
structure Ings where
  ports : List DpPort := List.replicate 2 {}
  layers : List VLayer := List.replicate 8 {}
  deriving DecidableEq, Repr

/-- A channel of the frame memory (R127–R136). `st` is 0x5010. Event times limit 0x48 and 0x4B to one per ms. -/
structure HChan where
  st : Nat := 0
  ce : Nat := 0
  ue : Nat := 0
  replays : Nat := 0
  /-- Alerts in a row on a replay itself (R130). -/
  recur : Nat := 0
  repair : Nat := 0xFFFFFFFFFF
  pprUsed : Nat := 0
  timeouts : List Nat := []
  parityEvent : Option Nat := none
  ueEvent : Option Nat := none
  /-- The retry buffer: the last 64 commands as word address over 32 and whether it wrote, and those of them still to be replayed
  (R129). -/
  retry : List (Nat × Bool) := []
  replay : List (Nat × Bool) := []
  /-- What training set, as tracking has moved it since, with the oscillator count of the training (R134–R136). -/
  fit : LaneFit := {}
  /-- Local time of the last drift tracking. -/
  driftAt : Nat := 0
  /-- The compare engine: errors per data lane, and the first failing address per pseudo-channel (R136). -/
  errors : List Nat := List.replicate 64 0
  firstFail : List (Option Nat) := [none, none]
  deriving DecidableEq, Repr

/-- A row of the frame memory: pseudo-channel, bank group, bank within it, row (R117). -/
structure HRow where
  p : Nat
  group : Nat
  bank : Nat
  row : Nat
  deriving DecidableEq, Repr

/-- A row tracker entry (R127), and whether its row's count has reached the threshold. -/
structure TrackRow where
  at_ : HRow
  count : Nat
  last : Nat
  hit : Bool := false
  deriving DecidableEq, Repr

/-- A row shadow (R132): its row, whether the copy still runs, the 32 words of its SRAM, and a bit per word that is uncorrectable. -/
structure Shadow where
  at_ : HRow
  copying : Bool
  words : Vector MemWord 32 := Vector.replicate 32 0
  poison : Nat := 0
  deriving DecidableEq, Repr

/-- A word of a request on its way through a port (R120–R126): its address over 32, whether it writes and what, the local time at
which its request entered the FIFO, how often it has been passed, and whether it has been read and waits for older reads. -/
structure HWord where
  word : Nat
  write : Bool
  data : Option MemWord := none
  at_ : Nat
  passed : Nat := 0
  served : Bool := false
  deriving DecidableEq, Repr

/-- A port of the frame memory (R122–R126). `level` counts the words read and not yet taken, for a port that only writes the words
accepted and not yet written; for RT7, `levelW` counts the latter. `credit` is in 1/1000 byte. -/
structure HPort where
  level : Nat := 0
  levelW : Nat := 0
  panic : Bool := false
  panicW : Bool := false
  panics : Nat := 0
  bytes : Nat := 0
  timeouts : Nat := 0
  queue : List HWord := []
  credit : Int := 0
  deriving DecidableEq, Repr

/-- A region of 0x5020: owner, base and size in units of 256 B (R119), and the words of one of its buffers. -/
structure HRegion where
  owner : Nat
  base : Nat
  size : Nat
  per : Nat
  deriving DecidableEq, Repr

/-- HBMC and the contents of the stacks (R114–R140). `words` holds the words of layer buffers by owner, buffer and index, `raw` every
other word by its address over 32, as the stacks hold them; a shadowed row's words stand in its shadow. Words not listed are zero. -/
structure Hbm where
  status : Nat := 0
  /-- A die reset took the stacks out of self-refresh, and event 0x52 has not said so yet (R138). -/
  leftRefresh : Bool := false
  /-- The grain in force, as log2 bytes (R118). -/
  grain : Nat := 12
  chans : List HChan := List.replicate 32 {}
  trackers : List (List TrackRow) := [[], []]
  shadows : List (Option Shadow) := List.replicate 32 none
  ports : List HPort := List.replicate 9 {}
  /-- Local time up to which the ports' credits have grown. -/
  creditAt : Nat := 0
  /-- Which of RT0 to RT3 is first in the rotation of ports in panic (R125). -/
  rotate : Nat := 0
  /-- The open row of each bank, where one is open. -/
  openRows : List HRow := []
  temps : List Int := [0, 0]
  hot : List Bool := [false, false]
  /-- Postponed refreshes per pseudo-channel (R137). -/
  postponed : List Nat := List.replicate 64 0
  regions : List HRegion := []
  words : List (Nat × MemWord) := []
  raw : List (Nat × MemWord) := []
  /-- Uncorrectable words, by address over 32, until a client writes them (R128). -/
  poisoned : List Nat := []
  /-- Layer buffer words, by key, whose read for the frame being composed completed with an error (R126). -/
  badReads : List Nat := []
  /-- An access of BE ended with an error that its operation has not reported yet (R126). -/
  beFailed : Bool := false
  /-- The word that the scrub reads next, by address over 32, and the local time at which the one before it was due (R128). -/
  scrubNext : Nat := 0
  scrubAt : Nat := 0
  /-- Training running: 0 none, 1 full, 2 quick. -/
  training : Nat := 0
  /-- A quick training failed and the full one follows (R135). -/
  retrying : Bool := false
  /-- The training runs once again after its lease was revoked (R530). -/
  again : Bool := false
  deriving DecidableEq, Repr

/-- A graphics build (R155, R156): number and buffer taken at its start, the lines received, and the pixels of a trailing
part-filled word, held in SRAM. -/
structure GBuild where
  num : Nat
  buf : Nat
  got : Nat := 0
  tail : List Nat := []
  deriving DecidableEq, Repr

/-- One graphics layer of PLAZ (R154–R158). Versions are listed newest first. -/
structure GLayer where
  versions : List Version := []
  build : Option GBuild := none
  /-- 0x6035. -/
  nextLine : Nat := 0
  deriving DecidableEq, Repr

/-- One image group of PLAZ (R164, R165). `quietRun` counts frames quiet in a row. -/
structure PGroup where
  quiet : Bool := false
  quietRun : Nat := 0
  deriving DecidableEq, Repr

/-- A signature of PLAZ (R163): 0x6022 and 0x6023. -/
structure PSig where
  value : Nat := 0
  frame : Nat := 0
  deriving DecidableEq, Repr

/-- PLAZ (R141–R167). -/
structure Plaz where
  gfx : List GLayer := List.replicate 8 {}
  groups : List PGroup := List.replicate 4 {}
  sigs : List PSig := List.replicate 32 {}
  /-- Per video layer, the versions that event 0x64 has reported (R145). -/
  mismatch : List (List Nat) := List.replicate 8 []
  deriving DecidableEq, Repr

/-- CURG's decision on one layer for one frame (R170, R171): whether the layer is composed at all, state code of 0x7110, version,
cause of 0x70 (0 none), capture time, age in ns and whether it is over the maximum, and whether the version is frozen. -/
structure CDec where
  on : Bool := false
  tooOld : Bool := false
  st : Nat := 0
  ver : Nat := 0
  cause : Nat := 0
  cap : Nat := 0
  age : Int := 0
  frozen : Bool := false
  shed : Bool := false
  deriving DecidableEq, Repr

/-- One layer of CURG: the decision for the frame being composed and for the frame on the mirrors, the runs of invalid
output lines of each (first line, last line) with the lines hatched for them, and its half of the vote. -/
structure CLayer where
  comp : CDec := {}
  mir : CDec := {}
  runs : List (Nat × Nat) := []
  mirRuns : List (Nat × Nat) := []
  whole : Bool := false
  mirWhole : Bool := false
  lines : Nat := 0
  mirLines : Nat := 0
  /-- Version whose invalid lines were last reported by event 0x74. -/
  reported74 : Nat := 0
  /-- Versions listed in a report since the last agreement that fixed a newer one (R192). -/
  listed : List Nat := []
  /-- 0x7130. -/
  agreed : Nat := 0
  voteFail : Nat := 0
  /-- The window number of the decision before (R187). -/
  window : Nat := 0
  deriving DecidableEq, Repr

/-- An agreement received (R189, R190). -/
structure Agreement where
  window : Nat
  frame : Nat
  coord : Nat
  flags : Nat
  version : Nat
  capture : Nat
  conflict : Bool := false
  deriving DecidableEq, Repr

/-- A signature region of CURG (R183–R186). -/
structure CSig where
  st : Nat := 0
  hatched : Bool := false
  mismatches : Nat := 0
  /-- The frame for which the region's signature was last compared. -/
  seen : Option Nat := none
  deriving DecidableEq, Repr

/-- CURG (R168–R194). -/
structure Curg where
  layers : List CLayer := List.replicate 16 {}
  agreements : List Agreement := []
  sigs : List CSig := List.replicate 32 {}
  /-- Bit 7 of the degraded mask (R191). -/
  voteLate : Bool := false
  /-- Window table differs from the holder's (R458). -/
  tableDiffers : Bool := false
  deriving DecidableEq, Repr

/-- One image group of COLR (R199–R205, R210). Matrices are row-major: N with 16 fraction bits, M with 13. -/
structure CGroup where
  /-- The last N accepted, none since the die reset before the first. -/
  n : Option (List Int) := none

  /-- The delivery waiting for its boundary: frame tag, N, wall time of its arrival. -/
  deliv : Option (Nat × List Int × Nat) := none
  /-- M of the frame being composed, the frame it was first used for, and whether it changed there. -/
  m : List Int := [8192, 0, 0, 0, 8192, 0, 0, 0, 8192]
  mFrame : Nat := 0
  mChanged : Bool := false
  /-- M of the frame on the mirrors, and the frame at which it was first used. -/
  mirM : List Int := [8192, 0, 0, 0, 8192, 0, 0, 0, 8192]
  mirFrame : Nat := 0
  /-- Whether an N had been accepted for the frame on the mirrors: without one it is not lit (R200). -/
  mirN : Bool := false
  lateRun : Nat := 0
  lateCount : Nat := 0
  /-- 0x8030. -/
  clip : Nat := 0
  overGamut : Bool := false
  deriving DecidableEq, Repr

/-- What the instants of a schedule depend on: L', t_blk, s, t_c (R220–R223). -/
structure Timing where
  lp : Nat
  tblk : Nat
  settle : Nat
  tc : Nat
  deriving DecidableEq, Repr

/-- A schedule of a group for a frame (R232): Q, the timing and P_min it was made for, the flags SAFE, REUSED and THROTTLED, d, the
cause of R236 for which the safe schedule stands in place of a compiled one (0: none), and the epochs. -/
structure Sched where
  frame : Nat
  q : Nat
  timing : Timing
  pmin : Nat
  flags : Nat
  d : Nat
  cause : Nat := 0
  epochs : List SchedEpoch
  deriving DecidableEq, Repr

/-- What a commit fixes for a group (R226): Q, L', n, E_min, E_allow, η in 0.0001, t_blk, s, t_c and the safe schedule. -/
structure Plan where
  q : Nat
  lp : Nat
  n : Nat
  emin : Nat
  eallow : Nat
  duty : Nat
  tblk : Nat
  settle : Nat
  tc : Nat
  safe : List SchedEpoch
  deriving DecidableEq, Repr

/-- One image group of PLGN (R226–R237). `d` is the number of dropped codes. -/
structure PlGroup where
  plan : Option Plan := none
  sched : Option Sched := none
  next : Option Sched := none
  /-- The schedule delivered last and the inputs it was delivered for (R229, R233). -/
  delivered : Option Sched := none
  prevInputs : List Nat := []
  /-- The inputs of the compile that runs: the settings, then the histograms (R229). -/
  settings : List Nat := []
  hists : List Nat := []
  d : Nat := 0
  fallbackRun : Nat := 0
  fallbacks : Nat := 0
  compileUs : Nat := 0
  /-- Slots of the frame on the mirrors with a block missing, each with the array port (R15, R228, R291). -/
  darkSlots : List (Nat × Nat) := []
  /-- The slot strobed last in the frame, as its index in the schedule. -/
  slotNow : Nat := 0
  deriving DecidableEq, Repr

/-- The plane store of an array port (R216, R217): rows of each plane as bit masks, by plane index, of the set on the mirrors and of
the other set; H and T; and the blocks missing in this frame and the next, as plane index and block. -/
structure PlArray where
  planes : List (List Nat) := []
  other : List (List Nat) := []
  hist : List Nat := List.replicate 72 0
  missing : List (Nat × Nat) := []
  missingNext : List (Nat × Nat) := []
  /-- The plane each block has loaded, and the plane each block shows; none: off. -/
  armed : List (Option Nat) := List.replicate 16 none
  shown : List (Option Nat) := List.replicate 16 none
  /-- Which of the two plane sets of the store is on the mirrors (R216). Which one comes first is a choice (log entry 105, DESIGN CHOICE, unsafe). -/
  set1 : Bool := false
  deriving DecidableEq, Repr

/-- PLGN (R213–R241). `engines` holds the plane engine of each array port (R514). -/
structure Plgn where
  groups : List PlGroup := List.replicate 4 {}
  arrays : List PlArray := List.replicate 4 {}
  engines : List Nat := [0, 1, 2, 3]
  /-- The frame for which event 0x93 was raised last (R237). -/
  lateFor : Option Nat := none
  deriving DecidableEq, Repr

/-- A re-phase that runs (R246): its cause, the wall time at which the cause was detected, the frame F' that ends it, and the
status to return to. -/
structure Rephase where
  cause : Nat
  at_ : Nat
  target : Nat
  after_ : Nat
  /-- Composition of F' starts at a boundary still to come. Where B(F'−1) has passed already, as after a step of wall time backwards,
  it starts as that instant comes again. -/
  started : Bool
  deriving DecidableEq, Repr

/-- A class II object in staging (R261): object key, bytes to stage, bytes copied, whether the verify passed. -/
structure StageJob where
  key : Nat
  total : Nat
  copied : Nat := 0
  verified : Bool := false
  deriving DecidableEq, Repr

/-- A managed transition (R262): affected arrays and its boundary C. -/
structure Transition where
  mask : Nat
  frame : Nat
  deriving DecidableEq, Repr

/-- One wheel as SEQR sees it (R267, R268). -/
structure SWheel where
  err : Int := 0
  inPhase : Bool := false
  good : Nat := 0
  bad : Nat := 0
  deriving DecidableEq, Repr

/-- SEQR (R242–R272). -/
structure Seqr where
  /-- 0xB000: 0 IDLE, 1 FREE, 2 WALL, 3 FSYNC_SLAVE, 4 REPHASING. -/
  status : Nat := 0
  t0 : Nat := 0
  f0 : Nat := 0
  /-- 0xB020. -/
  count : Nat := 0
  /-- Count and time of the last flip, latched together. -/
  flipCount : Nat := 0
  flipTime : Nat := 0
  flipErr : Int := 0
  rephases : Nat := 0
  rephase : Option Rephase := none
  /-- Commit state of R258: state, class, reason, object, frame C, and whether C is fixed. -/
  cState : Nat := 0
  cClass : Nat := 0
  cReason : Nat := 0
  cObject : Nat := 0
  cFrame : Nat := 0
  /-- The commit is one of a wall: boundary given from outside. -/
  cWall : Bool := false
  /-- Local time at which the seal was written. -/
  cSince : Nat := 0
  /-- The commit runs the managed transition of R262, and its affected arrays. -/
  cManaged : Bool := false
  cMask : Nat := 0
  commitFrame : Nat := 0
  staging : List StageJob := []
  /-- Event 0xBB was raised for the present staging. -/
  stageReady : Bool := true
  trans : Option Transition := none
  /-- Arrays that have not come back after a transition, bit per port (R262). -/
  absent : Nat := 0
  latency : List Nat := List.replicate 4 0
  wheels : List SWheel := List.replicate 2 {}
  /-- 0xB052. -/
  fsync : Nat := 0
  fsyncErr : Int := 0
  fsyncGood : Nat := 0
  fsyncMiss : Nat := 0
  /-- Wall time of the last FSYNC edge, 0 before the first, that of the last one that kept the rate (the entry to SLAVE before it),
  and the measured period in ns, 0 before the first. -/
  fsyncEdge : Nat := 0
  fsyncRef : Nat := 0
  fsyncPeriod : Nat := 0
  /-- No edge has been taken since the entry to SLAVE or since LOST. -/
  fsyncFirst : Bool := false
  /-- ns of phase correction left in the present frame period (R245, R434). -/
  slewLeft : Nat := 40
  deriving DecidableEq, Repr

/-- A spare-lane swap of an array port (R303, R304): logical lane, physical lane brought in, cause of event 0xA1, the local
time of DUP, the codeword count N once commanded, and whether codeword N has passed. -/
structure ASwap where
  logical : Nat
  phys : Nat
  cause : Nat
  since : Nat
  n : Option Nat := none
  moved : Bool := false
  deriving DecidableEq, Repr

/-- An array port of ARCD (R274–R309). Its state is its unit record's observed state. -/
structure APort where
  id : Nat := 0
  gmax : Nat := 0
  settle : Nat := 0
  delay : Nat := 0
  parkTime : Nat := 0
  driveTime : Nat := 0
  temp : Int := 0
  flags : Nat := 0
  /-- Physical lane of logical lanes 0 to 7, then of the spare. -/
  laneMap : List Nat := [0, 1, 2, 3, 4, 5, 6, 7, 8]
  /-- LANE reports of the last second: physical lane, local time, corrected symbols, codewords. -/
  grades : List (Nat × Nat × Nat × Nat) := []
  /-- Physical lanes found worn. -/
  worn : List Nat := []
  locks : Nat := 0
  spare : Nat := 0
  swap : Option ASwap := none
  /-- A swap asked for, waiting for its start: logical lane and cause. -/
  swapAsked : Option (Nat × Nat) := none
  loaded : Nat := 0
  rejects : Nat := 0
  ackTimeouts : Nat := 0
  retErrors : Nat := 0
  underruns : Nat := 0
  blanks : Nat := 0
  ackEvent : Option Nat := none
  /-- Local time of the last return message, none before the first of a training. -/
  lastReturn : Option Nat := none
  seqNext : Nat := 0
  /-- Sequences launched and not yet covered by an ACK: sequence, local time, whether a block transfer. -/
  waiting : List (Nat × Nat × Bool) := []
  keepCount : Nat := 0
  keepAt : Nat := 0
  regData : Nat := 0
  /-- Status of the last REG_DATA, or 2 where its lease was revoked (R293, R530). -/
  regStatus : Nat := 0
  regAddr : Nat := 0
  /-- Word index at wall time 0 (R279), and the first index after the words launched so far. -/
  wordBase : Nat := 0
  lineFree : Nat := 0
  /-- The mode of each physical lane, 0 DATA, 1 TRAIN, 2 DUP, and the lane field of its overhead (R276). -/
  lanes : List (Nat × Nat) := [(1, 0), (1, 1), (1, 2), (1, 3), (1, 4), (1, 5), (1, 6), (1, 7), (1, 8)]
  trainSince : Nat := 0
  /-- The running training is that of the entry to WARMING, which keeps the registers read at BOOT (R554). -/
  short : Bool := false
  /-- Local time at which training last ended READY. -/
  readyAt : Nat := 0
  /-- The cause that parked the array (R299). -/
  parkCause : Nat := 0
  /-- Light of the array's group held off until its next global reset (R296). -/
  hold : Bool := false
  deriving DecidableEq, Repr

/-- ARCD and the Arcade (R274–R309). -/
structure Arcd where
  ports : List APort := List.replicate 4 {}
  /-- 0xA030. -/
  banks : Nat := 0x01FF
  deriving DecidableEq, Repr
/-- A string of LOOP (R320, R338, R516). `u` and `u1` are the Q15 set-points of the last tick and of the tick before. -/
structure LString where
  i : Int := 0
  d : Int := 0
  u : Nat := 0
  u1 : Nat := 0
  wind : Bool := false
  /-- 0xC021: η0_s. -/
  eta0 : Nat := 0
  /-- η_s(T) of the frame on the mirrors. -/
  etaT : Nat := 0
  /-- Σ c_s(i) × yn(i) of the pilot run so far, and the dither of the last two ticks. -/
  pilSum : Int := 0
  dith : Int := 0
  dith1 : Int := 0
  /-- Factor of a ramp in 1/256, 256 outside one, and whether a SPARE string is controlling in a ramp (R516). -/
  factor : Nat := 256
  inRamp : Bool := false
  deriving DecidableEq, Repr

/-- A band of LOOP (R310–R344). Its state is its unit record's observed state. -/
structure LBand where
  yp : Int := 0
  /-- Whether the next valid tick is the first after an invalid one. -/
  fresh : Bool := true
  /-- 0xC026, and the cal_b of the frame on the mirrors. -/
  cal : Nat := 16384
  calF : Nat := 16384
  /-- r_b, c_ff and 256 × H_b of the frame on the mirrors. -/
  r : Nat := 0
  cff : Nat := 0
  h256 : Nat := 0
  hi : Nat := 32767
  lo : Nat := 0
  /-- Values of the latest estimate: temperature, x and y. -/
  temp : Int := 0
  x : Nat := 0
  y : Nat := 0
  /-- S_k of the frame on the mirrors (R328). -/
  share : Rat := 0
  tempLost : Bool := false
  /-- Repetitive memory: entries by window index; 0 where not listed. -/
  rep : List (Nat × Int) := []
  /-- ff, rep term, eg, yn, m_b and raw y of the last tick; whether its window was valid. -/
  ff : Int := 0
  rp : Int := 0
  e : Int := 0
  eg : Int := 0
  yn : Int := 0
  m : Int := 0
  yRaw : Int := 0
  valid : Bool := false
  plaus : Nat := 0
  impl : Nat := 0
  miss : Nat := 0
  /-- The last 256 raw readings with what the model predicts for them, oldest first (R341). -/
  readings : List (Int × Int) := []
  /-- 0xC053, 0xC052 and 0xC054. -/
  sat : Nat := 0
  fault : Nat := 0
  cap : Nat := 0
  /-- Mean u of the last 64 CLOSED windows, oldest first. -/
  means : List Nat := []
  /-- Readings g of this frame's passing Pips in 1/16384, its Pips and the passing ones, the D of the Pips that are no probe,
  and D and set-point of the probe Pip. -/
  gs : List Nat := []
  pips : Nat := 0
  passed : Nat := 0
  ds : List Int := []
  probeD : Option (Int × Nat × Nat) := none
  /-- Position in the band of the string that the next probe takes. -/
  probe : Nat := 0
  pipD : Int := 0
  failRun : Nat := 0
  /-- Pip calibrations with the light on since WARMING, and complete pilot runs. -/
  goodCals : Nat := 0
  pilotRuns : Nat := 0
  /-- Ticks and valid windows of the pilot run. -/
  pilotTick : Nat := 0
  pilotN : Nat := 0
  /-- Frames of the warm-up ramp so far, none outside one, and whether it has ended (R334). -/
  warm : Option Nat := none
  warmDone : Bool := false
  /-- Whether a gate holds the outputs at zero, and the local time at which the last gate ended. -/
  gateOn : Bool := true
  gateEnd : Nat := 0
  /-- Local time since when the outputs have driven zero, while `gateOn`. -/
  gateFrom : Nat := 0
  /-- The state of the band's current envelope and its value (R28). -/
  env : Nat := 0
  envV : Nat := 32767
  deriving DecidableEq, Repr

/-- A band estimate (R327–R329): its frame; per band T_b, x, y, the calibration times k_b and S_k; η_s(T) per string. -/
structure LEst where
  frame : Nat
  bands : List (Int × Nat × Nat × Nat × Rat)
  etas : List Nat
  deriving DecidableEq, Repr

/-- A trace buffer (R345, R346). `state` is 0xC062 [63:56]. -/
structure LTrace where
  state : Nat := 0
  tick : Nat := 0
  frame : Nat := 0
  entries : List Int := []
  /-- Entries still to record after the trigger. -/
  left : Nat := 0
  /-- Ticks until the next entry. -/
  skip : Nat := 0
  deriving DecidableEq, Repr

/-- LOOP (R310–R348). -/
structure Loop where
  bands : List LBand := List.replicate 4 {}
  strings : List LString := List.replicate 48 {}
  /-- σ per image group. -/
  sigma : List Nat := List.replicate 4 32768
  /-- Frames since the light of a group came back after a wheel, and how many the ramp has; none outside it (R408). -/
  relight : List (Option (Nat × Nat)) := List.replicate 4 none
  /-- Bands whose loss keeps the others of their group dark (R20), bit per band. -/
  dead : Nat := 0
  /-- Wheels whose gate has not been lifted (R407, R408). -/
  wheelGate : List Bool := [true, true]
  /-- Index of the last tick of the frame. -/
  tick : Nat := 0
  /-- Per group, how long before B(F) the level of the first epoch was applied. -/
  closeLead : List Nat := List.replicate 4 0
  headroom : Nat := 0
  achievable : Nat := 0
  /-- Whether any band was lit as the figures of R331 were formed. -/
  anyLit : Bool := false
  ests : List LEst := []
  /-- State of the wall-target envelope and its value (R28, R332). -/
  wallEnv : Nat := 0
  wallV : Nat := 10000
  /-- K of the last frame. -/
  k : Nat := 0
  /-- Pips of the frame so far, per group. -/
  pips : List Nat := [0, 0, 0, 0]
  traces : List LTrace := List.replicate 4 {}
  deriving DecidableEq, Repr

/-- A SET on its way to its APPLY (R354, R358): tag, bank, bands, the level j of each band at the SET's instant, strings with their
values, drivers expected to ack, and the acks once it has returned. -/
structure LampSet where
  tag : Nat
  bank : Nat
  bands : Nat
  levels : List (Option Nat)
  vals : List (Nat × Nat)
  expected : Nat
  acks : Option Nat := none
  /-- Sequence number of its frame. -/
  seq : Nat
  deriving DecidableEq, Repr

/-- A chain of the lamp link (R349–R368). `st` is 0xD003. -/
structure Chain where
  st : Nat := 0
  loopTime : Nat := 0
  seq : Nat := 0
  applies : Nat := 0
  sets : List LampSet := []
  errors : Nat := 0
  errEvent : Option Nat := none
  /-- Local time of the last intact frame returned. -/
  lastFrame : Nat := 0
  /-- Local time of the last enumeration. -/
  lastEnum : Nat := 0
  /-- The management frame under way: type, address, body; and whether it has been retried (R530). -/
  mgmt : Option (Nat × Nat × Bytes) := none
  retried : Bool := false
  deriving DecidableEq, Repr

/-- A lamp driver (R366–R369): registers read at enumeration, last STATUS slot, the last reply to 0xD009, the local time of its
last ack. Its state is its unit record's observed state. -/
structure LDriver where
  id : Nat := 0
  trep : Nat := 0
  tout : Nat := 0
  settle : Nat := 0
  status : Nat := 0
  reply : Nat := 0
  lastAck : Nat := 0
  deriving DecidableEq, Repr

/-- A fast ADC channel (R377–R380). -/
structure FastAdc where
  offset : Int := 0
  mean : Int := 0
  clips : Nat := 0
  clipEvent : Option Nat := none
  deriving DecidableEq, Repr

/-- A slow channel (R381–R385): the last codes, newest first, the value, 0xD044, runs of bad conversions by kind and of good
ones, and the rail verdict 0 in window, 1 low, 2 high with its run. -/
structure SlowAdc where
  codes : List Nat := []
  value : Int := 0
  st : Nat := 0
  badKind : Nat := 0
  bad : Nat := 0
  good : Nat := 0
  rail : Nat := 0
  railKind : Nat := 0
  railRun : Nat := 0
  deriving DecidableEq, Repr

/-- LAMP (R349–R389). -/
structure Lamp where
  chains : List Chain := List.replicate 2 {}
  drivers : List LDriver := List.replicate 16 {}
  /-- Δ in ns (R359). -/
  lead : Nat := 0
  /-- 0xD011. -/
  values : List Nat := List.replicate 48 0
  /-- Kill latch: causes [4:0] of 0xD021 (R374). -/
  latch : Nat := 0
  /-- The input INTLK_A reads low until a level is commanded, and so does INTLK_B (log entry 29, DESIGN CHOICE, safe). -/
  intlkA : Bool := false
  intlkB : Bool := false
  /-- Local time since which both inputs are high, and since which they differ. -/
  bothHigh : Option Nat := none
  differ : Option Nat := none
  /-- Whether the present difference has been reported (R375). -/
  differTold : Bool := false
  /-- A discrepancy that only both inputs low together, then high together, ends (R375); whether they have been low together. -/
  discrepancy : Bool := false
  lowTogether : Bool := false
  intlkCount : Nat := 0
  fast : List FastAdc := List.replicate 8 {}
  slow : List SlowAdc := List.replicate 24 {}
  nextSlow : Nat := 0
  deriving DecidableEq, Repr

/-- What a gate output of a wheel's bridge does: off, on, or switched by the PWM. -/
inductive GateUse where
  | off | on | pwm
  deriving DecidableEq, Repr

/-- How a wheel's bridge is driven: every gate off; six-step commutation; current from phase A to phase B (R400); synchronous negative
torque, or every low side (R401). -/
inductive BridgeMode where
  | off | drive | align | synchronous | short
  deriving DecidableEq, Repr

/-- A wheel's bridge (R390–R392): its mode, its commutation step 0 to 5, the use of its gates (high sides A, B, C, then low sides), the
tick of 2.5 ns at which each gate last turned off, and whether the current limit holds the switched gates off for the rest of this
PWM period. -/
structure Bridge where
  mode : BridgeMode := .off
  step : Nat := 0
  gates : List GateUse := List.replicate 6 .off
  offAt : List Nat := List.replicate 6 0
  cut : Bool := false
  deriving DecidableEq, Repr

/-- A wheel (R390–R412). Its state is its unit record's observed state. -/
structure Wheel where
  speed : Int := 0
  phaseErr : Int := 0
  indexErr : Int := 0
  current : Nat := 0
  lockLosses : Nat := 0
  starts : Nat := 0
  faultCause : Nat := 0
  /-- Local time at which the listen ends, none outside a listen (R399). -/
  listenEnd : Option Nat := none
  /-- Closed loop (true) or open loop (false) in RAMPING. -/
  closed : Bool := false
  /-- Failed starts in a row (R400), and the local time of the present try. -/
  tries : Nat := 0
  trySince : Nat := 0
  /-- A recovery after a lost rotor runs since this local time (R406). -/
  recovering : Option Nat := none
  /-- Waiting for the next index edge with the gates off (R406). -/
  seekIndex : Bool := false
  /-- COASTING or BRAKING comes from a stop command (R409). -/
  fromStop : Bool := false
  /-- Standstill leads to ALIGNING (true) or to STOPPED (false) (R399, R401). -/
  toAlign : Bool := false
  /-- Short-circuit braking (R401). -/
  shortBrake : Bool := false
  alignSince : Nat := 0
  rampSince : Nat := 0
  /-- The last commutation period in 2.5 ns, 0 before the first, and the speed at the crossing before. -/
  tc : Nat := 0
  prevSpeed : Int := 0
  /-- Integral and output of the speed PI (R402). -/
  pi : Int := 0
  duty : Int := 0
  bridge : Bridge := {}
  indexMissing : Bool := false
  coastSince : Nat := 0
  /-- Runs of commutations: within 15°, beyond 30°, overspeed, within 30° of prediction in open loop. -/
  good : Nat := 0
  bad : Nat := 0
  fast : Nat := 0
  seen : Nat := 0
  /-- Index periods in a row within 0.50%, and whether event 0xF6 says the index is consistent. -/
  indexGood : Nat := 0
  indexOk : Bool := true
  lastIndex : Option Nat := none
  /-- PWM periods in a row at the current limit while the speed falls. -/
  stall : Nat := 0
  faultIn : Bool := false
  /-- A stop command came since the wheel entered FAULT (R410). -/
  stopSeen : Bool := false
  /-- Trim of the speed command in 10⁻⁵ of the run speed (R402). -/
  trim : Int := 0
  /-- The run speed before the last boundary, in 0.001 rpm. -/
  run : Nat := 0
  /-- The speed in 0.001 rpm from which the speed command rises at `whel.accel`, and the local time at which it starts (R399, R400). -/
  rampFrom : Nat := 0
  rampAt : Nat := 0
  /-- The last index period that agreed with the observer, in 2.5 ns, 0 before the first (R406). -/
  goodPeriod : Nat := 0
  deriving DecidableEq, Repr


/-- A frame waiting in an output queue of a Uane port (R421): class, flits on the link, unicast, bytes. -/
structure UQueued where
  cls : Nat
  flits : Nat
  unicast : Bool
  bytes : Bytes
  deriving DecidableEq, Repr

/-- A lane swap in progress (R429): logical lane, physical lane brought in, cause of event 0xA1, and the codeword count once
announced. -/
structure USwap where
  logical : Nat
  phys : Nat
  cause : Nat
  /-- Codeword N, at the sending end as a count since reset, at the receiving end as its 24 bits. -/
  n : Option Nat := none
  deriving DecidableEq, Repr

/-- A Uane port (R413–R435). Its state is its unit record's observed state. -/
structure UPort where
  neighbour : Nat := 0
  helloRun : Nat := 0
  lastHello : Nat := 0
  trainSince : Nat := 0
  /-- Local time of the last entry to DOWN. -/
  downAt : Option Nat := none
  /-- The mode of each physical lane, 0 DATA, 1 TRAIN, 2 DUP, and the lane field of its overhead (R414). -/
  lanes : List (Nat × Nat) := [(1, 0), (1, 1), (1, 2), (1, 3), (1, 7)]
  /-- Nibbles 0 to 3: physical lane of each logical lane; 4: the spare. -/
  laneMap : List Nat := [0, 1, 2, 3, 4]
  rxMap : List Nat := [0, 1, 2, 3, 4]
  locks : Nat := 0
  farLocks : Nat := 0
  farAligned : Bool := false
  /-- Local time at which a lane with a logical lane lost lock. -/
  lostAt : Option Nat := none
  ser : List Nat := List.replicate 5 0
  spare : Nat := 0
  swap : Option USwap := none
  rxSwap : Option USwap := none
  /-- Exchanges that the filter of R433 still discards around a swap. -/
  skip : Nat := 0
  delays : List Int := []
  lastTx : Nat := 0
  lastRx : Nat := 0
  drops : List Nat := List.replicate 4 0
  crcErrors : Nat := 0
  framingLost : Bool := false
  queue : List UQueued := []
  /-- Index of the first flit after the frames put on the link so far. -/
  lineFree : Nat := 0
  /-- Flits sent by class 3 and in all while class 3 waits. -/
  share3 : Nat := 0
  shareAll : Nat := 0
  deriving DecidableEq, Repr

/-- The newest TOPO of a node (R425). -/
structure TopoNode where
  node : Nat
  links : List Nat
  key : Nat
  ptp : Nat
  at_ : Nat
  deriving DecidableEq, Repr

/-- A route: node, output port, hops (R425). -/
structure URoute where
  node : Nat
  port : Nat
  hops : Nat
  deriving DecidableEq, Repr

/-- A transit version on its sending stream (R438): the version it sends, lines sent, lines sent with LOST. -/
structure TxStream where
  version : Nat := 0
  sent : Nat := 0
  lost : Nat := 0
  /-- Newest version whose END has been sent, 0 before the first. -/
  done : Nat := 0
  deriving DecidableEq, Repr

/-- A transit-fed layer's version being written (R440): pixels received per line, and what is known of its end. -/
structure RxLayer where
  newest : Nat := 0
  /-- Pixels that arrived whole, per line. -/
  pixels : List (Nat × Nat) := []
  /-- Lines whose write to the frame memory failed, bit per line (R126). -/
  lostLines : Nat := 0
  lastAt : Nat := 0
  ended : Bool := false
  colr : Nat := 0
  width : Nat := 0
  height : Nat := 0
  capture : Nat := 0
  total : Nat := 0
  deriving DecidableEq, Repr

/-- A gateway tag (R443): tag, transport, address, local time of its last use. -/
structure GwTag where
  tag : Nat
  tr : Transport
  addr : Nat
  used : Nat
  deriving DecidableEq, Repr

/-- What the PTP slave knows (R436): the best Announce, the Sync in hand with its arrival, the origin time its Follow_Up gave, and the
departure of the Delay_Req. -/
structure Ptp where
  best : Option PtpAnnounce := none
  syncSeq : Option Nat := none
  t1 : Nat := 0
  t2 : Nat := 0
  t3 : Option Nat := none
  deriving DecidableEq, Repr

/-- UANE (R413–R446). -/
structure Uane where
  ports : List UPort := List.replicate 4 {}
  /-- The identifier that applies since reset (R423). -/
  node : Nat := 0x0100
  topo : List TopoNode := []
  routes : List URoute := []
  topoVersion : Nat := 0
  /-- Broadcasts seen: source, type, the last 64 sequence numbers (R422). -/
  seen : List (Nat × Nat × List Nat) := []
  /-- Next sequence number per frame type (R417). -/
  seqs : List (Nat × Nat) := []
  /-- The TOPO frames last sent, newest first: sequence number and payload. -/
  topoSent : List (Nat × Bytes) := []
  /-- Local time of the last TOPO of another node with this node's identifier. -/
  dupAt : Option Nat := none
  timeState : Nat := 0
  master : Nat := 0
  parent : Nat := 0xFF
  depth : Nat := 0
  /-- Last offset from the parent, in ns. -/
  offset : Int := 0
  /-- Exchanges in a row within 20 ns, and beyond 50 ns (R434). -/
  lockRun : Nat := 0
  badRun : Nat := 0
  ptpState : Nat := 0
  ptpGm : Nat := 0
  ptpOffset : Int := 0
  ptpStepped : Bool := false
  ptp : Ptp := {}
  tx : List TxStream := List.replicate 16 {}
  rx : List RxLayer := List.replicate 8 {}
  transitLost : List Nat := List.replicate 8 0
  tags : List GwTag := []
  deriving DecidableEq, Repr

/-- A vote report of a member for a window, at the coordinator (R459, R460). -/
structure VReport where
  window : Nat
  node : Nat
  frame : Nat
  frozen : Nat
  versions : List Nat
  captures : List Nat
  /-- Wall time of its arrival. -/
  at_ : Nat
  deriving DecidableEq, Repr

/-- A participant's join (R453): identifier, local time, whether validation has ended, and G once GO came. -/
structure WJoin where
  id : Nat
  at_ : Nat
  ready : Bool := false
  go : Option Nat := none
  deriving DecidableEq, Repr

/-- The coordinator's commit (R453): its record, who is READY, who sent ACK, and G once fixed. -/
structure WCommit where
  id : Nat
  earliest : Nat
  listed : List Nat
  parts : List Nat
  ready : List Nat := []
  acks : List Nat := []
  started : Nat
  go : Option Nat := none
  /-- The commit of a unison view, which this node runs as its lead (R470, R627). -/
  unison : Bool := false
  deriving DecidableEq, Repr

/-- 0xB063 (R471). `st` is 0 RUNNING, 1 GO, 2 ABORTED. -/
structure WResult where
  id : Nat
  st : Nat
  g : Nat := 0
  missing : List Nat := []
  deriving DecidableEq, Repr

/-- A node's luminance report at the coordinator (R462, R463). -/
structure LReport where
  node : Nat
  dev : Nat
  head : Nat
  achievable : Nat
  frame : Nat
  deriving DecidableEq, Repr

/-- A luminance SET (R462, R464). -/
structure LSet where
  target : Nat
  rate : Nat
  g : Nat
  deriving DecidableEq, Repr

/-- A sweep step (R465, R467). -/
structure SStep where
  sweep : Nat
  step : Nat
  first : Nat
  dwell : Nat
  measure : Nat
  pattern : List Nat
  master : Nat
  deriving DecidableEq, Repr

/-- A sweep result (R466): node, step, sequence number, the four band records of flit 2. -/
structure SResult where
  sweep : Nat
  node : Nat
  step : Nat
  seq : Nat
  lastFrame : Nat
  lw : Nat
  bands : Bytes
  deriving DecidableEq, Repr

/-- A sweep at its master (R465–R469). `state` is 0x2052 [63:56]. `parts` are the participants of the present step. -/
structure SMaster where
  state : Nat := 0
  sweep : Nat := 0
  step : Nat := 0
  first : Nat := 0
  parts : List Nat := []
  nodes : List Nat := []
  results : List SResult := []
  /-- Node and step of results still missing. -/
  missing : List (Nat × Nat) := []
  deriving DecidableEq, Repr

/-- Sums over the measured frames of a band (R466, R467): yn, Pip D and its count, T_b, valid windows. -/
structure SBand where
  yn : Int := 0
  pip : Int := 0
  pips : Nat := 0
  temp : Int := 0
  temps : Nat := 0
  windows : Nat := 0
  deriving DecidableEq, Repr

/-- The part of a node in sweeps. -/
structure SNode where
  cur : Option SStep := none
  /-- The step that follows the present one. -/
  next : Option SStep := none
  /-- Local time at which the last step ended, while its sweep has not ended. -/
  endedAt : Option Nat := none
  seq : Nat := 0
  held : List SResult := []
  bands : List SBand := List.replicate 4 {}
  deriving DecidableEq, Repr

/-- Wall coherence (R447–R472). -/
structure Wall where
  holder : Nat := 0
  term : Nat := 0
  maxTerm : Nat := 0
  /-- Frame boundaries since the last renewal, or since this node became eligible with no LEASE seen. -/
  missed : Nat := 0
  seen : Bool := false
  rateDiffers : Bool := false
  join : Option WJoin := none
  /-- Identifier, reason and object of the last join refused, for later PREPAREs. -/
  refusedAs : Option (Nat × Nat × Nat) := none
  commit : Option WCommit := none
  result : Option WResult := none
  /-- The last four vote reports of each member and window, oldest first. -/
  reports : List VReport := []
  /-- Last agreement sent per window, and the frame whose agreements have been sent a second time. -/
  issued : List (Nat × Bytes) := []
  repeated : Nat := 0
  /-- Window and member excluded in the present run of frames. -/
  excluded : List (Nat × Nat) := []
  luma : List LReport := []
  /-- The coordinator's present wall target, none before its first. -/
  target : Option Nat := none
  lastSet : Option LSet := none
  setAge : Nat := 0
  /-- SETs that wait for their boundary, in the order received. -/
  pendingSets : List LSet := []
  minAch : Nat := 0xFFFF
  master : SMaster := {}
  node : SNode := {}
  deriving DecidableEq, Repr

/-- XRDS: the log and sequence counter in the Mews, the capture queue, task inputs, counters, IRQ and GPIO (R473–R493). -/
structure Xrds where
  seqNext : Nat := 0
  seqOldest : Nat := 0
  log : List EvRec := []
  /-- Whether the log's header and chaining are intact (R479). -/
  logOk : Bool := true
  queue : List EvRec := []
  /-- ns of drain time not yet turned into a drained record (R477). -/
  drainCredit : Nat := 0
  lost : Nat := 0
  lostPending : Nat := 0
  peak : Nat := 0
  pending : List Nat := List.replicate 38 0
  overflow : List Nat := List.replicate 38 0
  sticky : Nat := 0
  acts : List Nat := List.replicate 38 0
  counters : List Nat := List.replicate 64 0
  snap : List Nat := List.replicate 64 0
  snapTime : Nat := 0
  irqPending : Nat := 0
  /-- Per GPIO: local time at which the low time after a pulse ends, while one runs. -/
  pulseEnd : List (Option Nat) := List.replicate 16 none
  gpioIn : Nat := 0
  deriving DecidableEq, Repr
/-- Runs of conversions of a die sensor: at or above each set level, at or below each clear level, and of its exclusion (R495,
R496). -/
structure DieSensor where
  temp : Int := 0
  up : List Nat := [0, 0, 0]
  down : List Nat := [0, 0, 0]
  excluded : Bool := false
  badRun : Nat := 0
  okRun : Nat := 0
  deriving DecidableEq, Repr

/-- A lamp-board channel's levels (R501, R502): runs, levels in force, and its caps by band as c and u0, with the temperature
at the last interval. -/
structure LampLevel where
  up : List Nat := [0, 0, 0]
  down : List Nat := [0, 0, 0]
  lv : List Bool := [false, false, false]
  caps : List (Option (Nat × Nat)) := [none, none, none, none]
  tref : Int := 0
  /-- Local time of the last throttle interval of the channel (R502). -/
  stepAt : Nat := 0
  deriving DecidableEq, Repr

/-- A worn or failed resource (R506): area, number, state 1 worn, 2 failed, 3 no spare, and the indicator's value. -/
structure WearEntry where
  area : Nat
  res : Nat
  st : Nat
  val : Nat
  deriving DecidableEq, Repr

/-- Thermal management, wear and spares (R494–R518). -/
structure Therm where
  die : List DieSensor := List.replicate 12 {}
  /-- Die levels in force: warning, throttle, shutdown. -/
  lv : List Bool := [false, false, false]
  lamp : List LampLevel := List.replicate 24 {}
  /-- d, t_ref, the layers shed in order, and whether the stepping runs (R498). -/
  d : Nat := 0
  tref : Int := 0
  shed : List Nat := []
  stepping : Bool := false
  lastStep : Nat := 0
  /-- Steps wait for their boundary: the d and the shed layers that apply there. -/
  dNext : Nat := 0
  shedNext : List Nat := []
  wear : List WearEntry := []
  /-- 0x0041, and worn resources that wait outside the full list (R509). -/
  pending : List (Nat × Nat) := []
  outside : List (Nat × Nat) := []
  /-- Rejected resources: area, number, local time (R509). -/
  rejected : List (Nat × Nat × Nat) := []
  /-- The swap that runs in each area: area, resource, spare, step (R510). -/
  swaps : List (Nat × Nat × Nat × Nat) := []
  /-- Approved or automatic swaps queued: area, resource (R510). -/
  queued : List (Nat × Nat) := []
  /-- Areas whose swap failed, as area and resource (R511). -/
  failed : List (Nat × Nat) := []
  /-- Commissioning value of each string's efficiency (R505). -/
  commission : List Nat := List.replicate 48 0
  sramCe : Nat := 0
  /-- Failed plane engines, bit per engine (R514). -/
  engineBad : Nat := 0
  /-- Array checked, and frames of a check after a mismatch that remain (R514). -/
  checkArray : Nat := 0
  checkLeft : Nat := 0
  deriving DecidableEq, Repr


/-- The Mews: device state, reset, wake, rails and slow clocks (R30–R33, R540–R564, R631). -/
structure Mews where
  dev : DevState := .boot
  safeCause : Nat := 0
  /-- Local time of the entry to WARMING. -/
  warmSince : Nat := 0
  /-- The state before a Mews watchdog expiry (R526). -/
  beforeWatchdog : DevState := .boot
  /-- Local times of automatic WARMING requests (R526). -/
  autoWarm : List Nat := []
  /-- The conditions of R615 held at the last boundary. -/
  warmOk : Bool := false
  /-- Boundaries passed since a request STANDBY that ramps the light down first, none while no ramp runs (R31). -/
  rampDown : Option Nat := none
  /-- Lamp-board channels whose shutdown still refuses WARMING (R503). -/
  lampHold : List Nat := []
  /-- The boot step of R554 reached, 0 while the die is held in reset, 7 once BOOT has ended. -/
  bootStep : Nat := 0
  /-- An interlock opened during BOOT (R32). -/
  bootInterlock : Bool := false
  resetCount : Nat := 0
  resetCause : Nat := 1
  /-- A die reset due later: its cause and the local time it falls due (R552). -/
  resetDue : Option (Nat × Nat) := none
  /-- Local time at which the boot ROM read the flash last (R558). -/
  bootReadAt : Nat := 0
  /-- Die held in reset. -/
  held : Bool := false
  resetN : Bool := true
  /-- Local time at which RESET_N last fell. -/
  resetNLowAt : Nat := 0
  /-- 0x0018 minus the local time. -/
  timeOff : Int := 0
  /-- 0x0017: 0 STARTING, 1 RUNNING, 2 FAILED. -/
  xtal : Nat := 0
  xtalBad : Nat := 0
  /-- Correction to each factory entry of the RC trim table, in trim steps (R504). -/
  rcTrim : List Int := List.replicate 16 0
  /-- Rails in range, bit per rail of 0x001A. -/
  rails : Nat := 0
  /-- MEWS_PWREN. -/
  pwren : Bool := true
  /-- Local time of the entry to MEWS. -/
  mewsSince : Nat := 0
  /-- Local time at which MEWS_PWREN is to fall, while a power-down runs (R561). -/
  pwrenFallAt : Option Nat := none
  /-- Local time at which the power-down ends. -/
  downUntil : Nat := 0
  /-- Wake cause of event 0x07 to raise after the release, 0 none (R563). -/
  wakeCause : Nat := 0
  /-- GPIO functions of GPIO0 and GPIO1 kept through MEWS state (R571). -/
  wakeFn : List Nat := [0, 0]
  /-- The state before the die reset, for event 0x03 after the release. -/
  oldDev : DevState := .boot
  /-- VAON present (R581). -/
  vaon : Bool := true
  /-- VAON came up since the last BOOT: the log starts afresh and no profile value was kept (R479, R553). -/
  fresh : Bool := true
  deriving DecidableEq, Repr

/-- A synthesiser (R545–R551). `st` is 0x1000: 0 OFF, 1 SEARCHING, 2 LOCKED, 3 HOLDOVER, 4 FAILED, 5 SPARE. -/
structure Pll where
  st : Nat := 0
  target : Nat := 0xFF
  band : Nat := 0
  /-- Table band of the running lock search. -/
  tableBand : Nat := 0
  err : Int := 0
  lockCount : Nat := 0
  holdMs : Nat := 0
  coastSince : Option Nat := none
  /-- Event 0x12 was raised for the present coast. -/
  limitSeen : Bool := false
  fullSearch : Bool := false
  /-- Local times of losses of lock, for the wear limit of R505. -/
  losses : List Nat := []
  deriving DecidableEq, Repr

/-- CLKS (R543–R551). -/
structure Clks where
  plls : List Pll := []
  /-- 0x1004: 0 ABSENT, 1 QUALIFYING, 2 GOOD, 3 LOST. -/
  ref : Nat := 0
  refGood : Nat := 0
  /-- Root gates closed, bit per domain CD01 to CD25. -/
  gated : Nat := 0
  deriving DecidableEq, Repr

/-- A lease (R528–R532): state 0 FREE, 1 HELD, 2 REVOKING. -/
structure Lease where
  st : Nat := 0
  area : Nat := 0
  holder : Nat := 0
  renewed : Nat := 0
  revokes : Nat := 0
  deriving DecidableEq, Repr

/-- A flash image slot (R555–R558). `st` is 0x2070 [31:24]: 0 empty, 1 valid, 2 invalid. -/
structure ImageSlot where
  version : Nat := 0
  st : Nat := 0
  image : Bytes := []
  deriving DecidableEq, Repr

/-- Management cores, firmware tasks, leases and images (R519–R532, R555–R558). -/
structure Firm where
  leases : List Lease := List.replicate 32 {}
  busTimeouts : Nat := 0
  fwRestarts : Nat := 0
  /-- Core 0 to 2: 0 active, 1 spare, 2 failed. -/
  cores : List Nat := [0, 0, 1]
  /-- Firmware restart in progress until this local time. -/
  restartUntil : Nat := 0
  /-- Last watchdog miss of each task: task, local time. -/
  misses : List (Nat × Nat) := []
  /-- Consecutive bus timeouts of each subsystem's port. -/
  busPort : List Nat := List.replicate 16 0
  slots : List ImageSlot := [{}, {}]
  bootSlot : Option Nat := none
  fwVersion : Nat := 0
  /-- Image written and waiting for verification: slot. -/
  verifying : Option Nat := none
  /-- Firmware runs, from step 4 of R554. -/
  running : Bool := false
  /-- Verdicts of the signature checks of the images in the slots, as the boot ROM's public keys give them (R557). -/
  sigOk : List Bool := [false, false]
  /-- The unison record of the board EEPROM, bytes 0 to 27 (R625). -/
  eeprom : Bytes := []
  /-- Boot flash: size in KiB, SFDP 1-1-4 read. -/
  flashKiB : Nat := 0
  flashSfdp : Bool := false
  deriving DecidableEq, Repr

/-- The JTAG port (R617–R622): the current instruction, what the last Capture-DR gave, the update latch of the boundary register,
whether the last mailbox word was refused as busy, and the result of the last PEEK. -/
structure Tap where
  ir : Nat := 0x02
  captured : Nat := 0
  boundary : Nat := 0
  mbBusy : Bool := false
  peekDone : Bool := false
  peekError : Bool := false
  peekData : Nat := 0
  deriving DecidableEq, Repr

/-- What the block sends or drives. -/
inductive Out where
  /-- A Gysol frame to a transport and an address on it. -/
  | gysol (tr : Transport) (addr hop : Nat) (bytes : Bytes)
  /-- An ARP reply: the address answered for, and the asker. -/
  | arp (ip to_ : Nat)
  /-- An ICMP echo reply with its data. -/
  | icmp (to_ hop : Nat) (data : Bytes)
  /-- A level driven on a pin. `none`: not driven. -/
  | pin (p : Pin) (level : Option Bool)
  /-- A pulse on a pin, of a width in ns. -/
  | pulse (p : Pin) (ns : Nat)
  /-- A frame on a Uane port from a flit index on: header flit, payload flits and trailer flit, 30 bytes each (R415, R416).
  `State.uaneSends` gives the codewords that carry them. -/
  | uane (port first : Nat) (bytes : Bytes)
  /-- A Uane transmit lane's mode from its next codeword on: 0 DATA, 1 TRAIN, 2 DUP, with the lane field (R414). -/
  | uaneLane (port phys mode lane : Nat)
  /-- The wall time to a PTP Delay_Req (R436). -/
  | ptpDelayReq
  /-- Every block of an array cleared at once (R246). -/
  | clearArray (ap : Nat)
  /-- Port words on an array link, 60 bytes each, from a word index on (R278, R280, R281). `State.laneSends` gives the codewords that
  carry them. -/
  | alink (ap first : Nat) (bytes : Bytes)
  /-- A forward lane's mode from its next codeword on: 0 DATA, 1 TRAIN, 2 DUP, with the lane field (R276). -/
  | alinkLane (ap phys mode logical : Nat)
  /-- A frame on a lamp-link chain, from byte [0] to its CRC (R352). -/
  | lamp (chain : Nat) (bytes : Bytes)
  /-- An APPLY on a chain with its data character (R357), for a local time. -/
  | lampApply (chain char at_ : Nat)
  /-- /X/ sent continuously on a chain (R373). -/
  | lampKill (chain : Nat)
  /-- A gate output of a wheel: high sides of A, B, C are 0 to 2 and low sides 3 to 5. It is put to use from a tick of 2.5 ns of
  the local time on (R390, R391). -/
  | wheelGate (wheel gate : Nat) (use : GateUse) (tick : Nat)
  /-- The PWM of a wheel: its period and on-time in ticks of 2.5 ns (R391, R402). -/
  | wheelPwm (wheel period on : Nat)
  /-- What the SPI host port returns in a transaction: the status bytes, or a frame (R78). -/
  | spi (bytes : Bytes)
  /-- What the boundary register drives under EXTEST: ball of R619, and its level, none where it is not driven. -/
  | extest (drives : List (Nat × Option Bool))
  /-- The answer of one Gysol operation to a session: its opcode, status and response data. -/
  | answer (sid code status : Nat) (data : Bytes)
  deriving DecidableEq, Repr

/-- `n` unit records from a wire number on, as the structure's defaults give them. -/
def unitRange (w n : Nat) : List (Nat × UnitRec) := (List.range n).map fun k => (w + k, ({} : UnitRec))

/-- Unit records right after reset: every unit at the first code of its family, commanded as R630 gives for the default
dictionary. Uane ports are DOWN because the default topology is NONE. -/
def unitsReset : List (Nat × UnitRec) :=
  unitRange 0x4A00 2 ++ unitRange 0x6DC0 16 ++
  unitRange 0xA800 4 ++ unitRange 0xC800 4 ++
  unitRange 0xC840 48 ++ unitRange 0xD840 14 ++
  unitRange 0xE800 2 ++ unitRange 0xF800 4

/-- The synthesisers right after reset: PLL0 to PLL7 serve targets 0 to 7, PLL8 and PLL9 are the spares (R543). -/
def pllsReset : List Pll :=
  (List.range 10).map fun n => if n < 8 then { target := n } else { st := 5 }

/-- The state of the block. -/
structure State where
  /-- Local elapsed time in ns, the latest `t` of any command. -/
  now : Nat := 0
  /-- Wall time minus local time. -/
  wallOff : Int := 0
  /-- Whether the wall-time counter runs (R475). -/
  wallRun : Bool := false
  /-- The queue of waiting commands, first in, first out. -/
  pending : List Instr := []
  /-- The model's own count of free values drawn. -/
  freeCtr : Nat := 0
  /-- The model's own record of what the block sends and drives, newest last. -/
  outs : List Out := []
  /-- Object dictionary values. -/
  dict : Dict := {}
  /-- Unit state records by wire number (R599). -/
  units : List (Nat × UnitRec) := unitsReset
  /-- Events, Crossroads and counters. -/
  xrds : Xrds := {}
  /-- Gysol and the flash profile. -/
  gysol : Gysol := {}
  /-- The Mews. -/
  mews : Mews := {}
  /-- Clocks. -/
  clks : Clks := { plls := pllsReset }
  /-- Firmware, leases and images. -/
  firm : Firm := {}
  /-- Video ingest. -/
  ings : Ings := {}
  /-- Frame memory. -/
  hbm : Hbm := {}
  /-- Currency guard. -/
  curg : Curg := {}
  /-- Layer composition. -/
  plaz : Plaz := {}
  /-- Frame timing and commit. -/
  seqr : Seqr := {}
  /-- The Uane fabric. -/
  uane : Uane := {}
  /-- Frequency trim of the wall-time counter in 10⁻¹² (R432). -/
  wallTrim : Int := 0
  /-- The part of a ns that the trim has gathered, in 10⁻¹² ns. -/
  wallFrac : Nat := 0
  /-- Wall coherence: lease, vote, wall commits, luminance and sweeps. -/
  coh : Wall := {}
  /-- Colour pipeline, by image group. -/
  colr : List CGroup := List.replicate 4 {}
  /-- Bit planes and schedules. -/
  plgn : Plgn := {}
  /-- Array links. -/
  arcd : Arcd := {}
  /-- The light loop engine. -/
  loop : Loop := {}
  /-- Lamp link, sensing and interlocks. -/
  lamp : Lamp := {}
  /-- Wheel motors. -/
  whel : List Wheel := List.replicate 2 {}
  /-- Thermal management, wear and spares. -/
  therm : Therm := {}
  /-- The JTAG port. -/
  tap : Tap := {}
  deriving DecidableEq, Repr

/-- The block right after reset: every field at the value its structure gives, which is the spec's reset value or the
value that the model names (log entry 14, DESIGN CHOICE, unsafe). -/
def State.reset : State := {}

end Sys2Proof.Machine
end

