-- ==== Sys2Proof/Machine/Defaults.lean ====
section
/-! DEFINITION. The default value of every object and subindex (R47), for numbers and for BLOBs. -/

namespace Sys2Proof.Machine

/-- Default reservation of an HBM port in MB/s (R122). -/
def dfltReserve : Nat → Nat
  | 0 | 1 | 2 | 3 => 105000 | 4 => 143300 | 5 => 300000 | 6 => 18200 | 7 => 210000 | _ => 0

/-- Default panic thresholds of an HBM port, set in [31:16] and clear in [15:0] (R122, R124). -/
def dfltPanic : Nat → Nat
  | 0 | 1 | 2 | 3 => 1024 * 65536 + 2048 | 4 => 3072 * 65536 + 2048 | 5 => 2048 * 65536 + 4096
  | 6 => 1536 * 65536 + 1024 | 7 => 0x4080C080 | _ => 0

/-- Default of a numeric object and subindex, as raw bits. -/
def dfltNum (obj sub : Nat) : Nat :=
  match obj with
  | 0x5030 => dfltReserve sub
  | 0x5031 => dfltPanic sub
  | 0xC007 => sub
  | _ => ((lookup obj sub).map Desc.dflt).getD 0

/-! ## Scaler coefficients (R152) -/

/-- sinc of `a / 64` in fixed point. -/
def sincFx (a : Int) : Int :=
  if a = 0 then fxOne else fxDiv (fxSinPi (fxRat a 64)) (fxMul fxPi (fxRat a 64))

/-- Weight of a tap at `a / 64` under a window of half width `w`. -/
def sincWeight (w : Nat) (a : Int) : Int :=
  if (w : Int) * 64 ≤ a.natAbs then 0
  else fxMul (sincFx a) (if a = 0 then fxOne else fxDiv (fxSinPi (fxRat a (64 * w))) (fxMul fxPi (fxRat a (64 * w))))

/-- The index of the element of largest magnitude, the lowest on a tie. -/
def argMaxAbs (l : List Int) : Nat :=
  (l.foldl (fun (acc : Nat × Nat × Nat) c =>
    if acc.2.2 < c.natAbs || acc.1 = 0 then (acc.1 + 1, acc.1, c.natAbs) else (acc.1 + 1, acc.2.1, acc.2.2)) (0, 0, 0)).2.1

/-- `x / s × 1,024` rounded to the nearest integer, halves away from zero. -/
def scaleTo1024 (s x : Int) : Int :=
  let v := 1024 * x
  if v < 0 then -((2 * (-v) + s) / (2 * s)) else (2 * v + s) / (2 * s)

/-- The default coefficients of one phase with `taps` taps, `off` the tap at x = −d, window half width `w` (R152). -/
def dfltPhase (taps off w phase : Nat) : List Int :=
  let ws := (upTo taps).map fun (k : Nat) => sincWeight w (((k : Int) - off) * 64 - phase)
  let s := sumI ws id
  let cs := ws.map (scaleTo1024 s)
  let i := argMaxAbs cs
  modAt cs i (· + (1024 - sumI cs id))

/-- The default coefficient BLOB of a direction: phase-major S16 entries. -/
def dfltCoef (taps off w : Nat) : Bytes :=
  ((upTo 64).map fun p => ((dfltPhase taps off w p).map fun c => toLE 2 (ofS 16 c)).flatten).flatten

/-! ## EDID (R633) -/

/-- The EDID block with its checksum byte. -/
def edidSum (bs : Bytes) : Bytes := bs ++ [BitVec.ofNat 8 (256 - (bs.foldl (fun a b => a + b.toNat) 0) % 256)]

/-- The base block of the default EDID, from the content R633 lists and the byte layout of EDID 1.4 (log entry 4, PRESUMED, unsafe). -/
def edidBase : Bytes :=
  edidSum ([0x00, 0xFF, 0xFF, 0xFF, 0xFF, 0xFF, 0xFF, 0x00,
    0x59, 0x86, 0x71, 0x3E, 0x00, 0x00, 0x00, 0x00, 0x00, 0x00, 0x01, 0x04,
    0xC5, 0x00, 0x00, 0x78, 0x1B,
    0xEE, 0x91, 0xA3, 0x54, 0x4C, 0x99, 0x26, 0x0F, 0x50, 0x54, 0x00, 0x00, 0x00] ++
    List.replicate 16 (0x01 : Byte) ++
    [0x08, 0xE8, 0x00, 0x30, 0xF2, 0x70, 0x5A, 0x80, 0xB0, 0x58, 0x8A, 0x00, 0x00, 0x00, 0x00, 0x00, 0x00, 0x1E] ++
    [0x00, 0x00, 0x00, 0xFC, 0x00] ++ ascii "FERSITE ETNEL" ++
    [0x00, 0x00, 0x00, 0xFD, 0x08, 0x18, 0x78, 0x1E, 0x0F, 0x77, 0x01, 0x0A, 0x20, 0x20, 0x20, 0x20, 0x20, 0x20] ++
    [0x00, 0x00, 0x00, 0x10, 0x00, 0x00, 0x00, 0x00, 0x00, 0x00, 0x00, 0x00, 0x00, 0x00, 0x00, 0x00, 0x00, 0x00] ++ [0x01])

/-- The CTA-861 extension of the default EDID (R633). -/
def edidExt : Bytes :=
  edidSum ([0x02, 0x03, 0x10, 0x31, 0x43, 0x61, 0x76, 0x10, 0xE3, 0x05, 0xC0, 0x00, 0xE3, 0x06, 0x0D, 0x01] ++
    List.replicate 111 (0x00 : Byte))

/-! ## EOTF tables (R197, R198) -/

/-- The integer `y` with `(2y − 1)^5 × 4095^12 ≤ (2 × 262143)^5 × c^12`, the largest one: `262,143 × (c / 4,095)^2.4`
rounded half up, by bisection over `n` bits. -/
def bt1886Search : Nat → Nat → Nat → Nat
  | 0, _, y => y
  | n + 1, c, y =>
    let z := y + 2 ^ n
    if (2 * z - 1) ^ 5 * 4095 ^ 12 ≤ (2 * 262143) ^ 5 * c ^ 12 then bt1886Search n c z else bt1886Search n c y

/-- The BT.1886 entry of a code (R197) (log entry 92, DEDUCED, unsafe). -/
def eotf1886 (c : Nat) : Nat := bt1886Search 18 c 0

/-- The PQ EOTF of BT.2100 in cd/m² with 96 fraction bits, for a code. -/
def pqFx (c : Nat) : Int :=
  let m1 := fxRat 2610 16384
  let m2 := fxRat (2523 * 128) 4096
  let c1 := fxRat 3424 4096
  let c2 := fxRat (2413 * 32) 4096
  let c3 := fxRat (2392 * 32) 4096
  let e := fxPow (fxRat c 4095) (fxDiv fxOne m2)
  let n := if e < c1 then 0 else e - c1
  10000 * fxPow (fxDiv n (c2 - fxMul c3 e)) (fxDiv fxOne m1)

/-- The PQ entry of a code under a peak luminance in cd/m² (R197). -/
def eotfPq (lp c : Nat) : Nat :=
  let f := pqFx c / (lp : Int)
  (fxRound 262143 (if fxOne < f then fxOne else f)).toNat

/-- The HLG entry of a code: the inverse OETF of BT.2100 (R197). -/
def eotfHlg (c : Nat) : Nat :=
  let v := fxRat c 4095
  let a := fxRat 17883277 100000000
  let b := fxOne - 4 * a
  let cc := fxRat 1 2 - fxMul a (fxLn (4 * a))
  let f := if 2 * v ≤ fxOne then fxMul v v / 3 else (fxExp (fxDiv (v - cc) a) + b) / 12
  (fxRound 262143 f).toNat

/-- Entry `k` of the HLG gain table for a peak luminance (R198): a negative power of 0 has no bound, and is capped. -/
def hlgGain (lp k : Nat) : Nat :=
  let g1 := fxRat 2 10 + fxMul (fxRat 42 100) (fxDiv (fxLn (fxRat lp 1000)) fxLn10)
  if k = 0 ∧ g1 < 0 then 65535
  else sat 65535 (fxRound 32768 (if k = 0 ∧ g1 = 0 then fxOne else fxPow (fxRat (256 * k) 262143) g1)).toNat

/-- Whether the entries of an EOTF table are all L18 values (R196, R197, R211). -/
def eotfTableOk (b : Bytes) : Bool := (upTo 4096).all fun c => decide (leAt b (4 * c) 4 ≤ 262143)

/-- Default of a BLOB object. -/
def dfltBlob (obj sub : Nat) : Bytes :=
  match obj with
  | 0x4020 => edidBase ++ edidExt
  | 0x5061 => List.replicate 1024 0
  | 0x6008 => dfltCoef 8 3 4
  | 0x6009 => dfltCoef 6 2 3
  | 0x8004 => ((upTo 4096).map fun c => toLE 4 (eotf1886 c)).flatten
  | 0x8020 => ((upTo 6405).map fun _ => toLE 2 32768).flatten
  | 0xC014 => ((upTo 64).map fun _ => toLE 2 16384).flatten
  | 0xC020 => List.replicate 12 0
  | 0x1010 => (upTo 16).map fun k => BitVec.ofNat 8 (Config.bandFactory sub k)
  | _ => []

/-- The default value of an object and subindex (R47). -/
def dfltVal (obj sub : Nat) : Val :=
  match lookup obj sub with
  | some d => if d.ty = .blob || d.ty = .str32 then .bytes (dfltBlob obj sub) else .num (BitVec.ofNat 64 (dfltNum obj sub))
  | none => .num 0

end Sys2Proof.Machine
end

