-- ==== Sys2Proof/Machine/Mods.lean ====
section
/-! DEFINITION. One update operation per field of the state, so that what an operation touches can be read off its text. -/

namespace Sys2Proof.Machine

/-- Changes `now` alone. -/
def State.modNow (f : Nat → Nat) (s : State) : State := { s with now := f s.now }

/-- Changes `wallOff` alone. -/
def State.modWallOff (f : Int → Int) (s : State) : State := { s with wallOff := f s.wallOff }

/-- Changes `wallRun` alone. -/
def State.modWallRun (f : Bool → Bool) (s : State) : State := { s with wallRun := f s.wallRun }

/-- Changes `pending` alone. -/
def State.modPending (f : List Instr → List Instr) (s : State) : State := { s with pending := f s.pending }

/-- Changes `freeCtr` alone. -/
def State.modFreeCtr (f : Nat → Nat) (s : State) : State := { s with freeCtr := f s.freeCtr }

/-- Changes `outs` alone. -/
def State.modOuts (f : List Out → List Out) (s : State) : State := { s with outs := f s.outs }

/-- Changes `dict` alone. -/
def State.modDict (f : Dict → Dict) (s : State) : State := { s with dict := f s.dict }

/-- Changes `units` alone. -/
def State.modUnits (f : List (Nat × UnitRec) → List (Nat × UnitRec)) (s : State) : State := { s with units := f s.units }

/-- Changes `xrds` alone. -/
def State.modXrds (f : Xrds → Xrds) (s : State) : State := { s with xrds := f s.xrds }

/-- Changes `gysol` alone. -/
def State.modGysol (f : Gysol → Gysol) (s : State) : State := { s with gysol := f s.gysol }

/-- Changes `mews` alone. -/
def State.modMews (f : Mews → Mews) (s : State) : State := { s with mews := f s.mews }

/-- Changes `clks` alone. -/
def State.modClks (f : Clks → Clks) (s : State) : State := { s with clks := f s.clks }

/-- Changes `firm` alone. -/
def State.modFirm (f : Firm → Firm) (s : State) : State := { s with firm := f s.firm }

/-- Changes `ings` alone. -/
def State.modIngs (f : Ings → Ings) (s : State) : State := { s with ings := f s.ings }

/-- Changes `hbm` alone. -/
def State.modHbm (f : Hbm → Hbm) (s : State) : State := { s with hbm := f s.hbm }

/-- Changes `curg` alone. -/
def State.modCurg (f : Curg → Curg) (s : State) : State := { s with curg := f s.curg }

/-- Changes `plaz` alone. -/
def State.modPlaz (f : Plaz → Plaz) (s : State) : State := { s with plaz := f s.plaz }

/-- Changes `seqr` alone. -/
def State.modSeqr (f : Seqr → Seqr) (s : State) : State := { s with seqr := f s.seqr }

/-- Changes `uane` alone. -/
def State.modUane (f : Uane → Uane) (s : State) : State := { s with uane := f s.uane }

/-- Changes `wallTrim` alone. -/
def State.modWallTrim (f : Int → Int) (s : State) : State := { s with wallTrim := f s.wallTrim }

/-- Changes `wallFrac` alone. -/
def State.modWallFrac (f : Nat → Nat) (s : State) : State := { s with wallFrac := f s.wallFrac }

/-- Changes `coh` alone. -/
def State.modCoh (f : Wall → Wall) (s : State) : State := { s with coh := f s.coh }

/-- Changes `colr` alone. -/
def State.modColr (f : List CGroup → List CGroup) (s : State) : State := { s with colr := f s.colr }

/-- Changes `plgn` alone. -/
def State.modPlgn (f : Plgn → Plgn) (s : State) : State := { s with plgn := f s.plgn }

/-- Changes `arcd` alone. -/
def State.modArcd (f : Arcd → Arcd) (s : State) : State := { s with arcd := f s.arcd }

/-- Changes `loop` alone. -/
def State.modLoop (f : Loop → Loop) (s : State) : State := { s with loop := f s.loop }

/-- Changes `lamp` alone. -/
def State.modLamp (f : Lamp → Lamp) (s : State) : State := { s with lamp := f s.lamp }

/-- Changes `whel` alone. -/
def State.modWhel (f : List Wheel → List Wheel) (s : State) : State := { s with whel := f s.whel }

/-- Changes `therm` alone. -/
def State.modTherm (f : Therm → Therm) (s : State) : State := { s with therm := f s.therm }

/-- Changes `tap` alone. -/
def State.modTap (f : Tap → Tap) (s : State) : State := { s with tap := f s.tap }

end Sys2Proof.Machine
end

