-- ==== Sys2Proof/Machine/Ops.lean ====
section
/-! DEFINITION. The named operations every family uses: time, dictionary values, free values, outputs, and event capture by
XRDS (R473–R492). -/

namespace Sys2Proof.Machine

/-! ## Time -/

/-- Records that drain from the capture queue in `dt` ns, and the credit left over (R477; log entry 5, DESIGN CHOICE, unsafe). -/
def drainCount (fast : Bool) (credit dt level : Nat) : Nat × Nat :=
  let per := if fast then 500 else 2000
  let n := (credit + dt) / per
  if level ≤ n then (level, 0) else (n, (credit + dt) % per)

/-- The log with records added: the 4,096 newest stay (R65). -/
def logPut (log : List EvRec) (rs : List EvRec) : List EvRec :=
  let l := log ++ rs
  l.drop (l.length - 4096)

/-- The capture queue drained for `dt` ns (R477). -/
def Xrds.drain (fast : Bool) (dt : Nat) (x : Xrds) : Xrds :=
  let (n, c) := drainCount fast x.drainCredit dt x.queue.length
  let log := logPut x.log (x.queue.take n)
  { x with
    log := log
    queue := x.queue.drop n
    drainCredit := c
    seqOldest := ((log.head?).map EvRec.seq).getD x.seqOldest }

/-- Time moved on to `t`, never back; the capture queue drains and the trim of the wall-time counter acts meanwhile. -/
def State.advance (t : Nat) (s : State) : State :=
  let dt := t - s.now
  let drift : Int := (dt : Int) * s.wallTrim + s.wallFrac
  { s with
    now := s.now + dt
    xrds := s.xrds.drain (s.mews.dev != .mews) dt
    wallOff := s.wallOff + drift / 10 ^ 12
    wallFrac := (drift % 10 ^ 12).toNat }

/-- Wall time in ns, a TIME64 (R8). -/
def State.wall (s : State) : Nat := (((s.now : Int) + s.wallOff) % (2 ^ 64 : Nat)).toNat

/-- The Mews time count (R541) (log entry 94, DEDUCED, safe). -/
def State.mewsTime (s : State) : Nat := (((s.now : Int) + s.mews.timeOff) % (2 ^ 64 : Nat)).toNat

/-- The stamp of something happening now: wall time, or the Mews count while the wall-time counter does not run (R475). -/
def State.stamp (s : State) : Nat := if s.wallRun then s.wall else s.mewsTime

/-! ## Dictionary values -/

/-- The running value of an object and subindex (R47). -/
def Dict.get (d : Dict) (obj sub : Nat) : Val := (mapGet d.vals (okey obj sub)).getD (dfltVal obj sub)

/-- The dictionary with a running value written, in canonical form. -/
def Dict.set (d : Dict) (obj sub : Nat) (v : Val) : Dict :=
  { d with vals := mapSet (dfltVal obj sub) d.vals (okey obj sub) v }

/-- The number a value holds; 0 for bytes. -/
def Val.toNat : Val → Nat
  | .num w => w.toNat
  | .bytes _ => 0

/-- The bytes a value holds; none for a number. -/
def Val.toBytes : Val → Bytes
  | .num _ => []
  | .bytes b => b

/-- A number as a value. -/
def nv (n : Nat) : Val := .num (BitVec.ofNat 64 n)

/-- The running number of an object and subindex. -/
def State.num (s : State) (obj : Nat) (sub : Nat := 0) : Nat := (s.dict.get obj sub).toNat

/-- The running number of an object and subindex, read as a signed number of `w` bits. -/
def State.sint (s : State) (w obj : Nat) (sub : Nat := 0) : Int := toS w (s.num obj sub)

/-- Whether a BOOL object reads true. -/
def State.flag (s : State) (obj : Nat) (sub : Nat := 0) : Bool := s.num obj sub != 0

/-- The running bytes of a BLOB object. -/
def State.blob (s : State) (obj : Nat) (sub : Nat := 0) : Bytes := (s.dict.get obj sub).toBytes

/-- A running value written. -/
def State.setVal (obj sub : Nat) (v : Val) (s : State) : State := s.modDict fun d => d.set obj sub v

/-- A running number written. -/
def State.setNum (obj sub n : Nat) (s : State) : State := s.setVal obj sub (nv n)

/-! ## Free values and outputs -/

/-- The free value that the next draw gives (log entry 15, DESIGN CHOICE, safe). -/
def State.free (s : State) : Nat := Config.free s.freeCtr

/-- One free value drawn. -/
def State.drawn (s : State) : State := s.modFreeCtr (· + 1)

/-- Something sent or driven (log entry 16, DESIGN CHOICE, safe) (log entry 93, DESIGN CHOICE, unsafe). -/
def State.emit (o : Out) (s : State) : State := s.modOuts (· ++ [o])

/-- Several things sent or driven, in order. -/
def State.emits (os : List Out) (s : State) : State := s.modOuts (· ++ os)

/-! ## Events -/

/-- Codes that still enter the capture queue at 240 records (R477). -/
def reservedCode (c : Nat) : Bool := decide (c ≤ 0x0F) || (decide (0xE0 ≤ c) && decide (c ≤ 0xE3)) || c = 0x31 || c = 0x34

/-- The word of a route term (R483). T16 to T19 derive theirs from the trace configuration (R482). -/
def State.routeWord (s : State) (n : Nat) : Nat :=
  if 32 ≤ n && n < 40 then
    (if n % 2 = 0 then 2 ^ 63 + fld (s.num 0xC060 (n / 2 - 16)) 31 24 * 2 ^ 48 + 0xFF * 2 ^ 40 else 0)
  else s.num 0x3010 n

/-- Whether a code and instance match the code, mask and instance fields of a route or counter word (R483, R488). -/
def fieldsHit (w code inst : Nat) : Bool :=
  (fld w 55 48 ^^^ code) &&& fld w 47 40 = 0 && (fld w 39 32 ^^^ inst) &&& fld w 31 24 = 0

/-- Whether an occurrence matches either term of a task input (R483). -/
def State.taskHit (s : State) (input : Nat) (o : Occ) : Bool :=
  [2 * input, 2 * input + 1].any fun n =>
    let w := s.routeWord n
    bit w 63 && fieldsHit w o.code o.inst

/-- Occurrences in ascending order of code, then of instance (R474). -/
def occInsert (o : Occ) : List Occ → List Occ
  | [] => [o]
  | p :: ps => if o.code < p.code || (o.code = p.code && o.inst < p.inst) then o :: p :: ps else p :: occInsert o ps

def occSort : List Occ → List Occ
  | [] => []
  | o :: os => occInsert o (occSort os)

/-- One record captured: its number, its pending bit, and its place in the queue or its loss (R474, R477, R491). -/
def Xrds.record (x : Xrds) (o : Occ) : Xrds :=
  let r : EvRec := ⟨x.seqNext, o.time, o.code, o.inst, o.data⟩
  let lvl := x.queue.length
  let fits := decide (lvl < 240) || (decide (lvl < 256) && reservedCode o.code)
  let x := { x with seqNext := (x.seqNext + 1) % 2 ^ 32, irqPending := x.irqPending ||| 2 ^ o.code }
  if fits then { x with queue := x.queue ++ [r], peak := max x.peak (lvl + 1) }
  else { x with lost := (x.lost + 1) % 2 ^ 32, lostPending := x.lostPending + 1 }

/-- A record queued for every session, and for the JTAG mailbox, whose mask holds its code (R67, R620). -/
def Gysol.push (now : Nat) (r : EvRec) (g : Gysol) : Gysol :=
  { g with
    mbPushes := if g.mbMask.testBit r.code && decide (g.mbPushes.length < 256) then g.mbPushes ++ [⟨r, now⟩] else g.mbPushes
    sessions := g.sessions.map fun ss =>
      if ss.mask.testBit r.code && decide (ss.pushes.length < 256) then { ss with pushes := ss.pushes ++ [⟨r, now⟩] } else ss }

/-- One occurrence of a cycle, as a record where it becomes one. -/
def State.captureRecord (s : State) (o : Occ) : State :=
  if o.rcd then
    (s.modGysol (·.push s.now ⟨s.xrds.seqNext, o.time, o.code, o.inst, o.data⟩)).modXrds (·.record o)
  else s

/-- Additions of a cycle to a task input's pending counter (R484): the new count, and how many additions were lost. -/
def taskAdd (pend hits : Nat) (merge : Bool) : Nat × Nat :=
  let n := pend + (if merge then min 1 hits else hits)
  (min 15 n, n - 15)

/-- Task input `i` in a cycle, with its overflow occurrence (R484, R485). -/
def State.captureTask (os : List Occ) (acc : State × List Occ × List Nat) (i : Nat) : State × List Occ × List Nat :=
  let s := acc.1
  let hits := (os.filter (s.taskHit i)).length
  let (p, lost) := taskAdd (natAt s.xrds.pending i) hits (bit (s.num 0x3011 i) 0)
  let ovf := (natAt s.xrds.overflow i + lost) % 2 ^ 32
  let newFlag := decide (0 < lost) && !(s.xrds.sticky.testBit i)
  (s.modXrds fun x => { x with
      pending := setAt x.pending i p
      overflow := setAt x.overflow i ovf
      sticky := if newFlag then x.sticky + 2 ^ i else x.sticky },
   if newFlag then acc.2.1 ++ [⟨s.stamp, 0x30, i, ovf % 65536, true⟩] else acc.2.1,
   acc.2.2 ++ [lost])

/-- Whether a counter's compare value lies in the counts just made (R489). -/
def compareHit (old add cmp : Nat) : Bool :=
  let d := (cmp + 2 ^ 48 - old % 2 ^ 48) % 2 ^ 48
  cmp != 0 && decide (0 < add) && (if d = 0 then decide (2 ^ 48 ≤ add) else decide (d ≤ add))

/-- `add` counts on counter `i`, with its match occurrence (R488, R489). -/
def State.countOn (i add : Nat) (s : State) : State × List Occ :=
  let old := natAt s.xrds.counters i
  let cmp := s.num 0x3022 i
  (s.modXrds fun x => { x with counters := setAt x.counters i ((old + add) % 2 ^ 48) },
   if compareHit old add cmp then [⟨s.stamp, 0x32, i, cmp % 65536, true⟩] else [])

/-- How much counter `i` counts of a cycle's occurrences and of the task additions lost in it (R488). -/
def State.counterAdd (s : State) (os : List Occ) (lost : List Nat) (i : Nat) : Nat :=
  let w := s.num 0x3020 i
  match fld w 63 56 with
  | 1 => (os.filter fun o => fieldsHit w o.code o.inst).length
  | 3 => natAt lost (fld w 55 48)
  | _ => 0

/-- One capture cycle (R474): the state after it, and the occurrences it raises for the next cycle. -/
def State.captureCycle (os : List Occ) (s : State) : State × List Occ :=
  let s1 := os.foldl State.captureRecord s
  let (s2, f2, lost) := (upTo 38).foldl (State.captureTask os) (s1, [], [])
  (upTo 64).foldl (fun (acc : State × List Occ) i =>
    let a := s1.counterAdd os lost i
    if a = 0 then acc else
      let r := acc.1.countOn i a
      (r.1, acc.2 ++ r.2)) (s2, f2)

/-- Capture of occurrences, 16 a cycle, in up to `n` cycles, those the cycles raise included (R474). -/
def State.captureFor : Nat → List Occ → State → State
  | 0, _, s => s
  | n + 1, os, s =>
    match os with
    | [] => s
    | _ =>
      let q := occSort os
      let r := s.captureCycle (q.take 16)
      State.captureFor n (q.drop 16 ++ r.2) r.1

/-- Capture of the occurrences that one command signals at once. 160 cycles outlast every chain of occurrences that can
follow: at most 38 overflow flags and 64 counter matches (R485, R489). -/
def State.raiseAll (os : List Occ) (s : State) : State := s.captureFor (160 + os.length) os

/-- An event raised now. -/
def State.raise (code inst data : Nat) (s : State) : State := s.raiseAll [⟨s.stamp, code, inst, data % 65536, true⟩]

/-- An event raised with a time of its own (R475). -/
def State.raiseAt (time code inst data : Nat) (s : State) : State := s.raiseAll [⟨time, code, inst, data % 65536, true⟩]

/-- An event raised now that a rate limit may keep from becoming a record (R473). -/
def State.raiseLimited (rcd : Bool) (code inst data : Nat) (s : State) : State :=
  s.raiseAll [⟨s.stamp, code, inst, data % 65536, rcd⟩]

/-- An occurrence of now, to be raised with others. -/
def State.occ (s : State) (code inst data : Nat) : Occ := ⟨s.stamp, code, inst, data % 65536, true⟩

/-! ## Leases of a task (R528, R529) -/

/-- A lease taken by a task of MGMT, or renewed. -/
def State.takeLeaseOf (n : Nat) (s : State) : State :=
  s.modFirm fun f => { f with leases := modAt f.leases n fun l => { l with st := 1, area := 2, holder := 0, renewed := s.now } }

/-- A lease released. -/
def State.dropLease (n : Nat) (s : State) : State :=
  s.modFirm fun f => { f with leases := modAt f.leases n fun l => { l with st := 0, area := 0, holder := 0 } }

end Sys2Proof.Machine
end

