-- ==== Sys2Proof/Machine/Units.lean ====
section
/-! DEFINITION. Unit state records: commanded and observed state, disagreement, held and forced commands (R34–R38, R535,
R603, R630). -/

namespace Sys2Proof.Machine

/-- Wire numbers of the unit families (R599). -/
def wPort (n : Nat) : Nat := 0x4A00 + n
def wLayer (n : Nat) : Nat := 0x6DC0 + n
def wArray (n : Nat) : Nat := 0xA800 + n
def wBand (n : Nat) : Nat := 0xC800 + n
def wString (n : Nat) : Nat := 0xC840 + n
def wDriver (n : Nat) : Nat := 0xD840 + n
def wWheel (n : Nat) : Nat := 0xE800 + n
def wUane (n : Nat) : Nat := 0xF800 + n

/-- The record of a unit. -/
def State.unitRec (s : State) (w : Nat) : UnitRec := (mapGet s.units w).getD {}

/-- A unit's observed state. -/
def State.obs (s : State) (w : Nat) : Nat := (s.unitRec w).obs

/-- Changes a unit's record. -/
def State.modUnit (w : Nat) (f : UnitRec → UnitRec) (s : State) : State :=
  s.modUnits fun us => us.map fun p => if p.1 = w then (w, f p.2) else p

/-- Device states with light, drive and running chains (R630). -/
def DevState.lit : DevState → Bool
  | .warming | .serving | .degraded => true
  | _ => false

/-- A unit's commanded state as it reads (R306, R603). -/
def State.unitCmd (s : State) (w : Nat) : Nat :=
  match viewOf w with
  | some (0x4008, n) => if s.flag 0x4000 n then 2 else 0
  | some (0x6017, n) => if s.flag 0x6001 n && s.num 0x6000 n != 0xFF then 1 else 0
  | some (0xA000, n) => if s.mews.dev.lit && bit (s.num 0xB031) n && (s.unitRec w).cmd = 2 then 3 else (s.unitRec w).cmd
  | _ => (s.unitRec w).cmd

/-- Whether an observed state answers a commanded one (R306, R426). -/
def unitAgrees (fam cmd obs : Nat) : Bool :=
  cmd = obs ||
  (match fam with
   | 0xA000 => cmd = 3 && obs = 4
   | 0xF000 => cmd = 2 && obs = 3
   | _ => false)

/-- Whether a unit's states agree. -/
def State.agrees (s : State) (w : Nat) : Bool :=
  unitAgrees (((viewOf w).map Prod.fst).getD 0) (s.unitCmd w) (s.obs w)

/-- Whether a commanded state needs light, drive or a running chain (R630). -/
def cmdNeedsLight (fam cmd : Nat) : Bool :=
  match fam with
  | 0xA000 => cmd = 3
  | 0xC000 | 0xC001 => cmd = 1
  | 0xD001 => cmd = 1
  | 0xE000 => cmd = 4
  | _ => false

/-- The transition allowance of a unit in ns (R535). A frame period of `p` ns counts for layers. -/
def State.allowance (s : State) (w p : Nat) : Nat :=
  match viewOf w with
  | some (0x4008, _) => 2000000000
  | some (0x6017, _) => 2 * p
  | some (0xA000, _) => 60000000
  | some (0xC000, _) | some (0xC001, _) => s.num 0x0014 * 1000000
  | some (0xD001, _) => 110000000
  | some (0xE000, n) => 60000000000 * s.num 0xE01C n
  | some (0xF000, _) => 60000000
  | _ => 0

/-- Whether a difference counts as a transition because the device state gives no light or drive (R630). -/
def State.darkExempt (s : State) (w : Nat) : Bool :=
  !s.mews.dev.lit && (cmdNeedsLight (((viewOf w).map Prod.fst).getD 0) (s.unitCmd w) ||
    (match viewOf w with
      | some (0xA000, n) => bit (s.num 0xB031) n
      | _ => false))

/-- A new observed state: the allowance of R535 starts again. -/
def State.setObs (w v : Nat) (s : State) : State :=
  if s.obs w = v then s
  else s.modUnit w fun u => { u with obs := v, chg := s.now, dis := false, evt := false }

/-- A new commanded state: the allowance of R535 starts again, and no command is held. -/
def State.setCmd (w v : Nat) (s : State) : State :=
  s.modUnit w fun u => { u with cmd := v, chg := s.now, dis := false, evt := false, held := 0xFF, forced := false }

/-- The allowance of a unit ends with its states still different, and `disagree` sets (R35, R535). -/
def State.disagreeExpiry (w period : Nat) (s : State) : State :=
  let u := s.unitRec w
  if s.agrees w || s.darkExempt w || u.dis || decide (s.now < u.chg + s.allowance w period) then s
  else s.modUnit w fun u => { u with dis := true, disSince := s.now }

/-- A unit set to disagree at once, as a third bus timeout does (R520). Where its difference counts as a transition, it does not set
(R630). -/
def State.forceDisagree (w : Nat) (s : State) : State :=
  if s.darkExempt w then s else s.modUnit w fun u => if u.dis then u else { u with dis := true, disSince := s.now }

/-- Units whose commanded state is another than it read in `old`, or whose difference has come to count as a transition: their
disagreement ends, and the allowance of R535 starts again (R35, R630). -/
def State.recommand (old s : State) : State :=
  s.modUnits fun us => us.map fun p =>
    if s.unitCmd p.1 != old.unitCmd p.1 || (s.darkExempt p.1 && !old.darkExempt p.1) then
      (p.1, { p.2 with chg := s.now, dis := false, evt := false })
    else p

/-- The event of a unit in disagreement for 3 s; its area's degraded bit sets with it (R36). -/
def State.disagreeEvent (w : Nat) (s : State) : State :=
  let u := s.unitRec w
  if u.dis && !u.evt && decide (u.disSince + 3000000000 ≤ s.now) then
    (s.modUnit w fun u => { u with evt := true }).raise 0x20 0 w
  else s

/-- A command held under R37. A newer one replaces it. -/
def State.holdCmd (w v : Nat) (s : State) : State := s.modUnit w fun u => { u with held := v, forced := false }

/-- Whether a unit of an area has raised event 0x20 and still disagrees. -/
def State.areaDisagrees (s : State) (area : Nat) : Bool := s.units.any fun p => p.1 / 4096 = area && p.2.evt

/-- Units whose held command is due at a frame boundary: reconciled, or forced (R37). -/
def State.heldDue (s : State) : List (Nat × Nat) :=
  (s.units.filter fun p => p.2.held != 0xFF && (s.agrees p.1 || p.2.forced)).map fun p => (p.1, p.2.held)

end Sys2Proof.Machine
end

