-- ==== Sys2Proof/Machine/Groups.lean ====
section
/-! DEFINITION. Image groups: how the layout of R250 forms them from the array ports, and the size of their output (R17, R142,
R250, R251). Every function reads object values through a view, so that validation can use the values a commit would give. -/

namespace Sys2Proof.Machine

/-- Object values as a reader sees them: object, subindex, number. -/
abbrev View := Nat → Nat → Nat

/-- The running values. -/
def State.live (s : State) : View := fun obj sub => s.num obj sub

/-- Group kinds of R142. -/
inductive GKind where
  | solo | split2 | quad | trio
  deriving DecidableEq, Repr

/-- The groups of a layout: group number, kind, array ports in order (R250). -/
def layoutGroups : Nat → List (Nat × GKind × List Nat)
  | 0 => [(0, .solo, [0]), (1, .solo, [1]), (2, .solo, [2]), (3, .solo, [3])]
  | 1 => [(0, .split2, [0, 1]), (2, .split2, [2, 3])]
  | 2 => [(0, .split2, [0, 1]), (2, .solo, [2]), (3, .solo, [3])]
  | 3 => [(0, .solo, [0]), (1, .solo, [1]), (2, .split2, [2, 3])]
  | 4 => [(0, .quad, [0, 1, 2, 3])]
  | 5 => [(0, .trio, [0, 1, 2]), (3, .solo, [3])]
  | 6 => [(0, .solo, [0]), (1, .trio, [1, 2, 3])]
  | _ => []

/-- Kind and array ports of a group under a view; none where the layout has no such group (log entry 72, DEDUCED, unsafe). -/
def groupOf (v : View) (g : Nat) : Option (GKind × List Nat) :=
  ((layoutGroups (v 0xB030 0)).find? fun p => p.1 = g).map Prod.snd

/-- The group an array port belongs to. -/
def portGroup (v : View) (ap : Nat) : Nat :=
  (((layoutGroups (v 0xB030 0)).find? fun p => p.2.2.contains ap).map Prod.fst).getD ap

/-- Whether a group exists: every one of its arrays is enabled (R251). -/
def groupExists (v : View) (g : Nat) : Bool :=
  match groupOf v g with
  | some (_, aps) => aps.all fun a => bit (v 0xB031 0) a
  | none => false

/-- The groups that exist. -/
def existingGroups (v : View) : List Nat := (upTo 4).filter (groupExists v)

/-- Width and height of an array port's geometry (R249). -/
def arrayW (v : View) (ap : Nat) : Nat := fld (v 0xB032 ap) 31 16
def arrayH (v : View) (ap : Nat) : Nat := fld (v 0xB032 ap) 15 0

/-- Output size of a group (R142). -/
def outSize (v : View) (g : Nat) : Option (Nat × Nat) :=
  match groupOf v g with
  | some (k, ap :: _) =>
    let w := arrayW v ap
    let h := arrayH v ap
    some (match k with
      | .solo | .trio => (w, h)
      | .split2 => (2 * w, h)
      | .quad => (2 * w, 2 * h))
  | _ => none

/-- Where array `ap` starts in its group's output (R142). -/
def arrayOrigin (v : View) (ap : Nat) : Nat × Nat :=
  match groupOf v (portGroup v ap) with
  | some (.split2, aps) => if aps.head? = some ap then (0, 0) else (arrayW v ap, 0)
  | some (.quad, _) => ((ap % 2) * arrayW v ap, (ap / 2) * arrayH v ap)
  | _ => (0, 0)

/-- The layers of a group, ascending: enabled and assigned to it (R142). -/
def groupLayers (v : View) (g : Nat) : List Nat := (upTo 16).filter fun n => v 0x6001 n != 0 && v 0x6000 n = g

/-- Whether a layer is composed at all (R142, R168). -/
def layerOn (v : View) (n : Nat) : Bool := v 0x6001 n != 0 && v 0x6000 n != 0xFF

/-- Committed buffer size of a layer, none where it has none (R146, R154, R440). -/
def bufSize (v : View) (n : Nat) : Option (Nat × Nat) :=
  if 8 ≤ n then some (fld (v 0x6030 (n - 8)) 31 16, fld (v 0x6030 (n - 8)) 15 0)
  else if fld (v 0xF042 n) 7 0 = 1 then some (fld (v 0xF043 n) 31 16, fld (v 0xF043 n) 15 0)
  else if v 0x4010 n != 0xFF then some (rectPart 31 16, rectPart 15 0)
  else none
where
  rectPart (hi lo : Nat) : Nat := fld (v 0x4011 n) hi lo

/-- Crop of a video layer in buffer pixels: x, y, width, height (R146). -/
def cropOf (v : View) (n : Nat) : Nat × Nat × Nat × Nat :=
  let r := v 0x6002 n
  if fld r 31 16 = 0 then
    let b := (bufSize v n).getD (0, 0)
    (0, 0, b.1, b.2)
  else (fld r 63 48, fld r 47 32, fld r 31 16, fld r 15 0)

/-- A layer's rectangle in output pixels (R146, R154, R179): x and y signed, width, height. -/
def dstOf (v : View) (n : Nat) : Int × Int × Nat × Nat :=
  let r := v 0x6003 n
  let x := toS 16 (fld r 63 48)
  let y := toS 16 (fld r 47 32)
  if 8 ≤ n then
    let b := (bufSize v n).getD (0, 0)
    (x, y, b.1, b.2)
  else (x, y, fld r 31 16, fld r 15 0)

/-- The AUTO step of an axis (R147). -/
def autoStep (crop dst : Nat) : Nat := if dst = 0 then 0 else divHalfUp (crop * 2 ^ 20) dst

/-- Steps and initial offsets of a video layer: horizontal step, vertical step, horizontal offset, vertical offset (R147). -/
def stepsOf (v : View) (n : Nat) : Nat × Nat × Int × Int :=
  if v 0x6005 n = 1 then
    (fld (v 0x6006 n) 63 32, fld (v 0x6006 n) 31 0, toS 32 (fld (v 0x6007 n) 63 32), toS 32 (fld (v 0x6007 n) 31 0))
  else
    let (_, _, cw, ch) := cropOf v n
    let (_, _, dw, dh) := dstOf v n
    (autoStep cw dw, autoStep ch dh, 0, 0)

/-- The order of layers from the bottom (R160). -/
def blendOrder (v : View) : List Nat :=
  let o := if v 0x6010 0 = 0 then 0xFEDCBA9876543210 else v 0x6011 0
  (upTo 16).map fun k => fld o (4 * k + 3) (4 * k)

end Sys2Proof.Machine
end

