-- ==== Sys2Proof/Machine/Checks.lean ====
section
/-! DEFINITION. The check values of R629, and the SHA-256 and HMAC-SHA-256 that R73 and R557 name. -/

namespace Sys2Proof.Machine

/-- One bit of an msb-first CRC of width `w` and polynomial `poly`. -/
def crcStep (w poly reg : Nat) (b : Bool) : Nat :=
  let top := reg.testBit (w - 1) != b
  let sh := (reg * 2) % 2 ^ w
  if top then sh ^^^ poly else sh

/-- The bits of a byte, msb first. -/
def bitsMsb (b : Byte) : List Bool := [7, 6, 5, 4, 3, 2, 1, 0].map fun k => b.getLsbD k

/-- The bits of a byte, lsb first. -/
def bitsLsb (b : Byte) : List Bool := [0, 1, 2, 3, 4, 5, 6, 7].map fun k => b.getLsbD k

/-- The low `w` bits of `v` in reverse order. -/
def reflect (w v : Nat) : Nat := (upTo w).foldl (fun a k => if v.testBit k then a + 2 ^ (w - 1 - k) else a) 0

/-- CRC-16 of R629. -/
def crc16 (bs : Bytes) : Nat :=
  bs.foldl (fun r b => (bitsMsb b).foldl (crcStep 16 0x1021) r) 0xFFFF

/-- A reflected 32-bit CRC of R629. -/
def crc32With (poly : Nat) (bs : Bytes) : Nat :=
  reflect 32 (bs.foldl (fun r b => (bitsLsb b).foldl (crcStep 32 poly) r) 0xFFFFFFFF) ^^^ 0xFFFFFFFF

/-- CRC-32 (IEEE 802.3 polynomial) of R629. -/
def crc32 (bs : Bytes) : Nat := crc32With 0x04C11DB7 bs

/-- CRC-32C of R629. -/
def crc32c (bs : Bytes) : Nat := crc32With 0x1EDC6F41 bs

/-! ## SHA-256 and HMAC-SHA-256, which R73 and R557 name by their standard. -/

abbrev W32 := BitVec 32

/-- Whether a number from 2 to 18² has no divisor from 2 to 17. -/
def isPrime (n : Nat) : Bool := decide (2 ≤ n) && (upTo 16).all fun k => decide (n ≤ k + 2) || n % (k + 2) != 0

/-- The first 64 primes. -/
def shaPrimes : List Nat := (upTo 312).filter isPrime

/-- The largest `x` below `2 ^ bits + x0` with `x ^ k ≤ n`, found bit by bit from `x0` up. -/
def rootFrom (k n : Nat) : Nat → Nat → Nat
  | 0, x => x
  | bits + 1, x => rootFrom k n bits (if (x + 2 ^ bits) ^ k ≤ n then x + 2 ^ bits else x)

/-- The first 32 fractional bits of the `k`-th root of a small number. -/
def rootFraction (k n : Nat) : Nat := rootFrom k (n * 2 ^ (32 * k)) 37 0 % 2 ^ 32

/-- The constant of each of the 64 rounds: fractions of the cube roots of the primes. -/
def roundKeys : List W32 := shaPrimes.map fun p => BitVec.ofNat 32 (rootFraction 3 p)

/-- The hash value in work: the last four values of each of the two recurrences of SHA-256, newest first. -/
structure Hash where
  up : List W32
  low : List W32
  deriving DecidableEq, Repr

/-- The hash value that a message starts from: fractions of the square roots of the first eight primes. -/
def Hash.start : Hash :=
  let w := (shaPrimes.take 8).map fun p => BitVec.ofNat 32 (rootFraction 2 p)
  ⟨w.take 4, w.drop 4⟩

/-- Three rotations of a word, added without carry. -/
def spin (i j k : Nat) (w : W32) : W32 := w.rotateRight i ^^^ w.rotateRight j ^^^ w.rotateRight k

/-- Two rotations and a shift of a word, added without carry. -/
def stir (i j k : Nat) (w : W32) : W32 := w.rotateRight i ^^^ w.rotateRight j ^^^ w >>> k

/-- One round: `feed` is the sum of its constant and its word of the message. -/
def Hash.round (x : Hash) (feed : W32) : Hash :=
  match x.up, x.low with
  | [u0, u1, u2, u3], [l0, l1, l2, l3] =>
    let pick := l2 ^^^ (l0 &&& (l1 ^^^ l2))
    let vote := (u0 &&& (u1 ||| u2)) ||| (u1 &&& u2)
    let t := feed + l3 + spin 6 11 25 l0 + pick
    ⟨[vote + spin 2 13 22 u0 + t, u0, u1, u2], [u3 + t, l0, l1, l2]⟩
  | _, _ => x

/-- The words of a block, most recent first, grown by `n`. -/
def growWords : Nat → List W32 → List W32
  | 0, ws => ws
  | n + 1, ws =>
    growWords n ((stir 17 19 10 (ws.getD 1 0) + stir 7 18 3 (ws.getD 14 0) + ws.getD 6 0 + ws.getD 15 0) :: ws)

/-- The 16 big-endian words of a block, most recent first. -/
def blockWords (block : Bytes) : List W32 := (upTo 16).foldl (fun ws k => BitVec.ofNat 32 (ofBE (slice block (4 * k) 4)) :: ws) []

/-- One block of 64 bytes taken into the hash value. -/
def Hash.block (x : Hash) (block : Bytes) : Hash :=
  let feeds := List.zipWith (· + ·) roundKeys (growWords 48 (blockWords block)).reverse
  let y := feeds.foldl Hash.round x
  ⟨List.zipWith (· + ·) x.up y.up, List.zipWith (· + ·) x.low y.low⟩

/-- Big-endian bytes of a number. -/
def toBE (n v : Nat) : Bytes := (toLE n v).reverse

/-- A message with its end mark, zeros up to 8 bytes short of a whole number of blocks, and its length in bits. -/
def padMessage (bs : Bytes) : Bytes :=
  bs ++ 0x80#8 :: List.replicate ((119 - bs.length % 64) % 64) 0 ++ toBE 8 (8 * bs.length)

/-- SHA-256 of a byte string. -/
def sha256 (bs : Bytes) : Bytes :=
  let p := padMessage bs
  let h := (upTo (p.length / 64)).foldl (fun x k => x.block (slice p (64 * k) 64)) Hash.start
  (h.up ++ h.low).flatMap fun w => toBE 4 w.toNat

/-- HMAC-SHA-256 of a message under a key of at most 64 bytes. -/
def hmac (key msg : Bytes) : Bytes :=
  let whole := key ++ List.replicate (64 - key.length) 0
  let masked (b : Byte) : Bytes := whole.map (b ^^^ ·)
  sha256 (masked 0x5C ++ sha256 (masked 0x36 ++ msg))

end Sys2Proof.Machine
end

