-- ==== Sys2Proof/Machine/Hbm.lean ====
section
/-! DEFINITION. Frame memory: the address map, ports and panic, ECC and row repair, replay, training, refresh and
self-refresh (R114–R140, R521). -/

namespace Sys2Proof.Machine

/-! ## Addresses -/

/-- The exclusive or of the 6-bit fields of `t`, `n` of them at most (R116). -/
def fold6 : Nat → Nat → Nat
  | 0, _ => 0
  | n + 1, t => if t = 0 then 0 else (t % 64) ^^^ fold6 n (t / 64)

/-- Grain exponent of the pool an address lies in (R115, R116). -/
def poolGrain (grain a : Nat) : Nat := if a < 0x100000000 then 12 else grain

/-- Pseudo-channel and local address of a byte address (R116). -/
def addrMap (grain a : Nat) : Nat × Nat :=
  let fixed := decide (a < 0x100000000)
  let g := poolGrain grain a
  let x := if fixed then a else a - 0x100000000
  let o := x % 2 ^ g
  let q := x >>> g
  let p := (q % 64) ^^^ fold6 12 (q >>> 6)
  let loc := ((q >>> 6) <<< g) + o
  (p, if fixed then loc else 67108864 + loc)

/-- What a local address selects (R117). -/
structure LocalPlace where
  row : Nat
  bank : Nat
  group : Nat
  column : Nat
  deriving DecidableEq, Repr

/-- The fields of a local address (R117). -/
def localPlace (l : Nat) : LocalPlace := ⟨fld l 28 14, fld l 13 12, fld l 11 10, fld l 9 5⟩

/-- The row an address lies in, and its column there. -/
def placeOf (grain a : Nat) : HRow × Nat :=
  let (p, l) := addrMap grain a
  let q := localPlace l
  (⟨p, q.group, q.bank, q.row⟩, q.column)

/-- The row an address lies in. -/
def rowOf (grain a : Nat) : HRow := (placeOf grain a).1

/-- The address of a column of a row: R116 and R117 read backwards. Rows 0 to 4,095 belong to the fixed pool. -/
def HRow.addr (grain : Nat) (r : HRow) (column : Nat) : Nat :=
  let l := r.row * 2 ^ 14 + r.bank * 2 ^ 12 + r.group * 2 ^ 10 + column * 2 ^ 5
  let fixed := decide (r.row < 4096)
  let g := if fixed then 12 else grain
  let loc := if fixed then l else l - 67108864
  let q := loc >>> g * 64 + (r.p ^^^ fold6 12 (loc >>> g))
  (if fixed then 0 else 0x100000000) + q <<< g + loc % 2 ^ g

/-- Channel of a row: two pseudo-channels each (R114). -/
def HRow.chan (r : HRow) : Nat := r.p / 2

/-- Event data of a row: [15] pseudo-channel, [14:0] row (R140). -/
def HRow.data (r : HRow) : Nat := (r.p % 2) * 32768 + r.row % 32768

/-- 0x5044: the word of a shadow, with L[13:10] for bank and bank group (R117, R139). -/
def Shadow.word (h : Shadow) : Nat := 2 ^ 31 + h.at_.p * 2 ^ 25 + (h.at_.bank * 4 + h.at_.group) * 2 ^ 21 + h.at_.row * 2 ^ 6

/-! ## Regions and words -/

/-- 0x5020: the word of a region (R139). -/
def HRegion.word (r : HRegion) : Nat := r.owner * 2 ^ 56 + r.base % 2 ^ 28 * 2 ^ 28 + r.size % 2 ^ 28

/-- First address over 32 of a region, and the one past its last. -/
def HRegion.start (r : HRegion) : Nat := r.base * 8
def HRegion.stop (r : HRegion) : Nat := (r.base + r.size) * 8

/-- The region of an owner. -/
def Hbm.regionOf (h : Hbm) (owner : Nat) : Option HRegion := h.regions.find? fun r => r.owner = owner

/-- The region that holds a word address. -/
def Hbm.regionAt (h : Hbm) (w : Nat) : Option HRegion := h.regions.find? fun r => decide (r.start ≤ w) && decide (w < r.stop)

/-- Key of a buffer word: owner code of 0x5020, buffer, word index. -/
def wkey (owner buf idx : Nat) : Nat := (owner * 16 + buf) * 2 ^ 24 + idx

/-- The address over 32 of a buffer word: an owner's buffers follow one another in its region (log entry 9, DESIGN CHOICE, unsafe). -/
def Hbm.addrOf (h : Hbm) (k : Nat) : Option Nat :=
  (h.regionOf (k / 2 ^ 28)).map fun r => r.start + k / 2 ^ 24 % 16 * r.per + k % 2 ^ 24

/-- The key of the buffer word at an address over 32, none outside the layers' buffers. -/
def Hbm.keyAt (h : Hbm) (w : Nat) : Option Nat :=
  match h.regionAt w with
  | some r =>
    if r.owner < 0x20 then some (wkey r.owner ((w - r.start) / max 1 r.per) ((w - r.start) % max 1 r.per)) else none
  | none => none

/-- The shadow that a word address falls to: its index and the word's column (R132). -/
def Hbm.shadowAt (h : Hbm) (w : Nat) : Option (Nat × Nat) :=
  if h.shadows.all Option.isNone then none
  else
    let (r, c) := placeOf h.grain (w * 32)
    (h.shadows.findIdx? fun x => x.map Shadow.at_ = some r).map fun i => (i, c)

/-- The shadow that serves a word address: one whose copy is done (R132). -/
def Hbm.servedBy (h : Hbm) (w : Nat) : Option (Shadow × Nat) :=
  (h.shadowAt w).bind fun q => (h.shadows.getD q.1 none).bind fun x => if x.copying then none else some (x, q.2)

/-- A word of the stacks' own cells by address over 32. -/
def Hbm.cell (h : Hbm) (w : Nat) : MemWord :=
  match h.keyAt w with
  | some k => (mapGet h.words k).getD 0
  | none => (mapGet h.raw w).getD 0

/-- The word at an address over 32, from its shadow where one serves its row (R132). -/
def Hbm.wordAt (h : Hbm) (w : Nat) : MemWord :=
  match h.servedBy w with
  | some (x, c) => x.words.getD c 0
  | none => h.cell w

/-- A buffer word; zero when never written since its allocation (R119). -/
def Hbm.word (h : Hbm) (k : Nat) : MemWord :=
  match (h.addrOf k).bind h.servedBy with
  | some (x, c) => x.words.getD c 0
  | none => (mapGet h.words k).getD 0

/-- Whether a read of a word address returns poisoned: uncorrectable, or on a quarantined channel (R126, R128, R130, R132). -/
def Hbm.bad (h : Hbm) (w : Nat) : Bool :=
  ((h.chans.any fun c => c.st = 3) && (h.chans.getD (rowOf h.grain (w * 32)).chan {}).st = 3) ||
  (match h.servedBy w with
    | some (x, c) => bit x.poison c
    | none => h.poisoned.contains w)

/-- What a client's write does beside the cell: the word is good again, and a shadow of its row takes it too (R128, R132). -/
def Hbm.wrote (w : Nat) (v : MemWord) (h : Hbm) : Hbm :=
  { h with
    poisoned := h.poisoned.filter (· != w)
    shadows := match h.shadowAt w with
      | some (i, c) => modAt h.shadows i fun o => o.map fun x => { x with words := x.words.setIfInBounds c v, poison := setBit x.poison c false }
      | none => h.shadows }

/-- A word written by a client at an address over 32 outside the layers' buffers. -/
def Hbm.putRaw (w : Nat) (v : MemWord) (h : Hbm) : Hbm :=
  let h1 := h.wrote w v
  if (h.servedBy w).isSome then h1 else { h1 with raw := mapSet 0 h1.raw w v }

/-- A buffer word written. -/
def Hbm.putWord (k : Nat) (v : MemWord) (h : Hbm) : Hbm :=
  match h.addrOf k with
  | none => { h with words := mapSet 0 h.words k v }
  | some w =>
    let h1 := h.wrote w v
    if (h.servedBy w).isSome then h1 else { h1 with words := mapSet 0 h1.words k v }

/-- A word written by a client at an address over 32. -/
def Hbm.putAt (w : Nat) (v : MemWord) (h : Hbm) : Hbm :=
  match h.keyAt w with
  | some k => h.putWord k v
  | none => h.putRaw w v

/-- Pixel `k` of a word (R94). -/
def pixelAt (w : MemWord) (k : Nat) : Nat := (w.toNat >>> (36 * k)) % 2 ^ 36

/-- The write-epoch nibble of a word (R94). -/
def epochOf (w : MemWord) : Nat := w.toNat >>> 252

/-- A word with pixel `k` and the nibble replaced. -/
def withPixel (w : MemWord) (k px epoch : Nat) : MemWord :=
  let v := w.toNat % 2 ^ 252
  BitVec.ofNat 256 (v - pixelAt w k * 2 ^ (36 * k) + (px % 2 ^ 36) * 2 ^ (36 * k) + (epoch % 16) * 2 ^ 252)

/-- Pixel `i` of a buffer written, its word taking the epoch. -/
def Hbm.putPixel (owner buf epoch i px : Nat) (h : Hbm) : Hbm :=
  h.putWord (wkey owner buf (i / 7)) (withPixel (h.word (wkey owner buf (i / 7))) (i % 7) px epoch)

/-- A run of pixels written from pixel index `i` on, each word taking the epoch (R94, R99). -/
def Hbm.putPixels (owner buf epoch : Nat) : Nat → List Nat → Hbm → Hbm
  | _, [], h => h
  | i, px :: ps, h => Hbm.putPixels owner buf epoch (i + 1) ps (h.putPixel owner buf epoch i px)

/-- Poison and shadowed words of a range of word addresses gone, as where the range is zeroed. -/
def Hbm.wiped (from_ to_ : Nat) (h : Hbm) : Hbm :=
  let inside (w : Nat) : Bool := decide (from_ ≤ w) && decide (w < to_)
  { h with
    poisoned := h.poisoned.filter fun w => !inside w
    shadows := h.shadows.map fun o => o.map fun x =>
      let hit (c : Nat) : Bool := inside (x.at_.addr h.grain c / 32)
      { x with words := x.words.mapIdx fun c v => if hit c then 0 else v
               poison := maskOf 32 fun c => bit x.poison c && !hit c } }

/-- Every word of a buffer zeroed, as at its allocation (R99, R119). -/
def Hbm.zeroBuf (owner buf : Nat) (h : Hbm) : Hbm :=
  let h1 := match h.regionOf owner with
    | some r => h.wiped (r.start + buf * r.per) (r.start + (buf + 1) * r.per)
    | none => h
  { h1 with words := h1.words.filter fun e => e.1 / 2 ^ 24 != owner * 16 + buf }

/-- Every word of an owner's buffers zeroed. -/
def Hbm.zeroOwner (owner : Nat) (h : Hbm) : Hbm :=
  let h1 := match h.regionOf owner with
    | some r => h.wiped r.start r.stop
    | none => h
  { h1 with words := h1.words.filter fun e => e.1 / 2 ^ 28 != owner }

/-! ## Ports and panic (R122, R124) -/

/-- Whether a level of a read port calls for panic, given whether it is in panic: below the set threshold to enter, above
the clear threshold to leave. -/
def readPanic (set clear : Nat) (was : Bool) (level : Nat) : Bool :=
  if was then !decide (clear < level) else decide (level < set)

/-- The same for a write port, with the sense reversed. -/
def writePanic (set clear : Nat) (was : Bool) (level : Nat) : Bool :=
  if was then !decide (level < clear) else decide (set < level)

/-- Whether an HBM port reads (R122). -/
def portReads (n : Nat) : Bool := n = 0 || n = 1 || n = 2 || n = 3 || n = 5

/-- A port's new levels, with its panic state (R124). `th` is 0x5031. -/
def HPort.setLevels (n th level levelW : Nat) (p : HPort) : HPort :=
  if n = 7 then
    let r := readPanic (16 * fld th 31 24) (16 * fld th 23 16) p.panic level
    let w := writePanic (16 * fld th 15 8) (16 * fld th 7 0) p.panicW levelW
    { p with level := level, levelW := levelW, panic := r, panicW := w
             panics := if (r || w) && !(p.panic || p.panicW) then p.panics + 1 else p.panics }
  else if n = 8 then { p with level := level }
  else
    let r := if portReads n then readPanic (fld th 31 16) (fld th 15 0) p.panic level
             else writePanic (fld th 31 16) (fld th 15 0) p.panic level
    { p with level := level, panic := r, panics := if r && !p.panic then p.panics + 1 else p.panics }

/-- 0x5032: the present level, for RT7 that of the direction nearer panic (R139). -/
def HPort.shownLevel (n th : Nat) (p : HPort) : Nat :=
  if n = 7 then
    (if (p.level : Int) - 16 * fld th 31 24 ≤ (16 * fld th 15 8 : Int) - p.levelW then p.level else p.levelW)
  else p.level

/-- A port's levels after an access, with event 0x49 on entry to panic. -/
def State.hbmLevels (n level levelW : Nat) (s : State) : State :=
  let th := s.num 0x5031 n
  let p := s.hbm.ports.getD n {}
  let p' := p.setLevels n th level levelW
  let s' := s.modHbm fun h => { h with ports := setAt h.ports n p' }
  if p.panics < p'.panics then s'.raise 0x49 n (sat 65535 (p'.shownLevel n th)) else s'

/-! ## Errors and row repair (R127, R128, R132, R133) -/

/-- Whether a limit of one event per ms lets one become a record (R127, R129). -/
def msGap (last : Option Nat) (now : Nat) : Bool :=
  match last with
  | none => true
  | some l => decide (l + 1000000 ≤ now)

/-- Claims a shadow for a row, or reports that none is free. A row that has one keeps it (R132, R133). -/
def State.shadowRow (r : HRow) (s : State) : State :=
  if s.hbm.shadows.any fun h => (h.map Shadow.at_) = some r then s
  else match s.hbm.shadows.findIdx? (· = none) with
    | some i => s.modHbm fun h => { h with shadows := setAt h.shadows i (some { at_ := r, copying := true }) }
    | none => s.raise 0x54 r.chan r.data

/-- The 32 words of a row, as the stacks hold them, in its shadow; an uncorrectable word stays so there (R132). -/
def Shadow.filled (h : Hbm) (x : Shadow) : Shadow :=
  let at_ (c : Nat) : Nat := x.at_.addr h.grain c / 32
  { x with
    copying := false
    words := Vector.ofFn fun c => h.cell (at_ c)
    poison := maskOf 32 fun c => h.poisoned.contains (at_ c) }

/-- One corrected error counted on a row at an entry: the count reached, whether it reaches the threshold for the first time, and the
tracker after it (R127). -/
def trackAdd (now limit : Nat) (r : HRow) : List TrackRow → List TrackRow × Bool
  | [] => ([⟨r, 1, now, decide (limit ≤ 1)⟩], decide (limit ≤ 1))
  | e :: es =>
    if e.at_ = r then
      let reached := decide (limit ≤ e.count + 1)
      (⟨r, e.count + 1, now, e.hit || reached⟩ :: es, reached && !e.hit)
    else let (es', n) := trackAdd now limit r es; (e :: es', n)

/-- A corrected word on an address (R127). A full tracker takes no new row (log entry 140, DESIGN CHOICE, unsafe). -/
def State.hbmCorrected (a : Nat) (s : State) : State :=
  let r := rowOf s.hbm.grain a
  let st := r.chan / 16
  let (tr, reached) := trackAdd s.now (s.num 0x5040) r (s.hbm.trackers.getD st [])
  let room := decide (tr.length ≤ 256)
  let s1 := s.modHbm fun h => { h with
    chans := modAt h.chans r.chan fun c => { c with ce := (c.ce + 1) % 2 ^ 32 }
    trackers := if room then setAt h.trackers st tr else h.trackers }
  if room && reached then (s1.shadowRow r).raise 0x4A r.chan r.data else s1

/-- An uncorrectable word on an address (R127, R128). -/
def State.hbmUncorrectable (a : Nat) (s : State) : State :=
  let r := rowOf s.hbm.grain a
  let c := s.hbm.chans.getD r.chan {}
  let rcd := msGap c.ueEvent s.now
  let s1 := s.modHbm fun h => { h with
    chans := modAt h.chans r.chan fun c =>
      { c with ue := (c.ue + 1) % 2 ^ 32, ueEvent := if rcd then some s.now else c.ueEvent }
    poisoned := if h.poisoned.contains (a / 32) then h.poisoned else h.poisoned ++ [a / 32] }
  (s1.raiseLimited rcd 0x4B r.chan r.data).shadowRow r

/-- The severity of a returned word: 0 none, 1 corrected, 2 uncorrectable. A word that its row's shadow serves comes from SRAM and
carries none. -/
def State.hbmSeverity (a sev : Nat) (s : State) : State :=
  if (s.hbm.servedBy (a / 32)).isSome then s
  else match sev with
    | 0 => s
    | 1 => s.hbmCorrected a
    | _ => s.hbmUncorrectable a

/-- A shadow's words written into its repaired row, and the shadow freed; a word still uncorrectable stays so (R133). -/
def Hbm.unshadow (i : Nat) (x : Shadow) (h : Hbm) : Hbm :=
  let h1 := { h with shadows := setAt h.shadows i none }
  (upTo 32).foldl (fun (h : Hbm) c =>
    let w := x.at_.addr h.grain c / 32
    let h2 := h.putAt w (x.words.getD c 0)
    if bit x.poison c then { h2 with poisoned := h2.poisoned ++ [w] } else h2) h1

/-- One shadowed row fused at entry to self-refresh, when a repair is left (R133). A copy that still runs ends first. -/
def State.fuseShadow (s : State) (i : Nat) : State :=
  match s.hbm.shadows.getD i none with
  | none => s
  | some x =>
    let ch := x.at_.chan
    if (s.hbm.chans.getD ch {}).pprUsed < Config.pprNew ch then
      (s.modHbm fun m => { m.unshadow i (if x.copying then x.filled m else x) with
        chans := modAt m.chans ch fun c => { c with pprUsed := c.pprUsed + 1 } }).raise 0x4F ch x.at_.data
    else s.raise 0x54 ch x.at_.data

/-- Every request in flight completed, and nothing left in a FIFO (R138). -/
def Hbm.drained (h : Hbm) : Hbm :=
  { h with
    ports := h.ports.map fun p => { p with queue := [], level := 0, levelW := 0, panic := false, panicW := false }
    chans := h.chans.map fun c => { c with replay := [] }
    openRows := [], badReads := [] }

/-- Entry to self-refresh (R138): rows are fused where the policy is AUTO or their fuse was approved (R133, R509). -/
def State.hbmSelfRefresh (approved : HRow → Bool) (s : State) : State :=
  if s.hbm.status = 3 || s.hbm.status = 0 || s.hbm.status = 4 then s
  else
    let due := (upTo 32).filter fun i =>
      match s.hbm.shadows.getD i none with
      | some h => approved h.at_
      | none => false
    ((due.foldl State.fuseShadow (s.modHbm Hbm.drained)).modHbm fun h => { h with status := 3 }).raise 0x52 0 1

/-- Exit from self-refresh: the quick training runs first (R135, R138). -/
def State.hbmExitRefresh (s : State) : State :=
  if s.hbm.status = 3 then
    ((s.modHbm fun h => { h with status := 1, training := 2, retrying := false }).takeLeaseOf 2).raise 0x52 0 0
  else s

/-- Stacks unpowered: contents lost (R138). -/
def Hbm.powerOff (h : Hbm) : Hbm :=
  { h.drained with
    status := 0, words := [], raw := [], poisoned := [], shadows := List.replicate 32 none, training := 0, retrying := false }

/-! ## Replay, timeouts and training (R126, R129, R130, R134, R135, R521) -/

/-- A channel sent to RETRAINING. A quarantined one stays as it is until a STANDBY cycle (R130). -/
def State.hbmRetrain (ch : Nat) (s : State) : State :=
  if (s.hbm.chans.getD ch {}).st = 3 then s
  else s.modHbm fun h => { h with chans := modAt h.chans ch fun c => { c with st := 2, recur := 0, timeouts := [], replay := [] } }

/-- A parity alert (R129, R130): the channel stops, and the last `n` commands of its retry buffer wait to be replayed, in their order.
The third alert in a row on a replay sends it to RETRAINING (log entry 13, DESIGN CHOICE, unsafe). -/
def State.hbmReplay (ch pc kind n : Nat) (onReplay : Bool) (s : State) : State :=
  let c := s.hbm.chans.getD ch {}
  let rcd := msGap c.parityEvent s.now
  let rec' := if onReplay then c.recur + 1 else 0
  let s1 := (s.modHbm fun h => { h with chans := modAt h.chans ch fun c =>
      let cmds := c.retry.drop (c.retry.length - n)
      { c with
        replays := (c.replays + 1) % 2 ^ 32, recur := rec', replay := cmds
        st := if c.st = 0 && !cmds.isEmpty then 1 else c.st
        parityEvent := if rcd then some s.now else c.parityEvent } }).raiseLimited rcd 0x48 ch
        ((kind % 2) * 32768 + (pc % 2) * 256 + n % 256)
  if 3 ≤ rec' then s1.hbmRetrain ch else s1

/-- A request timeout on a port and channel (R126, R521). -/
def State.hbmTimeout (port ch : Nat) (s : State) : State :=
  let c := s.hbm.chans.getD ch {}
  let ts := (c.timeouts.filter fun t => decide (s.now ≤ t + 100000)) ++ [s.now]
  let s1 := (s.modHbm fun h => { h with
    ports := modAt h.ports port fun p => { p with timeouts := (p.timeouts + 1) % 2 ^ 32 }
    chans := modAt h.chans ch fun c => { c with timeouts := ts } }).raise 0x4C port ch
  if c.st = 0 && decide (4 ≤ ts.length) then s1.hbmRetrain ch else s1

/-- The end of an incremental retraining (R130). -/
def State.hbmRetrainDone (ch step : Nat) (ok : Bool) (s : State) : State :=
  if (s.hbm.chans.getD ch {}).st != 2 then s
  else if ok then s.modHbm fun h => { h with chans := modAt h.chans ch fun c => { c with st := 0 } }
  else (s.modHbm fun h => { h with chans := modAt h.chans ch fun c => { c with st := 3 } }).raise 0x51 ch step

/-- One lane repair made by a training: channel, 0 or 1 for a pseudo-channel's lane or 0xCA for command and address, and
the lane (R131, R140). A data lane below 16 uses its pseudo-channel's first spare. -/
def State.hbmLaneRepair (s : State) (r : Nat × Nat × Nat) : State :=
  let (ch, kind, lane) := r
  let sh := if kind = 0xCA then 32 else 16 * kind + (if lane < 16 then 0 else 8)
  (s.modHbm fun h => { h with chans := modAt h.chans ch fun c =>
    { c with repair := c.repair - fld c.repair (sh + 7) sh * 2 ^ sh + (lane % 256) * 2 ^ sh } }).raise 0x4D ch
      (kind % 256 * 256 + lane % 256)

/-- A value found within 8 steps of the held one (R135). -/
def nearHeld (held v : Nat) : Nat := (clampI ((held : Int) - 8) ((held : Int) + 8) v).toNat

/-- What a training leaves on a channel: what it found, for a quick one within its window around the held values (R134, R135). -/
def trainedFit (quick : Bool) (held new : LaneFit) : LaneFit :=
  if quick then
    { rd := List.zipWith nearHeld held.rd new.rd, wr := List.zipWith nearHeld held.wr new.wr
      rdRef := nearHeld held.rdRef new.rdRef, wrRef := nearHeld held.wrRef new.wrRef
      ca := nearHeld held.ca new.ca, caRef := nearHeld held.caRef new.caRef, wck := nearHeld held.wck new.wck, osc := new.osc }
  else new

/-- Steps 3 to 6 of R134 on the channels whose results a training brings. -/
def Hbm.fitted (quick : Bool) (fits : List (Nat × LaneFit)) (h : Hbm) : Hbm :=
  fits.foldl (fun (h : Hbm) q => { h with chans := modAt h.chans q.1 fun c => { c with fit := trainedFit quick c.fit q.2 } }) h

/-- The end of a full or quick training (R134, R135), with its repairs and what it set. A quick one that fails is followed by a full
one. Every channel serves again after a training that passed, with nothing left to scrub or track late. -/
def State.hbmTrainingDone (ok : Bool) (ch step : Nat) (repairs : List (Nat × Nat × Nat)) (fits : List (Nat × LaneFit)) (s : State) :
    State :=
  if s.hbm.training = 0 then s
  else
    let s1 := repairs.foldl State.hbmLaneRepair s
    if ok then
      let st := if s.mews.dev = .standby || s.mews.dev = .safe then 3 else 2
      (s1.modHbm fun h =>
        let h := h.fitted (h.training = 2) fits
        { h with
          training := 0, retrying := false, status := st, scrubAt := s1.now
          chans := h.chans.map fun c => { c with st := 0, recur := 0, retry := [], replay := [], driftAt := s1.now } }).dropLease 2
    else if s1.hbm.training = 2 then s1.modHbm fun h => { h with training := 1, retrying := true, status := 1 }
    else
      (s1.modHbm fun h => { h with
        training := 0, retrying := false, status := 4
        chans := modAt h.chans ch fun c => { c with st := 3 } }).dropLease 2 |>.raise 0x51 ch step

/-- A training commanded through 0x5051 in STANDBY: 1 full, 2 quick (R134, R135). -/
def State.hbmTrain (kind : Nat) (s : State) : State :=
  (s.modHbm fun h => { h with training := kind, retrying := false, again := false, status := 1 }).takeLeaseOf 2

/-- A read delay moved by at most one step, kept within 0 to 127 (R136). -/
def stepDelay (d : Nat) (by_ : Int) : Nat := (clampI 0 127 ((d : Int) + clampI (-1) 1 by_)).toNat

/-! ## Schedules of the channel's own accesses (R125, R128, R136) -/

/-- The time that the scrub has for one word, in ns (R128). -/
def State.scrubGap (s : State) : Nat := s.num 0x5047 * 3600000000000 / 2 ^ 30

/-- Whether the scrub's next word is due with `late` ns to spare, and lies in a pseudo-channel. -/
def State.scrubDue (s : State) (p late : Nat) : Bool :=
  decide (s.hbm.scrubAt + s.scrubGap + late ≤ s.now) && (rowOf s.hbm.grain (s.hbm.scrubNext * 32)).p = p

/-- Whether a channel's drift tracking is due with `late` ns to spare (R136). -/
def State.driftDue (s : State) (ch late : Nat) : Bool := decide ((s.hbm.chans.getD ch {}).driftAt + 100000000 + late ≤ s.now)

/-! ## Traffic (R120–R125) -/

/-- FIFO depths of the ports (R122). -/
def fifoDepth (n : Nat) : Nat :=
  match n with
  | 5 => 8192
  | 6 => 2048
  | 8 => 512
  | _ => 4096

/-- The words of a request that wait or have been accepted for writing, and those read ahead. -/
def HPort.writes (p : HPort) : Nat := (p.queue.filter HWord.write).length
def HPort.reads (p : HPort) : Nat := (p.queue.filter fun x => !x.write).length

/-- The words of a request, each to be served by its own pseudo-channel: no grain boundary cuts a word (R120). -/
def requestWords (now : Nat) (r : HbmRequest) : List HWord :=
  (upTo r.words).map fun i =>
    { word := r.addr / 32 + i, write := r.write, at_ := now, data := if r.write then r.data[i]? else none }

/-- Whether a port takes a request: the memory serves its ports, and the FIFO has room for all its words (R122, R138). -/
def Hbm.takes (h : Hbm) (r : HbmRequest) : Bool :=
  let p := h.ports.getD r.port {}
  let held := if r.port = 8 then p.queue.length else if r.write then p.writes else p.reads + p.level
  h.status = 2 && decide (held + r.words ≤ fifoDepth r.port)

/-- Two ports' writes of one word that entered in one cycle end as the lower-numbered port's (R120). -/
def Hbm.tied (h : Hbm) (port : Nat) (x : HWord) : HWord :=
  if !x.write then x
  else
    let same (y : HWord) : Bool := y.write && y.word = x.word && y.at_ = x.at_
    match ((h.ports.take port).flatMap HPort.queue).find? same with
    | some y => { x with data := y.data }
    | none => x

/-- The writes of higher-numbered ports that a new one of the same word and cycle overrules (R120). -/
def Hbm.overrule (port : Nat) (x : HWord) (h : Hbm) : Hbm :=
  if !x.write then h
  else { h with ports := (h.ports.zip (upTo 9)).map fun q =>
    if q.2 ≤ port then q.1
    else { q.1 with queue := q.1.queue.map fun y =>
      if y.write && y.word = x.word && y.at_ = x.at_ then { y with data := x.data } else y } }

/-- A request that enters its port's FIFO. A word on a quarantined channel completes poisoned at once (R130). -/
def Hbm.enter (now : Nat) (h : Hbm) (r : HbmRequest) : Hbm :=
  if !h.takes r then h
  else (requestWords now r).foldl (fun (h : Hbm) x =>
    if (h.chans.getD (rowOf h.grain (x.word * 32)).chan {}).st = 3 then h
    else
      let y := h.tied r.port x
      let h1 := h.overrule r.port y
      { h1 with ports := modAt h1.ports r.port fun p => { p with queue := p.queue ++ [y] } }) h

/-- What a pseudo-channel's scheduler does next (R125): nothing, one of the channel's own accesses, a command of the retry buffer, or a
word of a port. -/
inductive HTurn where
  | idle | refresh | scrub | drift | replay
  | serve (port idx : Nat)
  deriving DecidableEq, Repr

/-- The words of a port that a pseudo-channel could serve now, oldest first, with their places in the queue. A read needs room in the
FIFO of what is read ahead. -/
def Hbm.ready (h : Hbm) (n p : Nat) : List (HWord × Nat) :=
  let q := h.ports.getD n {}
  (q.queue.zip (upTo q.queue.length)).filter fun x => !x.1.served && (rowOf h.grain (x.1.word * 32)).p = p

/-- Whether a word lies in an open row. -/
def Hbm.opened (h : Hbm) (x : HWord) : Bool := h.openRows.contains (rowOf h.grain (x.word * 32))

/-- The word of a port that goes next: the oldest, or the first to an open row where every older one may be passed: not for the 17th
time, and not by a request to the same word (R125). -/
def Hbm.choose (h : Hbm) (n p : Nat) (pass : Bool) : Option Nat :=
  let l := h.ready n p
  let first := (l.head?).map Prod.snd
  if !pass then first
  else match l.find? fun x => h.opened x.1 with
    | none => first
    | some y =>
      if (l.filter fun x => decide (x.2 < y.2)).all fun x => decide (x.1.passed < 16) && x.1.word != y.1.word then some y.2 else first

/-- Ports in panic in the order of R125: RT0 to RT3 in rotation, then the rest. -/
def Hbm.panicOrder (h : Hbm) : List Nat :=
  (((upTo 4).map fun k => (h.rotate + k) % 4) ++ [4, 5, 6, 7]).filter fun n =>
    let p := h.ports.getD n {}
    p.panic || p.panicW

/-- The real-time port not in panic with the largest credit among those with a word to serve; the lower number on a tie
(log entry 141, DESIGN CHOICE, unsafe). -/
def Hbm.creditOrder (h : Hbm) (p : Nat) : Option Nat :=
  (upTo 8).foldl (fun (best : Option Nat) n =>
    let q := h.ports.getD n {}
    if q.panic || q.panicW || (h.ready n p).isEmpty then best
    else match best with
      | none => some n
      | some b => if (h.ports.getD b {}).credit < q.credit then some n else best) none

/-- The next command of a pseudo-channel's scheduler (R125). -/
def State.turnOf (s : State) (p : Nat) (pass : Bool) : HTurn :=
  let h := s.hbm
  let c := h.chans.getD (p / 2) {}
  let pick (n : Nat) : Option HTurn := (h.choose n p pass).map fun i => .serve n i
  if h.status != 2 || c.st = 2 || c.st = 3 then .idle
  else if natAt h.postponed p = 8 then .refresh
  else if s.scrubDue p 1000000000 then .scrub
  else if s.driftDue (p / 2) 1000000000 then .drift
  else if !c.replay.isEmpty then .replay
  else match (h.panicOrder.filterMap pick).head? with
    | some t => t
    | none =>
      match (h.creditOrder p).bind pick with
      | some t => t
      | none =>
        if s.scrubDue p 0 then .scrub
        else if s.driftDue (p / 2) 0 then .drift
        else (pick 8).getD .idle

/-- The open rows after an access to a row: one row a bank. -/
def openRow (r : HRow) (l : List HRow) : List HRow := r :: l.filter fun x => !(x.p = r.p && x.group = r.group && x.bank = r.bank)

/-- A word served (R120–R125): its bytes count, its port's credit falls, the command enters the retry buffer, and older words of the
port that it passed remember it. A write is done; a read waits for its return. -/
def Hbm.serve (n i : Nat) (h : Hbm) : Hbm :=
  let p := h.ports.getD n {}
  match p.queue[i]? with
  | none => h
  | some x =>
    let r := rowOf h.grain (x.word * 32)
    let older := (p.queue.zip (upTo p.queue.length)).map fun y =>
      if decide (y.2 < i) && !y.1.served && (rowOf h.grain (y.1.word * 32)).p = r.p then { y.1 with passed := y.1.passed + 1 } else y.1
    let q := if x.write then older.eraseIdx i else modAt older i fun y => { y with served := true }
    let h1 := { h with
      ports := setAt h.ports n { p with queue := q, bytes := (p.bytes + 32) % 2 ^ 64, credit := p.credit - 32000 }
      chans := modAt h.chans r.chan fun c => { c with retry := (let l := c.retry ++ [(x.word, x.write)]; l.drop (l.length - 64)) }
      openRows := openRow r h.openRows
      rotate := if n < 4 && p.panic then (n + 1) % 4 else h.rotate }
    match x.data with
    | some v => h1.putAt x.word v
    | none => h1

/-- One turn of a scheduler. The channel's scrub and drift tracking have commands of their own, which come first where R125 puts them
first. -/
def State.hbmTurn (p : Nat) (pass : Bool) (s : State) : State :=
  match s.turnOf p pass with
  | .refresh => s.modHbm fun h => { h with postponed := setAt h.postponed p 0 }
  | .replay => s.modHbm fun h => { h with chans := modAt h.chans (p / 2) fun c =>
      { c with replay := c.replay.drop 1, st := if c.replay.length ≤ 1 then 0 else c.st, recur := if c.replay.length ≤ 1 then 0 else c.recur } }
  | .serve n i => s.modHbm fun h => h.serve n i
  | .idle | .scrub | .drift => s

/-- The credit of the real-time ports grown to now, at most 4 µs of reservation (R125). -/
def State.creditGrow (s : State) : State :=
  let dt := s.now - s.hbm.creditAt
  s.modHbm fun h => { h with
    creditAt := s.now
    ports := (h.ports.zip (upTo 9)).map fun q =>
      let res := s.num 0x5030 q.2
      if q.2 = 8 then q.1 else { q.1 with credit := min ((res * 4000 : Nat) : Int) (q.1.credit + (res * dt : Nat)) } }

/-- The levels of every port, with the words that clients took, judged for panic (R122, R124). -/
def State.portLevels (s : State) : State :=
  (upTo 9).foldl (fun (s : State) n =>
    let p := s.hbm.ports.getD n {}
    if n = 4 || n = 6 then s.hbmLevels n p.writes p.writes
    else if n = 8 then s.hbmLevels n p.queue.length 0
    else s.hbmLevels n p.level p.writes) s

/-- What went on at the ports (R120–R125). -/
def State.hbmTraffic (io : HbmTraffic) (s : State) : State :=
  let s1 := s.creditGrow.modHbm fun h => io.issued.foldl (Hbm.enter s.now) h
  let s2 := io.turns.foldl (fun (s : State) q => s.hbmTurn q.1 q.2) s1
  s2.modHbm fun h => io.taken.foldl (fun (h : Hbm) q =>
    if portReads q.1 || q.1 = 7 then { h with ports := modAt h.ports q.1 fun p => { p with level := p.level - q.2 } } else h) h

/-- The oldest read of a port, where it has been served: reads return in request order (R121). -/
def HPort.oldestRead (p : HPort) : Option HWord :=
  match p.queue.find? fun x => !x.write with
  | some x => if x.served then some x else none
  | none => none

/-- A port without its oldest read, which has gone to what the client may take. -/
def HPort.returned (p : HPort) : HPort :=
  match p.queue.findIdx? fun x => !x.write with
  | some i => { p with queue := p.queue.eraseIdx i, level := p.level + 1 }
  | none => p

/-! ## Commands -/

def execHbmTrainingDone (t : Nat) (ok : Bool) (chan step : Nat) (repairs : List (Nat × Nat × Nat)) (fits : List (Nat × LaneFit))
    (s : State) : Host.Outcome State Fault Refusal :=
  .next ((s.advance t).hbmTrainingDone ok chan step repairs fits)

/-- The copy of a row into its shadow ends (R132). -/
def execRowShadowCopyDone (t shadow : Nat) (s : State) : Host.Outcome State Fault Refusal :=
  let s1 := s.advance t
  match s1.hbm.shadows.getD shadow none with
  | some h =>
    if h.copying then
      .next ((s1.modHbm fun m => { m with shadows := setAt m.shadows shadow (some (h.filled m)) }).raise 0x4E h.at_.chan h.at_.data)
    else .next s1
  | none => .next s1

def execHbmcParityReplay (t chan pc kind replayed : Nat) (onReplay : Bool) (s : State) :
    Host.Outcome State Fault Refusal :=
  .next ((s.advance t).hbmReplay chan pc kind replayed onReplay)

def execHbmRetrainDone (t chan step : Nat) (ok : Bool) (s : State) : Host.Outcome State Fault Refusal :=
  .next ((s.advance t).hbmRetrainDone chan step ok)

/-- The patrol scrub reads and rewrites its next word when that is due, unless a client's write of the word waits (R128). -/
def execHbmScrubPass (t severity : Nat) (s : State) : Host.Outcome State Fault Refusal :=
  let s1 := s.advance t
  let w := s1.hbm.scrubNext
  let waits := s1.hbm.ports.any fun p => p.queue.any fun x => x.write && x.word = w
  if s1.hbm.status = 2 && decide (s1.hbm.scrubAt + s1.scrubGap ≤ s1.now) && !waits then
    .next ((s1.hbmSeverity (w * 32) severity).modHbm fun h => { h with
      scrubNext := (w + 1) % 2 ^ 30, scrubAt := h.scrubAt + s1.scrubGap })
  else .next s1

/-- Errors added to a lane's count, which saturates at 16 bits (R136). -/
def countErrors (old new : List Nat) : List Nat := List.zipWith (fun a b => sat 65535 (a + b)) old new

/-- What tracking makes of a channel: each read delay moves at most one step, the write delay's lanes at most one where the oscillator
count has left that of the training, and the compare engine keeps what it saw (R136). -/
def HChan.tracked (now : Nat) (look : DriftLook) (c : HChan) : HChan :=
  { c with
    driftAt := now
    errors := countErrors c.errors look.errors
    firstFail := List.zipWith (fun (a b : Option Nat) => a.orElse fun _ => b) c.firstFail look.first
    fit := { c.fit with
      rd := (c.fit.rd.zip (look.rd ++ List.replicate 64 0)).map fun q => stepDelay q.1 q.2
      wr := if look.osc = c.fit.osc then c.fit.wr else c.fit.wr.map fun d => stepDelay d look.wr } }

/-- Drift tracking of one channel, every 100 ms while traffic runs (R136). -/
def execHbmDriftTrack (t chan : Nat) (look : DriftLook) (s : State) : Host.Outcome State Fault Refusal :=
  let s1 := s.advance t
  if s1.hbm.status = 2 && (s1.hbm.chans.getD chan {}).st = 0 && s1.driftDue chan 0 then
    .next (s1.modHbm fun h => { h with chans := modAt h.chans chan (HChan.tracked s1.now look) })
  else .next s1

/-- A per-bank refresh falls due: it runs, or is postponed at most 8 times while a port is in panic (R125, R137). -/
def execHbmRefresh (t pseudo : Nat) (postpone : Bool) (s : State) : Host.Outcome State Fault Refusal :=
  let s1 := s.advance t
  let n := natAt s1.hbm.postponed pseudo
  let panic := s1.hbm.ports.any fun p => p.panic || p.panicW
  .next (s1.modHbm fun h => { h with
    postponed := setAt h.postponed pseudo (if postpone && panic && decide (n < 8) then n + 1 else 0) })

/-- A stack temperature, in 0.0625 °C; 85 °C is 1,360 (R137). -/
def execHbmStackTempRead (t stack : Nat) (temp : Int) (s : State) : Host.Outcome State Fault Refusal :=
  let s1 := s.advance t
  let was := s1.hbm.hot.getD stack false
  let is := if was then !decide (temp < 1360) else decide (1360 < temp)
  let s2 := s1.modHbm fun h => { h with temps := setAt h.temps stack (satS16 temp), hot := setAt h.hot stack is }
  .next (if was = is then s2 else s2.raise 0x53 stack (b2n is))

/-- A tracker entry without an error for 24 h is freed (R127). -/
def execHbmRowTrackerExpiry (t stack entry : Nat) (s : State) : Host.Outcome State Fault Refusal :=
  let s1 := s.advance t
  .next (s1.modHbm fun h => { h with trackers := modAt h.trackers stack fun tr =>
    match tr[entry]? with
    | some e => if e.last + 86400000000000 ≤ s1.now then tr.eraseIdx entry else tr
    | none => tr })

end Sys2Proof.Machine
end

