-- ==== Sys2Proof/Machine/Ingest.lean ====
section
/-! DEFINITION. Video ingest: stream limits, pixel conversion, layer versions and buffers, capture times, STATIC content
(R87–R113, R633). -/

namespace Sys2Proof.Machine

/-! ## Stream limits (R88, R89) -/

/-- Bits per pixel, doubled so that 4:2:0 at 1.5 × depth is whole (R88). -/
def bpp2 (enc depth : Nat) : Nat := if enc = 2 then 4 * depth else if enc = 3 then 3 * depth else 6 * depth

/-- Payload of a trained link with 4 lanes, in 10 kbit/s (R88). RBR, HBR and HBR2 follow HBR3's 8b/10b share
(log entry 7, DEDUCED, unsafe). -/
def linkPayload : Nat → Nat
  | 6 => 7737000 | 5 => 5222000 | 4 => 3869000 | 3 => 2592000 | 2 => 1728000 | 1 => 864000 | _ => 518400

/-- The reason of event 0x3C for a format on a link, 0 when it meets R88. Frame rates are in 0.01 Hz.
Of several limits that are broken the lowest reason counts (log entry 184, DEDUCED, unsafe). -/
def formatReject (f : DpFormat) (rate lanes : Nat) : Nat :=
  if f.width < 64 || 7680 < f.width || f.height < 64 || 4320 < f.height then 1
  else if 24000 < f.rate then 2
  else if 199065600000 < f.width * f.height * f.rate then 3
  else if 7962624000000 < f.width * f.height * f.rate * bpp2 f.enc f.depth then 4
  else if linkPayload rate * 10000 * 100 * lanes * 2 < f.total * f.rate * bpp2 f.enc f.depth * 4 then 5
  else if 3 < f.enc || 3 < f.colr || !([8, 10, 12].contains f.depth) then 6
  else 0

/-! ## Pixel conversion (R93). Values carry 16 fraction bits. -/

/-- Step 1: a sample at 12 bits. -/
def depth12 (depth v : Nat) : Nat :=
  if depth = 8 then (v <<< 4) ||| (v >>> 4) else if depth = 10 then (v <<< 2) ||| (v >>> 8) else v

/-- `n / d` with 16 fraction bits, rounded half up. -/
def frac16 (n : Int) (d : Nat) : Int := (2 * n * 65536 + d) / (2 * d)

/-- Step 2: a chroma line for a line of a pair, from the nearer chroma line and the other one, which is none at an edge. -/
def chroma420 (near : List Int) (other : List Int) : List Int :=
  if other.isEmpty then near.map (· * 65536)
  else (near.zip other).map fun p => (3 * p.1 + p.2) * 16384

/-- Sample `i` of a list with the edge samples repeated. -/
def edgeAt (l : List Int) (i : Int) : Int := l.getD (clampI 0 ((l.length : Int) - 1) i).toNat 0

/-- Step 3: chroma at luma position `x`. -/
def chromaAt (l : List Int) (x : Nat) : Int :=
  let i : Int := (x / 2 : Nat)
  if x % 2 = 0 then edgeAt l i
  else (-edgeAt l (i - 1) + 9 * edgeAt l i + 9 * edgeAt l (i + 1) - edgeAt l (i + 2)) / 16

/-- Step 4 for luma or an RGB component with 16 fraction bits (log entry 90, DEDUCED, unsafe). -/
def rangeY (limited : Bool) (y : Int) : Int := if limited then (2 * (y - 256 * 65536) * 4095 + 3504) / 7008 else y

/-- Step 4 for chroma, giving a value about 0. -/
def rangeC (limited : Bool) (c : Int) : Int :=
  let d := c - 2048 * 65536
  if limited then (2 * d * 4095 + 3584) / 7168 else d

/-- Step 6: rounded half up to an integer and clipped. -/
def clip12 (v : Int) : Nat := (clampI 0 4095 ((2 * v + 65536) / 131072)).toNat

/-- A pixel word of R94. -/
def pixelWord (r g b : Nat) : Nat := r * 2 ^ 24 + g * 2 ^ 12 + b

/-- Steps 5 and 6: Y, Cb and Cr about 0 to a pixel. Kr and Kb are in units of 0.0001. -/
def ycc (bt2020 : Bool) (y cb cr : Int) : Nat :=
  let kr : Int := if bt2020 then 2627 else 2126
  let kb : Int := if bt2020 then 593 else 722
  let kg : Int := 10000 - kr - kb
  let r := y + (2 * (2 * (10000 - kr) * cr) + 10000) / 20000
  let b := y + (2 * (2 * (10000 - kb) * cb) + 10000) / 20000
  let gd := (10000 * kg).toNat
  let g := y - (2 * (2 * kb * (10000 - kb) * cb + 2 * kr * (10000 - kr) * cr) + gd) / (2 * gd)
  pixelWord (clip12 r) (clip12 g) (clip12 b)

/-- One line of a stream as pixels (R93). `other` is, in 4:2:0, the chroma line on the line's far side. -/
def linePixels (f : DpFormat) (ls : LineSamples) (other : List Nat × List Nat) : List Nat :=
  let d (l : List Nat) : List Int := l.map fun v => ((depth12 f.depth v : Nat) : Int)
  if f.enc = 0 then
    ((d ls.a).zip ((d ls.b).zip (d ls.c))).map fun p =>
      pixelWord (clip12 (rangeY f.limited (p.1 * 65536))) (clip12 (rangeY f.limited (p.2.1 * 65536)))
        (clip12 (rangeY f.limited (p.2.2 * 65536)))
  else
    let cb := if f.enc = 3 then chroma420 (d ls.b) (d other.1) else (d ls.b).map (· * 65536)
    let cr := if f.enc = 3 then chroma420 (d ls.c) (d other.2) else (d ls.c).map (· * 65536)
    let pick (l : List Int) (x : Nat) : Int := if f.enc = 1 then l.getD x 0 else chromaAt l x
    ((d ls.a).zip (upTo ls.a.length)).map fun p =>
      ycc (decide (f.colr != 0)) (rangeY f.limited (p.1 * 65536)) (rangeC f.limited (pick cb p.2))
        (rangeC f.limited (pick cr p.2))

/-- A pixel as 5 bytes, little-endian, bits [39:36] 0 (R110). -/
def pixelBytes (px : Nat) : Bytes := toLE 5 (px % 2 ^ 36)

/-- The digest of a line (R110). -/
def lineDigest (ps : List Nat) : Nat :=
  let bs := (ps.map pixelBytes).flatten
  crc32 bs * 2 ^ 32 + crc32c bs

/-! ## Versions and buffers (R95–R100) -/

/-- `a` is newer than `b` by serial arithmetic (R95). -/
def newer (a b : Nat) : Bool :=
  let d := (a + 2 ^ 32 - b % 2 ^ 32) % 2 ^ 32
  decide (1 ≤ d) && decide (d ≤ 2 ^ 31 - 1)

/-- The number one newer, 0 skipped (R95). -/
def nextNum (n : Nat) : Nat := if (n + 1) % 2 ^ 32 = 0 then 1 else (n + 1) % 2 ^ 32

/-- The write-epoch of a version (R99) (log entry 91, DEDUCED, safe) (log entry 136, DEDUCED, safe). -/
def epochOfVersion (v : Nat) : Nat := v % 15 + 1


/-- The buffer to take as the next writing buffer of `n` (R97): the lowest free one, else that of the oldest complete
version neither held nor newest. `busy` is a buffer being written. The version that ceases to exist is the second part. -/
def takeBuffer (n : Nat) (versions : List Version) (busy : Option Nat) (held : Nat → Bool) : Option Nat × Option Nat :=
  let used := versions.map Version.buf ++ busy.toList
  match (upTo n).find? fun b => !used.contains b with
  | some b => (some b, none)
  | none =>
    let heldBufs := (versions.filter fun v => held v.num).map Version.buf
    let newest := (versions.head?).map Version.buf
    match (versions.reverse).find? fun v => !heldBufs.contains v.buf && newest != some v.buf with
    | some v => (some v.buf, some v.buf)
    | none => (none, none)

/-- The field of a rectangle object: x, y, width, height. -/
def rectX (r : Nat) : Nat := fld r 63 48
def rectY (r : Nat) : Nat := fld r 47 32
def rectW (r : Nat) : Nat := fld r 31 16
def rectH (r : Nat) : Nat := fld r 15 0

/-- Changes one port. -/
def State.modPort (n : Nat) (f : DpPort → DpPort) (s : State) : State :=
  s.modIngs fun i => { i with ports := modAt i.ports n f }

/-- Changes one video layer. -/
def State.modLayer (n : Nat) (f : VLayer → VLayer) (s : State) : State :=
  s.modIngs fun i => { i with layers := modAt i.layers n f }

def State.port (s : State) (n : Nat) : DpPort := s.ings.ports.getD n {}
def State.vlayer (s : State) (n : Nat) : VLayer := s.ings.layers.getD n {}
def State.clayer (s : State) (n : Nat) : CLayer := s.curg.layers.getD n {}

/-- Whether a rectangle lies inside an area. -/
def rectFits (r w h : Nat) : Bool := decide (rectX r + rectW r ≤ w) && decide (rectY r + rectH r ≤ h)

/-- Whether a layer's rectangle is a target inside an active image (R92). -/
def rectInside (r w h : Nat) : Bool := decide (64 ≤ rectW r) && decide (64 ≤ rectH r) && rectFits r w h

/-- The layers a port feeds: their target names it and lies inside its active image (R92). -/
def State.fedLayers (s : State) (port : Nat) : List Nat :=
  match (s.port port).fmt with
  | none => []
  | some f => (upTo 8).filter fun n => s.num 0x4010 n = port && rectInside (s.num 0x4011 n) f.width f.height

/-- Layers whose target names a port. -/
def State.targetsOf (s : State) (port : Nat) : List Nat := (upTo 8).filter fun n => s.num 0x4010 n = port

/-- Whether CURG holds a version of a layer: the one chosen for the frame being composed; for a spanning layer also one agreed for a
frame ahead, and those listed in a report since the last agreement that fixed a newer one (R96, R192). -/
def State.holds (s : State) (n num : Nat) : Bool :=
  let w := s.num 0x7104 n
  num != 0 && ((s.clayer n).comp.ver = num ||
    (w != 0 && ((s.clayer n).listed.contains num ||
      s.curg.agreements.any fun a => a.window = w && bit a.flags 0 && a.version = num)))

/-- Whether a stream still has to send a version of its layer: every version until its END has been sent (R438). -/
def State.streamHolds (s : State) (n num : Nat) : Bool :=
  (upTo 16).any fun k =>
    let d := (s.uane.tx.getD k {}).done
    fld (s.num 0xF040 k) 31 24 = n && (d = 0 || newer num d)

/-- The next writing buffer of a video layer taken (R97). -/
def State.takeNext (n : Nat) (s : State) : State :=
  let l := s.vlayer n
  let (b, gone) := takeBuffer (s.num 0x4013 n) l.versions (l.finishing.map Writing.buf) fun v => s.holds n v || s.streamHolds n v
  s.modLayer n fun l => { l with
    nextBuf := b, retry := false
    versions := match gone with
      | some g => l.versions.filter fun v => v.buf != g
      | none => l.versions }

/-- A layer leaves STATIC, with its event (R111). -/
def State.leaveStatic (n : Nat) (s : State) : State :=
  if (s.vlayer n).isStatic then (s.modLayer n fun l => { l with isStatic := false, matchRun := 0 }).raise 0x40 n 0 else s

/-- The version being written is discarded and its buffer freed (R105, R107, R109). -/
def State.discardWriting (s : State) (n : Nat) : State :=
  match (s.vlayer n).writing with
  | none => s
  | some w => s.modLayer n fun l => { l with writing := none, nextBuf := some w.buf }

/-- A version whose frame has ended and that still waits for its last words is discarded, and its buffer freed (R111). -/
def State.discardFinishing (s : State) (n : Nat) : State :=
  s.modLayer n fun l => { l with
    finishing := none, nextBuf := if l.nextBuf.isNone && l.writing.isNone then l.finishing.map Writing.buf else l.nextBuf }

/-- Both the version being written and one whose frame ended before it are discarded (R107, R108). -/
def State.discardBoth (s : State) (n : Nat) : State := (s.discardWriting n).discardFinishing n

/-- A frame of a layer dropped whole, with its cause (R95, R97, R101, R109) (log entry 88, DEDUCED, unsafe). -/
def State.dropFrame (cause n : Nat) (s : State) : State :=
  (s.modLayer n fun l => { l with drops := (l.drops + 1) % 2 ^ 32 }).raise 0x3E n cause

/-- Every version of a layer discarded and its buffers free (R108, R118). -/
def State.discardLayer (n : Nat) (s : State) : State :=
  (s.modLayer n fun l => { l with
    versions := [], writing := none, finishing := none, nextBuf := some 0, retry := false, isStatic := false, matchRun := 0 }).modHbm
      fun h => h.zeroOwner (n + 1)

/-- What a port was writing is discarded, whatever the frame mode, and STATIC ends (R107). -/
def State.abortPort (port : Nat) (s : State) : State :=
  let s1 := (s.targetsOf port).foldl (fun s n => (s.leaveStatic n).discardBoth n) s
  s1.modPort port fun p => { p with active := false, lines := 0, held := none, sdp := none }

/-! ## Ports (R87–R91, R107) -/

/-- Whether a sink may assert HPD (R91). -/
def State.hpdWanted (s : State) (port : Nat) : Bool := s.flag 0x4000 port && s.mews.dev.lit

/-- HPD asserted: the capabilities advertised are latched, and the source may train (R91, R112) (log entry 87, DEDUCED, unsafe). -/
def State.assertHpd (port : Nat) (s : State) : State :=
  ((s.modPort port fun p => { p with
      hpd := true, hpdBackAt := none, lostAt := none, dpcd := .idle
      advRate := s.num 0x4001 port, advLanes := s.num 0x4002 port }).setObs (wPort port) 1).emit (.pin (.hpd port) (some true))

/-- HPD dropped. A port with a link loses it, event 0x3B data 0x0002 (R107). `back` is when it rises again. -/
def State.dropHpd (port : Nat) (back : Option Nat) (s : State) : State :=
  let had := s.obs (wPort port) = 2 || s.obs (wPort port) = 3
  let s1 := (((s.abortPort port).modPort port fun p => { p with
      hpd := false, hpdBackAt := back, rate := 0, lanes := 0, fmt := none, good := false, lostAt := none, dpcd := .idle }).setObs
        (wPort port) 0).emit (.pin (.hpd port) (some false))
  if had then s1.raise 0x3B port 2 else s1

/-- HPD brought in line with R91 after a change of enable or device state. -/
def State.updateHpd (s : State) (port : Nat) : State :=
  let p := s.port port
  if s.hpdWanted port then (if p.hpd || p.hpdBackAt.any (fun b => decide (s.now < b)) then s else s.assertHpd port)
  else if p.hpd || p.hpdBackAt.isSome then s.dropHpd port none else s

/-- A stream format checked against R88 and R92 (R89, R107). -/
def State.checkFormat (port : Nat) (f : DpFormat) (s : State) : State :=
  let p := s.port port
  let r := formatReject f p.rate p.lanes
  let s1 := s.modPort port fun p => { p with fmt := some f, good := decide (r = 0) }
  let s2 := s1.setObs (wPort port) (if r = 0 then 2 else 3)
  if r != 0 then s2.raise 0x3C port r
  else if (s.targetsOf port).any fun n => !rectInside (s.num 0x4011 n) f.width f.height then s2.raise 0x3C port 7
  else s2

/-- Whether a link at a rate and lane count can train: HPD is up, the sink has such a link, and it advertises no less (R87). -/
def DpPort.canTrain (p : DpPort) (rate lanes : Nat) : Bool :=
  p.hpd && decide (rate ≤ min 6 p.advRate) && decide (lanes ≤ p.advLanes) && [1, 2, 4].contains lanes

/-- A training fails: the link-status fields report it, the port stays TRAINING, and R91's second counts from the first failure where no
loss started it (R87, R91). -/
def State.trainFails (port : Nat) (s : State) : State :=
  if s.obs (wPort port) = 1 then s.modPort port fun p => { p with dpcd := .failed, lostAt := some (p.lostAt.getD s.now) } else s

/-- Training succeeds: the port is LOCKED, or UNSUPPORTED when the stream breaks R88 (R89, R107). -/
def State.linkUp (port rate lanes : Nat) (f : DpFormat) (s : State) : State :=
  if !(s.port port).canTrain rate lanes then s.trainFails port
  else (((s.abortPort port).modPort port fun p => { p with rate := rate, lanes := lanes, lostAt := none, dpcd := .trained }).raise
      0x3A port (rate * 256 + lanes)).checkFormat port f

/-- Symbol lock lost (R91, R107). -/
def State.lockLost (port : Nat) (s : State) : State :=
  if s.obs (wPort port) = 2 || s.obs (wPort port) = 3 then
    ((((s.abortPort port).modPort port fun p => { p with
        lostAt := some s.now, dpcd := .lost, rate := 0, lanes := 0, fmt := none, good := false }).setObs (wPort port) 1).raise 0x3B port 1).emit
          (.pulse (.irqHpd port) 750000)
  else s

/-- No training 1 s after a loss: HPD drops for 500 ms (R91). -/
def State.retrainTimeout (port : Nat) (s : State) : State :=
  match (s.port port).lostAt with
  | some l => if s.obs (wPort port) = 1 && decide (l + 1000000000 ≤ s.now) then s.dropHpd port (some (s.now + 500000000)) else s
  | none => s

/-! ## Currency SDP (R103, R104) -/

/-- What a packet is: not a currency SDP, or the data of event 0x3D, or its valid fields. -/
inductive SdpRead where
  | ignored
  | bad (reason : Nat)
  | good (s : Sdp)
  deriving DecidableEq, Repr

/-- The 32 bytes HB0–HB3 and DB0–DB27 checked in the order of R104 (log entry 89, DEDUCED, unsafe).
Another HB3 or length is ignored (log entry 186, DEDUCED, unsafe). -/
def readSdp (oui : Nat) (inActive : Bool) (b : Bytes) : SdpRead :=
  let db (k n : Nat) : Nat := leAt b (4 + k) n
  if b.length != 32 || leAt b 0 2 != 0x8100 || leAt b 2 1 != 1 || leAt b 3 1 != 0x1C || db 0 3 != oui then .ignored
  else if db 20 4 != crc32 (b.take 24) then .bad 1
  else if inActive then .bad 2
  else if db 3 1 != 1 || fld (db 4 1) 7 2 != 0 then .bad 3
  else .good ⟨if bit (db 4 1) 0 then some (db 8 8) else none,
              if bit (db 4 1) 1 && db 16 4 != 0 then some (db 16 4) else none⟩

def State.sdpError (port reason : Nat) (s : State) : State :=
  (s.modPort port fun p => { p with sdpErrors := (p.sdpErrors + 1) % 2 ^ 32 }).raise 0x3D port reason

/-- A packet on a port (R104). -/
def State.currencySdp (port : Nat) (b : Bytes) (s : State) : State :=
  match readSdp (Config.sdpOui % 2 ^ 24) (s.port port).active b with
  | .ignored => s
  | .bad r => s.sdpError port r
  | .good d =>
    let s1 := if (s.port port).sdp.isSome then s.sdpError port 4 else s
    s1.modPort port fun p => { p with sdp := some d }

/-! ## Frames (R95, R101, R102, R105, R106, R109–R111) -/

/-- A version whose frame has ended waits for its last words beside the next frame, and one that did not end is gone
(log entry 147, DEDUCED, safe). A second one that still waits is gone without an event (log entry 185, DEDUCED, unsafe). -/
def State.setAside (s : State) (n : Nat) : State :=
  match (s.vlayer n).writing with
  | none => s
  | some w =>
    if w.ended && (s.vlayer n).finishing.isNone then s.modLayer n fun l => { l with writing := none, finishing := some w }
    else s.discardWriting n

/-- The writing buffer of a frame that starts: the one taken at the last completion; one taken now where that completion has still to
come, or where a frame has already been dropped for want of one (R97). -/
def State.frameBuffer (n : Nat) (s : State) : State :=
  let l := s.vlayer n
  if l.nextBuf.isSome then s
  else if l.retry || l.finishing.isSome then s.takeNext n
  else s

/-- The first active pixel of a frame on one layer: the version's number and capture time, or the frame's drop. -/
def State.layerFrameStart (port : Nat) (d : Option Sdp) (arrival : Nat) (s : State) (n : Nat) : State :=
  let s := s.frameBuffer n
  let l := s.vlayer n
  let f := ((s.port port).fmt).getD ⟨0, 0, 0, 0, 0, 0, false, 0⟩
  match l.nextBuf with
  | none => (s.modLayer n fun l => { l with retry := true }).dropFrame 1 n
  | some b =>
    let newest := (l.finishing.map Writing.num).getD l.published
    let num := if s.num 0x4015 n = 1 then (d.bind Sdp.frame) else some (nextNum newest)
    let cap := if s.num 0x4016 n = 1 then (d.bind Sdp.time) else some arrival
    match num, cap with
    | some v, some c =>
      if s.num 0x4015 n = 1 && newest != 0 && !newer v newest then s.dropFrame 4 n
      else
        let r := s.num 0x4011 n
        let w : Writing :=
          { num := v, capture := if arrival < c then arrival else c, buf := b, colr := f.colr, width := rectW r, rows := rectH r }
        let s1 := s.modLayer n fun l => { l with nextBuf := none, writing := some w }
        if arrival < c then s1.raise 0x3F n (sat 65535 ((c - arrival) / 1000)) else s1
    | _, _ => s.dropFrame 3 n

/-- The first active pixel of a frame arrives (R101, R104). The frames of a stream that R88 rejects pass with nothing written (R89). -/
def State.frameStart (port : Nat) (s : State) : State :=
  let p := s.port port
  if s.obs (wPort port) = 2 || s.obs (wPort port) = 3 then
    let s0 := (s.fedLayers port).foldl State.setAside s
    let s1 := s0.modPort port fun p => { p with
      active := true, lines := 0, arrival := s.wall, dropRest := false, chroma := ([], []), held := none, sdp := none }
    if p.good then (s.fedLayers port).foldl (State.layerFrameStart port p.sdp s.wall) s1 else s1
  else s

/-- The lines of a version that arrived and are neither skipped nor accepted yet, bit per buffer line. -/
def Writing.ahead (w : Writing) : Nat := maskOf w.rows fun y => bit w.got y && !bit w.acc y && !bit w.skipped y

/-- Lines of a port, bit per line, that some layer has still to write. -/
def State.linesAhead (s : State) (port : Nat) : Nat :=
  (s.fedLayers port).foldl (fun m n =>
    [(s.vlayer n).writing, (s.vlayer n).finishing].foldl (fun m w => match w with
      | some w => m ||| (w.ahead <<< rectY (s.num 0x4011 n))
      | none => m) m) 0

/-- The line buffer of a port is full: 128 lines ahead of HBMC (R109). -/
def State.lineBufferFull (s : State) (port : Nat) : Bool :=
  let m := s.linesAhead port
  decide (128 ≤ ((upTo 4320).filter (bit m)).length)

/-- One active line on one layer (R110, R111). -/
def State.layerLine (row : Nat) (pxs : List Nat) (s : State) (n : Nat) : State :=
  let r := s.num 0x4011 n
  match (s.vlayer n).writing with
  | none => s
  | some w =>
    if w.ended || decide (row < rectY r) || decide (rectY r + rectH r ≤ row) then s
    else
      let y := row - rectY r
      let ps := (pxs.drop (rectX r)).take (rectW r)
      let dg := lineDigest ps
      let newest := (s.vlayer n).versions.head?
      let same := (newest.bind fun v => v.digests[y]?) = some dg
      let w1 := { w with got := w.got ||| 2 ^ y, digests := w.digests ++ [dg] }
      if (s.vlayer n).isStatic && same && !w.copying then
        s.modLayer n fun l => { l with writing := some { w1 with skipped := w.skipped ||| 2 ^ y } }
      else
        let wasStatic := (s.vlayer n).isStatic
        let s1 := s.leaveStatic n
        let w2 := if wasStatic && w.skipped != 0 then { w1 with copying := true } else w1
        (s1.modLayer n fun l => { l with writing := some w2 }).modHbm
          fun h => h.putPixels (n + 1) w.buf (epochOfVersion w.num) (y * w.width) ps

/-- One line of the active image on every layer that the port feeds. -/
def State.imageLine (port row : Nat) (f : DpFormat) (ls : LineSamples) (other : List Nat × List Nat) (s : State) : State :=
  (s.fedLayers port).foldl (State.layerLine row (linePixels f ls other)) s

/-- The second line of a pair that waited, with the chroma line below it, which is none at the bottom edge (R93). -/
def State.heldLine (port : Nat) (f : DpFormat) (below : List Nat × List Nat) (s : State) : State :=
  match (s.port port).held with
  | none => s
  | some (row, ls) => (s.modPort port fun p => { p with held := none }).imageLine port row f ls below

/-- A line of a 4:2:0 stream: the first of a pair lies nearer to the chroma line of its own pair than to the one above, the second than to
the one below, for which it waits (R93, step 2). -/
def State.pairLine (port row : Nat) (f : DpFormat) (ls : LineSamples) (s : State) : State :=
  let above := (s.port port).chroma
  if row % 2 = 0 then
    ((s.heldLine port f (ls.b, ls.c)).modPort port fun p => { p with chroma := (ls.b, ls.c) }).imageLine port row f ls above
  else
    let s1 := s.modPort port fun p => { p with held := some (row, { ls with b := above.1, c := above.2 }) }
    if row + 1 = f.height then s1.heldLine port f ([], []) else s1

/-- An active line arrives (R93, R106, R109, R110). -/
def State.lineReceived (port : Nat) (ls : LineSamples) (s : State) : State :=
  let p := s.port port
  match p.active && p.good, p.fmt with
  | true, some f =>
    let s1 := s.modPort port fun p => { p with lines := p.lines + 1 }
    if p.dropRest || decide (f.height ≤ p.lines) then s1
    else if s1.lineBufferFull port then
      let ns := (s1.fedLayers port).filter fun n => (s1.vlayer n).writing.isSome
      (ns.foldl (fun s n => (s.discardWriting n).dropFrame 2 n) s1).modPort port fun p => { p with dropRest := true, held := none }
    else if f.enc = 3 then s1.pairLine port p.lines f ls
    else s1.imageLine port p.lines f ls ([], [])
  | _, _ => s

/-- A line marked as accepted where it arrived and was not skipped. -/
def Writing.accept (y : Nat) (w : Writing) : Writing :=
  if bit w.got y && !bit w.skipped y then { w with acc := w.acc ||| 2 ^ y } else w

/-- HBMC accepts every word of a line (R100): of a version that waits beside the next frame first, as its words come first. -/
def State.lineAccepted (n y : Nat) (s : State) : State :=
  s.modLayer n fun l => match l.finishing with
    | some w => if bit w.ahead y then { l with finishing := some (w.accept y) } else { l with writing := l.writing.map (Writing.accept y) }
    | none => { l with writing := l.writing.map (Writing.accept y) }

/-- The slots of a word past a pixel index made 0, its epoch kept (R99). -/
def Hbm.zeroSlots (owner buf epoch i : Nat) (h : Hbm) : Hbm :=
  if i % 7 = 0 then h else h.putPixels owner buf epoch i (List.replicate (7 - i % 7) 0)

/-- The slots past the end of a short frame in the last word written for it are 0 (R99). -/
def State.zeroTail (n : Nat) (s : State) : State :=
  match (s.vlayer n).writing with
  | none => s
  | some w =>
    let ys := (upTo w.rows).filter fun y => bit w.got y && !bit w.skipped y
    match ys.getLast? with
    | none => s
    | some y => s.modHbm fun h => h.zeroSlots (n + 1) w.buf (epochOfVersion w.num) ((y + 1) * w.width)

/-- The end of a frame on one layer (R105, R106). -/
def State.layerFrameEnd (lines height : Nat) (s : State) (n : Nat) : State :=
  if lines < height then
    let s1 := ((s.modLayer n fun l => { l with short := (l.short + 1) % 2 ^ 32 }).raise 0x38 n lines)
    let wasStatic := (s1.vlayer n).isStatic
    let s2 := s1.leaveStatic n
    if s.num 0x4012 n = 1 then s2.discardWriting n
    else (s2.zeroTail n).modLayer n fun l => { l with writing := l.writing.map fun w =>
      { w with ended := true, copying := w.copying || (wasStatic && w.skipped != 0) } }
  else
    let s1 := s.modLayer n fun l => { l with writing := l.writing.map fun w => { w with ended := true } }
    if height < lines then (s1.modLayer n fun l => { l with long := (l.long + 1) % 2 ^ 32 }).raise 0x39 n (sat 65535 lines) else s1

/-- The vertical blanking after the last active line (R105, R106). A frame shed under R109 is neither short nor long (log entry 187, DEDUCED, unsafe). -/
def State.frameEnd (port : Nat) (s : State) : State :=
  let p := s.port port
  match p.active, p.fmt with
  | true, some f =>
    let s0 := if p.good then s.heldLine port f ([], []) else s
    let s1 := s0.modPort port fun p => { p with active := false, lines := 0, dropRest := false }
    if p.dropRest || !p.good then s1 else (s.fedLayers port).foldl (State.layerFrameEnd p.lines f.height) s1
  | _, _ => s

/-- The pixels of buffer line `y`. -/
def Hbm.linePx (h : Hbm) (owner buf width y : Nat) : List Nat :=
  (upTo width).map fun x => let i := y * width + x; pixelAt (h.word (wkey owner buf (i / 7))) (i % 7)

/-- The version of a layer that HBMC finishes first: one that waits beside the next frame, else the one being written. -/
def VLayer.first (l : VLayer) : Option Writing := if l.finishing.isSome then l.finishing else l.writing

/-- Puts that version back, or takes it out. -/
def VLayer.setFirst (l : VLayer) (w : Option Writing) : VLayer :=
  if l.finishing.isSome then { l with finishing := w } else { l with writing := w }

/-- The copy of the lines that STATIC skipped ends (R111). A copy that fails discards the version. -/
def State.staticCopyDone (n : Nat) (ok : Bool) (s : State) : State :=
  let l := s.vlayer n
  match l.first, l.versions.head? with
  | some w, some v =>
    if !w.copying then s
    else if !ok then (if l.finishing.isSome then s.discardFinishing n else s.discardWriting n).dropFrame 2 n
    else
      let ys := (upTo w.rows).filter (bit w.skipped)
      let s1 := s.modHbm fun h => ys.foldl (fun h y =>
        h.putPixels (n + 1) w.buf (epochOfVersion w.num) (y * w.width) (h.linePx (n + 1) v.buf w.width y)) h
      s1.modLayer n fun l => l.setFirst (some { w with copying := false, acc := w.acc ||| w.skipped, skipped := 0 })
  | _, _ => s

/-- The version being written completes (R97, R110, R111): it becomes the newest, and STATIC is judged. A version of a STATIC layer with
every line skipped shares the newest version's buffer, and its words keep that version's epoch. -/
def State.ingestComplete (n : Nat) (s : State) : State :=
  match (s.vlayer n).first with
  | none => s
  | some w =>
    if !w.ended || w.copying then s
    else
      let l := s.vlayer n
      let shared := w.skipped != 0
      let prev := l.versions.head?
      let v : Version :=
        { num := w.num, capture := w.capture, done := s.now, colr := w.colr, width := w.width, rows := w.rows, digests := w.digests
          map := if shared then (prev.map Version.map).getD 0 &&& w.got else w.acc
          buf := if shared then (prev.map Version.buf).getD w.buf else w.buf
          epoch := if shared then (prev.map Version.epoch).getD 0 else epochOfVersion w.num }
      let same := match prev with
        | some p => p.digests = w.digests && decide (p.rows = w.rows) && decide (w.digests.length = w.rows)
        | none => false
      let run := if same then l.matchRun + 1 else 0
      let enter := !l.isStatic && same && s.num 0x4017 n != 0 && decide (s.num 0x4017 n ≤ run)
      let s1 := s.modLayer n fun l => { l.setFirst none with
        versions := v :: l.versions, published := w.num, matchRun := run
        isStatic := l.isStatic || enter, nextBuf := if shared && l.nextBuf.isNone then some w.buf else l.nextBuf }
      if enter then s1.raise 0x40 n 1 else s1

/-- After a completion the next writing buffer is taken, unless a frame is being written already (R97). -/
def State.takeAfter (n : Nat) (s : State) : State :=
  if (s.vlayer n).nextBuf.isNone && (s.vlayer n).writing.isNone then s.takeNext n else s

/-! ## Commands -/

def execIngsLinkUp (t port rate lanes : Nat) (fmt : DpFormat) (s : State) : Host.Outcome State Fault Refusal :=
  .next ((s.advance t).linkUp port rate lanes fmt)

def execDpSymbolLockLost (t port : Nat) (s : State) : Host.Outcome State Fault Refusal := .next ((s.advance t).lockLost port)

def execDpRetrainTimeout (t port : Nat) (s : State) : Host.Outcome State Fault Refusal :=
  .next ((s.advance t).retrainTimeout port)

/-- An MSA change in mid-stream (R107). -/
def execIngsFormatChange (t port : Nat) (fmt : DpFormat) (s : State) : Host.Outcome State Fault Refusal :=
  .next ((((s.advance t).abortPort port).raise 0x41 port (fmt.enc * 256 + fmt.depth % 16 * 16 + fmt.colr % 16)).checkFormat
    port fmt)

def execCurrencySdp (t port : Nat) (packet : Bytes) (s : State) : Host.Outcome State Fault Refusal :=
  .next ((s.advance t).currencySdp port packet)

def execDpFrameStart (t port : Nat) (s : State) : Host.Outcome State Fault Refusal := .next ((s.advance t).frameStart port)

def execDpLineReceived (t port : Nat) (samples : LineSamples) (s : State) : Host.Outcome State Fault Refusal :=
  .next ((s.advance t).lineReceived port samples)

def execLineWriteAccepted (t layer line : Nat) (s : State) : Host.Outcome State Fault Refusal :=
  .next ((s.advance t).lineAccepted layer line)

def execDpFrameEnd (t port : Nat) (s : State) : Host.Outcome State Fault Refusal := .next ((s.advance t).frameEnd port)

def execStaticCopyComplete (t layer : Nat) (ok : Bool) (s : State) : Host.Outcome State Fault Refusal :=
  .next ((s.advance t).staticCopyDone layer ok)

/-- Training at a rate or lane count above what is advertised fails: the port stays TRAINING (R87). -/
def execDpLinkTrainingFail (t port rate lanes : Nat) (s : State) : Host.Outcome State Fault Refusal :=
  let s1 := s.advance t
  .next (if (s1.port port).canTrain rate lanes then s1 else s1.trainFails port)

/-- The end of a 500 ms HPD drop (R90, R91). -/
def execHpdReassert (t port : Nat) (s : State) : Host.Outcome State Fault Refusal :=
  let s1 := s.advance t
  match (s1.port port).hpdBackAt with
  | some b => .next (if s1.now < b then s1 else if s1.hpdWanted port then s1.assertHpd port
      else s1.modPort port fun p => { p with hpdBackAt := none })
  | none => .next s1

end Sys2Proof.Machine
end

