-- ==== Sys2Proof/Machine/Plaza.lean ====
section
/-! DEFINITION. Layer composition: placement, the scaler, blending, fetch accounting, signatures, and graphics builds and
publishes (R141–R167). -/

namespace Sys2Proof.Machine

/-! ## Buffers and versions -/

/-- Owner code of a layer's buffers (0x5020). -/
def layerOwner (n : Nat) : Nat := if n < 8 then n + 1 else 0x10 + (n - 8)

/-- The layer of an owner code of layer buffers. -/
def ownerLayer (owner : Nat) : Nat := if owner < 0x10 then owner - 1 else owner - 8

def State.glayer (s : State) (n : Nat) : GLayer := s.plaz.gfx.getD n {}

/-- Changes one graphics layer. -/
def State.modGfx (n : Nat) (f : GLayer → GLayer) (s : State) : State :=
  s.modPlaz fun p => { p with gfx := modAt p.gfx n f }

/-- Complete versions of a layer, newest first. -/
def State.versionsOf (s : State) (n : Nat) : List Version :=
  if n < 8 then (s.vlayer n).versions else (s.glayer (n - 8)).versions

/-- The newest complete version of a layer. -/
def State.newestOf (s : State) (n : Nat) : Option Version := (s.versionsOf n).head?

/-- A complete version of a layer by number. -/
def State.versionAt (s : State) (n num : Nat) : Option Version := (s.versionsOf n).find? fun v => v.num = num

/-- Changes the newest version of a layer. -/
def State.modNewest (n : Nat) (f : Version → Version) (s : State) : State :=
  if n < 8 then s.modLayer n fun l => { l with versions := modAt l.versions 0 f }
  else s.modGfx (n - 8) fun l => { l with versions := modAt l.versions 0 f }

/-- Words of a buffer of `w × h` pixels (R94). -/
def bufWords (w h : Nat) : Nat := divCeil (w * h) 7

/-- Whether a word of a buffer comes back poisoned (R126, R128, R130, R132). -/
def State.wordBad (s : State) (n buf idx : Nat) : Bool :=
  let k := wkey (layerOwner n) buf idx
  s.hbm.badReads.contains k || ((s.hbm.addrOf k).any s.hbm.bad)

/-- Whether a word reads back whole: it carries the epoch, and no error came with it (R100, R126, R128). -/
def State.wordGood (s : State) (n : Nat) (v : Version) (idx : Nat) : Bool :=
  epochOf (s.hbm.word (wkey (layerOwner n) v.buf idx)) = v.epoch && !s.wordBad n v.buf idx

/-- Whether buffer line `y` of a version is valid (R100, R153). -/
def State.lineValid (s : State) (n : Nat) (v : Version) (y : Nat) : Bool :=
  bit v.map y &&
    (let lo := y * v.width / 7
     let hi := (y * v.width + v.width - 1) / 7
     (upTo (hi + 1 - lo)).all fun k => s.wordGood n v (lo + k))

/-- Pixel `(x, y)` of a version's buffer. -/
def State.bufPixel (s : State) (n : Nat) (v : Version) (x y : Nat) : Nat :=
  let i := y * v.width + x
  pixelAt (s.hbm.word (wkey (layerOwner n) v.buf (i / 7))) (i % 7)

/-- Whether a version may be chosen (R145): a video version's colorimetry is its group's space. -/
def State.eligible (s : State) (n : Nat) (v : Version) : Bool :=
  decide (8 ≤ n) || v.colr % 16 = s.num 0x6014 (s.num 0x6000 n)

/-- Event 0x64, once for each ineligible version of a layer (R145). -/
def State.reportSpace (s : State) (n : Nat) : State :=
  if 8 ≤ n || !layerOn s.live n then s
  else
    let bad := (s.versionsOf n).filter fun v => !s.eligible n v
    let known := s.plaz.mismatch.getD n []
    let fresh := bad.filter fun v => !known.contains v.num
    (fresh.reverse).foldl (fun s v => s.raise 0x64 n (v.colr % 16))
      (s.modPlaz fun p => { p with mismatch := setAt p.mismatch n (bad.map Version.num) })

/-! ## The scaler (R148–R153) -/

/-- Source position and phase of output position `i` (R148). Positions are kept to 2⁻²¹ of a pixel. -/
def tapPos (step : Nat) (init : Int) (i : Nat) : Int × Nat :=
  let x2 : Int := 2 * init + ((2 * i + 1) * step : Nat) - 2 ^ 20
  let n := x2 / 2 ^ 21
  (n, ((x2 - n * 2 ^ 21) / 2 ^ 15).toNat)

/-- The coefficients of a phase from a table of `taps` taps (R151). -/
def phaseCoefs (taps : Nat) (table : Bytes) (phase : Nat) : List Int :=
  (upTo taps).map fun k => toS 16 (leAt table (2 * (phase * taps + k)) 2)

/-- A source index held inside the crop (R149). -/
def clampTap (lo len : Nat) (i : Int) : Nat := lo + (clampI 0 ((len : Int) - 1) i).toNat

/-- The horizontal pass of one component: `(Σ coef × p + 128) >> 8` (R150). -/
def hPass (coef px : List Int) : Int := (sumI (coef.zip px) (fun p => p.1 * p.2) + 128) / 256

/-- The vertical pass: `(Σ coef × h + 2,048) >> 12`, clipped (R150). -/
def vPass (coef hs : List Int) : Nat := (clampI 0 4095 ((sumI (coef.zip hs) (fun p => p.1 * p.2) + 2048) / 4096)).toNat

/-- Component `c` of a pixel: 0 R', 1 G', 2 B' (R94). -/
def comp12 (px c : Nat) : Nat := (px >>> (12 * (2 - c))) % 4096

/-- A pixel from a layer: its components, its alpha A, and whether it comes from an invalid line. -/
structure LPix where
  c : List Nat
  a : Nat
  bad : Bool
  deriving DecidableEq, Repr

/-- Output pixel `(i, j)` of a video layer's destination (R148–R150, R153). -/
def State.videoPixel (s : State) (n : Nat) (v : Version) (i j : Nat) : LPix :=
  let (sh, sv, ih, iv) := stepsOf s.live n
  let (cx, cy, cw, ch) := cropOf s.live n
  let (nx, px) := tapPos sh ih i
  let (ny, py) := tapPos sv iv j
  let kh := phaseCoefs 8 (s.blob 0x6008 n) px
  let kv := phaseCoefs 6 (s.blob 0x6009 n) py
  let xs := (upTo 8).map fun (k : Nat) => clampTap cx cw (nx - 3 + k)
  let ys := (upTo 6).map fun (k : Nat) => clampTap cy ch (ny - 2 + k)
  let ok := ys.map (s.lineValid n v)
  let one (c : Nat) : Nat :=
    vPass kv ((ys.zip ok).map fun p =>
      hPass kh (xs.map fun x => if p.2 then ((comp12 (s.bufPixel n v x p.1) c : Nat) : Int) else 0))
  ⟨(upTo 3).map one, 63, (kv.zip ok).any fun p => p.1 != 0 && !p.2⟩

/-- A 10-bit code at 12 bits (R154). -/
def widen10 (v : Nat) : Nat := (v <<< 2) ||| (v >>> 8)

/-- Pixel `(i, j)` of a graphics layer (R153, R154). -/
def State.gfxPixel (s : State) (n : Nat) (v : Version) (i j : Nat) : LPix :=
  let ok := s.lineValid n v j
  let px := if ok then s.bufPixel n v i j else 0
  ⟨[widen10 (fld px 29 20), widen10 (fld px 19 10), widen10 (fld px 9 0)], fld px 35 30, !ok⟩

/-! ## Blending (R159–R161) -/

/-- The weight of a layer's pixel (R159). -/
def blendWeight (a al : Nat) : Nat := divHalfUp (65536 * ((a <<< 2) ||| (a >>> 4)) * al) 65025

/-- One component blended over the result below (R159). -/
def blend (w src dst : Nat) : Nat := (w * src + (65536 - w) * dst + 32768) >>> 16

/-- A composed pixel with the masks of R161. -/
structure CPix where
  c : List Nat
  contrib : Nat
  invalid : Nat
  deriving DecidableEq, Repr

/-- The W36 of three components. -/
def w36Of (c : List Nat) : Nat := pixelWord (natAt c 0) (natAt c 1) (natAt c 2)

/-- One layer laid over a composed pixel at output position `(x, y)` (R144, R159, R161). -/
def State.overlay (x y : Nat) (acc : CPix) (n : Nat) (s : State) : CPix :=
  match s.versionAt n ((s.clayer n).comp.ver) with
  | none => acc
  | some v =>
    let (dx, dy, dw, dh) := dstOf s.live n
    let i : Int := x - dx
    let j : Int := y - dy
    if i < 0 || j < 0 || (dw : Int) ≤ i || (dh : Int) ≤ j then acc
    else
      let p := if n < 8 then s.videoPixel n v i.toNat j.toNat else s.gfxPixel n v i.toNat j.toNat
      let w := blendWeight p.a (s.num 0x6004 n)
      { c := (p.c.zip acc.c).map fun q => blend w q.1 q.2
        contrib := if w = 0 then acc.contrib else acc.contrib + 2 ^ n
        invalid := if p.bad && (decide (8 ≤ n) || w != 0) then acc.invalid + 2 ^ n else acc.invalid }

/-- The composed pixel of a group at `(x, y)` for the frame being composed (R160). -/
def State.composed (s : State) (g x y : Nat) : CPix :=
  let bg := s.num 0x6012 g
  ((blendOrder s.live).filter fun n => (groupLayers s.live g).contains n).foldl (fun acc n => s.overlay x y acc n)
    ⟨(upTo 3).map (comp12 bg), 0, 0⟩

/-- Output lines of a layer's group that hold a pixel invalid for the layer (R153, R161, R177). -/
def State.invalidLines (s : State) (n : Nat) : List Nat :=
  match s.versionAt n ((s.clayer n).comp.ver), outSize s.live (s.num 0x6000 n) with
  | some v, some (ow, oh) =>
    let (dx, dy, dw, dh) := dstOf s.live n
    if (ow : Int) ≤ dx || dx + dw ≤ 0 || (decide (n < 8) && s.num 0x6004 n = 0) then []
    else (upTo oh).filter fun y =>
      let j : Int := y - dy
      if j < 0 || (dh : Int) ≤ j then false
      else if 8 ≤ n then !s.lineValid n v j.toNat
      else
        let (_, sv, _, iv) := stepsOf s.live n
        let (_, cy, _, ch) := cropOf s.live n
        let (ny, py) := tapPos sv iv j.toNat
        ((phaseCoefs 6 (s.blob 0x6009 n) py).zip (upTo 6)).any fun p =>
          p.1 != 0 && !s.lineValid n v (clampTap cy ch (ny - 2 + p.2))
  | _, _ => []

/-! ## Fetch (R162) -/

/-- Words that hold at least one pixel of a layer's crop (R162). -/
def fetchWords (v : View) (n : Nat) : Nat :=
  match bufSize v n with
  | none => 0
  | some (bw, bh) =>
    if 8 ≤ n then bufWords bw bh
    else
      let (cx, cy, cw, ch) := cropOf v n
      if cw = 0 || ch = 0 then 0
      else
        -- a word shared by the end of one line and the start of the next counts once
        (upTo ch).foldl (fun (acc : Nat × Nat) y =>
          let lo := ((cy + y) * bw + cx) / 7
          let hi := ((cy + y) * bw + cx + cw - 1) / 7
          (acc.1 + (hi + 1 - max lo acc.2), hi + 1)) (0, 0) |>.1

/-- Fetch load in thousandths of B/s (R162). -/
def fetchLoad (v : View) : Nat := sumTo 16 fun n => if layerOn v n then fetchWords v n * 32 * v 0xB001 0 else 0

/-! ## Signatures (R163) -/

/-- The signature of a region over the frame being composed: CRC-32 of its pixels, 5 bytes each (R163). -/
def State.signature (s : State) (r : Nat) : Nat :=
  let rc := s.num 0x6020 r
  let g := s.num 0x6021 r
  crc32 (((upTo (rectH rc)).map fun y => ((upTo (rectW rc)).map fun x =>
    pixelBytes (w36Of (s.composed g (rectX rc + x) (rectY rc + y)).c)).flatten).flatten)

/-! ## Graphics builds (R155–R158) -/

/-- Width and height of a graphics layer. -/
def State.gfxW (s : State) (g : Nat) : Nat := fld (s.num 0x6030 g) 31 16
def State.gfxH (s : State) (g : Nat) : Nat := fld (s.num 0x6030 g) 15 0

/-- The buffer a build would take, with the buffer whose versions cease (R97, R156). -/
def State.gfxTake (s : State) (g : Nat) : Option Nat × Option Nat :=
  takeBuffer (s.num 0x6031 g) (s.glayer g).versions none (s.holds (8 + g))

/-- Whether the 32-byte header of a line stream passes (R155, R156). -/
def State.gfxHeaderOk (s : State) (g : Nat) (h : Bytes) : Bool :=
  let first := leAt h 0 2
  let count := leAt h 2 2
  (first = 0 || first = (s.glayer g).nextLine) && decide (1 ≤ count) && decide (first + count ≤ s.gfxH g) &&
    leAt h 4 1 = 1 && (h.drop 5).all (· = 0) && (first != 0 || (s.gfxTake g).1.isSome) &&
    (first = 0 || (s.glayer g).build.isSome)

/-- The words of a stream after its header. -/
def streamWords (b : Bytes) : List Nat :=
  let body := b.drop 32
  (upTo (body.length / 32)).map fun k => leAt body (32 * k) 32

/-- Whether a whole stream passes at LAST (R155). -/
def State.gfxStreamOk (s : State) (g : Nat) (b : Bytes) : Bool :=
  b.length = 32 + divCeil (leAt b 2 2 * s.gfxW g) 7 * 32 && (streamWords b).all fun w => w >>> 252 = 0

/-- The number after the newest version of a graphics layer, 1 for the first (R95, R157). -/
def State.gfxNextNum (s : State) (g : Nat) : Nat := nextNum (((s.newestOf (8 + g)).map Version.num).getD 0)

/-- A build starts: number and buffer are fixed, and the buffer is zeroed (R156). -/
def State.gfxStart (g : Nat) (s : State) : State :=
  match s.gfxTake g with
  | (some b, gone) =>
    let num := s.gfxNextNum g
    (s.modHbm (·.zeroBuf (layerOwner (8 + g)) b)).modGfx g fun l => { l with
      build := some { num := num, buf := b }, nextLine := 0
      versions := match gone with
        | some k => l.versions.filter fun v => v.buf != k
        | none => l.versions }
  | (none, _) => s.modGfx g fun l => { l with build := none, nextLine := 0 }

/-- A stream's header is complete and good: a stream that starts at line 0 abandons a build in progress and starts a new one (R155,
R156). -/
def State.gfxHeader (g : Nat) (h : Bytes) (s : State) : State := if leAt h 0 2 = 0 then s.gfxStart g else s

/-- The lines of a stream whose checks passed go into the build (R155). Whole words are written with the build's epoch, and a
trailing part of a word waits for the next stream. -/
def State.gfxAccept (g : Nat) (b : Bytes) (s : State) : State :=
  let first := leAt b 0 2
  let count := leAt b 2 2
  match (s.glayer g).build with
  | none => s
  | some bd =>
    let w := s.gfxW g
    let px := ((streamWords b).map fun wd => (upTo 7).map fun k => (wd >>> (36 * k)) % 2 ^ 36).flatten.take (count * w)
    let all := bd.tail ++ px
    let start := first * w - bd.tail.length
    let whole := all.length / 7 * 7
    let bd' := { bd with got := bd.got ||| maskOf (first + count) (fun y => decide (first ≤ y)), tail := all.drop whole }
    (s.modHbm fun h => h.putPixels (layerOwner (8 + g)) bd.buf (epochOfVersion bd.num) start (all.take whole)).modGfx g
      fun l => { l with build := some bd', nextLine := first + count }

/-- Whether a publish is accepted: answers RANGE otherwise (R157). -/
def State.gfxPublishOk (g num : Nat) (s : State) : Bool :=
  s.num 0x6030 g != 0 &&
    (s.num 0x7104 (8 + g) = 0 ||
      (num != 0 && (match s.newestOf (8 + g) with
        | some v => newer num v.num
        | none => true)))

/-- The capture time of a publish, and its event (R158). -/
def State.gfxCapture (g : Nat) (s : State) : Nat × State :=
  let d := s.num 0x6033 g
  let now := s.wall
  if d = 0 then (now, s)
  else
    let s1 := s.setNum 0x6033 g 0
    if now < d then (now, s1.raise 0x63 (8 + g) (sat 65535 ((d - now) / 1000))) else (d, s1)

/-- A publish (R157, R158). The notice to CURG follows it. A publish with no line received and no version before it makes a
version without valid lines in a free buffer (log entry 10, DESIGN CHOICE, unsafe). -/
def State.gfxPublish (g value : Nat) (s : State) : State :=
  let num := if value = 0 then s.gfxNextNum g else value
  let (cap, s1) := s.gfxCapture g
  let w := s1.gfxW g
  let h := s1.gfxH g
  match (s1.glayer g).build, s1.newestOf (8 + g) with
  | none, some p =>
    (s1.modGfx g fun l => { l with
      versions := { p with num := num, capture := cap, done := s.now } :: l.versions, nextLine := 0 }).raise 0x61 (8 + g) (num % 65536)
  | none, none =>
    let s2 := s1.gfxStart g
    let buf := (((s2.glayer g).build).map GBuild.buf).getD 0
    let v : Version := { num := num, capture := cap, done := s.now, buf := buf, epoch := epochOfVersion num, width := w, rows := h }
    ((s2.modGfx g fun l => { l with versions := v :: l.versions, build := none, nextLine := 0 }).raise 0x62 (8 + g) 0).raise
      0x61 (8 + g) (num % 65536)
  | some bd, _ =>
    let got := (upTo h).filter (bit bd.got)
    let last := (((got.reverse).head?).map (· + 1)).getD 0
    let s2 := s1.modHbm fun m =>
      m.putPixels (layerOwner (8 + g)) bd.buf (epochOfVersion bd.num) (last * w - bd.tail.length) bd.tail
    let v : Version :=
      { num := num, capture := cap, done := s.now, buf := bd.buf, epoch := epochOfVersion bd.num, width := w, rows := h, map := bd.got }
    let s3 := s2.modGfx g fun l => { l with versions := v :: l.versions, build := none, nextLine := 0 }
    let s4 := if got.length < h then s3.raise 0x62 (8 + g) (sat 65535 got.length) else s3
    s4.raise 0x61 (8 + g) (num % 65536)

/-- Every version and build of a graphics layer discarded, as a commit of its size or buffer count does (R158). -/
def State.gfxDiscard (g : Nat) (s : State) : State :=
  (s.modGfx g fun _ => {}).modHbm fun h => h.zeroOwner (layerOwner (8 + g))

end Sys2Proof.Machine
end

