-- ==== Sys2Proof/Machine/Seqr.lean ====
section
/-! DEFINITION. Frame timing: the schedule in wall time, re-phases, time steps, wheel phase and the FSYNC pins
(R242–R248, R252–R255, R266–R271, R476). -/

namespace Sys2Proof.Machine

/-! ## The schedule (R242) -/

/-- `n × 10¹² / r` rounded half up, for a count that may be negative. -/
def framesNs (n : Int) (r : Nat) : Int := if r = 0 then 0 else (2 * n * 10 ^ 12 + r) / (2 * r)

/-- t(F), the scheduled wall time of the boundary of frame F. A slave of FSYNC uses the measured period (R270). -/
def State.tF (s : State) (f : Nat) : Int :=
  let n : Int := (f : Int) - s.seqr.f0
  if s.num 0xB050 = 2 && s.seqr.fsyncPeriod != 0 then s.seqr.t0 + n * s.seqr.fsyncPeriod
  else s.seqr.t0 + framesNs n (s.num 0xB001)

/-- P(F) of R170: the scheduled wall time of B(F+1). -/
def State.pF (s : State) (f : Nat) : Int := s.tF (f + 1)

/-- P_min for a frame rate and FSYNC mode (R242, R270). -/
def periodMin (r mode : Nat) : Nat :=
  if r = 0 then 0 else if mode = 2 then 10 ^ 12 * 9998 / (10000 * r) else 10 ^ 12 / r

/-- The period of frame F in ns. -/
def State.periodOf (s : State) (f : Nat) : Nat := (s.tF (f + 1) - s.tF f).toNat

/-- The frame period now. -/
def State.period (s : State) : Nat := s.periodOf s.seqr.count

/-- Device states that count frames (R253). -/
def DevState.counts : DevState → Bool
  | .mews | .boot => false
  | _ => true

/-- The origin taken as the device leaves BOOT (R243). -/
def State.freeOrigin (s : State) : State :=
  s.modSeqr fun q => { q with
    t0 := (s.wall / 1000000 + 1) * 1000000, f0 := 0, count := 0, status := 1, rephase := none }

/-! ## Steps of wall time (R476) -/

/-- Mantissa and exponent of a step: the fewest powers of ten with which the mantissa fits an S16. -/
def stepDigits : Nat → Int → Nat → Nat × Nat
  | 0, v, e => (ofS 16 (divAway v (10 ^ e)), e)
  | n + 1, v, e =>
    let m := divAway v (10 ^ e)
    if (-32768 : Int) ≤ m && m ≤ 32767 then (ofS 16 m, e) else stepDigits n v (e + 1)

/-- Event 0x33 for a step in ns. -/
def State.stepEvent (d : Int) (s : State) : State :=
  if d = 0 then s else let (m, e) := stepDigits 9 d 0; s.raise 0x33 e m

/-- The wall-time counter stepped by `d` ns, with its event (log entry 95, DEDUCED, unsafe). -/
def State.stepWall (d : Int) (s : State) : State := (s.modWallOff (· + d)).stepEvent d

/-! ## Groups that drain (R262) -/

/-- Whether the pipeline of a group drains in a managed transition: no composition, plane writes or plane reads for frame `f`. -/
def State.drains (s : State) (g f : Nat) : Bool :=
  match s.seqr.trans with
  | some t => decide (f < t.frame + 2) && (((groupOf s.live g).map Prod.snd).getD []).any (bit t.mask)
  | none => false

/-! ## Re-phase (R246) -/

/-- The smallest count from `f` on whose t(F−1) lies at or after `w`, searched over `n` counts. -/
def State.firstFrom (s : State) (w : Int) : Nat → Nat → Nat
  | 0, f => f
  | n + 1, f => if w ≤ s.tF (f - 1) then f else State.firstFrom s w n (f + 1)

/-- The smallest count whose boundary lies at or after wall time `w`, from the schedule's arithmetic. -/
def State.countAt (s : State) (w : Int) : Nat :=
  let r := if s.num 0xB050 = 2 && s.seqr.fsyncPeriod != 0 then 10 ^ 12 / s.seqr.fsyncPeriod else s.num 0xB001
  let guess := (s.seqr.f0 : Int) + (w - s.seqr.t0) * r / 10 ^ 12 - 2
  s.firstFrom w 8 (max 1 (guess + 1).toNat) - 1

/-- Array ports that are driven or blanked (R306). -/
def State.drivenPorts (s : State) : List Nat :=
  (upTo 4).filter fun a => s.obs (wArray a) = 3 || s.obs (wArray a) = 4

/-- Every block of some arrays cleared: nothing is loaded or shown. -/
def State.clearBlocks (ports : List Nat) (s : State) : State :=
  let cleared (x : PlArray) : PlArray := { x with armed := List.replicate 16 none, shown := List.replicate 16 none }
  s.modPlgn fun p => { p with arrays := ports.foldl (fun l a => modAt l a cleared) p.arrays }

/-- A re-phase starts (R246): every block of every driven array is cleared, and F' is fixed. The light of their groups is
gated while the status reads REPHASING (log entry 119, DEDUCED, safe). -/
def State.startRephase (cause : Nat) (s : State) : State :=
  if s.seqr.status = 0 then s
  else
    let back := if cause = 2 then 2 else match s.seqr.rephase with
      | some r => r.after_
      | none => s.seqr.status
    let target := max (s.countAt ((s.wall : Int) + 200000) + 1) (s.seqr.flipCount + 1)
    let ports := s.drivenPorts
    (((s.emits (ports.map Out.clearArray)).clearBlocks ports).modSeqr fun q => { q with
      status := 4, rephases := (q.rephases + 1) % 2 ^ 32
      rephase := some ⟨cause, s.wall, target, back, decide (q.count + 2 ≤ target)⟩ }).raise 0xBE cause (target % 65536)

/-- A phase correction of the counter: up to 40 ns in a frame period is absorbed, more starts a re-phase (R245, R434). -/
def State.correctPhase (d : Int) (s : State) : State :=
  if d.natAbs ≤ s.seqr.slewLeft then
    (s.modWallOff (· + d)).modSeqr fun q => { q with slewLeft := q.slewLeft - d.natAbs }
  else (s.stepWall d).startRephase 1

/-! ## Wheels (R266–R268) -/

/-- The speed that SEQR asks of a wheel in LOCK, in 0.001 rpm: K × r × 60, with r in 0.001 Hz (R266). -/
def lockSpeed (v : View) (n : Nat) : Nat := v 0xB041 n * v 0xB001 0 * 60

/-- When a wheel's mark is expected to pass for pass `m` of frame `f` (R267). -/
def State.markTime (s : State) (n m f : Nat) : Int :=
  let k := s.num 0xB041 n
  let p := s.tF (f + 1) - s.tF f
  s.tF f + ((m * 36000 + s.num 0xB042 n : Nat) : Int) * p / ((36000 * k : Nat) : Int)

/-- The phase error of a pass in 0.01° against the nearest expected pass (R267). -/
def State.markError (s : State) (n : Nat) (pass : Int) : Int :=
  let k := s.num 0xB041 n
  let f := s.seqr.count
  let p := s.tF (f + 1) - s.tF f
  let cands := ((upTo (k + 2)).map fun m => s.markTime n m f) ++ [s.markTime n 0 f - p / (max 1 k : Nat)]
  let d := cands.foldl (fun (b : Int) c => if (pass - c).natAbs < b.natAbs then pass - c else b) (pass - s.markTime n 0 f)
  divAway (d * 36000 * k) p.toNat

/-- A frame counted towards a wheel's phase (R268). -/
def State.wheelFrame (n : Nat) (s : State) : State :=
  s.modSeqr fun q => { q with wheels := modAt q.wheels n fun w => { w with
    good := if w.err.natAbs ≤ 100 then w.good + 1 else 0
    bad := if 300 < w.err.natAbs then w.bad + 1 else 0 } }

/-- A wheel's phase set, with its event (R268). -/
def State.setPhase (n : Nat) (v : Bool) (s : State) : State :=
  if (s.seqr.wheels.getD n {}).inPhase = v then s
  else (s.modSeqr fun q => { q with wheels := modAt q.wheels n fun w => { w with inPhase := v, good := 0, bad := 0 } }).raise
    0xBF n (b2n v)

/-- A wheel that is not LOCKED is out of phase, and its run of good frames ends (R268). -/
def State.losePhase (n : Nat) (s : State) : State :=
  (s.setPhase n false).modSeqr fun q => { q with wheels := modAt q.wheels n fun w => { w with good := 0, bad := 0 } }

/-- A wheel enters phase after 16 good frames, or leaves it after 4 bad ones (R268). -/
def State.judgePhase (n : Nat) (locked : Bool) (s : State) : State :=
  let w := s.seqr.wheels.getD n {}
  if !locked then s.losePhase n
  else if w.inPhase then (if 4 ≤ w.bad then s.setPhase n false else s)
  else if 16 ≤ w.good then s.setPhase n true else s

/-! ## FSYNC (R269–R271) -/

/-- A change of the FSYNC state, with its event (R270). The manual gives the event a data code for LOCKED, HOLDOVER and LOST alone: for
the other changes the data is free (log entry 150, DESIGN CHOICE, safe). -/
def State.setFsync (v : Nat) (s : State) : State :=
  if s.seqr.fsync = v then s
  else
    let s1 := s.modSeqr fun q => { q with fsync := v }
    if 2 ≤ v && v ≤ 4 then s1.raise 0xC0 0 (v - 1) else s1.drawn.raise 0xC0 0 (s1.free % 65536)

/-- The origin moved to the boundary of the count, so that a new period starts from there (log entry 71, DEDUCED, safe). -/
def State.rebase (s : State) : State :=
  let f := s.seqr.count
  let t := (s.tF f).toNat
  s.modSeqr fun q => { q with t0 := t, f0 := f }

/-- The period at which a slave of FSYNC awaits edges: the measured one, or 10¹² / r before the first (R270). -/
def State.fsyncPeriodNow (s : State) : Nat :=
  let r := s.num 0xB001
  if s.seqr.fsyncPeriod != 0 then s.seqr.fsyncPeriod else if r = 0 then 0 else 10 ^ 12 / r

/-- An edge is missing: none came within ±2 µs of its expected time, or one came off the rate (R270). -/
def State.fsyncMissing (s : State) : State :=
  let s1 := s.modSeqr fun q => { q with fsyncMiss := q.fsyncMiss + 1, fsyncGood := 0 }
  if s1.seqr.fsync = 2 || s1.seqr.fsync = 1 then s1.setFsync 3 else s1

/-- Frame periods between two edges, the nearest whole number: edges between them may be missing (log entry 151, DEDUCED, unsafe). -/
def fsyncSpan (dt r : Nat) : Nat := max 1 (divHalfUp (dt * r) (10 ^ 12))

/-- Whether edges `dt` ns apart keep the committed rate within ±200 ppm (R270). -/
def fsyncInRate (dt r : Nat) : Bool :=
  let k : Int := fsyncSpan dt r
  decide (((dt * r : Nat) - k * 10 ^ 12).natAbs * 1000000 ≤ 200 * 10 ^ 12 * k.natAbs)

/-- A long pulse at a count off a multiple of 1,024 moves the count forward to the next (R271). -/
def State.fsyncAlign (f width : Nat) (s : State) : State :=
  if width < 2000 || f % 1024 = 0 then s
  else
    let up := (f / 1024 + 1) * 1024 - f
    (s.modSeqr fun q => { q with f0 := q.f0 + up, count := q.count + up }).raise 0xC0 0 4

/-- An edge at wall time `e` that keeps the rate: it gives the period, and the target of the boundary nearest to it. The first one after
entry to SLAVE or after LOST starts a re-phase where its error is over 10 µs; every other error is slewed (R270). -/
def State.fsyncTrack (e width : Nat) (s : State) : State :=
  let q := s.seqr
  let r := s.num 0xB001
  let s0 := if q.fsyncEdge = 0 then s
    else s.rebase.modSeqr fun q => { q with fsyncPeriod := (e - q.fsyncEdge) / fsyncSpan (e - q.fsyncEdge) r }
  let at_ : Int := (e : Int) + s.sint 32 0xB051
  let f := s0.countAt (at_ - (s0.fsyncPeriodNow / 2 : Nat))
  let err := at_ - s0.tF f
  let good := if err.natAbs ≤ 50 then q.fsyncGood + 1 else 0
  let s1 := s0.modSeqr fun q => { q with
    fsyncEdge := e, fsyncRef := e, fsyncErr := err, fsyncMiss := 0, fsyncGood := good, fsyncFirst := false }
  let s2 := if 16 ≤ good then s1.setFsync 2 else if q.fsync = 3 || q.fsync = 4 then s1.setFsync 1 else s1
  let moved (d : Int) (s : State) : State := s.modSeqr fun q => { q with t0 := ((q.t0 : Int) + d).toNat }
  let s3 := if q.fsyncFirst && 10000 < err.natAbs then (moved err s2).startRephase 3 else moved (clampI (-40) 40 err) s2
  s3.fsyncAlign f width

/-- A rising edge on FSYNC_IN at wall time `e`, with its measured width (R270, R271). -/
def State.fsyncEdge (e width : Nat) (s : State) : State :=
  if s.seqr.fsyncEdge = 0 || fsyncInRate (e - s.seqr.fsyncEdge) (s.num 0xB001) then s.fsyncTrack e width
  else s.fsyncMissing.modSeqr fun q => { q with fsyncEdge := e }

/-- 16 edges missing in a row (R270). -/
def State.fsyncLost (s : State) : State :=
  if 16 ≤ s.seqr.fsyncMiss && s.seqr.fsync != 4 then (s.setFsync 4).modSeqr fun q => { q with fsyncFirst := true } else s

/-- The pulse of FSYNC_OUT at B(F) of a master: long at each multiple of 1,024 (R269). -/
def State.fsyncPulse (f : Nat) (s : State) : State :=
  if s.num 0xB050 = 1 then s.emit (.pulse .fsyncOut (if f % 1024 = 0 then 3000 else 1000)) else s

end Sys2Proof.Machine
end

