-- ==== Sys2Proof/Machine/Uane.lean ====
section
/-! DEFINITION. The Uane fabric below its payloads: frames and their checks, lanes and flits, output queues, forwarding and wrap,
ports, topology and routes, and the choice of time master (R413–R432, R435). -/

namespace Sys2Proof.Machine

def State.uport (s : State) (n : Nat) : UPort := s.uane.ports.getD n {}

/-- Changes one Uane port. -/
def State.modUport (n : Nat) (f : UPort → UPort) (s : State) : State :=
  s.modUane fun u => { u with ports := modAt u.ports n f }

/-! ## Frames (R416–R420) -/

/-- Class of a frame type (R420). -/
def uClass : Nat → Option Nat
  | 0x01 | 0x02 => some 0
  | 0x03 | 0x10 | 0x11 | 0x12 | 0x13 | 0x14 | 0x15 => some 1
  | 0x20 => some 2
  | 0x30 => some 3
  | _ => none

/-- Whether a type is link-local (R420) (log entry 106, DEDUCED, safe). -/
def uLocal (typ : Nat) : Bool := typ = 1 || typ = 2

/-- A header flit's fields (R417, R418). -/
structure UHdr where
  typ : Nat
  bcast : Bool
  wrapped : Bool
  dst : Nat
  src : Nat
  hops : Nat
  ttl : Nat
  flits : Nat
  seq : Nat
  spec : Bytes
  deriving DecidableEq, Repr

/-- A byte string brought to `n` bytes with zeros. -/
def fit (n : Nat) (b : Bytes) : Bytes := (b ++ List.replicate n 0).take n

/-- The 30 bytes of a header flit. -/
def UHdr.bytes (h : UHdr) : Bytes :=
  let b := toLE 1 h.typ ++
    toLE 1 (((uClass h.typ).getD 0) * 64 + b2n h.bcast * 32 + b2n h.wrapped * 16) ++
    toLE 2 h.dst ++ toLE 2 h.src ++ toLE 1 h.hops ++ toLE 1 h.ttl ++ toLE 2 h.flits ++ toLE 2 h.seq ++ [0, 0] ++ fit 12 h.spec
  b ++ toLE 4 (crc32c b)

/-- The header a frame starts with. -/
def readUHdr (b : Bytes) : UHdr :=
  let fl := leAt b 1 1
  ⟨leAt b 0 1, bit fl 5, bit fl 4, leAt b 2 2, leAt b 4 2, leAt b 6 1, leAt b 7 1, leAt b 8 2, leAt b 10 2, slice b 14 12⟩

/-- Whether the header flit passes its CRC (R417). -/
def uHdrOk (b : Bytes) : Bool := leAt b 26 4 = crc32c (b.take 26)

/-- The payload flits of a frame. -/
def uPayload (b : Bytes) : Bytes := slice b 30 (30 * leAt b 8 2)

/-- The trailer flit over a payload (R419). -/
def uTrailer (payload : Bytes) (stomp : Bool) : Bytes := fit 30 (toLE 4 (crc32c payload) ++ [if stomp then 0xFF else 0])

/-- A payload padded to whole flits. -/
def toFlits (p : Bytes) : Bytes := fit (divCeil p.length 30 * 30) p

/-- A whole frame (R416). -/
def uFrame (h : UHdr) (payload : Bytes) : Bytes :=
  let p := toFlits payload
  { h with flits := p.length / 30 }.bytes ++ p ++ (if p.isEmpty then [] else uTrailer p false)

/-- What the checks of R419 find of a payload: good, bad here, or stomped before. -/
inductive PayCheck where
  | good | bad | stomped
  deriving DecidableEq, Repr

/-- The payload check of a frame (R419). -/
def payCheck (b : Bytes) : PayCheck :=
  let p := uPayload b
  if p.isEmpty then .good
  else
    let t := slice b (30 + p.length) 30
    if leAt t 4 1 != 0 then .stomped else if leAt t 0 4 = crc32c p then .good else .bad

/-- The frame with its stomp byte set. -/
def stompFrame (b : Bytes) : Bytes := modAt b (30 + (uPayload b).length + 4) fun _ => 0xFF

/-- The frame with its hops raised, and its wrapped flag as given; the header CRC is formed anew (R422, R430). -/
def passOn (b : Bytes) (wrapped : Bool) : Bytes :=
  let h := readUHdr b
  { h with hops := h.hops + 1, wrapped := wrapped }.bytes ++ b.drop 30

/-! ## Flits and lanes (R413–R416) -/

/-- Flits a frame takes on the link. -/
def linkFlits (b : Bytes) : Nat := b.length / 30

/-- The flit that a port has started by a local time: one per 4/7 ns, counted with the codewords from reset
(log entry 170, DEDUCED, unsafe). -/
def flitAt (now : Nat) : Nat := 7 * now / 4

/-- The codeword that has started by a local time: 85 flits each. -/
def codewordAt (now : Nat) : Nat := flitAt now / 85

/-- A lane put into a mode with a lane field. -/
def State.setUaneLane (n phys mode lane : Nat) (s : State) : State :=
  (s.modUport n fun p => { p with lanes := setAt p.lanes phys (mode, lane) }).emit (.uaneLane n phys mode lane)

/-- What a port has put out at a flit index: the flit, and whether it is a header; IDLE is 0 (R415, R416). -/
def State.uaneFlit (s : State) (n x : Nat) : Nat × Bool :=
  (s.outs.findSome? fun o => match o with
    | .uane p first b => if p = n && first ≤ x && x < first + linkFlits b then some (leAt b (30 * (x - first)) 30, x = first) else none
    | _ => none).getD (0, false)

/-- The pointer of a codeword group: its first header's place, 0x7F where it has none (R414). -/
def State.uanePointer (s : State) (n group : Nat) : Nat :=
  ((upTo 85).find? fun j => (s.uaneFlit n (85 * group + j)).2).getD 0x7F

/-- Codeword `count` of a physical lane as PAM4 symbols, with the lane as it stands and the frames put out so far: in DATA and DUP the
lane's 60 bits of flits 85 × count on, in TRAIN none (R413–R415). -/
def State.uaneSends (s : State) (n phys count : Nat) : List Int :=
  let (mode, lane) := (s.uport n).lanes.getD phys (1, phys)
  uaneCodeword lane mode count (if mode != 1 && lane = 0 then s.uanePointer n count else if lane = 0 then 0x7F else 0)
    ((upTo 85).map fun j => if mode = 1 then 0 else (s.uaneFlit n (85 * count + j)).1 >>> (60 * lane) % 2 ^ 60)

/-! ## Output queues (R421) -/

/-- Depth of a class's queue in flits (R421). -/
def queueDepth (cls : Nat) : Nat := natAt [64, 1024, 4096, 1024] cls

/-- The place in the queue of the next frame to send: by priority, but class 3 gets at least 2% while it waits (R421). -/
def nextQueued (p : UPort) : Option Nat :=
  let first (c : Nat) : Option Nat := p.queue.findIdx? fun q => q.cls = c
  if (first 3).isSome && decide (p.share3 * 50 < p.shareAll) then first 3
  else (first 0).orElse fun _ => (first 1).orElse fun _ => (first 2).orElse fun _ => first 3

/-- Frames whose first flit goes out by flit index `last`, at most `n` of them. -/
def drainPort (port last : Nat) : Nat → UPort → UPort × List Out
  | 0, p => (p, [])
  | n + 1, p =>
    if last < p.lineFree then (p, [])
    else match nextQueued p with
      | none => ({ p with share3 := 0, shareAll := 0 }, [])
      | some i =>
        match p.queue[i]? with
        | none => (p, [])
        | some q =>
          let p' := { p with
            queue := p.queue.eraseIdx i
            lineFree := p.lineFree + q.flits
            share3 := if q.cls = 3 then p.share3 + q.flits else p.share3
            shareAll := p.shareAll + q.flits }
          let (r, os) := drainPort port last n p'
          (r, Out.uane port p.lineFree q.bytes :: os)

/-- Every port's frames that are due by now leave. -/
def State.uaneFlush (s : State) : State :=
  (upTo 4).foldl (fun s n =>
    let (p, os) := drainPort n (flitAt s.now) 4096 (s.uport n)
    (s.modUport n fun _ => p).emits os) s

/-- A whole frame put out of a port: at once when the output is idle, into its queue when there is room, dropped otherwise. -/
def State.uaneOut (port cls : Nat) (unicast : Bool) (b : Bytes) (s : State) : State :=
  let s := s.uaneFlush
  let p := s.uport port
  let fl := linkFlits b
  let first := flitAt s.now + 1
  if p.queue.isEmpty && decide (p.lineFree ≤ first) then
    (s.modUport port fun p => { p with lineFree := first + fl }).emit (.uane port first b)
  else if ((p.queue.filter fun q => q.cls = cls).foldl (fun a q => a + q.flits) 0) + fl ≤ queueDepth cls then
    s.modUport port fun p => { p with queue := p.queue ++ [⟨cls, fl, unicast, b⟩] }
  else s.modUport port fun p => { p with drops := modAt p.drops cls fun d => sat 65535 (d + 1) }

/-! ## Routes and sending (R422, R425, R430) -/

/-- Whether Uane is on (R424). -/
def State.uaneOn (s : State) : Bool := s.num 0xF001 != 0

/-- Whether a port carries frames: UP or WRAPPED (R426). -/
def State.portUp (s : State) (n : Nat) : Bool := s.obs (wUane n) = 2 || s.obs (wUane n) = 3

/-- The other ring port. -/
def ringOther (n : Nat) : Nat := if n = 0 then 1 else 0

/-- Whether a port is a ring port of a RING (R424). -/
def State.ringPort (s : State) (n : Nat) : Bool := s.num 0xF001 = 1 && decide (n ≤ 1)

/-- The route to a node. -/
def State.routeTo (s : State) (node : Nat) : Option URoute := s.uane.routes.find? fun r => r.node = node

/-- A unicast frame put on its route; wrapped where the route's ring port is not up (R422, R430). -/
def State.uaneRoute (b : Bytes) (s : State) : State :=
  let h := readUHdr b
  let cls := (uClass h.typ).getD 0
  match s.routeTo h.dst with
  | none => s
  | some r =>
    if s.portUp r.port then s.uaneOut r.port cls true b
    else if s.ringPort r.port && s.portUp (ringOther r.port) then
      s.uaneOut (ringOther r.port) cls true ({ h with wrapped := true }.bytes ++ b.drop 30)
    else s

/-- A frame put out of every port that carries frames, but for `except_`. -/
def State.uaneFlood (except_ : Option Nat) (b : Bytes) (s : State) : State :=
  let cls := (uClass (readUHdr b).typ).getD 0
  (upTo 4).foldl (fun s n => if s.portUp n && except_ != some n then s.uaneOut n cls false b else s) s

/-- The next sequence number of a type (R417). -/
def State.uaneSeq (s : State) (typ : Nat) : Nat := (mapGet s.uane.seqs typ).getD 0

/-- Whether this node may originate a type: a duplicate identifier leaves HELLO, TIME and TOPO only (R423). -/
def State.mayOriginate (s : State) (typ : Nat) : Bool :=
  s.uaneOn && (s.uane.dupAt.isNone || typ = 1 || typ = 2 || typ = 3)

/-- A frame of this node's own: link-local out of `port`, broadcast for destination 0xFFFF, otherwise by its route. -/
def State.uaneSend (typ dst : Nat) (port : Nat) (spec payload : Bytes) (s : State) : State :=
  if !s.mayOriginate typ then s
  else
    let seq := s.uaneSeq typ
    let h : UHdr := ⟨typ, decide (dst = 0xFFFF) && !uLocal typ, false, dst, s.uane.node, 0, if uLocal typ then 1 else 255, 0, seq, spec⟩
    let b := uFrame h payload
    let s1 := s.modUane fun u => { u with
      seqs := mapPut u.seqs typ ((seq + 1) % 65536)
      topoSent := if typ = 3 then ((seq, toFlits payload) :: u.topoSent).take 64 else u.topoSent }
    if uLocal typ then s1.uaneOut port 0 false b
    else if dst = 0xFFFF then s1.uaneFlood none b
    else s1.uaneRoute b

/-- Whether a broadcast is new here; it is noted as seen (R422). -/
def State.seeBroadcast (src typ seq : Nat) (s : State) : Bool × State :=
  if src = s.uane.node then (false, s)
  else
    let e := s.uane.seen.find? fun p => p.1 = src && p.2.1 = typ
    let l := (e.map fun p => p.2.2).getD []
    if l.contains seq then (false, s)
    else
      let l' := (seq :: l).take 64
      (true, s.modUane fun u => { u with
        seen := if e.isSome then u.seen.map fun p => if p.1 = src && p.2.1 = typ then (src, typ, l') else p
                else u.seen ++ [(src, typ, l')] })

/-! ## Port states (R426, R430) -/

/-- A port's observed state written without its events. -/
def State.setUane (n v : Nat) (s : State) : State := s.setObs (wUane n) v

/-- A master or route change for the time parent: the node keeps counting in HOLDOVER (R435). -/
def State.setTimeState (v : Nat) (s : State) : State :=
  if s.uane.timeState = v then s
  else (s.modUane fun u => { u with timeState := v, lockRun := 0, badRun := 0 }).raise 0xFC 0 (s.uane.timeState * 256 + v)

/-- WRAPPED begins or ends on the ring ports to match their states (R426, R430, R431) (log entry 171, DEDUCED, unsafe). -/
def State.updateWrap (s : State) : State :=
  (upTo 2).foldl (fun s n =>
    let alone := s.num 0xF001 = 1 && !s.portUp (ringOther n)
    if s.obs (wUane n) = 2 && alone then (s.setUane n 3).raise 0xF9 n 1
    else if s.obs (wUane n) = 3 && !alone then (s.setUane n 2).raise 0xF9 n 0
    else s) s

/-- Unicast frames of a dead ring port leave by the other one, wrapped; its other frames are lost (R430). -/
def State.moveQueue (n : Nat) (s : State) : State :=
  let q := (s.uport n).queue
  let s1 := s.modUport n fun p => { p with queue := [], share3 := 0, shareAll := 0 }
  if s1.ringPort n && s1.portUp (ringOther n) then
    (q.filter UQueued.unicast).foldl (fun s e =>
      s.uaneOut (ringOther n) e.cls true ({ readUHdr e.bytes with wrapped := true }.bytes ++ e.bytes.drop 30)) s1
  else s1

/-- A port goes DOWN with a cause (R426, R430, R435). A lane swap under way ends (R431). -/
def State.uaneDown (n cause : Nat) (s : State) : State :=
  if s.obs (wUane n) = 0 then s
  else
    let s1 := ((s.setUane n 0).modUport n fun p => { p with
      neighbour := 0, helloRun := 0, lostAt := none, swap := none, rxSwap := none, locks := 0, downAt := some s.now }).raise 0xF8 n cause
    let s2 := (s1.updateWrap).moveQueue n
    if s2.uane.parent = n then (s2.modUane fun u => { u with parent := 0xFF }).setTimeState 4 else s2

/-- A port comes UP (R427). -/
def State.uaneUp (n : Nat) (s : State) : State :=
  ((s.setUane n 2).raise 0xFA n (s.uport n).neighbour).updateWrap

/-- Whether the topology uses a port (R424). -/
def State.portUsed (s : State) (n : Nat) : Bool := s.uaneOn && !(s.num 0xF001 = 1 && decide (2 ≤ n))

/-- Training of a port commanded UP starts: every lane sends TRAIN (R427). -/
def State.uaneTrain (n : Nat) (s : State) : State :=
  if s.obs (wUane n) = 0 && s.unitCmd (wUane n) = 2 && s.portUsed n then
    (upTo 5).foldl (fun s k => s.setUaneLane n k 1 (if k = 4 then 7 else k)) ((s.setUane n 1).modUport n fun p => { p with
      trainSince := s.now, helloRun := 0, laneMap := [0, 1, 2, 3, 4], rxMap := [0, 1, 2, 3, 4] })
  else s

/-- Training tried again, 1 ms after the port went DOWN (R426). -/
def State.uaneRetrain (n : Nat) (s : State) : State :=
  if (s.uport n).downAt.all fun t => decide (t + 1000000 ≤ s.now) then s.uaneTrain n else s

/-- Every lane is locked and deskewed: lanes 0 to 3 go to DATA (R427). -/
def State.uaneLocked (n : Nat) (s : State) : State :=
  (upTo 4).foldl (fun s k => s.setUaneLane n k 0 k) (s.modUport n fun p => { p with locks := 31 })

/-! ## Lane swaps (R429) -/

/-- A swap of a transmit lane starts: the spare goes to DUP for the lane's logical lane. -/
def State.uaneSwapStart (n logical cause : Nat) (s : State) : State :=
  let p := s.uport n
  if p.swap.isSome || p.spare = 3 || !s.portUp n then s
  else (s.modUport n fun p => { p with swap := some ⟨logical, natAt p.laneMap 4, cause, none⟩, spare := 2 }).setUaneLane
    n (natAt p.laneMap 4) 2 logical

/-- Whether codeword N of a swap at the sending end has come. -/
def State.uaneSwapDue (s : State) (w : USwap) : Bool := w.n.any fun c => decide (c ≤ codewordAt s.now)

/-- The sending end takes the logical lane from the spare at codeword N: the old lane is the new spare, marked worn. -/
def State.uaneSwapSent (n : Nat) (s : State) : State :=
  match (s.uport n).swap with
  | some w =>
    if !s.uaneSwapDue w then s
    else
      let old := natAt (s.uport n).laneMap w.logical
      (((s.modUport n fun p => { p with
        laneMap := setAt (setAt p.laneMap w.logical w.phys) 4 old, swap := none, spare := 1, skip := 2 }).setUaneLane
          n w.phys 0 w.logical).setUaneLane n old 1 7).raise 0xFB n (w.logical * 256 + old * 16 + w.cause)
  | none => s

/-- The receiving end takes the logical lane from the spare. -/
def State.uaneSwapTaken (n : Nat) (s : State) : State :=
  match (s.uport n).rxSwap with
  | some w => s.modUport n fun p => { p with
      rxMap := setAt (setAt p.rxMap w.logical w.phys) 4 (natAt p.rxMap w.logical), rxSwap := none, lostAt := none, skip := 2 }
  | none => s

/-! ## Topology (R425) -/

/-- This node's own links: the neighbour of each port that carries frames. -/
def State.ownLinks (s : State) : List Nat := (upTo 4).map fun n => if s.portUp n then (s.uport n).neighbour else 0

/-- The payload of this node's TOPO. -/
def State.topoPayload (s : State) : Bytes :=
  toLE 2 s.uane.node ++ (s.ownLinks.map (toLE 2)).flatten ++ toLE 1 (s.num 0xF020) ++
    toLE 1 (b2n (s.uane.ptpState = 3))

/-- Nodes whose TOPO is newer than 3 ms (R425). -/
def State.freshTopo (s : State) : List TopoNode := s.uane.topo.filter fun e => decide (s.now < e.at_ + 3000000)

/-- One ring of the search from this node: each route's next nodes, lower port first. -/
def nextRing (topo : List TopoNode) (seen ring : List URoute) (self : Nat) : List URoute :=
  ring.foldl (fun acc r =>
    match topo.find? fun e => e.node = r.node with
    | none => acc
    | some e => e.links.foldl (fun acc n =>
        if n = 0 || n = self || (seen ++ acc).any (fun q => q.node = n) || !(topo.any fun e => e.node = n) then acc
        else acc ++ [⟨n, r.port, r.hops + 1⟩]) acc) []

/-- Shortest routes in hops, a tie going to the lower-numbered port (R425), in `n` rings. -/
def searchRoutes (topo : List TopoNode) (self : Nat) : Nat → List URoute → List URoute → List URoute
  | 0, seen, _ => seen
  | n + 1, seen, ring =>
    if ring.isEmpty then seen
    else
      let nx := nextRing topo seen ring self
      searchRoutes topo self n (seen ++ nx) nx

/-- The routes from the newest TOPO of each node. -/
def State.computeRoutes (s : State) : List URoute :=
  let topo := s.freshTopo
  let first := (upTo 4).foldl (fun (acc : List URoute) n =>
    let nb := natAt s.ownLinks n
    if nb = 0 || acc.any (fun q => q.node = nb) || !(topo.any fun e => e.node = nb) then acc else acc ++ [⟨nb, n, 1⟩]) []
  searchRoutes topo s.uane.node 255 first first

/-- The key of a node for time mastership (R432). -/
def timeKey (prio ptp node : Nat) : Nat := prio * 2 ^ 17 + (if ptp = 1 then 0 else 2 ^ 16) + node

/-- The time master: the reachable node of the lowest key, this one included; none when every priority is 255 (R432). -/
def State.pickMaster (s : State) : Option Nat :=
  let own := (s.num 0xF020, timeKey (s.num 0xF020) (b2n (s.uane.ptpState = 3)) s.uane.node, s.uane.node)
  let far := (s.freshTopo.filter fun e => s.uane.routes.any fun r => r.node = e.node).map fun e =>
    (e.key, timeKey e.key e.ptp e.node, e.node)
  let ok := (own :: far).filter fun k => k.1 != 255
  (ok.foldl (fun (b : Option (Nat × Nat × Nat)) k =>
    match b with
    | none => some k
    | some x => if k.2.1 < x.2.1 then some k else b) none).map fun k => k.2.2

/-- Whether the node follows a parent, or has lost it: ACQUIRING, LOCKED or HOLDOVER. -/
def State.follows (s : State) : Bool := decide (2 ≤ s.uane.timeState)

/-- The time master and parent that follow from the routes. A node whose route to the master changes passes through HOLDOVER to
ACQUIRING; without a master it stays in HOLDOVER, and is FREE where it never had one. A node alone, as on a wall without Uane, is its
own master (R432, R435, R436). -/
def State.updateMaster (s : State) : State :=
  match s.pickMaster with
  | none => (s.modUane fun u => { u with master := 0, parent := 0xFF, depth := 0 }).setTimeState (if s.follows then 4 else 0)
  | some m =>
    if m = s.uane.node then (s.modUane fun u => { u with master := m, parent := 0xFF, depth := 0 }).setTimeState 1
    else match s.routeTo m with
      | none => s
      | some r =>
        let same := s.uane.master = m && s.uane.parent = r.port
        let s1 := s.modUane fun u => { u with master := m, parent := r.port, depth := r.hops }
        if same && s.uane.timeState != 4 then s1 else (if s.follows then s1.setTimeState 4 else s1).setTimeState 2

/-- A PTP state, with its event; the key of R432 follows (R436). -/
def State.setPtp (v : Nat) (s : State) : State :=
  if s.uane.ptpState = v then s
  else ((s.modUane fun u => { u with ptpState := v }).raise 0xFF 0 (s.uane.ptpState * 256 + v)).updateMaster

/-- PTP in a mode, and in a domain, that have just come into force: it listens afresh, or is OFF (R436)
(log entry 174, DEDUCED, unsafe). -/
def State.ptpMode (s : State) : State :=
  (s.modUane fun u => { u with ptp := {}, ptpGm := 0, ptpStepped := false }).setPtp (if s.num 0xF030 = 0 then 0 else 1)

/-- Routes recomputed (R425). -/
def State.recompute (s : State) : State :=
  let v := (s.uane.topoVersion + 1) % 2 ^ 32
  let s1 := s.modUane fun u => { u with routes := s.computeRoutes, topoVersion := v }
  (s1.raise 0xFE 0 (v % 65536)).updateMaster

/-- Whether the link map gives other routes than those in use, or this node's own links are not those of its last TOPO. -/
def State.routesStale (s : State) : Bool :=
  s.computeRoutes != s.uane.routes ||
    s.uane.topoSent.head?.any fun e => ((upTo 4).map fun k => leAt e.2 (2 + 2 * k) 2) != s.ownLinks

/-- The ports, routes and time master after a change of 0xF001 or 0xF020: a port that the topology does not use goes DOWN, with data
that is stated nowhere and is free (R424, R432) (log entry 100, DESIGN CHOICE, safe). -/
def State.applyTopology (s : State) : State :=
  let s1 := (upTo 4).foldl (fun (s : State) n =>
    if s.portUsed n then s.uaneTrain n else if s.obs (wUane n) = 0 then s else s.drawn.uaneDown n (s.free % 65536)) s
  let s2 := s1.updateWrap
  if s2.routesStale then s2.recompute else s2.updateMaster

/-- A TOPO taken in (R423, R425). -/
def State.takeTopo (src : Nat) (p : Bytes) (s : State) : State :=
  let node := leAt p 0 2
  if node = s.uane.node then
    let fresh := s.uane.dupAt.isNone
    let s1 := s.modUane fun u => { u with dupAt := some s.now }
    if fresh then s1.raise 0xFE 1 node else s1
  else
    let e : TopoNode := ⟨src, (upTo 4).map fun k => leAt p (2 + 2 * k) 2, leAt p 10 1, leAt p 11 1, s.now⟩
    let old := s.uane.topo.find? fun q => q.node = src
    let moved := match old with
      | some q => q.links != e.links
      | none => true
    let keyed := match old with
      | some q => q.key != e.key || q.ptp != e.ptp
      | none => true
    let s1 := s.modUane fun u => { u with topo := (u.topo.filter fun q => q.node != src) ++ [e] }
    if moved then s1.recompute else if keyed then s1.updateMaster else s1

/-- The largest hop count to a reachable node (R444). -/
def State.pathMax (s : State) : Nat := s.uane.routes.foldl (fun a r => max a r.hops) 0

/-- The other reachable nodes, ascending. -/
def natInsert (x : Nat) : List Nat → List Nat
  | [] => [x]
  | y :: ys => if x ≤ y then x :: y :: ys else y :: natInsert x ys

def natSort : List Nat → List Nat
  | [] => []
  | x :: xs => natInsert x (natSort xs)

/-- Every reachable node, this one included, ascending. -/
def State.reachable (s : State) : List Nat := natSort (s.uane.node :: s.uane.routes.map URoute.node)

end Sys2Proof.Machine
end

