-- ==== Sys2Proof/Machine/Curg.lean ====
section
/-! DEFINITION. The currency guard: the decision at each boundary, freeze detection, invalid lines, the hatch, signature
checks, and this node's half of the version vote (R168–R194). -/

namespace Sys2Proof.Machine

/-- Changes one layer of CURG. -/
def State.modCLayer (n : Nat) (f : CLayer → CLayer) (s : State) : State :=
  s.modCurg fun c => { c with layers := modAt c.layers n f }

/-! ## Heartbeat (R174–R176) -/

/-- Whether every line of a version that meets the heartbeat rectangle is valid (R175). -/
def State.hbLinesValid (s : State) (n : Nat) (v : Version) : Bool :=
  let r := s.num 0x7102 n
  (upTo (rectH r)).all fun k => s.lineValid n v (rectY r + k)

/-- The heartbeat value of a version: the CRC-32 of the rectangle's pixels (R174). -/
def State.hbValue (s : State) (n : Nat) (v : Version) : Nat :=
  let r := s.num 0x7102 n
  crc32 (((upTo (rectH r)).map fun y => ((upTo (rectW r)).map fun x =>
    pixelBytes (s.bufPixel n v (rectX r + x) (rectY r + y))).flatten).flatten)

/-- Heartbeat count and value of the newest version, from the one before it (R174, R175). Without a rectangle the count is 0
(log entry 11, DESIGN CHOICE, unsafe). -/
def State.hbFill (n : Nat) (s : State) : State :=
  match s.versionsOf n with
  | [] => s
  | v :: older =>
    if rectW (s.num 0x7102 n) = 0 then s.modNewest n fun v => { v with hb := 0, hbDigest := 0 }
    else match older.head? with
      | none =>
        let d := if s.hbLinesValid n v then s.hbValue n v else 0
        s.modNewest n fun v => { v with hb := 0, hbDigest := d }
      | some p =>
        if !s.hbLinesValid n v then s.modNewest n fun v => { v with hb := p.hb, hbDigest := p.hbDigest }
        else if p.buf = v.buf then s.modNewest n fun v => { v with hb := sat 65535 (p.hb + 1), hbDigest := p.hbDigest }
        else
          let d := s.hbValue n v
          s.modNewest n fun v => { v with hb := if d = p.hbDigest then sat 65535 (p.hb + 1) else 0, hbDigest := d }

/-- Whether a version counts as frozen (R176). -/
def State.frozen (s : State) (n : Nat) (v : Version) : Bool :=
  rectW (s.num 0x7102 n) != 0 && decide (s.num 0x7103 n ≤ v.hb)

/-! ## The decision (R168–R172) -/

/-- The low 32 bits of a frame count as agreements carry them. -/
def low32 (f : Nat) : Nat := f % 2 ^ 32

/-- The agreement accepted for a window and frame (R190). -/
def State.agreementFor (s : State) (w f : Nat) : Option Agreement :=
  s.curg.agreements.find? fun a => a.window = w && a.frame = low32 f

/-- Whether a version completed before B(f − 1): one that completes at the boundary's own instant counts after it (R98, R158, R169). -/
def State.inTimeBy (s : State) (f : Nat) (v : Version) : Bool := decide ((v.done : Int) + s.wallOff < s.tF (f - 1))

/-- The version a layer that does not span takes for frame `f`: the newest complete eligible one that is not older than the one shown,
while that one exists (R145, R170). -/
def State.pickOwn (s : State) (n f : Nat) : Option Version :=
  let shown := (s.clayer n).comp.ver
  let bound := shown != 0 && (s.versionAt n shown).isSome
  (s.versionsOf n).find? fun v => s.eligible n v && s.inTimeBy f v && !(bound && newer shown v.num)

/-- Whether CURG can show the agreed version of a spanning layer: it is there, eligible, and not older than the one shown
(R145, R170, R192) (log entry 146, DEDUCED, safe). -/
def State.canShow (s : State) (n f shown num : Nat) : Bool :=
  (s.versionAt n num).any (fun v => s.eligible n v && s.inTimeBy f v) && !(shown != 0 && newer shown num)

/-- Version, capture time, cause and frozen flag for frame `f`, before the tests of age (R170). -/
def State.pickVersion (s : State) (n f : Nat) : Nat × Nat × Nat × Bool :=
  let w := s.num 0x7104 n
  if w = 0 then
    match s.pickOwn n f with
    | some v => (v.num, v.capture, 0, s.frozen n v)
    | none => (0, 0, 0, false)
  else
    let c := s.clayer n
    let shown := if c.window = w then c.comp.ver else 0
    let keep (cause : Nat) : Nat × Nat × Nat × Bool :=
      (shown, ((s.versionAt n shown).map Version.capture).getD 0, cause, false)
    match s.agreementFor w f with
    | none => keep 2
    | some a =>
      if a.conflict then keep 3
      else if !bit a.flags 0 then (0, 0, 0, false)
      else if !s.canShow n f shown a.version then keep 4
      else (a.version, a.capture, 0, bit a.flags 1)

/-- State and cause from the picked version and the age (R170). `maxUs` is the maximum age in µs. -/
def judge (ver : Nat) (cause : Nat) (frozen : Bool) (age : Int) (maxUs pct : Nat) : Nat × Nat :=
  if ver = 0 then (0, cause)
  else if cause != 0 then (3, cause)
  else if (maxUs * 1000 : Nat) < age then (3, 1)
  else if frozen then (4, 0)
  else if ((maxUs * 1000 * pct : Nat) : Int) < age * 100 then (2, 0)
  else (1, 0)

/-- The decision on a layer for frame `f` (R168, R170). -/
def State.curgDecision (s : State) (n f : Nat) : CDec :=
  if !layerOn s.live n then {}
  else if s.therm.shed.contains n then { shed := true }
  else
    let (ver, cap, cause, fr) := s.pickVersion n f
    let age := s.pF f - cap
    let (st, cs) := judge ver cause fr age (s.num 0x7100 n) (s.num 0x7101 n)
    { on := true, tooOld := ver != 0 && decide ((s.num 0x7100 n * 1000 : Nat) < age)
      st := st, ver := ver, cause := cs, cap := cap, age := if ver = 0 then 0 else age, frozen := fr }

/-- The events of a layer's change from one decision to the next, stamped with the boundary's time (R172). -/
def decisionEvents (time n : Nat) (on : Bool) (hb : Nat) (old new : CDec) : List Occ :=
  if !on then []
  else
    (if new.st = 3 && (old.st != 3 || old.cause != new.cause) then [⟨time, 0x70, n, new.cause, true⟩] else []) ++
    (if new.st = 4 && old.st != 4 then [⟨time, 0x71, n, hb, true⟩] else []) ++
    (if new.st != old.st then [⟨time, 0x73, n, old.st * 256 + new.st, true⟩] else [])

/-- Consecutive lines grouped into runs (R177). -/
def toRuns : List Nat → List (Nat × Nat)
  | [] => []
  | y :: ys =>
    match toRuns ys with
    | [] => [(y, y)]
    | (a, b) :: rs => if a = y + 1 then (y, b) :: rs else (y, y) :: (a, b) :: rs

/-- Runs of invalid output lines of a layer for the frame being composed, and whether the whole rectangle is hatched for
them (R177). -/
def State.layerRuns (s : State) (n : Nat) : List (Nat × Nat) × Bool :=
  if !layerOn s.live n then ([], false)
  else let rs := toRuns (s.invalidLines n); (rs, decide (16 < rs.length))

/-- Output lines of a layer's rectangle, clipped to the output. -/
def State.rectLines (s : State) (n : Nat) : Nat :=
  match outSize s.live (s.num 0x6000 n) with
  | none => 0
  | some (_, oh) =>
    let (_, y, _, h) := dstOf s.live n
    (clampI 0 oh (y + h) - clampI 0 oh y).toNat

/-- Output lines hatched for invalid lines (0x7115). -/
def runLines (runs : List (Nat × Nat)) : Nat := runs.foldl (fun a r => a + (r.2 + 1 - r.1)) 0

/-- The runs of a layer found anew, with event 0x74 once for each version (R177, R178). -/
def State.findRuns (s : State) (n : Nat) : State :=
  let (rs, whole) := s.layerRuns n
  let c := s.clayer n
  let lines := if whole then s.rectLines n else runLines rs
  let s1 := s.modCLayer n fun c => { c with runs := rs, whole := whole, lines := lines }
  if rs.isEmpty || c.reported74 = c.comp.ver then s1
  else (s1.modCLayer n fun c => { c with reported74 := c.comp.ver }).raise 0x74 n (b2n whole * 32768 + sat 32767 lines)

/-- CURG's decisions for frame `f`, on every layer in one cycle, with their events (R168, R172, R191). For a group that drains in a
managed transition no version is fixed (R262). -/
def State.curgDecide (f : Nat) (s : State) : State :=
  let ds := (upTo 16).map fun n => if s.drains (s.num 0x6000 n) f then (s.clayer n).comp else s.curgDecision n f
  let time := ((s.tF (f - 1)) % 2 ^ 64).toNat
  let evs := ((upTo 16).map fun n =>
    let d := ds.getD n {}
    decisionEvents time n (layerOn s.live n) (((s.versionAt n d.ver).map Version.hb).getD 0) (s.clayer n).comp d).flatten
  let spans := (upTo 16).filter fun n => layerOn s.live n && s.num 0x7104 n != 0
  let failed (n : Nat) : Bool := decide (2 ≤ (ds.getD n {}).cause)
  let late := spans.any failed || (s.curg.voteLate && !spans.isEmpty && spans.all failed)
  let s1 := s.modCurg fun c => { c with
    voteLate := late
    agreements := c.agreements.filter fun a => a.frame != low32 f
    layers := (c.layers.zip (upTo 16)).map fun p =>
      let d := ds.getD p.2 {}
      { p.1 with
        mir := p.1.comp, mirRuns := p.1.runs, mirWhole := p.1.whole, mirLines := p.1.lines
        comp := d
        window := s.num 0x7104 p.2
        voteFail := if spans.contains p.2 && failed p.2 then (p.1.voteFail + 1) % 2 ^ 32 else p.1.voteFail } }
  (upTo 16).foldl State.findRuns (s1.raiseAll evs)

/-- The observed states of the layers as frame `f` goes on the mirrors: composed, shed, or neither (R603). -/
def State.observeLayers (f : Nat) (shows : Bool) (s : State) : State :=
  let st (n : Nat) : Nat :=
    let m := (s.clayer n).mir
    if !shows || s.drains (s.num 0x6000 n) f then 0 else if m.shed then 2 else b2n (m.ver != 0)
  s.modUnits fun us => us.map fun p =>
    if wLayer 0 ≤ p.1 && p.1 < wLayer 16 && p.2.obs != st (p.1 - wLayer 0) then
      (p.1, { p.2 with obs := st (p.1 - wLayer 0), chg := s.now, dis := false, evt := false })
    else p

/-! ## The hatch (R177–R182) -/

/-- A hatch region: rectangle, the border edges that it has (bits 0 to 3: left, right, top, bottom), and whether its
transparent stripes turn black (R179, R181). -/
structure HReg where
  x : Int
  y : Int
  w : Nat
  h : Nat
  edges : Nat
  solid : Bool
  deriving DecidableEq, Repr

/-- Whether an output position lies in a region. -/
def HReg.covers (r : HReg) (x y : Nat) : Bool :=
  decide (r.x ≤ x) && decide ((x : Int) < r.x + r.w) && decide (r.y ≤ y) && decide ((y : Int) < r.y + r.h)

/-- Whether a covered position lies within 4 pixels of a border edge that lies inside the output (R179, R180). -/
def HReg.border (r : HReg) (ow oh x y : Nat) : Bool :=
  (bit r.edges 0 && decide (0 ≤ r.x) && decide ((x : Int) - r.x < 4)) ||
  (bit r.edges 1 && decide (r.x + r.w ≤ ow) && decide (r.x + r.w - 1 - x < 4)) ||
  (bit r.edges 2 && decide (0 ≤ r.y) && decide ((y : Int) - r.y < 4)) ||
  (bit r.edges 3 && decide (r.y + r.h ≤ oh) && decide (r.y + r.h - 1 - y < 4))

/-- Whether a canvas position lies on a stripe (R180). -/
def onStripe (x y : Nat) : Bool := decide ((x + y) % 32 < 16)

/-- The hatch regions of a layer for the frame being composed (R179). -/
def State.layerRegions (s : State) (n : Nat) : List HReg :=
  let c := s.clayer n
  let (x, y, w, h) := dstOf s.live n
  let e := s.num 0x7106 n
  (if c.comp.st = 0 || c.comp.st = 3 || c.comp.st = 4 then [⟨x, y, w, h, e, s.num 0x7105 n = 1⟩] else []) ++
  (if c.whole then [⟨x, y, w, h, e, false⟩]
   else c.runs.map fun r => ⟨x, r.1, w, r.2 + 1 - r.1, e % 4 + 12, false⟩)

/-- The hatch regions of a group for the frame being composed (R179, R185). -/
def State.hatchRegions (s : State) (g : Nat) : List HReg :=
  ((groupLayers s.live g).map s.layerRegions).flatten ++
  (((upTo 32).filter fun r => s.num 0x6021 r = g && (s.curg.sigs.getD r {}).hatched).map fun r =>
    let q := s.num 0x6020 r
    ⟨rectX q, rectY q, rectW q, rectH q, 15, false⟩)

/-- A pixel after CURG: the composed pixel with the hatch painted (R181). -/
def paint (regs : List HReg) (ow oh cx cy colour : Nat) (x y : Nat) (px : Nat) : Nat :=
  let cov := regs.filter fun r => r.covers x y
  if cov.any fun r => onStripe (x + cx) (y + cy) || r.border ow oh x y then colour
  else if cov.any HReg.solid then 0
  else px

/-- The pixel CURG passes to COLR (R181, R182). -/
def State.guarded (s : State) (g x y : Nat) : Nat :=
  let (ow, oh) := (outSize s.live g).getD (0, 0)
  let o := s.num 0x7109 g
  paint (s.hatchRegions g) ow oh (fld o 63 32) (fld o 31 0) (s.num 0x7108 g) x y (w36Of (s.composed g x y).c)

/-! ## Signature checks (R163, R165, R183–R186) -/

/-- A comparison of a region's signature for a frame; `ok` false also stands for a signature that did not come (R183,
R184). -/
def State.sigCompare (r : Nat) (ok : Bool) (s : State) : State :=
  let g := s.curg.sigs.getD r {}
  let st := if ok then 1 else 2
  let s1 := s.modCurg fun c => { c with sigs := setAt c.sigs r { g with
    st := st, mismatches := if ok then g.mismatches else (g.mismatches + 1) % 2 ^ 32 } }
  if !ok && g.st != 2 then s1.raise 0x72 r 1 else if ok && g.st = 2 then s1.raise 0x72 r 0 else s1

/-- Whether a region exists: its width is not 0 (R163). -/
def State.sigOn (s : State) (r : Nat) : Bool := rectW (s.num 0x6020 r) != 0

/-- The signature of a region final for frame `f` (R163, R165, R183). -/
def State.sigFinal (r f value : Nat) (carried : Bool) (s : State) : State :=
  let s1 := (s.modPlaz fun p => { p with
    sigs := setAt p.sigs r ⟨value, f % 2 ^ 63 + (if carried then 2 ^ 63 else 0)⟩ }).modCurg fun c => { c with
      sigs := modAt c.sigs r fun g => { g with seen := some f } }
  if s.num 0x7121 r = 0 then s1 else s1.sigCompare r (value = s.num 0x7120 r)

/-- At B(`f`), before a commit applies: a region that is checked and has no signature for frame `f` mismatches (R183). -/
def State.sigMissing (f : Nat) (s : State) : State :=
  (upTo 32).foldl (fun (t : State) r =>
    if t.sigOn r && t.num 0x7121 r != 0 && (t.curg.sigs.getD r {}).seen != some f && !t.drains (t.num 0x6021 r) f then t.sigCompare r false
    else t) s

/-- At B(F): each HATCH region is hatched in frame F+1 or not, from the comparison for frame F (R185). -/
def State.sigHatch (s : State) : State :=
  (upTo 32).foldl (fun (t : State) r =>
    let a := t.num 0x7121 r
    t.modCurg fun c => { c with sigs := modAt c.sigs r fun g =>
      { g with hatched := a = 2 && g.st = 2, st := if a = 0 then 0 else g.st } }) s

/-- A commit that changes a region's rectangle or group (R186). -/
def State.sigReset (r : Nat) (s : State) : State :=
  s.modCurg fun c => { c with sigs := modAt c.sigs r fun g => { g with st := 0, hatched := false } }

/-! ## The vote (R187–R192) -/

/-- Complete versions listed in a report: at most four of those held, newest first, with the newest and the one chosen for the
frame being composed among them (R188). -/
def State.reportVersions (s : State) (n : Nat) : List Version :=
  let c := s.clayer n
  match s.versionsOf n with
  | [] => []
  | v :: vs =>
    let held := vs.filter fun w => s.holds n w.num
    let l := (v :: held).take 4
    if c.comp.ver = 0 || l.any (fun w => w.num = c.comp.ver) then l
    else match s.versionAt n c.comp.ver with
      | some w => l.take 3 ++ [w]
      | none => l

/-- The vote report of a layer: 64 bytes (R188). -/
def State.voteReport (s : State) (n : Nat) : Bytes :=
  let vs := s.reportVersions n
  let fz := maskOf 4 fun k => match vs[k]? with
    | some v => s.frozen n v
    | none => false
  toLE 2 s.uane.node ++ toLE 1 (s.num 0x7104 n) ++ toLE 1 fz ++ toLE 4 (low32 s.seqr.count) ++ toLE 1 vs.length ++
    List.replicate 7 0 ++ fit 16 ((vs.map fun v => toLE 4 v.num).flatten) ++ fit 32 ((vs.map fun v => toLE 8 v.capture).flatten)

/-- The versions of a report count as listed until an agreement fixes a newer one (R192). -/
def State.noteReport (n : Nat) (s : State) : State :=
  let nums := (s.reportVersions n).map Version.num
  s.modCLayer n fun c => { c with listed := c.listed ++ nums.filter fun v => !c.listed.contains v }

/-- The layer that carries a window, if any. -/
def State.windowLayer (s : State) (w : Nat) : Option Nat :=
  if w = 0 then none else (upTo 16).find? fun n => layerOn s.live n && s.num 0x7104 n = w

/-- Whether an agreement's frame, given by its low 32 bits, still lies ahead: the instant of B(F−1) has not come (R169, R190). A node
whose rate differs from the holder's takes every agreement as late (R451) (log entry 176, DEDUCED, unsafe). -/
def State.agreementInTime (s : State) (f32 : Nat) : Bool :=
  let d := (f32 + 2 ^ 32 - low32 (s.seqr.count + 2)) % 2 ^ 32
  !s.coh.rateDiffers && decide (d < 2 ^ 31) && decide ((s.wall : Int) < s.tF (s.seqr.count + 1 + d))

/-- An agreement as its 24 bytes give it (R189). -/
def readAgreement (b : Bytes) : Agreement :=
  { coord := leAt b 0 2, window := leAt b 2 1, flags := leAt b 3 1, frame := leAt b 4 4, version := leAt b 8 4, capture := leAt b 12 8 }

/-- An agreement received (R190). -/
def State.takeAgreement (b : Bytes) (s : State) : State :=
  let a := readAgreement b
  match s.windowLayer a.window with
  | none => s
  | some n =>
    if !s.agreementInTime a.frame then s.modCLayer n fun c => { c with voteFail := (c.voteFail + 1) % 2 ^ 32 }
    else match s.curg.agreements.find? fun p => p.window = a.window && p.frame = a.frame with
      | some p =>
        if p.version = a.version && p.flags = a.flags then s
        else s.modCurg fun c => { c with agreements := c.agreements.map fun q =>
          if q.window = a.window && q.frame = a.frame then { q with conflict := true } else q }
      | none =>
        (s.modCurg fun c => { c with agreements := c.agreements ++ [a] }).modCLayer n fun c => { c with
          agreed := if bit a.flags 0 then a.version else 0
          listed := if bit a.flags 0 then c.listed.filter fun v => !newer a.version v else c.listed }

end Sys2Proof.Machine
end

