-- ==== Sys2Proof/Machine/Wall.lean ====
section
/-! DEFINITION. Wall coherence at one node: the coordinator lease and the wall's origin, the commit horizon, the vote at the
coordinator, and the wall's luminance (R447–R452, R458–R464). -/

namespace Sys2Proof.Machine

/-! ## The lease (R447–R451) -/

/-- Whether this node may hold the lease (R447). -/
def State.coordEligible (s : State) : Bool :=
  s.flag 0xB064 && s.uaneOn && s.mews.dev.counts && (s.uane.timeState = 1 || s.uane.timeState = 3)

/-- Whether this node holds the lease. -/
def State.isCoord (s : State) : Bool := s.coh.holder = s.uane.node && s.coordEligible

/-- The CRC-32C of the window table (R458). -/
def State.tableCrc (s : State) : Nat :=
  crc32c (((upTo 255).map fun k => let b := s.blob 0x7140 (k + 1); toLE 2 b.length ++ b).flatten)

/-- The payload of a LEASE (R448). -/
def State.leasePayload (s : State) : Bytes :=
  toLE 2 s.coh.holder ++ toLE 4 s.coh.term ++ toLE 4 (s.num 0xB001) ++ toLE 8 s.seqr.t0 ++ toLE 8 s.seqr.f0 ++ toLE 4 s.tableCrc

/-- LEASE broadcast by the holder (R448). -/
def State.sendLease (s : State) : State :=
  if s.isCoord then s.uaneSend 0x13 0xFFFF 0 [] s.leasePayload else s

/-- The order in which successors take the role after a holder (R449). -/
def successors (holder : Nat) (nodes : List Nat) : List Nat :=
  (nodes.filter fun n => decide (holder < n)) ++ nodes.filter fun n => decide (n ≤ holder)

/-- Whether it is this node's turn to take the role, after so many boundaries without renewal (R449). -/
def State.turnToLead (s : State) : Bool :=
  let l := successors s.coh.holder (s.reachable.filter fun n => n != s.coh.holder || s.coh.holder = s.uane.node)
  let m := s.coh.missed
  if s.coh.seen then
    decide (3 ≤ m) && m % 3 = 0 && l[(m / 3 - 1) % max 1 l.length]? = some s.uane.node
  else (l.findIdx? (· = s.uane.node)).any fun k => decide (3 * k ≤ m)

/-- The role taken (R449): a term above the highest seen, and LEASE at once. -/
def State.takeRole (s : State) : State :=
  let term := (s.coh.maxTerm + 1) % 2 ^ 32
  ((s.modCoh fun w => { w with
    holder := s.uane.node, term := term, maxTerm := term, missed := 0, seen := true, rateDiffers := false
    issued := [], excluded := [], luma := [], lastSet := none, target := none, commit := none, minAch := 0xFFFF }).raise
      0xC1 1 s.uane.node).sendLease

/-- One boundary passes for the lease (R448, R449). -/
def State.leaseBoundary (s : State) : State :=
  if s.isCoord then (s.modCoh fun w => { w with missed := 0 }).sendLease
  else if s.coh.seen || s.coordEligible then s.modCoh fun w => { w with missed := w.missed + 1 }
  else s.modCoh fun w => { w with missed := 0 }

/-- Whether a LEASE wins over the present one (R450). -/
def leaseWins (term holder curTerm curHolder : Nat) (seen : Bool) : Bool :=
  !seen || decide (curTerm < term) || (term = curTerm && decide (holder < curHolder))

/-- The window table of this node compared with the holder's (R458). -/
def State.checkTable (crc : Nat) (s : State) : State :=
  let d := s.tableCrc != crc
  if d = s.curg.tableDiffers then s
  else (s.modCurg fun c => { c with tableDiffers := d }).raise 0x75 (b2n d) (crc % 65536)

/-- The frame origin and rate of a holder's LEASE (R451). -/
def State.adoptOrigin (holder rate t0 f0 : Nat) (s : State) : State :=
  if holder = s.uane.node then s
  else if rate != s.num 0xB001 then
    (if s.coh.rateDiffers then s else (s.modCoh fun w => { w with rateDiffers := true }).raise 0xC3 2 holder)
  else
    let s1 := s.modCoh fun w => { w with rateDiffers := false }
    if (s1.seqr.status = 1 || s1.seqr.status = 2) && (s1.uane.timeState = 1 || s1.uane.timeState = 3) &&
        (s1.seqr.t0 != t0 || s1.seqr.f0 != f0) then
      ((s1.modSeqr fun q => { q with t0 := t0, f0 := f0 }).startRephase 2).raise 0xC3 1 holder
    else s1

/-! ## The vote at the coordinator (R458–R461) -/

/-- Members of a window (R458). -/
def State.members (s : State) (w : Nat) : List Nat :=
  let b := s.blob 0x7140 w
  (upTo (b.length / 2)).map fun k => leAt b (2 * k) 2

/-- Whether a report is recent enough for frame `f` (R460). -/
def reportCurrent (f grace rf : Nat) : Bool :=
  let low := (f + 2 ^ 33 - 2 - grace) % 2 ^ 32
  decide ((rf + 2 ^ 32 - low) % 2 ^ 32 < 2 ^ 31)

/-- A vote report taken by the coordinator (R460). -/
def State.takeReport (b : Bytes) (s : State) : State :=
  let n := leAt b 8 1
  let r : VReport :=
    { node := leAt b 0 2, window := leAt b 2 1, frozen := leAt b 3 1, frame := leAt b 4 4
      versions := (upTo (min 4 n)).map fun k => leAt b (16 + 4 * k) 4
      captures := (upTo (min 4 n)).map fun k => leAt b (32 + 8 * k) 8, at_ := s.wall }
  s.modCoh fun w =>
    let (mine, rest) := w.reports.partition fun q => q.node = r.node && q.window = r.window
    { w with reports := rest ++ mine.drop (mine.length - 3) ++ [r] }

/-- A(F) of R459. -/
def State.issueAt (s : State) (f : Nat) : Int := s.tF (f - 1) - s.num 0xB067 * 1000

/-- The newest report of a member for a window that arrived before A(F), where it is recent enough for frame `f` (R459, R460). -/
def State.reportOf (s : State) (w f m : Nat) : Option VReport :=
  (s.coh.reports.filter fun r => r.window = w && r.node = m && decide ((r.at_ : Int) < s.issueAt f)).getLast?.filter fun r =>
    reportCurrent f (s.num 0xB068) r.frame

/-- This node's report for a layer sent to the coordinator (R188, R442). -/
def State.sendReport (s : State) (n : Nat) : State :=
  if !layerOn s.live n || s.num 0x7104 n = 0 then s
  else
    let b := s.voteReport n
    let s1 := s.noteReport n
    if s1.isCoord then s1.takeReport b
    else if s1.coh.holder = 0 then s1
    else s1.uaneSend 0x10 s1.coh.holder 0 [] b

/-- Reports for every spanning layer (R188, R461). -/
def State.sendReports (s : State) : State := (upTo 16).foldl State.sendReport s

/-- A LEASE received (R449–R451, R458, R461). -/
def State.takeLease (b : Bytes) (s : State) : State :=
  let holder := leAt b 0 2
  let term := leAt b 2 4
  let same := s.coh.seen && holder = s.coh.holder && term = s.coh.term
  let wins := leaseWins term holder s.coh.term s.coh.holder s.coh.seen
  let s0 := s.modCoh fun w => { w with maxTerm := max w.maxTerm term }
  if same then
    ((s0.modCoh fun w => { w with missed := 0 }).adoptOrigin holder (leAt b 6 4) (leAt b 10 8) (leAt b 18 8)).checkTable (leAt b 26 4)
  else if !wins then s0
  else
    let was := s.isCoord
    let s1 := ((s0.modCoh fun w => { w with holder := holder, term := term, missed := 0, seen := true }).raise
      0xC1 (if was then 2 else 0) holder)
    ((s1.adoptOrigin holder (leAt b 6 4) (leAt b 10 8) (leAt b 18 8)).checkTable (leAt b 26 4)).sendReports


/-- The newest of some version numbers by serial order (R95). -/
def newestNum (l : List Nat) : Nat := l.foldl (fun a v => if a = 0 || newer v a then v else a) 0

/-- The agreement of frame `f` for a window: flags, version, capture time (R460). Where no member reports a capture time for the
version agreed last, that agreement's stands (log entry 175, DEDUCED, unsafe). -/
def State.formAgreement (s : State) (w f : Nat) : Nat × Nat × Nat :=
  let cur := (s.members w).filterMap (s.reportOf w f)
  match cur with
  | [] => (0, 0, 0)
  | r :: rs =>
    let common := r.versions.filter fun v => rs.all fun q => q.versions.contains v
    if common.isEmpty then (0, 0, 0)
    else
      let prev := ((s.coh.issued.find? fun p => p.1 = w).map Prod.snd).getD []
      let last := leAt prev 8 4
      let top := newestNum common
      let v := if last != 0 && newer last top then last else top
      let caps := (cur.map fun q => ((q.versions.zip q.captures).filter fun p => p.1 = v).map Prod.snd).flatten
      let cap := match caps with
        | c :: cs => cs.foldl min c
        | [] => leAt prev 12 8
      let fz := cur.any fun q => match q.versions.findIdx? (· = v) with
        | some k => bit q.frozen k
        | none => false
      (1 + 2 * b2n fz, v, cap)

/-- The bytes of an agreement (R189). -/
def State.agreementBytes (s : State) (w f : Nat) : Bytes :=
  let (fl, v, cap) := s.formAgreement w f
  toLE 2 s.uane.node ++ toLE 1 w ++ toLE 1 fl ++ toLE 4 (low32 f) ++ toLE 4 v ++ toLE 8 cap ++ [0, 0, 0, 0]

/-- Event 0x76, once per run of frames in which a member is excluded (R460). -/
def State.noteExcluded (w f : Nat) (s : State) : State :=
  let out := (s.members w).filter fun m => (s.reportOf w f m).isNone
  let fresh := out.filter fun m => !s.coh.excluded.contains (w, m)
  (fresh.foldl (fun s m => s.raise 0x76 w m) s).modCoh fun c => { c with
    excluded := (c.excluded.filter fun p => p.1 != w) ++ out.map fun m => (w, m) }

/-- Windows with a membership list. -/
def State.windows (s : State) : List Nat := ((upTo 255).map (· + 1)).filter fun w => !(s.blob 0x7140 w).isEmpty

/-- The agreements of frame `f` issued (R459). -/
def State.issueAgreements (f : Nat) (s : State) : State :=
  s.windows.foldl (fun s w =>
    let s1 := s.noteExcluded w f
    let b := s1.agreementBytes w f
    ((s1.modCoh fun c => { c with issued := (c.issued.filter fun p => p.1 != w) ++ [(w, b)] }).uaneSend
      0x11 0xFFFF 0 [] b).takeAgreement b) s

/-- The agreements of frame `f` sent a second time, 50 µs after A(F) (R459). -/
def State.repeatAgreements (f : Nat) (s : State) : State :=
  if s.coh.repeated = f || decide ((s.wall : Int) < s.issueAt f + 50000) then s
  else (s.coh.issued.filter fun p => leAt p.2 4 4 = low32 f).foldl (fun s p => s.uaneSend 0x11 0xFFFF 0 [] p.2)
    (s.modCoh fun w => { w with repeated := f })

/-! ## The commit horizon (R452) -/

/-- H of R452. -/
def State.horizon (s : State) : Nat := divCeil (s.pathMax * 600) (max 1 (periodMin (s.num 0xB001) (s.num 0xB050))) + 1

/-! ## Wall luminance (R462–R464) -/

/-- A luminance report taken by the coordinator (R463). -/
def State.takeLuma (node : Nat) (b : Bytes) (s : State) : State :=
  let r : LReport := ⟨node, leAt b 1 1, leAt b 2 2, leAt b 4 2, leAt b 6 4⟩
  s.modCoh fun w => { w with luma := (w.luma.filter fun q => q.node != node) ++ [r] }

/-- A luminance SET as its payload gives it. -/
def readSet (b : Bytes) : LSet := ⟨leAt b 2 2, leAt b 4 2, leAt b 10 8⟩

/-- A SET received: it waits for its boundary. A repeat of what is in force, or already waits, changes nothing (R464). -/
def State.takeSet (b : Bytes) (s : State) : State :=
  let x := readSet b
  let present := s.num 0xC030 2
  if (s.coh.pendingSets.isEmpty && x.target = present && s.num 0xC030 1 = present) || s.coh.pendingSets.contains x then s
  else s.modCoh fun w => { w with pendingSets := w.pendingSets ++ [x] }

/-- A SET sent, for F_now + H (R464). -/
def State.sendSet (target rate : Nat) (s : State) : State :=
  let g := s.seqr.count + s.horizon
  let b := toLE 1 1 ++ toLE 1 0 ++ toLE 2 target ++ toLE 2 rate ++ toLE 4 s.coh.term ++ toLE 8 g
  ((s.modCoh fun w => { w with lastSet := some ⟨target, rate, g⟩, setAge := 0 }).uaneSend 0x14 0xFFFF 0 [] b).takeSet b

/-- The coordinator forms the wall target at a boundary (R463) (log entry 96, DEDUCED, unsafe). -/
def State.wallTarget (s : State) : State :=
  if !s.isCoord then s
  else
    let inc := s.coh.luma.filter fun r =>
      reportCurrent (s.seqr.count + 2) 3 r.frame && (r.dev = 4 || r.dev = 5) && r.achievable != 0xFFFF
    match inc with
    | [] => s.modCoh fun w => { w with minAch := 0xFFFF, setAge := w.setAge + 1 }
    | r :: rs =>
      let a := rs.foldl (fun m q => min m q.achievable) r.achievable
      let n := min (s.num 0xC046) a
      let cur := s.coh.target.getD (s.num 0xC030 2)
      let s1 := s.modCoh fun w => { w with minAch := a, setAge := w.setAge + 1 }
      if n < cur || cur + s.num 0xC047 ≤ n then (s1.modCoh fun w => { w with target := some n }).sendSet n (s.num 0xC030 3) else s1

/-- The SETs that are due at the boundary of the present count apply, in the order received (R464). -/
def State.applySet (s : State) : State :=
  let (due, later) := s.coh.pendingSets.partition fun x => decide (x.g ≤ s.seqr.count)
  due.foldl (fun (s : State) x =>
    (((s.setNum 0xC030 1 x.target).setNum 0xC030 2 x.target).setNum 0xC030 3 x.rate).raise 0xD2 0 x.target)
      (s.modCoh fun w => { w with pendingSets := later })

end Sys2Proof.Machine
end

