-- ==== Sys2Proof/Machine/Colr.lean ====
section
/-! DEFINITION. The colour pipeline: transfer functions, the gamut matrix, range and uniformity (R195–R212). -/

namespace Sys2Proof.Machine

def State.cgroup (s : State) (g : Nat) : CGroup := s.colr.getD g {}

/-- Changes one group of COLR. -/
def State.modCGroup (g : Nat) (f : CGroup → CGroup) (s : State) : State := s.modColr fun c => modAt c g f

/-! ## Transfer functions (R197, R198) -/

/-- The EOTF entry of a code in a group (R197). -/
def State.eotf (s : State) (g c : Nat) : Nat :=
  if s.num 0x8003 g = 1 then leAt (s.blob 0x8004 g) (4 * c) 4
  else match s.num 0x6014 g with
    | 2 => eotfPq (s.num 0x8002 g) c
    | 3 => eotfHlg c
    | _ => eotf1886 c

/-- S2 (R198): the OOTF for HLG. -/
def ootf (lp : Nat) (px : List Nat) : List Nat :=
  let ys := (4304 * natAt px 0 + 11108 * natAt px 1 + 972 * natAt px 2 + 8192) >>> 14
  let i := ys >>> 8
  let f := ys % 256
  let gn := (hlgGain lp i * (256 - f) + hlgGain lp (i + 1) * f + 128) >>> 8
  px.map fun v => min ((v * gn + 16384) >>> 15) 262143

/-! ## The gamut matrix (R199–R203) -/

/-- A 3 × 3 matrix of rationals, row-major. -/
abbrev Mat := List Rat

def matAt (m : Mat) (r c : Nat) : Rat := m.getD (3 * r + c) 0

/-- The product of two matrices. -/
def matMul (a b : Mat) : Mat :=
  ((upTo 3).map fun r => (upTo 3).map fun c =>
    matAt a r 0 * matAt b 0 c + matAt a r 1 * matAt b 1 c + matAt a r 2 * matAt b 2 c).flatten

/-- A matrix on a column. -/
def matVec (a : Mat) (v : List Rat) : List Rat :=
  (upTo 3).map fun r => matAt a r 0 * v.getD 0 0 + matAt a r 1 * v.getD 1 0 + matAt a r 2 * v.getD 2 0

/-- The inverse by cofactors. -/
def matInv (m : Mat) : Mat :=
  let e := matAt m
  let cof (r c : Nat) : Rat :=
    e ((r + 1) % 3) ((c + 1) % 3) * e ((r + 2) % 3) ((c + 2) % 3) - e ((r + 1) % 3) ((c + 2) % 3) * e ((r + 2) % 3) ((c + 1) % 3)
  let det := e 0 0 * cof 0 0 + e 0 1 * cof 0 1 + e 0 2 * cof 0 2
  ((upTo 3).map fun r => (upTo 3).map fun c => cof c r / det).flatten

/-- XYZ with Y = 1 of a chromaticity. -/
def xyzOf (x y : Rat) : List Rat := [x / y, 1, (1 - x - y) / y]

/-- The matrix whose columns are the given XYZ triples. -/
def matCols (a b c : List Rat) : Mat := ((upTo 3).map fun r => [a.getD r 0, b.getD r 0, c.getD r 0]).flatten

/-- A matrix with its columns scaled. -/
def matScale (m : Mat) (k : List Rat) : Mat := ((upTo 3).map fun r => (upTo 3).map fun c => matAt m r c * k.getD c 0).flatten

/-- Primaries to XYZ such that (1, 1, 1) gives the white `w`. -/
def primMatrix (p0 p1 p2 w : List Rat) : Mat :=
  let m := matCols p0 p1 p2
  matScale m (matVec (matInv m) w)

/-- D65 (R199). -/
def d65 : List Rat := xyzOf (3127 / 10000) (3290 / 10000)

/-- The Bradford cone-response matrix (R199). -/
def bradford : Mat :=
  [8951 / 10000, 2664 / 10000, -1614 / 10000, -7502 / 10000, 17135 / 10000, 367 / 10000, 389 / 10000, -685 / 10000, 10296 / 10000]

/-- The target white of a value of 0x8001 (R199). -/
def targetWhite (w : Nat) : List Rat :=
  if w = 0x500D5439 then d65 else xyzOf ((fld w 31 16 : Nat) / 65536) ((fld w 15 0 : Nat) / 65536)

/-- Adaptation of D65 to the target white (R199). -/
def adaptation (w : Nat) : Mat :=
  if w = 0x500D5439 then [1, 0, 0, 0, 1, 0, 0, 0, 1]
  else
    let a := matVec bradford d65
    let b := matVec bradford (targetWhite w)
    matMul (matInv bradford) (matScale' ((upTo 3).map fun k => b.getD k 0 / a.getD k 0) bradford)
where
  /-- Rows scaled. -/
  matScale' (k : List Rat) (m : Mat) : Mat := ((upTo 3).map fun r => (upTo 3).map fun c => matAt m r c * k.getD r 0).flatten

/-- A of R199 for a working colorimetry and a target white. -/
def sourceMatrix (space w : Nat) : Mat :=
  let m := if space = 0 then
      primMatrix (xyzOf (640 / 1000) (330 / 1000)) (xyzOf (300 / 1000) (600 / 1000)) (xyzOf (150 / 1000) (60 / 1000)) d65
    else primMatrix (xyzOf (708 / 1000) (292 / 1000)) (xyzOf (170 / 1000) (797 / 1000)) (xyzOf (131 / 1000) (46 / 1000)) d65
  matMul (adaptation w) m

/-- A rational rounded to an integer, halves away from zero. -/
def ratAway (r : Rat) : Int := divAway r.num r.den

/-- The column of the element of largest magnitude in a row, the lowest on a tie. -/
def rowMax (r : List Int) : Nat := argMaxAbs r

/-- The product N × A rounded as R201 gives, or the row and column of the first element out of range. -/
def gamutProduct (n : List Int) (a : Mat) : List Int ⊕ (Nat × Nat) :=
  let p := matMul (n.map fun (v : Int) => (v : Rat) / 65536) a
  let rows := (upTo 3).map fun r =>
    let es := (upTo 3).map fun c => ratAway (matAt p r c * 8192)
    modAt es (rowMax es) (· + (8192 - sumI es id))
  let flat := rows.flatten
  match flat.findIdx? fun v => v < -32768 || 32767 < v with
  | some i => .inr (i / 3, i % 3)
  | none => .inl flat

/-- Whether a delivery of N for frame `f` came in time (R200). -/
def State.nInTime (s : State) (g f : Nat) : Option (List Int) :=
  match (s.cgroup g).deliv with
  | some (tag, n, at_) => if tag = f && ((at_ : Int) + 2000 ≤ s.tF (f - 1)) then some n else none
  | none => none

/-- Every element differs by less than the deadband (R202). -/
def withinBand (a b : List Int) (d : Nat) : Bool := (a.zip b).all fun p => decide ((p.1 - p.2).natAbs < d)

/-- COLR's matrix for frame `f` of a group, at B(f−1) (R200–R202). Where no new N comes, or its product is rejected, the last N
accepted is used with the A committed for `f`: with the same A that is the M of the frame before. -/
def State.colrDecide (f : Nat) (s : State) (g : Nat) : State :=
  let c := s.cgroup g
  let a := sourceMatrix (s.num 0x6014 g) (s.num 0x8001)
  let apply (s : State) (m : List Int) : State :=
    if m = (s.cgroup g).m || withinBand m (s.cgroup g).m (s.num 0x8007) then s.modCGroup g fun c => { c with mChanged := false }
    else s.modCGroup g fun c => { c with m := m, mFrame := f, mChanged := true }
  let again (s : State) : State :=
    match c.n.map fun n => gamutProduct n a with
      | some (.inl m) => apply s m
      | _ => s.modCGroup g fun c => { c with mChanged := false }
  match s.nInTime g f with
  | some n =>
    let s1 := s.modCGroup g fun c => { c with deliv := none, lateRun := 0 }
    match gamutProduct n a with
    | .inl m => apply (s1.modCGroup g fun c => { c with n := some n }) m
    | .inr (r, k) => again (s1.raise 0x8A g (r * 256 + k))
  | none =>
    let s1 := s.modCGroup g fun c => { c with
      deliv := none, lateRun := c.lateRun + 1, lateCount := (c.lateCount + 1) % 2 ^ 32 }
    again (if c.lateRun = 0 then s1.raise 0x89 g (f % 65536) else s1)

/-- S3 for one primary: saturated to 21 bits, with whether the sum was out of that range (R203). -/
def gamutRow (m : List Int) (k : Nat) (x : List Nat) : Int :=
  clampI (-1048576) 1048575 ((sumI (upTo 3) (fun j => m.getD (3 * k + j) 0 * ((natAt x j : Nat) : Int)) + 4096) / 8192)

/-- S4 (R204). -/
def rangeStage (mode : Nat) (y : List Int) : List Nat :=
  let z := y.map fun v => (if v < 0 then 0 else v.toNat)
  let mx := z.foldl max 0
  if mode = 1 then z.map fun v => min v 262143
  else if mx ≤ 262143 then z
  else z.map fun v => (v * 262143 + mx / 2) / mx

/-- S1 to S3 for a pixel of a group. Without an N since reset there is no gamut stage (R200)
(log entry 12, DESIGN CHOICE, unsafe). -/
def State.gamutStage (s : State) (g px : Nat) : List Int :=
  let lin := (upTo 3).map fun c => s.eotf g (comp12 px c)
  let sc := if s.num 0x6014 g = 3 then ootf (s.num 0x8002 g) lin else lin
  if (s.cgroup g).n.isNone then sc.map fun v => ((v : Nat) : Int) else (upTo 3).map fun k => gamutRow (s.cgroup g).m k sc

/-- Whether a pixel counts as out of range (R205). -/
def outOfRange (y : List Int) : Bool := y.any fun v => v < 0 || 262143 < v

/-- A gain node of a map (R206). -/
def gainNode (map : Bytes) (p i j : Nat) : Nat := leAt map (2 * ((p * 35 + j) * 61 + i)) 2

/-- The interpolated gain at an array position (R207). -/
def uniGain (map : Bytes) (p x y : Nat) : Nat :=
  let i := x >>> 7
  let fx := x % 128
  let j := y >>> 7
  let fy := y % 128
  let top := gainNode map p i j * (128 - fx) + gainNode map p (i + 1) j * fx
  let bot := gainNode map p i (j + 1) * (128 - fx) + gainNode map p (i + 1) (j + 1) * fx
  (top * (128 - fy) + bot * fy + 8192) >>> 14

/-- S5 for one value (R207). -/
def uniStage (map : Bytes) (p x y v : Nat) : Nat := min ((v * uniGain map p x y + 16384) >>> 15) 262143

/-- COLR's output for primary `p` at position `(x, y)` of array `ap` (R208). -/
def State.colrOut (s : State) (ap p x y : Nat) : Nat :=
  let g := portGroup s.live ap
  let (ox, oy) := arrayOrigin s.live ap
  let y3 := rangeStage (s.num 0x8006 g) (s.gamutStage g (s.guarded g (ox + x) (oy + y)))
  let v := natAt y3 p
  if s.flag 0x8021 ap then uniStage (s.blob 0x8020 ap) p x y v else v

/-- Out-of-range pixels of a group in the frame being composed (R205). -/
def State.clipCount (s : State) (g : Nat) : Nat :=
  let (ow, oh) := (outSize s.live g).getD (0, 0)
  sumTo oh fun y => sumTo ow fun x => b2n (outOfRange (s.gamutStage g (s.guarded g x y)))

/-- The count of a frame that goes on the mirrors, with event 0x88 at the threshold (R205). -/
def State.clipReport (g count : Nat) (s : State) : State :=
  let (ow, oh) := (outSize s.live g).getD (0, 0)
  let warn := s.num 0x8031 g
  let isOver := warn != 0 && decide (warn * ow * oh < count * 10000)
  let was := (s.cgroup g).overGamut
  let s1 := s.modCGroup g fun c => { c with clip := count, overGamut := isOver }
  if isOver = was || warn = 0 then s1 else s1.raise 0x88 g (b2n isOver)

end Sys2Proof.Machine
end

