-- ==== Sys2Proof/Machine/Plgn.lean ====
section
/-! DEFINITION. Bit planes and weight-by-light: plane codes and dither, the plan of a group, the safe schedule, the checker of
R230, and the planes of a frame (R213–R239). -/

namespace Sys2Proof.Machine

def State.plgroup (s : State) (g : Nat) : PlGroup := s.plgn.groups.getD g {}
def State.plarray (s : State) (ap : Nat) : PlArray := s.plgn.arrays.getD ap {}

def State.modPlGroup (g : Nat) (f : PlGroup → PlGroup) (s : State) : State :=
  s.modPlgn fun p => { p with groups := modAt p.groups g f }

def State.modPlArray (ap : Nat) (f : PlArray → PlArray) (s : State) : State :=
  s.modPlgn fun p => { p with arrays := modAt p.arrays ap f }

/-! ## Plane codes (R213–R215) -/

/-- The effective code of an L18 value (R213). -/
def code16 (v : Nat) : Nat := (v * 65520 + 131071) / 262143

/-- The dither matrix, row by row (R214). -/
def ditherD : List Nat := [0, 8, 2, 10, 12, 4, 14, 6, 3, 11, 1, 9, 15, 7, 13, 5]

/-- The dither threshold at a canvas position in a frame (R214). -/
def ditherT (x y f : Nat) : Nat :=
  let at_ := (ditherD.findIdx? (· = f % 16)).getD 0
  natAt ditherD (4 * ((y + at_ / 4) % 4) + (x + at_ % 4) % 4)

/-- The plane code with `d` dropped codes (R213, R215). -/
def planeCode (c16 t d : Nat) : Nat :=
  if d = 0 then (c16 + t) >>> 4 else min (((c16 + (t <<< d)) >>> (4 + d)) <<< d) (4096 - 2 ^ d)

/-! ## Weights (R225) -/

/-- Slots of bit `k` at level 1 in scale `q`. -/
def l1Slots (q k : Nat) : Nat := q * 2 ^ k / 256

/-- Whether bit `k` has a slot at level 2^−j, for j = 1 to 8. -/
def fracSlot (q k j : Nat) : Bool := bit (q * 2 ^ k % 256) (8 - j)

/-- S(Q): slots of one primary (R225). -/
def slotsOf (q : Nat) : Nat := sumTo 12 fun k => l1Slots q k + sumTo 8 fun j => b2n (fracSlot q k (j + 1))

/-- The fractional levels in use, descending level (R225). -/
def fracLevels (q : Nat) : List Nat := ((upTo 8).map (· + 1)).filter fun j => (upTo 12).any fun k => fracSlot q k j

/-! ## The safe schedule (R235) -/

/-- Level-1 slots of each bit in each of `m` epochs: the even share, then the pointer of R235. The pointer comes and goes with
the fold over bits 11 down to 0. -/
def shareL1 (q m : Nat) : List (List Nat) :=
  ((upTo 12).reverse.foldl (fun (acc : List (List Nat) × Nat) k =>
    let c := l1Slots q k
    let base := c / m
    let left := c % m
    let ptr := acc.2
    -- epoch e is served when it is one of the `left` epochs from the pointer backwards
    let row := (upTo m).map fun e => base + b2n (decide ((ptr + m - e) % m < left))
    (row :: acc.1, (ptr + m * 12 - left) % m)) ([], m - 1)).1

/-- The safe schedule's epochs of one primary (R235). -/
def safePrimary (q m prim code : Nat) : List SchedEpoch :=
  let share := shareL1 q m
  let before := (m + 1) / 2
  let l1 (e : Nat) : SchedEpoch :=
    let ks := if e < before then (upTo 12).reverse else upTo 12
    ⟨0, code, (ks.map fun k => List.replicate (natAt (share.getD k []) e) (prim, k)).flatten, false⟩
  let fr := (fracLevels q).map fun j =>
    (⟨j, code, ((upTo 12).reverse.filter fun k => fracSlot q k j).map fun k => (prim, k), false⟩ : SchedEpoch)
  ((upTo before).map l1) ++ fr ++ ((upTo (m - before)).map fun e => l1 (before + e))

/-- The safe schedule of a group (R235). `prims` is 1 in TRIO and 3 otherwise. -/
def safeSchedule (q m pips prims : Nat) : List SchedEpoch :=
  let es := if prims = 1 then safePrimary q m 0 0xFF
    else ((upTo prims).map fun p => safePrimary q m p p).flatten
  (es.zip (upTo es.length)).map fun p => { p.1 with pip := decide (es.length ≤ p.2 + pips) }

/-! ## Instants and the checker (R222, R230, R247) -/


/-- x of R220. -/
def Timing.x (t : Timing) : Nat := t.tc - t.settle

/-- Length of a gap from G to the next block-0 reset (R222). -/
def Timing.gap (t : Timing) (pip : Bool) : Nat := if pip then max t.settle t.tc + 2500 + t.x else t.x

/-- Start a_e and global reset G_e of every epoch, in ns from B(F) (R222, R247). -/
def instants (t : Timing) : Nat → List SchedEpoch → List (Nat × Nat)
  | _, [] => []
  | a, e :: es =>
    let g := a + 15 * t.tblk + e.slots.length * t.lp
    (a, g) :: instants t (g + t.gap e.pip) es

/-- The slack of a frame of period `p` (R247). -/
def slackOf (t : Timing) (p : Nat) (es : List SchedEpoch) : Int :=
  match (es.zip (instants t 0 es)).getLast? with
  | none => p
  | some (e, _, g) => (p : Int) - (g + (if e.pip then max t.settle t.tc + 2500 else t.x) : Nat)

/-- Slots of a primary, bit and level in a schedule. -/
def countSlots (es : List SchedEpoch) (prim k level : Nat) : Nat :=
  es.foldl (fun a e => if e.level = level then a + (e.slots.filter fun q => q = (prim, k)).length else a) 0

/-- C1 and C2: every bit has its slots and levels, and each epoch one primary (R230). -/
def weightsOk (q prims : Nat) (es : List SchedEpoch) : Bool :=
  ((upTo prims).all fun p => (upTo 12).all fun k =>
    countSlots es p k 0 = l1Slots q k && (upTo 8).all fun j => countSlots es p k (j + 1) = b2n (fracSlot q k (j + 1))) &&
  es.all fun e => decide (e.level ≤ 8) && decide (1 ≤ e.slots.length) && decide (e.slots.length ≤ 256) &&
    e.slots.all fun s => decide (s.2 ≤ 11) && (if prims = 1 then s.1 = 0 && e.primary = 0xFF else s.1 = e.primary && decide (s.1 ≤ 2))

/-- Weight sum and weighted positions, in units of 2⁻⁸ and half ns, of a bit's slots, those of every primary together (A1)
(log entry 143, DEDUCED, safe). -/
def centroidSums (t : Timing) (es : List SchedEpoch) (k : Nat) : Nat × Nat :=
  (es.zip (instants t 0 es)).foldl (fun acc e =>
    let w := 2 ^ (8 - e.1.level)
    ((e.1.slots.zip (upTo e.1.slots.length)).foldl (fun acc q =>
      if q.1.2 = k then (acc.1 + w, acc.2 + w * (2 * (e.2.1 + q.2 * t.lp) + t.lp)) else acc) acc)) (0, 0)

/-- A1 (R230): every bit's centroid lies within the limit of the frame's middle. -/
def centroidOk (t : Timing) (p limitUs : Nat) (es : List SchedEpoch) : Bool :=
  (upTo 12).all fun k =>
    let (w, m) := centroidSums t es k
    decide (((m : Int) - p * w).natAbs ≤ 2000 * limitUs * w)

/-- The dark times of any block between epochs and across the frame's end, settle included (A2). -/
def darkTimes (t : Timing) (p : Nat) (es : List SchedEpoch) : List Nat :=
  let ins := instants t 0 es
  let starts := (ins.map Prod.fst).drop 1 ++ [p]
  ((es.zip ins).zip starts).map fun e => e.2 + t.settle - (e.1.2.1 + e.1.1.slots.length * t.lp)

/-- The constraints of a group's schedules, as a view gives them. -/
structure Limits where
  p : Nat
  prims : Nat
  pips : Nat
  minL1 : Nat
  eallow : Nat
  centroidUs : Nat
  darkUs : Nat
  deriving DecidableEq, Repr

/-- Whether a schedule meets R230. -/
def meetsR230 (q : Nat) (t : Timing) (l : Limits) (es : List SchedEpoch) : Bool :=
  weightsOk q l.prims es &&
  decide (es.length ≤ l.eallow) &&
  ((upTo l.prims).all fun pr => decide (l.minL1 ≤ (es.filter fun e => e.level = 0 && (l.prims = 1 || e.primary = pr)).length)) &&
  (es.filter SchedEpoch.pip).length = l.pips &&
  decide (100 ≤ slackOf t l.p es) &&
  centroidOk t l.p l.centroidUs es &&
  (darkTimes t l.p es).all fun d => decide (d ≤ 1000 * l.darkUs)

/-! ## The order of the search (R231) -/

/-- The largest centroid offset over the active bits, in ns (R231, item 1). -/
def worstCentroid (t : Timing) (p : Nat) (active : Nat → Bool) (es : List SchedEpoch) : Rat :=
  ((upTo 12).filter active).foldl (fun a k =>
    let (w, m) := centroidSums t es k
    if w = 0 then a else max a ((((m : Int) - p * w).natAbs : Rat) / ((2 * w : Nat) : Rat))) 0

/-- The longest run of consecutive slots that show one bit of one primary (R231, item 2). -/
def longestRun (es : List SchedEpoch) : Nat :=
  ((es.flatMap SchedEpoch.slots).foldl (fun (acc : Option (Nat × Nat) × Nat × Nat) q =>
    let run := if acc.1 = some q then acc.2.1 + 1 else 1
    (some q, run, max acc.2.2 run)) (none, 0, 0)).2.2

/-- Starts of a frame's Pips, in ns from B(F) (R222). -/
def pipStarts (t : Timing) (es : List SchedEpoch) : List Nat :=
  ((es.zip (instants t 0 es)).filter fun e => e.1.pip).map fun e => e.2.2 + max t.settle t.tc

/-- The longest interval between Pips, the last of a frame and the first of the same schedule one period later included; 0 without
Pips (R231, item 3) (log entry 144, DEDUCED, safe). -/
def longestPipGap (t : Timing) (p : Nat) (es : List SchedEpoch) : Nat :=
  match pipStarts t es with
  | [] => 0
  | a :: as => ((a :: as).zip (as ++ [a + p])).foldl (fun m q => max m (q.2 - q.1)) 0

/-- What the search ranks a schedule by, an earlier item before a later one (R231). -/
structure Rank where
  offset : Rat
  run : Nat
  pipGap : Nat
  epochs : Nat
  deriving DecidableEq, Repr

def rankOf (t : Timing) (p : Nat) (active : Nat → Bool) (es : List SchedEpoch) : Rank :=
  ⟨worstCentroid t p active es, longestRun es, longestPipGap t p es, es.length⟩

/-- Whether rank `a` comes before rank `b`. -/
def Rank.before (a b : Rank) : Bool :=
  if a.offset != b.offset then decide (a.offset < b.offset)
  else if a.run != b.run then decide (a.run < b.run)
  else if a.pipGap != b.pipGap then decide (a.pipGap < b.pipGap)
  else decide (a.epochs < b.epochs)

/-- The schedule that ranks first; among equals the first found. -/
def bestOf (rank : List SchedEpoch → Rank) : List (List SchedEpoch) → Option (List SchedEpoch)
  | [] => none
  | es :: more => match bestOf rank more with
    | some b => if (rank b).before (rank es) then some b else some es
    | none => some es

/-! ## The plan of a group (R226, R286) -/

/-- Payload words of a block (R282). -/
def payloadWords (w h : Nat) : Nat := divCeil (w * (h / 16)) 480

/-- t_blk of a geometry (R286): (P + 2) × 4/7 ns rounded up to a multiple of 10 ns. -/
def blockTime (w h : Nat) : Nat := divCeil ((payloadWords w h + 2) * 4) 70 * 10

/-- Primaries an array shows in sequence (R224). -/
def primsOf (k : GKind) : Nat := if k = .trio then 1 else 3

/-- The limits of a group under a view, for a given E_allow. -/
def limitsOf (v : View) (prims eallow : Nat) : Limits :=
  ⟨periodMin (v 0xB001 0) (v 0xB050 0), prims, v 0x9011 0, v 0x9013 0, eallow, v 0x9014 0, v 0x9015 0⟩

/-- Scale `q` tried (R226). -/
def tryScale (v : View) (prims tblk settle q : Nat) : Option Plan :=
  let n := slotsOf q * prims
  let emin := prims * ((fracLevels q).length + v 0x9013 0)
  let eallow := emin + v 0x9012 0
  let pips := v 0x9011 0
  let tc := v 0x9016 0
  let x := tc - settle
  let p := periodMin (v 0xB001 0) (v 0xB050 0)
  if 256 < n || 32 < eallow || emin < pips || n = 0 then none
  else
    let used := eallow * (15 * tblk + x) + pips * (max settle tc + 2500) + 100
    if p < used then none
    else
      let lp := (p - used) / n
      if lp < 16 * tblk || lp < settle || p ≤ n * settle then none
      else
        let num := n * (lp - settle)
        let den := p - n * settle
        let safe := safeSchedule q (v 0x9013 0) pips prims
        if v 0x9010 0 * den ≤ num * 10000 && meetsR230 q ⟨lp, tblk, settle, tc⟩ (limitsOf v prims eallow) safe then
          some ⟨q, lp, n, emin, eallow, divHalfUp (num * 10000) den, tblk, settle, tc, safe⟩
        else none

/-- The largest scale from `q` down that is accepted (R226). -/
def findScale (v : View) (prims tblk settle : Nat) : Nat → Option Plan
  | 0 => none
  | q + 1 => match tryScale v prims tblk settle (q + 1) with
    | some p => some p
    | none => findScale v prims tblk settle q

/-- Whether some scale meets the duty floor and the other bounds, the safe schedule apart: tells DUTY from SAFE_SCHEDULE
(R259). -/
def dutyReachable (v : View) (prims tblk settle : Nat) : Bool :=
  (upTo 255).any fun k =>
    (tryScale (fun o i => if o = 0x9014 || o = 0x9015 then 2 ^ 40 else v o i) prims tblk settle (k + 1)).isSome

/-- Largest settle time of a group's arrays (R249). -/
def State.groupSettle (s : State) (aps : List Nat) : Nat := aps.foldl (fun a p => max a (s.arcd.ports.getD p {}).settle) 0

/-- The settle time for a group's plan: that of its arrays where it is fixed afresh, and else that of the plan in force (R238). -/
def State.settleFor (s : State) (fresh : Bool) (g : Nat) (aps : List Nat) : Nat :=
  match (s.plgroup g).plan with
  | some p => if fresh then s.groupSettle aps else p.settle
  | none => s.groupSettle aps

/-- The plan of a group under a view (R226, R235); none where no scale is accepted. -/
def State.planOf (s : State) (v : View) (fresh : Bool) (g : Nat) : Option Plan :=
  match groupOf v g with
  | some (k, ap :: aps) =>
    findScale v (primsOf k) (blockTime (arrayW v ap) (arrayH v ap)) (s.settleFor fresh g (ap :: aps)) 255
  | _ => none

/-- A group's plan put in force, with event 0x91 when Q or L' changes (R226). -/
def State.setPlan (g : Nat) (p : Option Plan) (s : State) : State :=
  let old := (s.plgroup g).plan
  let s1 := s.modPlGroup g fun q => { q with plan := p, next := none, delivered := none, prevInputs := [], settings := [], hists := [] }
  match p with
  | some a =>
    if (old.map fun o => (o.q, o.lp)) = some (a.q, a.lp) then s1 else s1.raise 0x91 g (a.eallow % 256 * 256 + a.q % 256)
  | none => s1

/-- The timing of a plan. -/
def Plan.timing (p : Plan) : Timing := ⟨p.lp, p.tblk, p.settle, p.tc⟩

/-- Slots of a schedule that are dark for a dropped code (R215), by their indices. -/
def Sched.dropped (h : Sched) : List Nat :=
  let slots := h.epochs.flatMap SchedEpoch.slots
  ((slots.zip (upTo slots.length)).filter fun q => decide (q.1.2 < h.d)).map Prod.snd

/-- η of the frame that a schedule runs, in 0.0001: the slots in `late` and those of dropped codes are not lit (R228). -/
def Sched.eta (h : Sched) (late : List Nat) : Nat :=
  let n := (h.epochs.flatMap SchedEpoch.slots).length
  let dark := h.dropped ++ late.filter fun i => !h.dropped.contains i
  divHalfUp ((n - dark.length) * (h.timing.lp - h.timing.settle) * 10000) (h.pmin - n * h.timing.settle)

/-! ## Schedules (R232–R236) -/

/-- The bytes of a schedule (R232). -/
def Sched.bytes (h : Sched) : Bytes :=
  let n := h.epochs.foldl (fun a e => a + e.slots.length) 0
  let firsts := (h.epochs.foldl (fun (acc : List Nat × Nat) e => (acc.1 ++ [acc.2], acc.2 + e.slots.length)) ([], 0)).1
  toLE 8 h.frame ++ toLE 4 h.timing.lp ++ toLE 2 n ++ toLE 1 h.epochs.length ++ toLE 1 h.flags ++
    ((h.epochs.zip firsts).map fun e => toLE 1 e.1.level ++ toLE 1 e.1.primary ++ toLE 2 e.2 ++ toLE 2 e.1.slots.length ++
      toLE 1 (b2n e.1.pip) ++ [0]).flatten ++
    (h.epochs.map fun e => (e.slots.map fun q => toLE 1 (q.1 * 64 + b2n (decide (q.2 < h.d)) * 32 + q.2)).flatten).flatten

/-- A schedule of a plan for a frame of `pmin` ns (R232). -/
def Plan.schedOf (p : Plan) (pmin frame d cause : Nat) (es : List SchedEpoch) : Sched :=
  ⟨frame, p.q, p.timing, pmin, b2n (cause != 0) + 4 * b2n (d != 0), d, cause, es⟩

/-- The safe schedule of a plan as 0x9021 reads it (R235). -/
def Plan.safeSched (p : Plan) (pmin frame : Nat) : Sched := { p.schedOf pmin frame 0 0 p.safe with flags := 1 }

/-- P_min of the live values. -/
def State.pmin (s : State) : Nat := periodMin (s.num 0xB001) (s.num 0xB050)

/-- The inputs of the compile that runs for a group, as one list (R229). -/
def PlGroup.inputs (q : PlGroup) : List Nat := q.settings ++ q.hists

/-- A schedule delivered for the next frame. -/
def PlGroup.takes (c : Sched) (q : PlGroup) : PlGroup := { q with next := some c, delivered := some c, prevInputs := q.inputs }

/-- The safe schedule delivered for frame `f`, with a cause (R236). -/
def State.fallback (g f cause : Nat) (s : State) : State :=
  match (s.plgroup g).plan with
  | none => s
  | some p => s.modPlGroup g fun q => q.takes (p.schedOf s.pmin f q.d cause p.safe)

/-- Whether bit `k` is active in a group: on some array, some primary has at least 1/1,024 of the adjacent pairs in T[k] (R231). `hs` are
the histograms of the group's arrays, 72 numbers each (R217). -/
def bitActive (pairs : Nat) (hs : List Nat) (k : Nat) : Bool :=
  (upTo (hs.length / 72)).any fun a => (upTo 3).any fun p => decide (pairs ≤ 1024 * natAt hs (72 * a + 24 * p + 2 * k + 1)) && pairs != 0

/-- The schedule that the search settles on among those it found (R231). -/
def State.searched (s : State) (g : Nat) (p : Plan) (k : GKind) (aps : List Nat) (found : List (List SchedEpoch)) :
    Option (List SchedEpoch) :=
  let ap := aps.headD 0
  let pairs := (arrayW s.live ap - 1) * arrayH s.live ap
  bestOf (rankOf p.timing s.pmin (bitActive pairs (s.plgroup g).hists))
    (found.filter (meetsR230 p.q p.timing (limitsOf s.live (primsOf k) p.eallow)))

/-- When the compile of frame `f` ends at the latest: its budget after B(F−1), and 100 µs before B(F) (R229, R234). -/
def State.compileBy (s : State) (g f : Nat) : Int :=
  min (s.tF (f - 1) + 1000 * (natAt (s.plgroup g).settings 0 : Int)) (s.tF f - 100000)

/-- The compile of frame `f` ends with the schedules that the search found. With the inputs of the frame before, that frame's
schedule is delivered again with REUSED and nothing is searched; past the deadline, with nothing found, or with nothing that the
checker lets pass, the safe schedule is delivered (R233, R234, R236). One schedule is delivered per frame. -/
def State.deliver (g f : Nat) (found : List (List SchedEpoch)) (us : Nat) (s : State) : State :=
  let q := s.plgroup g
  if q.settings.isEmpty || (q.next.map Sched.frame) = some f then s
  else match q.plan, groupOf s.live g, (if q.inputs = q.prevInputs then q.delivered else none) with
    | none, _, _ => s
    | some _, _, some c => s.modPlGroup g fun q => q.takes { c with frame := f, flags := c.flags % 2 + 2 + 4 * b2n (q.d != 0) }
    | some p, some (k, aps), none =>
      if s.compileBy g f < (s.wall : Int) then s.fallback g f 1
      else
        let s1 := s.modPlGroup g fun q => { q with compileUs := us }
        match s1.searched g p k aps found with
        | some es => s1.modPlGroup g fun q => q.takes (p.schedOf s.pmin f q.d 0 es)
        | none => s1.fallback g f (if found.isEmpty then 2 else 3)
    | some _, none, none => s.fallback g f 2

/-- Whether a compile runs for the next frame (R229, R233). -/
def State.compiling (s : State) : Bool :=
  (upTo 4).any fun g => !(s.plgroup g).settings.isEmpty && ((s.plgroup g).next.map Sched.frame) != some (s.seqr.count + 1)

/-- The compile task holds lease 10 while it compiles (R529). -/
def State.compilerLease (s : State) : State :=
  let held := (s.firm.leases.getD 10 {}).st = 1
  if s.compiling then (if held then s else s.takeLeaseOf 10) else if held then s.dropLease 10 else s

/-- A schedule starts to run: a fallback frame is counted, and event 0x90 raised on the first of a run (R236). -/
def State.runsSched (g : Nat) (h : Sched) (s : State) : State :=
  let q := s.plgroup g
  if h.cause = 0 then s.modPlGroup g fun q => { q with fallbackRun := 0 }
  else
    let s1 := s.modPlGroup g fun q => { q with fallbackRun := q.fallbackRun + 1, fallbacks := (q.fallbacks + 1) % 2 ^ 32 }
    if q.fallbackRun = 0 then s1.raise 0x90 g h.cause else s1

/-- The settings among the inputs of a compile, as they stand at B(F−1); the budget comes first (R229). -/
def State.compileSettings (s : State) (g : Nat) : List Nat :=
  [s.num 0x9017, s.num 0x9011, s.num 0x9013, s.num 0x9014, s.num 0x9015, (s.plgroup g).d] ++
    (match (s.plgroup g).plan with
      | some p => [p.q, p.lp, p.n, p.eallow, p.tblk, p.settle, p.tc]
      | none => [])

/-- The histograms among the inputs of a compile: those of the frame on the mirrors, array by array (R217, R229). -/
def State.compileHists (s : State) (g : Nat) : List Nat :=
  ((((groupOf s.live g).map Prod.snd).getD []).map fun a => (s.plarray a).hist).flatten

/-! ## Planes of a frame (R214–R217, R467) -/

/-- The pattern of the sweep step that shows frame `f`, if any (R467). -/
def State.patternFor (s : State) (f : Nat) : Option (List Nat) :=
  let on (st : SStep) : Bool := decide (st.first ≤ f) && decide (f < st.first + st.dwell)
  ([s.coh.node.cur, s.coh.node.next].filterMap id |>.find? on).map SStep.pattern

/-- The plane code of primary `p` at position `(x, y)` of an array, for the frame being composed. -/
def State.arrayCode (s : State) (ap p x y : Nat) : Nat :=
  let g := portGroup s.live ap
  let f := s.seqr.count + 1
  let v := match s.patternFor f with
    | some pt => natAt pt p
    | none => s.colrOut ap p x y
  let (ox, oy) := arrayOrigin s.live ap
  let o := s.num 0x7109 g
  let t := if s.flag 0x9018 g then ditherT (ox + x + fld o 63 32) (oy + y + fld o 31 0) f else 8
  planeCode (code16 v) t (s.plgroup g).d

/-- Primaries that an array shows, in the order of its planes (R216). -/
def State.arrayPrims (s : State) (ap : Nat) : List Nat :=
  match groupOf s.live (portGroup s.live ap) with
  | some (.trio, aps) => [(aps.findIdx? (· = ap)).getD 0]
  | some _ => [0, 1, 2]
  | none => []

/-- Row `y` of the 12 planes of a primary, and its counts of H and T (R216, R217). -/
def State.codeRow (s : State) (ap p y : Nat) : List Nat := (upTo (arrayW s.live ap)).map fun x => s.arrayCode ap p x y

/-- The mask of bit `k` over a row of codes. -/
def rowMask (codes : List Nat) (k : Nat) : Nat := ((codes.zip (upTo codes.length)).foldl fun a c => if bit c.1 k then a + 2 ^ c.2 else a) 0

/-- Pairs of neighbours whose codes differ with highest differing bit `k` (R217). -/
def rowPairs (k : Nat) : List Nat → Nat
  | a :: b :: r => b2n (a != b && (a ^^^ b).log2 = k) + rowPairs k (b :: r)
  | _ => 0

/-- The planes and histograms of an array for the frame being composed (R216, R217). -/
def State.slice (s : State) (ap : Nat) : List (List Nat) × List Nat :=
  let per := (s.arrayPrims ap).map fun p => (upTo (arrayH s.live ap)).map fun y => s.codeRow ap p y
  let planes := (per.map fun rows => (upTo 12).map fun k => rows.map fun r => rowMask r k).flatten
  let hist := (per.map fun rows =>
    ((upTo 12).map fun k =>
      [rows.foldl (fun a r => a + (r.filter (bit · k)).length) 0, rows.foldl (fun a r => a + rowPairs k r) 0]).flatten).flatten
  (planes, fit72 hist)
where
  fit72 (l : List Nat) : List Nat := (l ++ List.replicate 72 0).take 72

/-- Whether a block of a plane holds a set bit (R217). -/
def State.blockUsed (s : State) (ap plane b : Nat) : Bool :=
  let hb := arrayH s.live ap / 16
  (((s.plarray ap).planes.getD plane []).drop (b * hb) |>.take hb).any (· != 0)

/-- The planes of the set on the mirrors, or of the other set (R216). -/
def PlArray.set (a : PlArray) (shown : Bool) : List (List Nat) := if shown then a.planes else a.other

/-- The plane, counted through both sets, and the row that a word of an array's plane store belongs to (R216). -/
def State.planeWord (s : State) (ap off : Nat) : Nat × Nat :=
  let stride := max 1 (divCeil (arrayW s.live ap) 256)
  let h := max 1 (arrayH s.live ap)
  (off / (h * stride), off / stride % h)

/-- The plane a slot shows on an array: its index in the store (R216). -/
def planeIndex (prims prim k : Nat) : Nat := if prims = 1 then k else 12 * prim + k

/-! ## Throttle (R215) -/

/-- d of a group changed (R215). -/
def State.setDropped (g d : Nat) (s : State) : State :=
  if (s.plgroup g).d = d then s else (s.modPlGroup g fun q => { q with d := d }).raise 0x92 g d

/-! ## Which frames are composed, and which groups PLGN makes planes for -/

/-- Whether frame `f` is composed in the period before B(f): the device is lit, and no re-phase ends after it (R246). -/
def State.composes (s : State) (f : Nat) : Bool :=
  s.mews.dev.lit && (s.seqr.status != 4 || (match s.seqr.rephase with
    | some r => decide (r.target ≤ f)
    | none => true))

/-- Whether PLGN makes the planes of frame `f` for an array: its group exists, is not quiet and does not drain in a transition. -/
def State.makesPlanes (s : State) (f ap : Nat) : Bool :=
  bit (s.num 0xB031) ap && groupExists s.live (portGroup s.live ap) &&
  !(s.plaz.groups.getD (portGroup s.live ap) {}).quiet && !s.drains (portGroup s.live ap) f

end Sys2Proof.Machine
end

