-- ==== Sys2Proof/Machine/Arcd.lean ====
section
/-! DEFINITION. The array link: words and commands, block transfers, return messages, dark on doubt, parking, training and spare
lanes (R274–R306). -/

namespace Sys2Proof.Machine

def State.aport (s : State) (n : Nat) : APort := s.arcd.ports.getD n {}

/-- Changes one array port. -/
def State.modAport (n : Nat) (f : APort → APort) (s : State) : State :=
  s.modArcd fun a => { a with ports := modAt a.ports n f }

/-! ## Words and commands (R280–R284) -/

/-- A 64-bit command (R284). -/
def acmd (op field arg data : Nat) : Bytes := toLE 8 (op % 256 * 2 ^ 56 + field % 65536 * 2 ^ 40 + arg % 256 * 2 ^ 32 + data % 2 ^ 32)

/-- The CRC-32C put behind 56 bytes. -/
def withCrc (b : Bytes) : Bytes := let f := fit 56 b; f ++ toLE 4 (crc32c f)

/-- A CONTROL word (R281): slot 0 spans bits [95:32]. -/
def controlWord (seq : Nat) (cmds : List Bytes) : Bytes :=
  withCrc (toLE 1 1 ++ toLE 1 cmds.length ++ toLE 2 seq ++ cmds.flatten)

/-- A HEADER word (R281). -/
def headerWord (seq b p tag : Nat) (cmds : List Bytes) : Bytes :=
  withCrc (toLE 1 2 ++ toLE 1 b ++ toLE 2 seq ++ toLE 2 p ++ toLE 2 tag ++ cmds.flatten)

/-- A TRAILER word over a payload (R281). -/
def trailerWord (seq b : Nat) (payload : Bytes) : Bytes :=
  withCrc (toLE 1 3 ++ toLE 1 b ++ toLE 2 seq ++ toLE 4 (crc32c payload))

/-- The port word whose instant is nearest to a wall time, and the first one at or after it (R279, R287). -/
def State.indexAt (s : State) (ap : Nat) (t : Int) : Nat := (((s.aport ap).wordBase : Int) + (7 * t + 2) / 4).toNat

def State.indexFrom (s : State) (ap : Nat) (t : Int) : Nat := (((s.aport ap).wordBase : Int) + (7 * t + 3) / 4).toNat

/-- The word index of a wall time as a command carries it (R278, R279). -/
def State.tick (s : State) (ap : Nat) (t : Int) : Nat := s.indexAt ap t % 2 ^ 32

/-- A word or transfer launched under the next sequence number, at the first free word index from `from_` on; it then waits for its
ACK (R280, R294). `mk` makes it from its index and its sequence. -/
def State.alaunch (ap from_ : Nat) (block : Bool) (mk : Nat → Nat → Bytes) (s : State) : State :=
  let p := s.aport ap
  let q := p.seqNext
  let first := max p.lineFree from_
  let words := mk first q
  (s.modAport ap fun p => { p with
    seqNext := (q + 1) % 65536, lineFree := first + words.length / 60, waiting := p.waiting ++ [(q, s.now, block)] }).emit
      (.alink ap first words)

/-- A CONTROL word with commands, launched 1 to 50 µs before now at the array (R289) (log entry 165, DESIGN CHOICE, safe). -/
def State.acontrol (ap : Nat) (cmds : List Bytes) (s : State) : State :=
  let lead := 1000 + Config.alinkLead ap (s.aport ap).lineFree % 49001
  s.alaunch ap (s.indexFrom ap ((s.wall : Int) - lead)) false fun _ q => controlWord q cmds

/-! ## Lanes (R275, R276, R278) -/

/-- A physical lane put into a mode with a lane field. -/
def State.setLane (ap phys mode lane : Nat) (s : State) : State :=
  (s.modAport ap fun p => { p with lanes := setAt p.lanes phys (mode, lane) }).emit (.alinkLane ap phys mode lane)

/-- The port word with an index: a launched one, else IDLE (R278, R280). -/
def State.portWord (s : State) (ap x : Nat) : Nat :=
  (s.outs.findSome? fun o => match o with
    | .alink a first b => if a = ap && first ≤ x && x < first + b.length / 60 then some (leAt b (60 * (x - first)) 60) else none
    | _ => none).getD 0

/-- Codeword `count` of a physical lane as PAM4 symbols, with the lane as it stands and the words launched so far: in DATA and DUP its
lane's share of port words 85 × count on, in TRAIN none (R275, R276, R278). -/
def State.laneSends (s : State) (ap phys count : Nat) : List Int :=
  let (mode, lane) := (s.aport ap).lanes.getD phys (1, phys)
  laneCodeword lane count mode ((upTo 85).map fun j =>
    if mode = 1 then 0 else s.portWord ap (85 * count + j) >>> (60 * lane) % 2 ^ 60)

/-- A KEEPALIVE in a CONTROL word (R289, R297). -/
def State.akeep (ap : Nat) (s : State) : State :=
  let c := ((s.aport ap).keepCount + 1) % 65536
  (s.modAport ap fun p => { p with keepCount := c, keepAt := s.now }).acontrol ap [acmd 3 c 0 0]

/-! ## States (R299, R306) -/

/-- An array's observed state, with event 0xA9. -/
def State.setArray (ap v : Nat) (s : State) : State :=
  let old := s.obs (wArray ap)
  if old = v then s else (s.setObs (wArray ap) v).raise 0xA9 ap (old * 256 + v)

/-- The array's group dark until its next global reset, with event 0xA4 (R296). -/
def State.ablank (ap cause : Nat) (s : State) : State :=
  if (s.aport ap).hold then s
  else (s.modAport ap fun p => { p with hold := true, blanks := (p.blanks + 1) % 2 ^ 32 }).raise 0xA4 ap cause

/-- An array parked for a cause: PARK 2 µs ahead, and event 0xA6 (R299). -/
def State.apark (ap cause : Nat) (s : State) : State :=
  let o := s.obs (wArray ap)
  if o = 0 || o = 1 then s
  else
    let s1 := (s.acontrol ap [acmd 4 0xFFFF 0 (s.tick ap ((s.wall : Int) + 2000))]).modAport ap fun p =>
      { p with parkCause := cause, hold := false }
    (s1.setArray ap (if cause = 0 then 2 else if cause = 4 || o = 6 then 6 else 5)).raise 0xA6 ap cause

/-- Whether an array is to be driven: enabled, its group whole, commanded READY, in a device state with drive (R306). -/
def State.wantsDrive (s : State) (ap : Nat) : Bool :=
  s.mews.dev.lit && bit (s.num 0xB031) ap && groupExists s.live (portGroup s.live ap) && (s.unitRec (wArray ap)).cmd = 2

/-- DRIVE sent for the next frame boundary to an array that is parked and healthy (R299). -/
def State.adrive (s : State) (ap : Nat) : State :=
  let o := s.obs (wArray ap)
  let c := (s.aport ap).parkCause
  if s.wantsDrive ap && (o = 2 || (o = 5 && (c = 0 || c = 1 || c = 3))) then
    s.acontrol ap [acmd 5 0xFFFF 0 (s.tick ap (s.tF (s.seqr.count + 1)))]
  else s

/-- DRIVE sent for the boundary after B(`f`) to an array that is to be driven; in a transition from B(C+1) on (R262). -/
def State.driveArray (f : Nat) (s : State) (ap : Nat) : State :=
  match s.seqr.trans with
  | some x => if bit x.mask ap && f < x.frame + 1 then s else s.adrive ap
  | none => s.adrive ap

/-! ## Training (R300–R302) -/

/-- Training starts: nine lanes send TRAIN, each with its own number (R300). -/
def State.atrain (ap : Nat) (s : State) : State :=
  if s.obs (wArray ap) = 1 then s
  else
    let s1 := ((s.setArray ap 1).modAport ap fun p => { p with
      trainSince := s.now, short := false, laneMap := upTo 9, swap := none, swapAsked := none, waiting := [], lastReturn := none, hold := false
      keepCount := 0, wordBase := s.free % 2 ^ 32, lineFree := 0 }).drawn
    (upTo 9).foldl (fun (s : State) k => s.setLane ap k 1 k) s1

/-- Whether a second has passed since the last training of a port, so that it may be trained again by itself (R535). -/
def State.mayRetrain (s : State) (ap : Nat) : Bool :=
  let at_ := (s.aport ap).trainSince
  at_ = 0 || decide (at_ + 1000000000 ≤ s.now)

/-- An array parked for a cause that calls for training, and its training started (R299), at most once per second (R535). -/
def State.aretrain (ap cause : Nat) (s : State) : State :=
  if s.obs (wArray ap) = 0 || s.obs (wArray ap) = 1 then s
  else if s.mayRetrain ap then (s.apark ap cause).atrain ap else s.apark ap cause

/-- The array's part of the training steps up to `n` of those that the port runs (R300): in step 4 the lanes go to DATA and 64 NOPs
are sent; in 5 the registers are read and in 6 the geometry written; in 7 there are 16 ECHOs, each with its own index; in 8 the
PARK. Each command has a CONTROL word of its own (log entry 166, DESIGN CHOICE, unsafe). -/
def State.atrainSteps (ap n : Nat) (short : Bool) (s : State) : State :=
  let each (cmds : List Bytes) (s : State) : State := cmds.foldl (fun (s : State) c => s.acontrol ap [c]) s
  let when_ (k : Nat) (f : State → State) (s : State) : State := if n < k then s else f s
  let data (s : State) : State := ((upTo 8).foldl (fun (s : State) k => s.setLane ap k 0 k) s).setLane ap 8 1 0xF
  let echo (s : State) : State := s.alaunch ap (s.indexFrom ap s.wall) false fun x q => controlWord q [acmd 9 0 0 (x % 2 ^ 32)]
  let s4 := when_ 4 (fun s => each (List.replicate 64 (acmd 0 0 0 0)) (data s)) s
  let s5 := if short then s4 else when_ 5 (each ((upTo 10).map fun r => acmd 7 r 0 0)) s4
  let s6 := if short then s5 else when_ 6 (each [acmd 8 0x000A 0 (s.num 0xB032 ap)]) s5
  let s7 := when_ 7 (fun s => (upTo 16).foldl (fun s _ => echo s) s) s6
  when_ 8 (each [acmd 4 0xFFFF 0 (s.tick ap ((s.wall : Int) + 2000))]) s7

/-- The command latency from an ECHO's median round trip and turnaround, in 0.1 ns, and D_a in ns (R301). -/
def arrayLatency (launch receive roundTrip turnaround da : Nat) : Nat :=
  let flight : Int := ((roundTrip : Int) - turnaround - launch - receive - 10 * da) / 2
  (divAway ((launch : Int) + flight + 10 * da) 10).toNat

/-- Whether step 5 passes: registers 0x0000 to 0x0009 as read (R300, R302). -/
def regsOk (geom : Nat) (regs : List Nat) : Bool :=
  natAt regs 1 = 1 && decide (fld geom 31 16 ≤ fld (natAt regs 2) 31 16) && decide (fld geom 15 0 ≤ fld (natAt regs 2) 15 0) &&
    decide (64 ≤ natAt regs 9)

/-- The training of the entry to WARMING: steps 1 to 4, 7 and 8 (R554). -/
def State.areturnTrain (ap : Nat) (s : State) : State := (s.atrain ap).modAport ap fun p => { p with short := true }

/-- The end of training (R300, R301). `step` is the failed step, 0 when the array's side passed every step. -/
def State.atrainEnd (ap step : Nat) (regs : List Nat) (roundTrip turnaround : Nat) (s : State) : State :=
  if s.obs (wArray ap) != 1 then s
  else
    let late := decide ((s.aport ap).trainSince + 50000000 < s.now)
    let p := s.aport ap
    let s := (s.atrainSteps ap (if step = 0 then 8 else step) p.short).modAport ap fun p => { p with waiting := [] }
    let regs := if p.short then
      [p.id, 1, p.gmax, p.settle, p.delay, p.parkTime, p.driveTime, 0, ofS 16 p.temp, 64] else regs
    let failed := if step != 0 then step else if !regsOk (s.num 0xB032 ap) regs then 5 else if late then 8 else 0
    if failed != 0 then (s.setArray ap 6).raise 0xA7 ap failed
    else
      let lat := arrayLatency (Config.alinkLaunch ap) (Config.alinkReceive ap) roundTrip turnaround (natAt regs 4)
      let s1 := (s.modAport ap fun p => { p with
        id := natAt regs 0, gmax := natAt regs 2, settle := natAt regs 3, delay := natAt regs 4
        parkTime := natAt regs 5, driveTime := natAt regs 6, temp := toS 16 (natAt regs 8)
        readyAt := s.now, lastReturn := some s.now, locks := 0x1FF, parkCause := 0 }).modSeqr fun q =>
          { q with latency := setAt q.latency ap lat }
      let s2 := s1.setArray ap 2
      let g := portGroup s2.live ap
      -- a plan is fixed here only where none stands or no light is on (R238)
      let s3 := if ((s2.plgroup g).plan.isNone || !s2.mews.dev.lit) && groupExists s2.live g then
        s2.setPlan g (s2.planOf s2.live true g) else s2
      if (s3.wall : Int) + 100000 ≤ s3.tF (s3.seqr.count + 1) then s3.driveArray s3.seqr.count ap else s3

/-! ## Block windows (R287–R291) -/

/-- Epoch, place in it, primary and bit of a slot of a schedule. -/
def slotAt : List SchedEpoch → Nat → Nat → Option (Nat × Nat × Nat × Nat)
  | [], _, _ => none
  | e :: es, i, n =>
    if i < e.slots.length then (e.slots[i]?).map fun q => (n, i, q.1, q.2) else slotAt es (i - e.slots.length) (n + 1)

/-- The payload of a block transfer: its mirrors in order, 480 to a word (R282). -/
def blockPayload (w : Nat) (rows : List Nat) : Bytes :=
  let bits := (rows.zip (upTo rows.length)).foldl (fun a r => a + r.1 * 2 ^ (w * r.2)) 0
  toLE (60 * divCeil (w * rows.length) 480) bits

/-- A dark zero block in its window: CLEAR at its start, RESET at its end (R288). -/
def State.zeroBlock (ap b : Nat) (start : Int) (tblk : Nat) (s : State) : State :=
  (s.acontrol ap [acmd 2 (2 ^ b) 0 (s.tick ap start), acmd 1 (2 ^ b) 0 (s.tick ap (start + tblk))]).modPlArray ap fun a =>
    { a with armed := setAt a.armed b none }

/-- Epoch `e` of the schedule that a group runs, with its start and its global reset in ns from B(F), and the schedule's timing; none
where no schedule runs, or a re-phase has cleared the arrays (R246, R247). -/
def State.epochOf (s : State) (g e : Nat) : Option (SchedEpoch × Nat × Nat × Timing) :=
  if s.seqr.status = 4 then none
  else (s.plgroup g).sched.bind fun sc =>
    match sc.epochs[e]?, (instants sc.timing 0 sc.epochs)[e]? with
    | some ep, some (a, gr) => some (ep, a, gr, sc.timing)
    | _, _ => none

/-- Whether an instant of wall time has come, less than `span` ns ago. -/
def State.reached (s : State) (t : Int) (span : Nat) : Bool := decide (t ≤ (s.wall : Int)) && decide ((s.wall : Int) < t + span)

/-- When block `b` takes the reset of slot `i` of an epoch, in ns from B(F) (R221, R247). -/
def resetAt (t : Timing) (a b i : Nat) : Nat := a + b * t.tblk + i * t.lp

/-- Whether an array takes blocks of frame `f`: it is driven, or is to be from B(`f`) on, and no transition or re-phase keeps it black
(R246, R262, R306). -/
def State.takesBlocks (s : State) (ap f : Nat) : Bool :=
  (s.drivenPorts.contains ap || (f = s.seqr.count + 1 && s.wantsDrive ap && s.obs (wArray ap) = 2)) &&
    !s.drains (portGroup s.live ap) f &&
    (s.seqr.status != 4 || s.seqr.rephase.any fun r => decide (r.target ≤ f))

/-- A block's load window opens (R287, R288, R291). `next` names a window of the next frame, before its boundary. Every plane has
words on a quarantined channel (R130). -/
def State.loadWindow (ap slot b : Nat) (next inRing : Bool) (s : State) : State :=
  let g := portGroup s.live ap
  let q := s.plgroup g
  match (if next then q.next else q.sched) with
  | some sc =>
    match slotAt sc.epochs slot 0 with
    | none => s
    | some (e, i, prim, k) =>
      let p := sc.timing
      let f := sc.frame
      let a := (((instants p 0 sc.epochs)[e]?).map Prod.fst).getD 0
      let fin : Int := s.tF f + (resetAt p a b i : Int)
      let start := fin - p.tblk
      if !s.takesBlocks ap f || !s.reached start (p.tblk + 1) then s else
      let prims := (s.arrayPrims ap).length
      let plane := planeIndex prims prim k
      let hb := arrayH s.live ap / 16
      let planes := if next && !(s.plaz.groups.getD g {}).quiet then (s.slice ap).1 else (s.plarray ap).planes
      let rows := ((planes.getD plane []).drop (b * hb)).take hb
      let late := (if next then (s.plarray ap).missingNext else (s.plarray ap).missing).contains (plane, b) ||
        s.hbm.chans.any fun c => c.st = 3
      if k < sc.d || rows.all (· = 0) then s.zeroBlock ap b start p.tblk
      else if late || !inRing then
        let seen := q.darkSlots.contains (slot, ap)
        let s1 := ((s.zeroBlock ap b start p.tblk).modAport ap fun x => { x with underruns := (x.underruns + 1) % 2 ^ 32 }).modPlGroup g
          fun x => { x with darkSlots := if seen then x.darkSlots else x.darkSlots ++ [(slot, ap)] }
        if seen then s1 else s1.raise 0xA0 ap (plane % 256 * 256 + slot % 256)
      else
        let w := arrayW s.live ap
        let pay := blockPayload w rows
        let words := pay.length / 60
        (s.alaunch ap (s.indexFrom ap start) true fun first n =>
          headerWord n b words ((plane * 256 + slot) % 65536) [acmd 1 (2 ^ b) 0 (max (s.indexAt ap fin) (first + words + 2) % 2 ^ 32)] ++
            pay ++ trailerWord n b pay).modPlArray ap fun x => { x with armed := setAt x.armed b (some plane) }
  | none => s

/-- Arrays of a group that are driven. -/
def State.drivenOf (s : State) (g : Nat) : List Nat :=
  (((groupOf s.live g).map Prod.snd).getD []).filter fun a => s.drivenPorts.contains a

/-- An epoch's clear of block `b` at its instant: CLEAR t_blk before it, RESET at it (R247, R288). -/
def State.epochClear (g e b : Nat) (s : State) : State :=
  match s.epochOf g e with
  | some (ep, a, _, p) =>
    let t : Int := s.tF s.seqr.count + (resetAt p a b ep.slots.length : Int)
    if s.reached t p.tblk then
      (s.drivenOf g).foldl (fun s ap =>
        (s.acontrol ap [acmd 2 (2 ^ b) 0 (s.tick ap (t - p.tblk)), acmd 1 (2 ^ b) 0 (s.tick ap t)]).modPlArray ap fun x =>
          { x with shown := setAt x.shown b none }) s
    else s
  | none => s

/-- An epoch's global reset at its instant (R222, R247, R288): block 0 shows what it has loaded for the next epoch where that starts
with this reset, every other block is off, and a held light returns (R296). -/
def State.globalReset (g e : Nat) (s : State) : State :=
  match s.epochOf g e with
  | some (ep, a, gr, p) =>
    let t0 := s.tF s.seqr.count
    let last : Int := t0 + (resetAt p a 15 (ep.slots.length - 1) : Int)
    if s.reached (t0 + gr) p.tblk then
      (s.drivenOf g).foldl (fun s ap =>
        ((s.acontrol ap [acmd 2 (2 ^ 15) 0 (s.tick ap last), acmd 1 0xFFFF 0 (s.tick ap (t0 + gr))]).modPlArray ap fun x =>
          { x with shown := (x.armed.zip (upTo 16)).map fun q => if q.2 = 0 then q.1 else none
                   armed := List.replicate 16 none }).modAport ap fun x => { x with hold := false }) s
    else s
  | none => s

/-- A slot reset of a block at its instant: it shows its loaded plane; block 0 strobes the slot (R247). -/
def State.slotReset (g slot b : Nat) (s : State) : State :=
  match (s.plgroup g).sched.bind fun sc => (slotAt sc.epochs slot 0).map fun q => (sc, q) with
  | none => s
  | some (sc, e, i, _) =>
    let a := (((instants sc.timing 0 sc.epochs)[e]?).map Prod.fst).getD 0
    if s.seqr.status = 4 || !s.reached (s.tF sc.frame + (resetAt sc.timing a b i : Int)) sc.timing.tblk then s
    else
      let s1 := (s.drivenOf g).foldl (fun s ap => s.modPlArray ap fun x =>
        { x with shown := setAt x.shown b (x.armed.getD b none), armed := setAt x.armed b none }) s
      if b = 0 then s1.modPlGroup g fun q => { q with slotNow := slot } else s1

/-! ## Return messages (R292–R296) -/

/-- Whether a return message passes its CRC (R292, R629). -/
def retOk (b : Bytes) : Bool := b.length = 15 && leAt b 13 2 = crc16 (b.take 13)

/-- A return message taken in: its bytes are given on where the CRC passes and the type fits, and counted where it fails. -/
def State.areturn (ap typ : Nat) (b : Bytes) (k : State → State) (s : State) : State :=
  if !retOk b then s.modAport ap fun p => { p with retErrors := (p.retErrors + 1) % 2 ^ 32 }
  else if leAt b 0 1 != typ then s
  else k (s.modAport ap fun p => { p with lastReturn := some s.now })

/-- The state an array reports of itself (R306). A watchdog park is answered as R299 gives. -/
def State.areport (ap st : Nat) (s : State) : State :=
  let o := s.obs (wArray ap)
  if o = 1 || o = 0 then s
  else if (st = 3 || st = 4) && s.wantsDrive ap then s.setArray ap st
  else if st = 5 && (o = 3 || o = 4) then s.apark ap 1
  else s

/-- Two sequences: whether `a` is at or before `b`. -/
def seqLe (a b : Nat) : Bool := decide ((b + 65536 - a % 65536) % 65536 < 32768)

/-- An ACK (R293, R294, R296). -/
def State.aack (ap : Nat) (b : Bytes) (s : State) : State :=
  let newest := leAt b 2 2
  let rej := leAt b 4 4
  let p := s.aport ap
  let covered := p.waiting.filter fun w => seqLe w.1 newest
  let isRej (w : Nat × Nat × Bool) : Bool :=
    let d := (newest + 65536 - w.1) % 65536
    decide (d < 32) && bit rej d
  let nr := (covered.filter isRej).length
  let nl := (covered.filter fun w => w.2.2 && !isRej w).length
  let s1 := s.modAport ap fun p => { p with
    waiting := p.waiting.filter fun w => !seqLe w.1 newest
    rejects := (p.rejects + nr) % 2 ^ 32
    loaded := (p.loaded + nl) % 2 ^ 64 }
  let s2 := s1.areport ap (leAt b 1 1)
  if nr != 0 then s2.ablank ap 1 else if leAt b 1 1 = 4 then s2.ablank ap 1 else s2

/-- Physical lanes that carry a logical lane and have lost lock. -/
def APort.lostLanes (p : APort) (locks : Nat) : List Nat := (upTo 8).filter fun k => !bit locks (natAt p.laneMap k)

/-- The spare lane goes to DUP for a logical lane (R303, R304). -/
def State.aswapStart (ap logical cause : Nat) (s : State) : State :=
  let p := s.aport ap
  if p.swap.isSome || s.obs (wArray ap) = 1 || p.spare = 3 then s
  else
    let ph := natAt p.laneMap 8
    (s.modAport ap fun p => { p with swap := some ⟨logical, ph, cause, s.now, none, false⟩, spare := 2, swapAsked := none }).setLane ap
      ph 2 logical

/-- 0xA013 from the spare lane's lock: none to use while it has lost lock (R303, R304, R308) (log entry 162, DEDUCED, unsafe). -/
def APort.spareNow (p : APort) (locks : Nat) : Nat :=
  let ph := natAt p.laneMap 8
  if p.swap.isSome then p.spare
  else if !bit locks ph then 3
  else if p.worn.contains ph || p.spare = 1 then 1
  else 0

/-- A STATUS (R293, R296, R299, R304). -/
def State.astatus (ap : Nat) (b : Bytes) (s : State) : State :=
  let flags := leAt b 2 2
  let locks := leAt b 6 2 % 512
  let st := leAt b 1 1
  let s1 := s.modAport ap fun p => { p with
    flags := flags, temp := toS 16 (leAt b 4 2), locks := locks, spare := if s.obs (wArray ap) < 2 then p.spare else p.spareNow locks }
  let driven := s1.drivenPorts.contains ap
  let lost := (s1.aport ap).lostLanes locks
  let s2 := s1.areport ap st
  let s3 :=
    if bit flags 2 then s2.ablank ap 2
    else if bit flags 5 then s2.ablank ap 3
    else if st = 4 || bit flags 1 then s2.ablank ap (if lost.isEmpty then 1 else 4)
    else s2
  if !driven then s3
  else match lost with
    | [] => s3
    | l :: more =>
      let p := s3.aport ap
      if !more.isEmpty || p.spare = 3 || !bit locks (natAt p.laneMap 8) then s3.aretrain ap 5
      else s3.aswapStart ap l 2

/-- A FAULT (R293, R299). -/
def State.afault (ap : Nat) (b : Bytes) (s : State) : State :=
  (s.raise 0xA8 ap (leAt b 1 1 * 256 + leAt b 2 1)).apark ap 4

/-- REG_DATA (R293, R308). -/
def State.aregData (ap : Nat) (b : Bytes) (s : State) : State :=
  (s.modAport ap fun p => { p with regData := leAt b 3 4, regStatus := leAt b 7 1, regAddr := leAt b 1 2 }).dropLease (3 + ap)

/-- Corrected symbols per 10⁹ of a physical lane over the last second (R303). -/
def APort.ser (p : APort) (now phys : Nat) : Nat :=
  let gs := p.grades.filter fun g => g.1 = phys && decide (now < g.2.1 + 1000000000)
  let c := gs.foldl (fun a g => a + g.2.2.1) 0
  let w := gs.foldl (fun a g => a + g.2.2.2) 0
  if w = 0 then 0 else c * 10 ^ 9 / (w * 544)

/-- A LANE report graded; whether the lane is newly worn, and by what (R303). -/
def State.alane (ap : Nat) (b : Bytes) (s : State) : State × Option (Nat × Nat) :=
  let ph := leAt b 1 1
  let s1 := s.modAport ap fun p => { p with
    grades := (p.grades.filter fun g => decide (s.now < g.2.1 + 1000000000)) ++ [(ph, s.now, leAt b 2 4, leAt b 6 4)] }
  let p := s1.aport ap
  let unc := leAt b 10 1 != 0
  if p.worn.contains ph || !(unc || decide (s.num 0xA012 < p.ser s.now ph)) then (s1, none)
  else ((s1.modAport ap fun p => { p with worn := p.worn ++ [ph] }).raise 0xAB ap (ph * 256 + b2n unc), some (ph, b2n unc))

/-! ## Swaps (R303, R304) -/

/-- The payload-free windows of a port's group, as wall times: from the reset of block 15's last slot in an epoch to the first load of
the next epoch (R303). -/
def State.freeWindows (s : State) (ap : Nat) : List (Int × Int) :=
  let q := s.plgroup (portGroup s.live ap)
  match q.sched with
  | none => []
  | some h =>
    let starts (h : Sched) : List Int := (instants h.timing 0 h.epochs).map fun x =>
      s.tF h.frame + (resetAt h.timing x.1 0 0 : Int) - h.timing.tblk
    let after := match q.next with
      | some n => starts n
      | none => starts { h with frame := h.frame + 1 }
    let ends := (h.epochs.zip (instants h.timing 0 h.epochs)).map fun e =>
      s.tF h.frame + (resetAt h.timing e.2.1 15 (e.1.slots.length - 1) : Int)
    ends.zip ((starts h).drop 1 ++ after.take 1)

/-- Whether LANE_SWAP may name codeword `n`: the first that starts at least 2 µs from now, for a lane that has lost lock and where no
schedule runs; else the first such one in a payload-free window (R303, R304). -/
def State.swapMay (s : State) (ap n : Nat) (cause : Nat) : Bool :=
  let firstFrom (t : Int) : Nat := (s.indexFrom ap t + 84) / 85
  let soon := firstFrom ((s.wall : Int) + 2000)
  let ws := s.freeWindows ap
  if cause = 2 || ws.isEmpty then n % 2 ^ 24 = soon % 2 ^ 24
  else ws.any fun w =>
    let c := max soon (firstFrom w.1)
    decide (85 * c < s.indexFrom ap w.2) && n % 2 ^ 24 = c % 2 ^ 24

/-- LANE_SWAP sent for codeword `n`, with DUP_ALIGNED reported (R303 step 4). -/
def State.aswapSend (ap n : Nat) (s : State) : State :=
  match (s.aport ap).swap with
  | some w =>
    if w.n.isNone && bit (s.aport ap).flags 7 && s.swapMay ap n w.cause then
      (s.modAport ap fun p => { p with swap := some { w with n := some n } }).acontrol ap
        [acmd 6 0 (w.logical * 16 + w.phys) (n % 2 ^ 24)]
    else s
  | none => s

/-- Codeword N: the logical lane moves to the spare, and its old lane goes on as DUP (R303 steps 5 and 6). -/
def State.aswapMove (ap : Nat) (s : State) : State :=
  match (s.aport ap).swap with
  | some w =>
    if w.n.isSome && !w.moved then
      let old := natAt (s.aport ap).laneMap w.logical
      ((s.modAport ap fun p => { p with
        laneMap := setAt (setAt p.laneMap w.logical w.phys) 8 old, swap := some { w with moved := true } }).setLane ap w.phys 0
          w.logical).setLane ap old 2 w.logical
    else s
  | none => s

/-- The old lane becomes the spare, marked worn (R303 step 6). -/
def State.aswapEnd (ap : Nat) (s : State) : State :=
  match (s.aport ap).swap with
  | some w =>
    if w.moved then
      let old := natAt (s.aport ap).laneMap 8
      ((s.modAport ap fun p => { p with swap := none, spare := 1 }).setLane ap old 1 0xF).raise 0xA1 ap
        (w.logical * 256 + old * 16 + w.cause)
    else s
  | none => s

/-! ## Timeouts (R294) -/

/-- Words not covered within 2 µs counted, with event 0xA5 at most once per ms (R294). -/
def State.aackTimeout (ap : Nat) (s : State) : State :=
  let late := (s.aport ap).waiting.filter fun w => decide (w.2.1 + 2000 ≤ s.now)
  if late.isEmpty then s
  else
    let rcd := msGap (s.aport ap).ackEvent s.now
    let n := ((s.aport ap).ackTimeouts + late.length) % 2 ^ 32
    (s.modAport ap fun p => { p with
      waiting := p.waiting.filter fun w => !decide (w.2.1 + 2000 ≤ s.now), ackTimeouts := n
      ackEvent := if rcd then some s.now else p.ackEvent }).raiseLimited rcd 0xA5 ap (n % 65536)

/-- The return silent for 100 µs: parked, and trained again (R294, R299). Without light the links stand still, and no silence counts
(log entry 98, DEDUCED, unsafe). -/
def State.asilent (ap : Nat) (s : State) : State :=
  match (s.aport ap).lastReturn with
  | some l =>
    let o := s.obs (wArray ap)
    if l + 100000 ≤ s.now && o != 0 && o != 1 && s.mews.dev.lit then
      (((s.modAport ap fun p => { p with lastReturn := none }).raise 0xAC ap 0).aretrain ap 2)
    else s
  | none => s

/-- Ring size per driven port (R290). -/
def State.ringSize (s : State) : Nat :=
  let n := s.drivenPorts.length
  if n = 0 then 0 else 36 * 2 ^ 20 / n / 4096 * 4096

/-! ## Commands -/

def execAck (t ap : Nat) (msg : Bytes) (s : State) : Host.Outcome State Fault Refusal :=
  .next ((s.advance t).areturn ap 0x10 msg (State.aack ap msg))

def execStatus (t ap : Nat) (msg : Bytes) (s : State) : Host.Outcome State Fault Refusal :=
  .next ((s.advance t).areturn ap 0x11 msg (State.astatus ap msg))

def execRegData (t ap : Nat) (msg : Bytes) (s : State) : Host.Outcome State Fault Refusal :=
  .next ((s.advance t).areturn ap 0x12 msg (State.aregData ap msg))

/-- An ECHO counts as a sign of life; its times come to use in the training (R301). -/
def execEcho (t ap : Nat) (msg : Bytes) (s : State) : Host.Outcome State Fault Refusal :=
  .next ((s.advance t).areturn ap 0x13 msg id)

def execFault (t ap : Nat) (msg : Bytes) (s : State) : Host.Outcome State Fault Refusal :=
  .next ((s.advance t).areturn ap 0x14 msg (State.afault ap msg))

def execLaneSwapSend (t ap codeword : Nat) (s : State) : Host.Outcome State Fault Refusal :=
  .next ((s.advance t).aswapSend ap codeword)

def execLaneSwapCodeword (t ap : Nat) (s : State) : Host.Outcome State Fault Refusal := .next ((s.advance t).aswapMove ap)

def execArcdAckTimeout (t ap : Nat) (s : State) : Host.Outcome State Fault Refusal := .next ((s.advance t).aackTimeout ap)

def execArcdReturnSilent (t ap : Nat) (s : State) : Host.Outcome State Fault Refusal := .next ((s.advance t).asilent ap)

def execKeepaliveSend (t ap : Nat) (s : State) : Host.Outcome State Fault Refusal :=
  let s1 := s.advance t
  let o := s1.obs (wArray ap)
  .next (if o = 0 || o = 1 then s1 else s1.akeep ap)

/-- Whether a port that is commanded READY is to be trained: it never was, a cause of R299 calls for it (R300), or it is in FAULT,
which its self-repair retrains at most once per second (R535). -/
def State.callsTraining (s : State) (ap : Nat) : Bool :=
  let o := s.obs (wArray ap)
  let c := (s.aport ap).parkCause
  (s.mews.dev.lit || s.mews.dev = .boot) && (s.unitRec (wArray ap)).cmd != 0 && s.mayRetrain ap &&
    (o = 0 || o = 6 || (o = 5 && (c = 2 || c = 5)))

def execArrayTraining (t ap : Nat) (s : State) : Host.Outcome State Fault Refusal :=
  let s1 := s.advance t
  .next (if s1.callsTraining ap then s1.atrain ap else s1)

def execBlockLoadWindow (t ap slot block : Nat) (next inRing : Bool) (s : State) : Host.Outcome State Fault Refusal :=
  .next ((s.advance t).loadWindow ap slot block next inRing)

def execEpochClear (t group epoch block : Nat) (s : State) : Host.Outcome State Fault Refusal :=
  .next ((s.advance t).epochClear group epoch block)

def execGlobalReset (t group epoch : Nat) (s : State) : Host.Outcome State Fault Refusal :=
  .next ((s.advance t).globalReset group epoch)

def execSlotReset (t group slot block : Nat) (s : State) : Host.Outcome State Fault Refusal :=
  .next ((s.advance t).slotReset group slot block)

/-- SCHEDULE_DELIVERY (R231, R233, R234): the search of a group ends with the schedules it found. -/
def execScheduleDelivery (t group : Nat) (found : List (List SchedEpoch)) (us : Nat) (s : State) :
    Host.Outcome State Fault Refusal :=
  let s1 := s.advance t
  .next (if s1.now < s1.firm.restartUntil then s1 else (s1.deliver group (s1.seqr.count + 1) found us).compilerLease)

/-- The end of a compile's budget, or B(F) − 100 µs, with no schedule for frame F (R234, R236, R248). -/
def State.compileExpires (g : Nat) (s : State) : State :=
  let f := s.seqr.count + 1
  let q := s.plgroup g
  if !q.settings.isEmpty && decide (s.compileBy g f ≤ (s.wall : Int)) && (q.next.map Sched.frame) != some f then s.fallback g f 1 else s

def execCompileDeadline (t group : Nat) (s : State) : Host.Outcome State Fault Refusal :=
  .next ((s.advance t).compileExpires group).compilerLease

/-- Planes not written by B(F) − 10 µs, each as array, plane index, block (R237). The event names the first of the frame's, once. -/
def State.planesLate (late : List (Nat × Nat × Nat)) (s : State) : State :=
  let f := s.seqr.count + 1
  let due := late.filter fun l => s.makesPlanes f l.1
  if decide ((s.wall : Int) < s.tF f - 10000) || !s.composes f then s
  else
    let s1 := due.foldl (fun s l => s.modPlArray l.1 fun a => { a with missingNext := a.missingNext ++ [l.2] }) s
    match due.head? with
    | some l =>
      if s.plgn.lateFor = some f then s1
      else (s1.modPlgn fun p => { p with lateFor := some f }).raise 0x93 l.1 (l.2.1 % 256 * 256 + l.2.2 % 256)
    | none => s1

def execPlgnPlaneLate (t : Nat) (late : List (Nat × Nat × Nat)) (s : State) : Host.Outcome State Fault Refusal :=
  .next ((s.advance t).planesLate late)

end Sys2Proof.Machine
end

