-- ==== Sys2Proof/Machine/Lamp.lean ====
section
/-! DEFINITION. The lamp link and its sensing: frames, enumeration, the lead of an APPLY, fast and slow channels, and the kill
latch (R349–R385). -/

namespace Sys2Proof.Machine

def State.chain (s : State) (n : Nat) : Chain := s.lamp.chains.getD n {}
def State.driver (s : State) (n : Nat) : LDriver := s.lamp.drivers.getD n {}

/-- Changes one chain. -/
def State.modChain (n : Nat) (f : Chain → Chain) (s : State) : State :=
  s.modLamp fun l => { l with chains := modAt l.chains n f }

/-- A band's strings driving zero from local time `t`, where they were not already (R324, R357). -/
def LBand.gate (t : Nat) (x : LBand) : LBand := { x with gateOn := true, gateFrom := if x.gateOn then x.gateFrom else t }

/-- Changes one driver. -/
def State.modDriver (n : Nat) (f : LDriver → LDriver) (s : State) : State :=
  s.modLamp fun l => { l with drivers := modAt l.drivers n f }

/-- Drivers configured on a chain, by number 8 × chain + position. -/
def State.chainDrivers (s : State) (n : Nat) : List Nat := (upTo (s.num 0xD002 n)).map (8 * n + ·)

/-- Chain, position and channel of a string, none where it has no channel (R388). -/
def State.stringAt (s : State) (k : Nat) : Option (Nat × Nat × Nat) :=
  let v := s.num 0xD010 k
  if v = 0xFF then none else some (fld v 7 7, fld v 6 4, fld v 1 0)

/-- The driver of a string. -/
def State.stringDriver (s : State) (k : Nat) : Option Nat := (s.stringAt k).map fun p => 8 * p.1 + p.2.1

/-! ## Frames (R352, R353) -/

/-- A frame without /S/ and /T/: type, address, sequence, body, ack byte 0x00 and CRC-16. -/
def lampFrame (ty addr seq : Nat) (body : Bytes) : Bytes :=
  let b := toLE 1 ty ++ toLE 1 addr ++ toLE 1 seq ++ body ++ [0]
  b ++ toLE 2 (crc16 b)

/-- A frame sent on a chain under its next sequence number. READ, WRITE, ENUMERATE and RESUME hold the chain's lease (R529). -/
def State.lampSend (n ty addr : Nat) (body : Bytes) (s0 : State) : State :=
  let s := if 3 ≤ ty then (s0.takeLeaseOf (7 + n)).modChain n fun c => { c with mgmt := some (ty, addr, body), retried := false }
    else s0
  (s.emit (.lamp n (lampFrame ty addr (s.chain n).seq body))).modChain n fun c => { c with seq := (c.seq + 1) % 256 }

/-- Whether the CRC of a returned frame is good. -/
def lampCrcOk (b : Bytes) : Bool := decide (6 ≤ b.length) && crc16 (b.take (b.length - 2)) = leAt b (b.length - 2) 2

/-- The ack byte of a returned frame. -/
def lampAcks (b : Bytes) : Nat := leAt b (b.length - 3) 1

/-! ## The lead of an APPLY (R359, R360) -/

/-- Arrival times a_k in 0.01 ns of the drivers of a chain, from the hop delays and repeat latencies. -/
def arrivals (hop rep : Nat → Nat) : Nat → List Nat
  | 0 => []
  | n + 1 =>
    let l := arrivals hop rep n
    l ++ [match l.getLast? with
      | none => hop 0
      | some a => a + rep (n - 1) + hop n]

/-- Arrival times of a chain. -/
def State.chainArrivals (s : State) (n : Nat) : List Nat :=
  arrivals (fun k => s.num 0xD004 (8 * n + k)) (fun k => (s.driver (8 * n + k)).trep) (s.num 0xD002 n)

/-- The largest a_k + t_out of a chain in 0.01 ns. -/
def State.chainTop (s : State) (n : Nat) : Nat :=
  ((s.chainArrivals n).zip (upTo 6)).foldl (fun m p => max m (p.1 + (s.driver (8 * n + p.2)).tout)) 0

/-- Δ of a chain alone in ns. -/
def State.chainLead (s : State) (n : Nat) : Nat := divCeil (s.chainTop n) 1000 * 10

/-- Δ in ns over both chains. -/
def State.applyLead (s : State) : Nat := max (s.chainLead 0) (s.chainLead 1)

/-- The loop time expected of a chain in 0.01 ns (R360). -/
def State.expectedLoop (s : State) (n : Nat) : Nat :=
  let c := s.num 0xD002 n
  match (s.chainArrivals n).getLast? with
  | none => 0
  | some a => a + (s.driver (8 * n + c - 1)).trep + s.num 0xD004 (8 * n + c)

/-- d_k of a driver in 0.01 ns under a lead (R359). -/
def State.applyDelay (s : State) (n k lead : Nat) : Nat :=
  100 * lead - natAt (s.chainArrivals n) k - (s.driver (8 * n + k)).tout

/-! ## Kill (R371–R376) -/

/-- Whether LAMP_KILLn is high (R372). -/
def State.killHigh (s : State) (n : Nat) : Bool := s.mews.dev.lit && s.lamp.latch = 0 && (s.chain n).st = 2

/-- 0xD021 (R388). -/
def State.killCause (s : State) : Nat :=
  s.lamp.latch % 32 + 32 * b2n ((s.chain 0).st != 2) + 64 * b2n ((s.chain 1).st != 2) + 128 * b2n (!s.mews.dev.lit)

/-- Both kill pins driven to their levels; undriven in reset, MEWS and BOOT. -/
def State.driveKill (s : State) : State :=
  if s.mews.dev = .mews || s.mews.dev = .boot then s.emits [.pin (.kill 0) none, .pin (.kill 1) none]
  else s.emits [.pin (.kill 0) (some (s.killHigh 0)), .pin (.kill 1) (some (s.killHigh 1))]

/-- The kill latch sets for causes: the pins fall and /X/ goes out on both chains (R373, R374). -/
def State.setLatch (causes : Nat) (s : State) : State :=
  ((s.modLamp fun l => { l with latch := l.latch ||| causes }).driveKill).emits [.lampKill 0, .lampKill 1]

/-- Whether the latch may be cleared by a request (R374, R375). -/
def State.latchClearable (s : State) : Bool :=
  s.lamp.intlkA && s.lamp.intlkB && !s.lamp.discrepancy &&
  (match s.lamp.bothHigh with
    | some t => decide (t + 100000000 ≤ s.now)
    | none => false)

/-- An interlock input takes a level (R371, R375). -/
def State.intlkLevel (b high : Bool) (s : State) : State :=
  s.modLamp fun l =>
    let l := if b then { l with intlkB := high } else { l with intlkA := high }
    let both := l.intlkA && l.intlkB
    let lows := l.lowTogether || (!l.intlkA && !l.intlkB)
    { l with
      bothHigh := if both then (if l.bothHigh.isSome then l.bothHigh else some s.now) else none
      differ := if l.intlkA != l.intlkB then (if l.differ.isSome then l.differ else some s.now) else none
      differTold := l.differTold && l.intlkA != l.intlkB
      discrepancy := l.discrepancy && !(both && lows)
      lowTogether := lows && !both }

/-! ## Fast channels (R377–R380) -/

/-- sat15 (R318). -/
def sat15 (i : Int) : Int := clampI (-32768) 32767 i

/-- sat40 (R318). -/
def sat40 (i : Int) : Int := clampI (-(2 ^ 39 - 1)) (2 ^ 39 - 1) i

/-- The mean of `n` samples whose codes sum to `sum`, with gain and offset (R378). -/
def adcMean (g : Nat) (o sum : Int) (n : Nat) : Int :=
  sat15 (((g : Int) * (sum - n * o) + n * 8192) / ((n * 16384 : Nat) : Int))

/-- A window of `n` samples of fast channel `c`, its sum and clip flag: the mean delivered, none on a clip, which is counted
(R378). -/
def State.fastMean (c n : Nat) (w : Int × Bool) (s : State) : State × Option Int :=
  let a := s.lamp.fast.getD c {}
  if w.2 then
    let due := match a.clipEvent with
      | some t => decide (t + 1000000000 ≤ s.now)
      | none => true
    let s1 := s.modLamp fun l => { l with fast := modAt l.fast c fun a =>
      { a with clips := (a.clips + 1) % 2 ^ 32, clipEvent := if due then some s.now else a.clipEvent } }
    (s1.raiseLimited due 0xE9 c ((a.clips + 1) % 65536), none)
  else (s, some (adcMean (s.num 0xD030 c) a.offset w.1 n))

/-- A loop window of fast channel `c`, whose mean 0xD032 then shows (R388) (log entry 168, DEDUCED, unsafe). -/
def State.fastWindow (c : Nat) (w : Int × Bool) (s : State) : State × Option Int :=
  match s.fastMean c (s.num 0xC006 / 40) w with
  | (s1, some m) => (s1.modLamp fun l => { l with fast := modAt l.fast c fun a => { a with mean := m } }, some m)
  | r => r

/-- The offset of a channel learnt from a window with no light on it (R380). -/
def State.learnOffset (c : Nat) (sum : Int) (s : State) : State :=
  let n : Int := ((s.num 0xC006 / 40 : Nat) : Int)
  s.modLamp fun l => { l with fast := modAt l.fast c fun a =>
    { a with offset := satS16 (a.offset + ((sum - n * a.offset) + 8 * n) / (16 * n)) } }

/-! ## Slow channels (R381–R385, R595) -/

/-- Temperature in 0.0625 °C of an NTC whose code is `num / den` of full scale (R382). -/
def ntcTemp (p num den : Nat) : Int :=
  let rref := fld p 63 40
  let rnom := fld p 39 16
  let beta := fld p 15 0
  if num = 0 || den ≤ num || rref = 0 || rnom = 0 || beta = 0 then 0
  else
    let lnr := fxLn (fxRat ((rref * num : Nat) : Int) (rnom * (den - num)))
    let inv := fxRat 100 29815 + lnr / beta
    -- sixteenths of a degree, halves up
    if inv ≤ 0 then 0 else (32 * fxDiv fxOne inv - 32 * fxRat 27315 100 + fxOne) / (2 * fxOne)

/-- The condition of an NTC code: 0 good, else a lost state of 0xD044 (R383). -/
def ntcCond (p code : Nat) : Nat :=
  if 64226 ≤ code then 2 else if code ≤ 1310 then 3
  else
    let t := ntcTemp p code 65536
    if t < -640 || 2400 < t then 4 else 0

/-- Millivolts of a rail from a code and VIO18 in mV, times the divider (R385, R595) (log entry 84, DEDUCED, unsafe). -/
def railMv (p code vio : Nat) : Nat := divHalfUp (code * vio * fld p 63 48) (65536 * 1000)

/-- The verdict on a rail: 0 in window, 1 low, 2 high (R385). -/
def railCond (p mv : Nat) : Nat :=
  let nom := fld p 47 32
  let tol := fld p 15 0
  if mv * 1000 + nom * tol < nom * 1000 then 1 else if nom * 1000 + nom * tol < mv * 1000 then 2 else 0

/-- The value of a channel from its last codes (R381) (log entry 83, DEDUCED, unsafe). -/
def slowValue (kind p vio : Nat) (codes : List Nat) : Int :=
  let sum := codes.foldl (· + ·) 0
  let n := codes.length
  match kind with
  | 1 => ntcTemp p sum (65536 * n)
  | 2 => railMv p (divHalfUp sum n) vio
  | 3 => divHalfUp (divHalfUp sum n * vio) 1800
  | _ => 0

/-- The next slow channel converts to a code, with VIO18 in mV as measured (R381–R385). -/
def State.slowConvert (code vio : Nat) (s : State) : State :=
  let c := s.lamp.nextSlow
  let kind := s.num 0xD040 c
  let p := s.num 0xD041 c
  s.modLamp fun l => { l with
    nextSlow := (c + 1) % 24
    slow := modAt l.slow c fun a =>
      if kind = 0 then {}
      else
        let codes := (code :: a.codes).take 4
        let cond := if kind = 1 then ntcCond p code else 0
        let rc := if kind = 2 then railCond p (railMv p code vio) else 0
        { a with
          codes := codes, value := slowValue kind p vio codes
          st := if kind = 1 then (if a.st = 0 then 1 else a.st) else 1
          bad := if cond = 0 then 0 else if cond = a.badKind then a.bad + 1 else 1
          badKind := cond
          good := if cond = 0 then a.good + 1 else 0
          railRun := if rc = a.railKind then a.railRun + 1 else 1
          railKind := rc } }

/-- An NTC channel is lost after 3 bad conversions, or restored after 8 good ones (R383). -/
def State.sensorJudge (c : Nat) (s : State) : State :=
  let a := s.lamp.slow.getD c {}
  if s.num 0xD040 c != 1 then s
  else if a.st = 1 && decide (3 ≤ a.bad) then
    (s.modLamp fun l => { l with slow := modAt l.slow c fun a => { a with st := a.badKind } }).raise 0xEA c a.badKind
  else if decide (2 ≤ a.st) && decide (8 ≤ a.good) then
    (s.modLamp fun l => { l with slow := modAt l.slow c fun a => { a with st := 1 } }).raise 0xEA c 0
  else s

/-- A rail channel leaves or returns to its window after 3 conversions (R385). -/
def State.railJudge (c : Nat) (s : State) : State :=
  let a := s.lamp.slow.getD c {}
  if s.num 0xD040 c = 2 && a.railKind != a.rail && decide (3 ≤ a.railRun) then
    (s.modLamp fun l => { l with slow := modAt l.slow c fun a => { a with rail := a.railKind } }).raise 0xEB c a.railKind
  else s

/-- NTC channels assigned to a band (R384). -/
def State.bandSensors (s : State) (b : Nat) : List Nat := (upTo 24).filter fun c => s.num 0xD040 c = 1 && bit (s.num 0xD042 c) b

/-- A band's NTC channels that are not lost. -/
def State.goodSensors (s : State) (b : Nat) : List Nat := (s.bandSensors b).filter fun c => (s.lamp.slow.getD c {}).st = 1

/-- T_b, none where every channel of the band is lost (R384) (log entry 85, DEDUCED, unsafe). -/
def State.bandTemp (s : State) (b : Nat) : Option Int :=
  match s.goodSensors b with
  | [] => none
  | cs => some ((2 * sumI cs (fun c => (s.lamp.slow.getD c {}).value) + cs.length) / ((2 * cs.length : Nat) : Int))

/-- Whether a band's temperature is lost: it has channels, and every one is lost (R384). -/
def State.bandTempLost (s : State) (b : Nat) : Bool := !(s.bandSensors b).isEmpty && (s.goodSensors b).isEmpty

/-- A string's temperature (R384): its own channel where that is not lost, else the band's. -/
def State.stringTemp (s : State) (k : Nat) (tb : Int) : Int :=
  let c := s.num 0xD045 k
  if c < 24 && (s.lamp.slow.getD c {}).st = 1 && s.num 0xD040 c = 1 then (s.lamp.slow.getD c {}).value else tb

/-! ## Drivers and enumeration (R366–R370) -/

/-- Register writes of an enumeration to driver `k` of chain `n` (R366). -/
def State.driverWrites (s : State) (n k lead : Nat) : List (Nat × Nat) :=
  let strings := (upTo 48).filter fun x => (s.stringAt x).map (fun p => (p.1, p.2.1)) = some (n, k)
  let chan (c : Nat) : Option Nat := strings.find? fun x => (s.stringAt x).map (·.2.2) = some c
  let band (x : Nat) : Nat := s.num 0xC002 x
  let led (x : Nat) : Bool := s.num 0xC004 (band x) = 1
  let mode := sumTo 4 fun c => match chan c with
    | some x => (if band x = 0xFF then 0 else if led x then 2 else 1) * 4 ^ c
    | none => 0
  let bands := sumTo 4 fun c => match chan c with
    | some x => band x % 4 * 4 ^ c
    | none => 0
  [(0x06, s.applyDelay n k lead), (0x07, s.num 0xD00B), (0x08, mode), (0x09, bands)] ++
    (upTo 4).map (fun c => (0x0A + c, match chan c with
      | some x => if led x then s.num 0xC00D (band x) else 0
      | none => 0)) ++
    (upTo 4).map (fun c => (0x0E + c, match chan c with
      | some x => x * 40503 % 65536
      | none => 0))

/-- A chain's state, with the kill pins following. -/
def State.setChain (n v : Nat) (s : State) : State := (s.modChain n fun c => { c with st := v }).driveKill

/-- A chain that is being enumerated: not UP, and its SETs void (R366). -/
def State.startEnum (n : Nat) (s : State) : State :=
  (s.modChain n fun c => { c with sets := [], lastFrame := s.now }).setChain n 1

/-- An observed state of a driver. -/
def State.setDriver (n v : Nat) (s : State) : State := s.setObs (wDriver n) v

/-- A driver's registers as read: whether they meet R386. `r` holds registers 0x00 to 0x05. -/
def driverRegsOk (r : List Nat) : Bool :=
  natAt r 1 = 1 && natAt r 2 = 4 && decide (natAt r 3 ≤ 2800) && decide (natAt r 4 ≤ 4000) && decide (natAt r 5 ≤ 1000)

/-- The registers of driver `n` kept. -/
def State.keepRegs (n : Nat) (r : List Nat) (s : State) : State :=
  s.modDriver n fun d => { d with id := natAt r 0, trep := natAt r 3, tout := natAt r 4, settle := natAt r 5 }

/-- READ frames for registers 0x00 to 0x05 of a driver. -/
def State.readRegs (n k : Nat) (s : State) : State :=
  (upTo 6).foldl (fun s r => s.lampSend n 3 k (toLE 1 r ++ toLE 4 0)) s

/-- WRITE frames of an enumeration to a driver. -/
def State.writeRegs (n k lead : Nat) (s : State) : State :=
  (s.driverWrites n k lead).foldl (fun s w => s.lampSend n 4 k (toLE 1 w.1 ++ toLE 4 w.2)) s

/-- An enumeration of chain `n` (R366): the driver count that comes back, the registers 0x00 to 0x05 of each driver, and the
loop time measured in 0.01 ns (log entry 81, DEDUCED, unsafe) (log entry 82, DEDUCED, unsafe). -/
def State.enumerate (n count : Nat) (regs : List (List Nat)) (loop : Nat) (s : State) : State :=
  let want := s.num 0xD002 n
  let s0 := ((s.lampSend n 5 0x0F [0]).modChain n fun c => { c with lastEnum := s.now }).startEnum n
  if count != want then (s0.setChain n 3).raise 0xE3 n 3
  else
    let ks := upTo want
    let s1 := ks.foldl (fun s k => (s.readRegs n k).keepRegs (8 * n + k) (regs.getD k [])) s0
    if 200 < s1.chainLead n then (s1.setChain n 3).raise 0xE3 n 4
    else
      let lead := s1.applyLead
      let bad := ks.filter fun k => !driverRegsOk (regs.getD k [])
      let s2 := (ks.foldl (fun s k => s.writeRegs n k lead) s1).lampSend n 6 0x0F []
      let s3 := ks.foldl (fun s k => (s.setDriver (8 * n + k) (if bad.contains k then 5 else 1)).modDriver (8 * n + k)
        fun d => { d with lastAck := s.now }) s2
      let s4 := ((s3.modLamp fun l => { l with lead := lead }).modChain n fun c =>
        { c with loopTime := loop, lastFrame := s.now }).setChain n 2
      let d : Int := (loop : Int) - s4.expectedLoop n
      let s5 := if 200 < d.natAbs then s4.raise 0xE8 n (ofS 16 (satS16 d)) else s4
      s5.raise 0xE4 n count

/-- A chain goes DOWN with a cause: every driver LOST, /X/ out, the kill pin low (R368). -/
def State.chainDown (n cause : Nat) (s : State) : State :=
  if (s.chain n).st = 0 then s
  else
    let s1 := (s.chainDrivers n).foldl (fun s k => s.setDriver k 4) (s.modChain n fun c => { c with sets := [] })
    ((s1.setChain n 0).emit (.lampKill n)).raise 0xE3 n cause

/-- Whether every configured driver of the node is ACTIVE, every chain with drivers UP and no sensor lost: bit 13 of the
degraded mask is the opposite (R369). -/
def State.lampWell (s : State) : Bool :=
  ((upTo 2).all fun n => s.num 0xD002 n = 0 || ((s.chain n).st = 2 && (s.chainDrivers n).all fun k => s.obs (wDriver k) = 1)) &&
  (upTo 24).all fun c => decide ((s.lamp.slow.getD c {}).st ≤ 1)

end Sys2Proof.Machine
end

