-- ==== Sys2Proof/Machine/Loop.lean ====
section
/-! DEFINITION. The light loop engine: windows, the per-sample law, the band estimate and targets, band states, Pip calibration,
probing, pilot and traces (R310–R346, R516). -/

namespace Sys2Proof.Machine

def State.lband (s : State) (b : Nat) : LBand := s.loop.bands.getD b {}
def State.lstring (s : State) (k : Nat) : LString := s.loop.strings.getD k {}

/-- Changes one band. -/
def State.modBand (b : Nat) (f : LBand → LBand) (s : State) : State :=
  s.modLoop fun l => { l with bands := modAt l.bands b f }

/-- Changes one string. -/
def State.modString (k : Nat) (f : LString → LString) (s : State) : State :=
  s.modLoop fun l => { l with strings := modAt l.strings k f }

/-- Changes several strings. -/
def State.modStrings (ks : List Nat) (f : LString → LString) (s : State) : State := ks.foldl (fun s k => s.modString k f) s

/-! ## Bands, strings and groups (R310, R333) -/

/-- The strings of a band. -/
def State.bandStrings (s : State) (b : Nat) : List Nat := (upTo 48).filter fun k => s.num 0xC002 k = b

/-- The controlling strings of a band: ACTIVE, or a spare in its ramp, and not KILLED (R310, R516). -/
def State.controlling (s : State) (b : Nat) : List Nat :=
  (s.bandStrings b).filter fun k => (s.num 0xC003 k = 0 || (s.lstring k).inRamp) && s.obs (wString k) != 4

/-- Image group and primary that a band feeds. -/
def bandMap (v : View) (b : Nat) : Option (Nat × Nat) :=
  if v 0xC005 b = 0xFFFF then none else some (fld (v 0xC005 b) 15 8, fld (v 0xC005 b) 7 0)

/-- The bands of a group. -/
def groupBands (v : View) (g : Nat) : List Nat := (upTo 4).filter fun b => (bandMap v b).map Prod.fst = some g

/-- Samples per frame, K of R312. -/
def loopK (v : View) : Nat := if v 0xC006 0 = 0 then 0 else periodMin (v 0xB001 0) (v 0xB050 0) / v 0xC006 0

/-- A string's observed state, with event 0xCD. -/
def State.setStringObs (k v : Nat) (s : State) : State :=
  let old := s.obs (wString k)
  if old = v then s else (s.setObs (wString k) v).raise 0xCD k (old * 256 + v)

/-- Whether LAMP reports a string's driver or channel lost, or the string is commanded KILLED (R333). -/
def State.stringDown (s : State) (k : Nat) : Bool :=
  (s.unitRec (wString k)).cmd = 4 ||
  (match s.stringDriver k with
    | some d => s.mews.dev.lit && s.obs (wDriver d) != 1
    | none => false)

/-- A band's strings take its state, but for those whose driver or channel is lost (R333). -/
def State.followStrings (b : Nat) (s : State) : State :=
  (s.bandStrings b).foldl (fun s k => s.setStringObs k (if s.stringDown k then 4 else s.obs (wBand b))) s

/-- Whether a band is without its light: KILLED, or with no controlling string left (R20). -/
def State.bandGone (s : State) (b : Nat) : Bool := s.obs (wBand b) = 4 || (s.controlling b).isEmpty

/-- The bands of R20: one is added as it is lost, and leaves as it reads CLOSED, HOLD_MODEL or DERATE with strings
(log entry 79, DEDUCED, unsafe). -/
def State.judgeDead (s : State) : State :=
  s.modLoop fun l => { l with dead := maskOf 4 fun b =>
    (bandMap s.live b).isSome && (s.bandGone b || (bit l.dead b && s.obs (wBand b) = 0)) }

/-- A band's observed state, with event 0xCC; its strings follow. -/
def State.setBand (b v : Nat) (s : State) : State :=
  let old := s.obs (wBand b)
  if old = v then s
  else ((((s.setObs (wBand b) v).modBand b fun x => { x with plaus := 0 }).raise 0xCC b (old * 256 + v)).followStrings b).judgeDead

/-- The integrators, derivatives and yp of a band zeroed (R333). -/
def State.zeroBand (b : Nat) (s : State) : State :=
  (s.modStrings (s.bandStrings b) fun x => { x with i := 0, d := 0, wind := false }).modBand b fun x =>
    { x with yp := 0, fresh := true }

/-- A band killed: zero set-points (R333). -/
def State.killBand (b : Nat) (s : State) : State :=
  ((s.setBand b 4).modStrings (s.bandStrings b) fun x => { x with u := 0, u1 := 0 }).modBand b (LBand.gate s.now)

/-- A band that leaves KILLED for OPEN (R333). -/
def State.reviveBand (b : Nat) (s : State) : State :=
  if s.obs (wBand b) = 4 && (s.unitRec (wBand b)).cmd != 4 && s.lamp.latch = 0 then
    ((s.zeroBand b).setBand b 0).modBand b fun x => { x with fault := x.fault &&& 0x18, impl := 0 }
  else s

/-- The cap of DERATE: 80% of the mean u of the last CLOSED windows (R343). -/
def derateCap (means : List Nat) : Nat :=
  match means with
  | [] => 0
  | _ => means.foldl (· + ·) 0 * 8 / (10 * means.length)

/-- A band enters DERATE, its maximum capped (R343). -/
def State.derate (b : Nat) (s : State) : State :=
  (s.modBand b fun x => { x with cap := derateCap x.means, hi := min x.hi (derateCap x.means) }).setBand b 3

/-- A band leaves CLOSED for HOLD_MODEL, or for DERATE with its temperature lost (R316, R336, R341, R343). -/
def State.enterHold (b flag : Nat) (s : State) : State :=
  let x := s.lband b
  let s1 := s.modBand b fun x => { x with fault := x.fault ||| flag }
  if x.tempLost then s1.derate b else s1.setBand b 2

/-- A band's temperature lost or restored (R333, R336, R343). -/
def State.bandTempJudge (b : Nat) (s : State) : State :=
  let lost := s.bandTempLost b
  if lost = (s.lband b).tempLost then s
  else
    let s1 := (s.modBand b fun x => { x with
      tempLost := lost, fault := if lost then x.fault ||| 8 else clearBits x.fault 8 }).raise 0xD1 b (b2n lost)
    if lost && s1.obs (wBand b) = 2 then s1.derate b
    else if !lost && s1.obs (wBand b) = 3 then (s1.modBand b fun x => { x with hi := x.envV }).setBand b 2
    else s1

/-- A command to a band takes effect (R333, R38). -/
def State.bandCommand (b v : Nat) (s : State) : State :=
  let o := s.obs (wBand b)
  if v = 4 then s.killBand b
  else if o = 4 then s.reviveBand b
  else if v = 0 && (o = 1 || o = 2 || o = 3) then (s.setBand b 0).modBand b fun x => { x with fault := x.fault &&& 0x18 }
  else s

/-! ## Windows (R312, R313) -/

/-- The schedule that lights a group's frame, with its timing. -/
def State.lightOf (s : State) (g : Nat) : Option (Sched × Timing) :=
  (s.plgroup g).sched.map fun h => (h, h.timing)

/-- Epochs of a schedule with the instants from which a window in it is settled, and G, in ns from B(F). `lead` is how long
before B(F) the first level was applied (R222, R313). -/
def settledSpans (t : Timing) (lead : Nat) (es : List SchedEpoch) : List (SchedEpoch × Int × Nat) :=
  ((es.zip (instants t 0 es)).zip (upTo es.length)).map fun p =>
    let start : Int := if p.2 = 0 then -(lead : Int) + t.tc else ((p.1.2.1 + t.tc : Nat) : Int) - t.x
    (p.1.1, max (p.1.2.1 : Int) start, p.1.2.2)

/-- The level at which band `b` lights the window from `a` to `z` ns of the frame, none where the window is not valid for it by
the schedule (R313). -/
def State.windowLevel (s : State) (b a z : Nat) : Option Nat :=
  match bandMap s.live b with
  | none => none
  | some (g, p) =>
    match s.lightOf g with
    | none => none
    | some (h, t) =>
      ((settledSpans t (natAt s.loop.closeLead g) h.epochs).find? fun e =>
        decide (e.2.1 ≤ (a : Int)) && decide (z ≤ e.2.2) && (e.1.primary = 0xFF || e.1.primary = p)).map fun e => e.1.level

/-- The level in force for band `b` at an instant of the frame: some j, or none where it is dark (R222, R224, R323). The Pip
level holds for every band of the group. An instant after the last gap takes the first epoch of the next frame
(log entry 77, DEDUCED, unsafe). -/
def State.levelAt (s : State) (b at_ : Nat) : Option Nat :=
  match bandMap s.live b with
  | none => none
  | some (g, p) =>
    match s.lightOf g with
    | none => none
    | some (h, t) =>
      let shows (e : SchedEpoch) : Option Nat := if e.primary = 0xFF || e.primary = p then some e.level else none
      let spans := h.epochs.zip (instants t 0 h.epochs)
      match spans.find? fun e => decide (at_ < e.2.2 + (if e.1.pip then max t.settle t.tc + 2500 else 0)) with
      | some (e, _, gr) => if at_ < gr then shows e else some (s.num 0xC00B)
      | none => ((s.plgroup g).next.bind fun n => n.epochs.head?).bind shows

/-! ## Gates (R20, R324, R407) -/

/-- Whether a group goes dark for arrays that are not driven: any array of a TRIO (R19), or, after a transition, all arrays of a
group that are still absent (R262). -/
def State.arraysDark (s : State) (g : Nat) : Bool :=
  match groupOf s.live g with
  | some (.trio, aps) => aps.any fun a => s.obs (wArray a) != 3 && s.obs (wArray a) != 4
  | some (_, aps) => aps.all fun a => bit s.seqr.absent a
  | none => false

/-- Whether what a group's arrays show is not the frame of the schedule, so that its light is gated (R19, R130, R262, R324): arrays held,
not driven or absent, a re-phase, a quarantined HBM channel, a transition. -/
def State.groupStale (s : State) (g : Nat) : Bool :=
  let aps := ((groupOf s.live g).map Prod.snd).getD []
  aps.any (fun a => (s.aport a).hold) || s.seqr.status = 4 || s.arraysDark g || (s.hbm.chans.any fun c => c.st = 3) ||
  (match s.seqr.trans with
    | some t => aps.any fun a => bit t.mask a
    | none => false)

/-- Whether a gate of a wheel of R407 holds a group's light: the phosphor wheel for a group with a band of its light, a filter wheel of
any group. -/
def State.wheelGated (s : State) (g : Nat) : Bool :=
  ((s.loop.wheelGate.getD 0 false) && (groupBands s.live g).any fun b => s.num 0xC004 b = 2) ||
    ((upTo 2).any fun n => (s.loop.wheelGate.getD n false) && s.num 0xE005 n = 1)

/-- Whether a group's light is gated as a whole (R19, R20, R130, R324, R407). -/
def State.groupGated (s : State) (g : Nat) : Bool :=
  s.groupStale g || ((groupBands s.live g).any s.bandGone) || s.wheelGated g || !(s.cgroup g).mirN

/-- Whether a band's light is gated. A band of R20 that is OPEN again is lit alone until it closes. -/
def State.bandGated (s : State) (b : Nat) : Bool :=
  s.obs (wBand b) = 4 || !s.mews.dev.lit ||
  (match bandMap s.live b with
    | none => true
    | some (g, _) => s.groupGated g ||
        (!bit s.loop.dead b && (groupBands s.live g).any fun c => c != b && bit s.loop.dead c))

/-- Whether a band counts as lit. -/
def State.bandLit (s : State) (b : Nat) : Bool := !s.bandGated b && !(s.lband b).gateOn

/-! ## Set-points (R317, R320, R323) -/

/-- The product of a gain word with a value, shifted (R317). -/
def gainMul (w : Nat) (v : Int) : Int := (fld w 15 0 : Int) * v * 2 ^ (fld w 19 16 % 8)

/-- A product returned to Q15: half an LSB added, then shifted (R318). -/
def q15 (v : Int) (n : Nat) : Int := (v + 2 ^ (n - 1)) / 2 ^ n

/-- The value sent for a set-point at level 2^−j (R323) (log entry 78, DEDUCED, unsafe). -/
def sentValue (u j : Nat) : Nat := ((u * 2) ||| (u >>> 14)) >>> j

/-- Walsh sequence `n` of length 64 at tick `i`, in natural order (R338; log entry 21, DEDUCED, unsafe). -/
def walsh (n i : Nat) : Int := if (upTo 6).foldl (fun a k => a != (bit n k && bit i k)) false then -1 else 1

/-- Position of a string among its band's controlling strings. -/
def State.posInBand (s : State) (b k : Nat) : Nat := ((s.controlling b).findIdx? (· = k)).getD 0

/-- The magnitude of the dither of a set-point (R338). -/
def ditherOf (u : Nat) : Nat := (u * 164 + 16384) / 32768

/-- The Q15 set-point that a string is sent: the ramp factor, the pilot dither and the probe included (R338, R516). -/
def State.stringSent (s : State) (b k : Nat) (probe : Bool) : Nat :=
  let x := s.lstring k
  let u := x.u * x.factor / 256
  if probe then u * 30802 / 32768
  else if s.num 0xC009 b = 1 then (clampI 0 32767 ((u : Int) + x.dith)).toNat else u

/-! ## The sticky flags (R319) -/

/-- Flags that a stage has set, with event 0xCA for those that were clear. -/
def State.stick (b flags : Nat) (s : State) : State :=
  let new := clearBits flags (s.lband b).sat
  if new = 0 then s else (s.modBand b fun x => { x with sat := x.sat ||| new }).raise 0xCA b new

/-! ## The per-sample law (R320) -/

/-- The model of a window: Σ η_s(T) × u_s over the set-points that lit it (R340). -/
def State.modelOf (s : State) (b : Nat) : Int :=
  q15 (sumI (s.controlling b) fun k =>
    let x := s.lstring k
    ((x.etaT * (x.u1 * x.factor / 256) : Nat) : Int) + (x.etaT : Int) * x.dith1) 15

/-- `pil` of R338: the light of the dither two ticks ago. -/
def State.pilotLight (s : State) (b : Nat) : Int :=
  if s.num 0xC009 b = 1 then q15 (sumI (s.controlling b) fun k => ((s.lstring k).etaT : Int) * (s.lstring k).dith1) 15 else 0

/-- An entry of the repetitive memory (log entry 74, DEDUCED, unsafe). -/
def repAt (m : List (Nat × Int)) (i : Nat) : Int := (mapGet m (i % 8192)).getD 0

/-- An entry of the gain table (R321). -/
def State.gainEntry (s : State) (b : Nat) (e : Int) : Nat := leAt (s.blob 0xC014 b) (2 * min (e.natAbs / 64) 63) 2

/-- The state of a PID step of one string: integrator, derivative, set-point, pinned, and the flags that saturated. -/
structure PidOut where
  i : Int
  d : Int
  u : Nat
  wind : Bool
  flags : Nat
  /-- The set-point before its limits. -/
  v : Int
  deriving DecidableEq, Repr

/-- One string's step of R320. `kp`, `ki`, `kd` are gain words. -/
def pidStep (kp ki kd alpha : Nat) (x : LString) (ff eg dy rp : Int) (lo hi : Nat) : PidOut :=
  let p := gainMul kp eg
  let i0 := if x.wind then x.i else x.i + gainMul ki eg
  let i := if x.wind then x.i else sat40 i0
  let d0 := x.d * alpha / 32768 + gainMul kd dy
  let d := sat40 d0
  let a0 := ff * 32768 + p + i + d + rp * 32768
  let a := sat40 a0
  let v0 := (a + 16384) / 32768
  let v := sat15 v0
  let u := min (max v (lo : Int)) (hi : Int)
  let un := u.toNat
  ⟨i, d, un, (un = hi && decide (0 < eg)) || (un = lo && decide (eg < 0)),
    8 * b2n (i != i0) + 16 * b2n (d != d0) + 32 * b2n (a != a0) + 64 * b2n (v != v0), v⟩

/-- The limit of a string (R329). -/
def State.stringHi (s : State) (b k : Nat) : Nat := min (s.lband b).hi (s.num 0xC039 k)

/-- The feed-forward target of a band: c_ff, or its part of the warm-up ramp (R334). -/
def State.ffTarget (s : State) (b : Nat) : Nat :=
  let x := s.lband b
  match x.warm with
  | some k => if x.warmDone then x.cff else x.cff * min k (s.num 0xC045) / s.num 0xC045
  | none => x.cff

/-- σ of a group at a tick (R330, R408). -/
def State.sigmaNow (s : State) (g : Nat) : Nat :=
  let base := (groupBands s.live g).foldl (fun m b =>
    let x := s.lband b
    if s.bandLit b && x.cff != 0 then min m (x.hi * 32768 / x.cff) else m) 32768
  let lit := match s.loop.relight.getD g none with
    | some (k, n) => min base ((k + 1) * 32768 / n)
    | none => base
  match s.mews.rampDown with
  | some k => min lit ((Config.standbyRamp + 1 - k) * 32768 / (Config.standbyRamp + 2))
  | none => lit

/-- The kind of R29 for a state of R28: its codes 0 to 3 are those of the state, and 4 is overridden
(log entry 63, DEDUCED, unsafe). -/
def envKind (st : Nat) : Nat := if 0x11 ≤ st then 4 else st

/-- Event 0xCB for a change of an envelope's state. -/
def State.envEvent (inst obj old new : Nat) (s : State) : State :=
  if old = new then s else s.raise 0xCB inst (envKind new * 8192 + obj % 4096)

/-- The envelope state of a band while it is neither moving nor overridden: pinned at an edge that holds back the set-point of one of its
strings, and inside otherwise (R25, R28). -/
def pinOf (lo hi : Nat) (vs : List Int) : Nat := if vs.any ((hi : Int) < ·) then 2 else if vs.any (· < (lo : Int)) then 1 else 0

/-- A band's envelope after a tick asked for set-points `vs` (R25, R332). -/
def State.pinBand (b : Nat) (vs : List Int) (s : State) : State :=
  let x := s.lband b
  let st := if 3 ≤ x.env then x.env else pinOf x.lo x.envV vs
  (s.modBand b fun x => { x with env := st }).envEvent b (0x031 + b) x.env st

/-- The set-points of a band that is OPEN, HOLD_MODEL or DERATE: ff + rp, clamped (R333, R342). -/
def State.openBand (b : Nat) (ff rp : Int) (s : State) : State :=
  let v := sat15 (ff + rp)
  ((s.controlling b).foldl (fun s k =>
    let u := (min (max v ((s.lband b).lo : Int)) (s.stringHi b k : Int)).toNat
    s.modString k fun x => { x with u := u }) s).pinBand b (if (s.controlling b).isEmpty then [] else [v])

/-- One string's part of a tick of its CLOSED band. -/
def State.pidOf (s : State) (b : Nat) (ff rp eg dy : Int) (k : Nat) : PidOut :=
  pidStep (s.num 0xC010 k) (s.num 0xC011 k) (s.num 0xC012 k) (s.num 0xC013 k) (s.lstring k) ff eg dy rp (s.lband b).lo (s.stringHi b k)

/-- The steps of a CLOSED band's strings at a tick. -/
def State.pidOuts (s : State) (b : Nat) (ff rp eg dy : Int) : List (Nat × PidOut) :=
  (s.controlling b).map fun k => (k, s.pidOf b ff rp eg dy k)

/-- The set-points of a CLOSED band (R320). -/
def State.closedBand (b : Nat) (ff rp eg dy : Int) (s : State) : State :=
  let outs := s.pidOuts b ff rp eg dy
  (outs.foldl (fun s p =>
    s.modString p.1 fun x => { x with i := p.2.i, d := p.2.d, u := p.2.u, wind := p.2.wind }) s).pinBand b (outs.map fun p => p.2.v)

/-- A reading added to the last 256 (R341). -/
def pushReading (l : List (Int × Int)) (r : Int × Int) : List (Int × Int) :=
  let m := l ++ [r]
  m.drop (m.length - 256)

/-- `n² × variance` of a list. -/
def varSum (l : List Int) : Int :=
  let n : Int := l.length
  let t := sumI l id
  n * sumI l (fun x => x * x) - t * t

/-- The FROZEN verdict over the last 256 readings (R341). -/
def frozenVerdict (rs : List (Int × Int)) (flo : Nat) : Bool :=
  let n : Int := 256 * 256
  rs.length = 256 && decide (varSum (rs.map Prod.fst) < flo * n) && decide (16 * flo * n ≤ varSum (rs.map Prod.snd))

/-- Whether a window is off the model by more than 12% (R341). -/
def implausible (yn m : Int) : Bool := decide (12 * m < 100 * ((yn - m).natAbs : Int))

/-- The raw reading that the model predicts at level 2^−j. -/
def rawOf (m : Int) (cal j : Nat) : Int := if cal = 0 then 0 else m * 16384 / ((cal * 2 ^ j : Nat) : Int)

/-- A band's part of a tick whose window is valid at level 2^−j, with the raw mean `y` (R320, R340–R344). -/
def State.validTick (b j i : Nat) (y : Int) (s : State) : State :=
  let x := s.lband b
  let k := loopK s.live
  let g := ((bandMap s.live b).map Prod.fst).getD 0
  let sg : Int := natAt s.loop.sigma g
  let yn0 := q15 (y * x.calF * 2 ^ j) 14
  let yn := sat15 yn0
  let pil := s.pilotLight b
  let m := s.modelOf b
  let rt := q15 ((x.r : Int) * sg) 15
  let e0 := rt - yn - pil
  let e := sat15 e0
  let eg0 := q15 (e * s.gainEntry b e) 14
  let eg := sat15 eg0
  let ff := q15 ((s.ffTarget b : Int) * sg) 15
  let rp := if i + 2 ≤ k then repAt x.rep (i + 2) else 0
  let yp := if x.fresh then yn else x.yp
  let bad := implausible yn m
  let rs := pushReading x.readings (y, rawOf m x.calF j)
  let froz := frozenVerdict rs (s.num 0xC050 b)
  let closed := s.obs (wBand b) = 1
  let learn := closed && s.flag 0xC015 b
  let r0 := q15 (repAt x.rep i * s.num 0xC017 b) 15 + q15 (eg * s.num 0xC016 b) 15
  let flags := b2n (yn != yn0) + 2 * b2n (e != e0) + 4 * b2n (eg != eg0) + 128 * b2n (learn && sat15 r0 != r0)
  let all := if closed then (s.pidOuts b ff rp eg (yp - yn)).foldl (fun a p => a ||| p.2.flags) flags else flags
  let s1 := (s.stick b all).modBand b fun x => { x with
    yp := yn, fresh := false, valid := true, ff := ff, rp := rp, e := e, eg := eg, yn := yn, m := m, yRaw := y
    plaus := if bad || froz then 0 else x.plaus + 1
    impl := if bad then x.impl + 1 else 0
    miss := 0
    readings := rs }
  let s2 := if closed then s1.closedBand b ff rp eg (yp - yn) else s1.openBand b ff rp
  let us := (s2.controlling b).map fun k => (s2.lstring k).u
  let mean := if us.isEmpty then 0 else us.foldl (· + ·) 0 / us.length
  s2.modBand b fun x => { x with
    rep := if learn then mapSet 0 x.rep (i % 8192) (sat15 r0) else x.rep
    means := if closed then (let l := x.means ++ [mean]; l.drop (l.length - 64)) else x.means }

/-- A band's part of a tick whose window is not valid: everything holds (R313). -/
def State.invalidTick (b : Nat) (s : State) : State := s.modBand b fun x => { x with fresh := true, valid := false }

/-- After a tick, the set-points and dither that stood before it become those of the tick before, and each string takes its next
dither (R314, R338). -/
def State.shiftStrings (i : Nat) (old : List (Nat × Int)) (s : State) : State :=
  let s1 := s.modLoop fun l => { l with strings := (l.strings.zip old).map fun p => { p.1 with u1 := p.2.1, dith1 := p.2.2, dith := 0 } }
  (upTo 4).foldl (fun s b =>
    if s.num 0xC009 b != 1 then s
    else (s.controlling b).foldl (fun s k =>
      let c := walsh (s.posInBand b k + 1) (i % 64)
      s.modString k fun x => { x with dith := c * (ditherOf x.u : Int) }) s) s1

/-- The pilot sums of a band at a tick: aligned two ticks after the dither (R338). Runs count from OPEN on, where they make the
calibration valid (R334). -/
def State.pilotTick (b i : Nat) (s : State) : State :=
  if s.num 0xC009 b != 1 || s.obs (wBand b) = 4 then s
  else
    let x := s.lband b
    let s1 := if x.valid then
        (s.controlling b).foldl (fun s k =>
          s.modString k fun z => { z with pilSum := z.pilSum + walsh (s.posInBand b k + 1) ((i + 62) % 64) * x.yn }) s
      else s
    s1.modBand b fun x => { x with pilotTick := x.pilotTick + 1, pilotN := x.pilotN + b2n x.valid }

/-- One sixteenth of the way towards a target (R337, R338) (log entry 73, DEDUCED, unsafe). -/
def sixteenth (v : Nat) (to_ : Int) (top : Nat) : Nat := (clampI 0 top ((v : Int) + (to_ - v + 8) / 16)).toNat

/-- 1 + tc × (T − T0) of a string as numerator over 1,600,000 (R327). -/
def tempFactor (tc dt : Int) : Int := 1600000 + tc * dt

/-- An observed efficiency learnt into η0 of a string (R338). `num / den` is η_obs in U1.15. -/
def State.learnEta (b k : Nat) (num : Int) (den : Nat) (s : State) : State :=
  let t0 := toS 16 (leAt (s.blob 0xC020 b) 8 2)
  let f := tempFactor (s.sint 16 0xC022 k) (s.stringTemp k (s.lband b).temp - t0)
  if den = 0 || f ≤ 0 then s
  else
    let eta := divAway (num * 1600000) (den * f.toNat)
    s.modString k fun x => { x with eta0 := sixteenth x.eta0 eta 65535 }

/-- A pilot run of 64 ticks ends (R338). Efficiencies are learnt in CLOSED alone (R333). -/
def State.pilotEnd (b : Nat) (s : State) : State :=
  let x := s.lband b
  if x.pilotTick < 64 then s
  else
    let s1 := if 56 ≤ x.pilotN then
        (if s.obs (wBand b) != 1 then s else (s.controlling b).foldl (fun s k =>
          let z := s.lstring k
          s.learnEta b k (z.pilSum * 200 * 32768) (x.pilotN * z.u)) s).modBand b fun x => { x with pilotRuns := x.pilotRuns + 1 }
      else s
    (s1.modStrings (s1.bandStrings b) fun z => { z with pilSum := 0 }).modBand b fun x => { x with pilotTick := 0, pilotN := 0 }

/-! ## Pips (R337–R339) -/

/-- The calibration that one Pip gives: D × dump_scale / P in 1/16384. -/
def pipCal (d : Int) (scale : Nat) (p : Int) : Nat := if p ≤ 0 ∨ d ≤ 0 then 0 else divHalfUp (d.toNat * scale) (4 * p.toNat)

/-- A Pip's readings for a band (R337–R340): dump mean and pickoff mean. -/
def State.pipBand (b : Nat) (d p : Option Int) (probe : Bool) (s : State) : State :=
  match (if s.bandLit b then d else none), p with
  | some d, some p =>
    let x := s.lband b
    let j := s.num 0xC00B
    let scale := s.num 0xC00F b
    let ks := s.controlling b
    let model := q15 (sumI ks fun k => (((s.lstring k).etaT * (s.lstring k).u : Nat) : Int)) 15
    let k := ks.getD (x.probe % max 1 ks.length) 0
    -- light of the Pip at level 1, in Q15
    let light := d * scale * 2 ^ j / 65536
    let ok := !implausible light model
    let s1 := s.modBand b fun x => { x with pipD := d, readings := pushReading x.readings (p, rawOf model x.calF j) }
    if probe then s1.modBand b fun x => { x with probeD := if ks.isEmpty then none else some (d, k, (s.lstring k).u) }
    else s1.modBand b fun x => { x with
      pips := x.pips + 1, ds := x.ds ++ [d]
      passed := x.passed + b2n ok
      gs := if ok then x.gs ++ [pipCal d scale p] else x.gs }
  | _, _ => s

/-- The calibration of a band at the end of a frame (R337–R339). -/
def State.frameCal (b : Nat) (s : State) : State :=
  let x := s.lband b
  let clear (s : State) : State := s.modBand b fun x => { x with gs := [], pips := 0, passed := 0, ds := [], probeD := none }
  if x.pips = 0 then clear s
  else if x.passed = 0 then
    clear (s.modBand b fun x => { x with failRun := x.failRun + 1 })
  else
    let s1 := if bit x.fault 4 then (s.modBand b fun x => { x with fault := clearBits x.fault 16 }).raise 0xCF b 3 else s
    let mean := divHalfUp (x.gs.foldl (· + ·) 0) x.gs.length
    let active := s1.obs (wBand b) = 1
    let diff := ((mean : Int) - x.cal).natAbs
    let s2 := if x.cal < 50 * diff then s1.raise 0xCF b 1 else s1
    let s3 := s2.modBand b fun x => { x with
      failRun := 0, goodCals := x.goodCals + b2n (s.bandLit b)
      cal := if active || x.goodCals < 8 then sixteenth x.cal mean 65535 else x.cal }
    -- the probe
    let s4 := match x.probeD, x.ds with
      | some (dp, k, u), d0 :: ds =>
        let n := (d0 :: ds).length
        let dref := sumI (d0 :: ds) id
        if active then
          s3.learnEta b k ((dref - n * dp) * s.num 0xC00F b * 2 ^ (s.num 0xC00B) * 100 * 32768) (n * 65536 * 6 * u)
        else s3
      | _, _ => s3
    clear (s4.modBand b fun x => { x with probe := x.probe + b2n x.probeD.isSome })

/-! ## The estimate (R327–R329) -/

/-- Entries of a colour model: x0, y0, dx, dy, T0, kv (R347). -/
def State.modelEntry (s : State) (b i : Nat) : Int :=
  let w := leAt (s.blob 0xC020 b) (2 * i) 2
  if i ≤ 1 then w else toS 16 w

/-- A band's chromaticity at a temperature, as rationals (R327). -/
def State.bandXY (s : State) (b : Nat) (t : Int) : Rat × Rat :=
  let dt := t - s.modelEntry b 4
  ((s.modelEntry b 0 : Rat) / 65536 + (s.modelEntry b 2 * dt : Int) / 16000000,
   (s.modelEntry b 1 : Rat) / 65536 + (s.modelEntry b 3 * dt : Int) / 16000000)

/-- The bands that feed a primary of a group. -/
def State.primaryBands (s : State) (g p : Nat) : List Nat := (upTo 4).filter fun b => bandMap s.live b = some (g, p)

/-- The share of a band in its primary: 1 for the only one (R329). -/
def State.splitOf (s : State) (b : Nat) : Rat :=
  match bandMap s.live b with
  | some (g, p) => if (s.primaryBands g p).length ≤ 1 then 1 else (s.num 0xC00E b : Rat) / 32768
  | none => 1

/-- The chromaticity of a primary, none where no band feeds it (R327). -/
def State.primaryXY (s : State) (tb : Nat → Int) (g p : Nat) : Option (Rat × Rat) :=
  match s.primaryBands g p with
  | [] => none
  | bs =>
    let w := bs.foldl (fun (a : Rat) b => a + s.splitOf b) 0
    if w = 0 then none
    else
      let sx := bs.foldl (fun (a : Rat) b => a + s.splitOf b * (s.bandXY b (tb b)).1) 0
      let sy := bs.foldl (fun (a : Rat) b => a + s.splitOf b * (s.bandXY b (tb b)).2) 0
      some (sx / w, sy / w)

/-- The determinant of a 3 × 3 matrix. -/
def matDet (m : Mat) : Rat :=
  let e := matAt m
  e 0 0 * (e 1 1 * e 2 2 - e 1 2 * e 2 1) - e 0 1 * (e 1 0 * e 2 2 - e 1 2 * e 2 0) + e 0 2 * (e 1 0 * e 2 1 - e 1 1 * e 2 0)

/-- N(F) and the shares S_k of a group: none where C is singular or an element is outside S32 (R328). -/
def engineMatrix (p0 p1 p2 : Rat × Rat) (w : List Rat) : Option (List Int × List Rat) :=
  if p0.2 = 0 || p1.2 = 0 || p2.2 = 0 then none
  else
    let c := matCols (xyzOf p0.1 p0.2) (xyzOf p1.1 p1.2) (xyzOf p2.1 p2.2)
    if matDet c = 0 then none
    else
      let sk := matVec (matInv c) w
      let m := matScale c sk
      if matDet m = 0 then none
      else
        let n := (matInv m).map fun v => ratAway (v * 65536)
        if n.all fun v => decide (-2147483648 ≤ v) && decide (v ≤ 2147483647) then some (n, sk) else none

/-- N(F) and S_k of a group at band temperatures. -/
def State.groupMatrix (s : State) (tb : Nat → Int) (g : Nat) : Option (List Int × List Rat) :=
  match s.primaryXY tb g 0, s.primaryXY tb g 1, s.primaryXY tb g 2 with
  | some a, some b, some c => engineMatrix a b c (targetWhite (s.num 0x8001))
  | _, _, _ => none

/-- A non-negative rational rounded half up. -/
def ratHalfUp (r : Rat) : Nat := divHalfUp r.num.toNat r.den

/-- The estimate for frame `f` latched, and N(F) delivered to COLR for the frames whose matrix exists (R327, R328). -/
def State.latchEstimate (f : Nat) (s : State) : State :=
  let temps := (upTo 4).map fun b => (s.bandTemp b).getD (s.lband b).temp
  let tb (b : Nat) : Int := temps.getD b 0
  let mats := (upTo 4).map fun g => if groupExists s.live g then s.groupMatrix tb g else none
  let bands := (upTo 4).map fun b =>
    let (x, y) := s.bandXY b (tb b)
    let kb := 1600000 + s.modelEntry b 5 * (tb b - s.modelEntry b 4)
    let cal := (clampI 0 65535 ((2 * ((s.lband b).cal : Int) * kb + 1600000) / 3200000)).toNat
    let sk : Rat := match bandMap s.live b with
      | some (g, p) => ((mats.getD g none).map fun m => m.2.getD p 0).getD (s.lband b).share
      | none => 0
    ((tb b, ratHalfUp (x * 65536) % 65536, ratHalfUp (y * 65536) % 65536, cal, sk) : Int × Nat × Nat × Nat × Rat)
  let etas := (upTo 48).map fun k =>
    let b := s.num 0xC002 k
    if 4 ≤ b then 0
    else
      let fct := tempFactor (s.sint 16 0xC022 k) (s.stringTemp k (tb b) - s.modelEntry b 4)
      (clampI 0 65535 ((2 * ((s.lstring k).eta0 : Int) * fct + 1600000) / 3200000)).toNat
  let s1 := s.modLoop fun l => { l with ests := (l.ests.filter fun e => e.frame != f) ++ [⟨f, bands, etas⟩] }
  let s2 := (upTo 4).foldl (fun s b => s.modBand b fun x =>
    { x with temp := (bands.getD b (0, 0, 0, 0, 0)).1, x := (bands.getD b (0, 0, 0, 0, 0)).2.1, y := (bands.getD b (0, 0, 0, 0, 0)).2.2.1 }) s1
  (upTo 4).foldl (fun s g => match mats.getD g none with
    | some (n, _) => s.modCGroup g fun c => { c with deliv := some (f, n, s.wall) }
    | none => s) s2

/-! ## Envelopes (R25–R29) -/

/-- One move of an envelope's value `v` towards the demand `d` inside `lo … hi`, by at most `rate` (0: no limit), and whether it has
arrived (R26). -/
def envelopeMove (lo hi rate d v : Nat) : Nat × Bool :=
  let t := max lo (min hi d)
  let v' := if rate = 0 then t else if v < t then min t (v + rate) else if t < v then max t (v - rate) else v
  (v', v' = t)

/-- The wall target moved for a frame towards 10,000, its value without an envelope (R332). -/
def State.moveWallTarget (s : State) : State :=
  let (v, there) := envelopeMove (s.num 0xC030 1) (s.num 0xC030 2) (s.num 0xC030 3) 10000 s.loop.wallV
  let st := if there then pinOf (s.num 0xC030 1) (s.num 0xC030 2) [10000] else 3
  (s.modLoop fun l => { l with wallV := v, wallEnv := st }).envEvent 0x10 0x030 s.loop.wallEnv st

/-- The smallest cap of a lamp-board throttle on a band, if any (R502). -/
def State.lampCap (s : State) (b : Nat) : Option Nat :=
  (s.therm.lamp.zip (upTo 24)).foldl (fun m p =>
    match p.1.caps.getD b none, m with
    | some c, some a => some (min c.1 a)
    | some c, none => some c.1
    | none, a => a) none

/-- The position of R21 that holds a band's light at zero: 1 for a kill cause and for the gate of a wheel, 2 for thermal shutdown, 3 for
what keeps content current, 4 for what keeps the colour (log entry 153, DEDUCED, safe). -/
def State.zeroedBy (s : State) (b : Nat) : Option Nat :=
  match bandMap s.live b with
  | none => none
  | some (g, _) =>
    let bs := groupBands s.live g
    if s.lamp.latch % 4 != 0 || bit s.lamp.latch 4 || s.wheelGated g then some 1
    else if s.lamp.latch != 0 then some 2
    else if s.groupStale g then some 3
    else if bs.any s.bandGone || !(s.cgroup g).mirN || (!bit s.loop.dead b && bs.any fun c => c != b && bit s.loop.dead c) then some 4
    else none

/-- A band's current envelope moved for a frame. A demand of a lower position takes its value outside (R27): zero light where the minimum
is above zero, or the cap of R502 where it lies below the maximum. The value comes back at the envelope's rate. -/
def State.moveBandEnv (b : Nat) (s : State) : State :=
  let o := 0xC031 + b
  let x := s.lband b
  let hi := s.num o 2
  let (moved, there) := envelopeMove (s.num o 1) hi (s.num o 3) 32767 x.envV
  let settled := (moved, if !there then 3 else if x.env < 3 then x.env else 0)
  let (v, st) := match (if s.num o 1 = 0 then none else s.zeroedBy b), s.lampCap b with
    | some p, _ => (0, 0x10 + p)
    | none, some c => if c < hi then (c, 0x12) else settled
    | none, none => settled
  (s.modBand b fun x => { x with envV := v, env := st, lo := s.num o 1 }).envEvent b (0x031 + b) x.env st

/-! ## The frame (R329–R334, R516) -/

/-- r_b of R329 in Q15 for L_w in 0.0001, the share S_k, W_ref and W(F), the rated light in 0.0001, and the split. -/
def bandTarget (lw wref w rated : Nat) (sk split : Rat) : Nat :=
  if w = 0 || rated = 0 then 0 else min 32767 (ratHalfUp ((lw : Rat) * sk * wref * split * 32768 / ((w * rated : Nat) : Rat)))

/-- c_ff of R329 from r_b and 256 × H_b, and whether it is above the range (R319) (log entry 75, DEDUCED, unsafe). -/
def bandFeed (r h256 : Nat) : Nat × Bool :=
  if r = 0 then (0, false)
  else if h256 = 0 then (32767, true)
  else
    let c := divHalfUp (r * 32768 * 256) h256
    (min 32767 c, decide (32767 < c))

/-- The light weight at full code of the frame on the mirrors, in ns: that of its schedule, or of the plan while none runs (R227). -/
def State.weightOf (s : State) (g : Nat) : Nat :=
  match (s.plgroup g).sched, (s.plgroup g).plan with
  | some h, _ => h.q * (h.timing.lp - h.timing.settle)
  | none, some p => p.q * (p.lp - p.settle)
  | none, none => 0

/-- The targets of a band for the frame that goes on the mirrors. -/
def State.bandFrame (b : Nat) (s : State) : State :=
  match bandMap s.live b with
  | none => s
  | some (g, _) =>
    let x := s.lband b
    let r := bandTarget s.loop.wallV (s.num 0xC044) (s.weightOf g) (s.num 0xC00A b) x.share (s.splitOf b)
    let h := (s.controlling b).foldl (fun a k => a + (s.lstring k).etaT * (s.lstring k).factor) 0
    let (c, over_) := bandFeed r h
    let hi := if s.obs (wBand b) = 3 then min x.envV x.cap else x.envV
    (s.modBand b fun x => { x with r := r, cff := c, h256 := h, hi := hi }).stick b (256 * b2n over_)

/-- The estimate of a frame put in force. -/
def State.takeEstimate (f : Nat) (s : State) : State :=
  match s.loop.ests.find? fun e => e.frame = f with
  | none => s
  | some e =>
    let s1 := (upTo 4).foldl (fun s b =>
      let q := e.bands.getD b (0, 0, 0, 16384, 0)
      s.modBand b fun x => { x with calF := q.2.2.2.1, share := q.2.2.2.2 }) s
    let s2 := (upTo 48).foldl (fun s k => s.modString k fun x => { x with etaT := natAt e.etas k }) s1
    s2.modLoop fun l => { l with ests := l.ests.filter fun e => f < e.frame }

/-- Headroom and achievable luminance (R331), with event 0xCE. With no band lit both are 0 (log entry 167, DEDUCED, unsafe). -/
def State.judgeHeadroom (s : State) : State :=
  let lit := (upTo 4).filter fun b => s.bandLit b && (s.lband b).cff != 0
  match lit with
  | [] =>
    let s1 := s.modLoop fun l => { l with headroom := 0, achievable := 0, anyLit := false }
    if s.loop.headroom = 0 then s1 else s1.raise 0xCE 0 0
  | b0 :: _ =>
    let best := lit.foldl (fun m b =>
      if (s.lband b).hi * (s.lband m).cff < (s.lband m).hi * (s.lband b).cff then b else m) b0
    let x := s.lband best
    let rho := x.hi * 10000 / x.cff
    let h := min 65535 (rho - 10000)
    let was := s.loop.headroom
    let s1 := s.modLoop fun l => { l with headroom := h, achievable := min 65534 (l.wallV * x.hi / x.cff), anyLit := true }
    if (h = 0) != (was = 0) then s1.raise 0xCE 0 h else s1

/-- LOOP at a frame boundary: the end of the last frame's calibration, the envelopes, the new estimate and targets, and the
counters of the new frame (R312, R327–R334, R408). `f` is the count of the frame that goes on the mirrors. -/
def State.loopBoundary (f : Nat) (s : State) : State :=
  let s1 := (upTo 4).foldl (fun s b => (s.frameCal b).moveBandEnv b) s
  let s2 := (s1.moveWallTarget).takeEstimate f
  let k := loopK s2.live
  let s3 := (upTo 4).foldl (fun s b =>
    (s.modBand b fun x => { x with
      warm := x.warm.map (· + 1)
      rep := if k = s.loop.k then x.rep else [] }).bandFrame b) s2
  (s3.modLoop fun l => { l with
    tick := 0, pips := [0, 0, 0, 0], k := k
    relight := l.relight.map fun r => r.bind fun q => if q.1 + 1 < q.2 then some (q.1 + 1, q.2) else none }).judgeHeadroom

/-- The bands start at the entry to WARMING (R334) (log entry 76, DEDUCED, unsafe). -/
def State.warmBands (s : State) : State :=
  let s1 := (upTo 4).foldl (fun s b =>
    if (bandMap s.live b).isSome then
      ((((s.zeroBand b).setCmd (wBand b) 1).setBand b 0).followStrings b).modBand b fun x => { x.gate s.now with
        warm := some 0, warmDone := false, goodCals := 0, pilotRuns := 0, plaus := 0, impl := 0, miss := 0
        fault := x.fault &&& 8, readings := [] }
    else s) s
  s1.modLoop fun l => { l with dead := 0 }

/-- A band's warm-up ramp ends after `warm_frames` frames (R334). -/
def State.warmEnd (b : Nat) (s : State) : State :=
  match (s.lband b).warm with
  | some k => if s.num 0xC045 ≤ k then s.modBand b fun x => { x with warmDone := true } else s
  | none => s

/-- Whether a band's calibration is valid (R334). -/
def State.calValid (s : State) (b : Nat) : Bool :=
  if s.num 0xC009 b = 1 then decide (4 ≤ (s.lband b).pilotRuns) else decide (8 ≤ (s.lband b).goodCals)

/-- Integrators preloaded so that the first CLOSED output equals the last held one (R344). -/
def State.preload (b : Nat) (s : State) : State :=
  let x := s.lband b
  (s.controlling b).foldl (fun s k => s.modString k fun z => { z with
    d := 0, wind := false
    i := sat40 ((z.u : Int) * 32768 - x.ff * 32768 - gainMul (s.num 0xC010 k) x.eg - x.rp * 32768) }) s

/-- A band closes (R333, R344). -/
def State.closeBand (b : Nat) (s : State) : State :=
  let x := s.lband b
  let o := s.obs (wBand b)
  let ok := decide (64 ≤ x.plaus) && (s.unitRec (wBand b)).cmd = 1 &&
    (o = 2 || (o = 0 && (x.warm.isNone || x.warmDone) && s.calValid b))
  if ok then ((s.preload b).setBand b 1).modBand b fun x => { x with fault := x.fault &&& 0x18, warm := none, warmDone := false, impl := 0 }
  else s

/-! ## Traces (R345, R346) -/

/-- The value of a signal for a trace: none where the window is not valid. -/
def State.traceValue (s : State) (cfg : Nat) : Option Int :=
  let b := fld cfg 63 56
  let k := fld cfg 55 48
  let x := s.lband b
  let z := s.lstring k
  if !x.valid then none
  else match fld cfg 47 40 with
    | 0 => some x.yRaw
    | 1 => some x.yn
    | 2 => some x.e
    | 3 => some x.eg
    | 4 => some (sat40 (gainMul (s.num 0xC010 k) x.eg))
    | 5 => some z.i
    | 6 => some z.d
    | 7 => some (sat40 (x.ff * 32768 + gainMul (s.num 0xC010 k) x.eg + z.i + z.d + x.rp * 32768))
    | 8 => some z.u
    | 9 => some x.m
    | 10 => some x.rp
    | 11 => some x.pipD
    | 12 => some (natAt s.loop.sigma (((bandMap s.live b).map Prod.fst).getD 0))
    | 13 => some x.temp
    | _ => none

/-- Changes one trace buffer. -/
def State.modTrace (n : Nat) (f : LTrace → LTrace) (s : State) : State :=
  s.modLoop fun l => { l with traces := modAt l.traces n f }

/-- A trace buffer armed, or restarted (R346). -/
def State.traceArm (n : Nat) (s : State) : State := s.modTrace n fun _ => { state := 1 }

/-- Free values for the entries that a buffer's pretrigger asks for and that were never recorded (R346; log entry 22, DESIGN CHOICE, safe). -/
def State.padEntries (n want : Nat) (s : State) : State :=
  let have_ := (s.loop.traces.getD n {}).entries.length
  if want ≤ have_ then s
  else
    let m := want - have_
    let pad := (upTo m).map fun k => toS 40 (Config.free (s.freeCtr + k))
    (s.modFreeCtr (· + m)).modTrace n fun t => { t with entries := pad ++ t.entries }

/-- An armed buffer meets its trigger (R346). -/
def State.traceTrigger (n : Nat) (s : State) : State :=
  let t := s.loop.traces.getD n {}
  let pre := fld (s.num 0xC060 n) 15 0 % 16384
  if t.state != 1 then s
  else (s.padEntries n pre).modTrace n fun t => { t with
    state := 2, tick := s.loop.tick, frame := s.seqr.count, left := 16384 - pre
    entries := t.entries.drop (t.entries.length - pre) }

/-- A tick's entry in a buffer that records. -/
def State.traceTick (n : Nat) (s : State) : State :=
  let t := s.loop.traces.getD n {}
  let cfg := s.num 0xC060 n
  let recording := t.state = 1 || (t.state = 2 && t.left != 0)
  if !recording then s
  else if t.skip != 0 then s.modTrace n fun t => { t with skip := t.skip - 1 }
  else
    let v := (s.traceValue cfg).getD (-(2 ^ 39))
    s.modTrace n fun t =>
      let es := t.entries ++ [v]
      { t with
        skip := fld cfg 23 16
        entries := if t.state = 1 then es.drop (es.length - 16383) else es
        left := if t.state = 2 then t.left - 1 else t.left }

/-- A buffer that has recorded its entries after the trigger stops (R346). -/
def State.traceDone (n : Nat) (s : State) : State :=
  let t := s.loop.traces.getD n {}
  if t.state = 2 && t.left = 0 then (s.modTrace n fun t => { t with state := 3 }).raise 0xD0 n t.tick else s

/-- The 81,920 bytes of a trace that is DONE; none otherwise. -/
def State.traceBytes (s : State) (n : Nat) : Bytes :=
  let t := s.loop.traces.getD n {}
  if t.state = 3 then (t.entries.map fun v => toLE 5 (ofS 40 v)).flatten else []

end Sys2Proof.Machine
end

