-- ==== Sys2Proof/Machine/Drive.lean ====
section
/-! DEFINITION. LOOP and LAMP at work: ticks, Pips, SETs and APPLYs, returned frames, drivers and chains, and the rows of their
commands (R312–R314, R354–R370, R379–R385). -/

namespace Sys2Proof.Machine

/-! ## Ticks and Pips -/

/-- Whether the frame on the mirrors is one that a sweep step measures (R467). -/
def State.sweepMeasuring (s : State) : Bool :=
  match s.coh.node.cur with
  | some st => decide (st.first + st.dwell ≤ s.seqr.count + st.measure) && decide (st.first ≤ s.seqr.count) &&
      decide (s.seqr.count < st.first + st.dwell)
  | none => false

/-- Changes the sweep sums of a band. -/
def State.modSweepBand (b : Nat) (f : SBand → SBand) (s : State) : State :=
  s.modCoh fun w => { w with node := { w.node with bands := modAt w.node.bands b f } }

/-- The means of the eight fast channels over a window read by `f`, none where a channel delivers none. -/
def State.meansBy (f : Nat → Int × Bool → State → State × Option Int) (sums : List (Int × Bool)) (s : State) :
    State × List (Option Int) :=
  (upTo 8).foldl (fun (acc : State × List (Option Int)) c =>
    match sums[c]? with
    | none => (acc.1, acc.2 ++ [none])
    | some w => let r := f c w acc.1; (r.1, acc.2 ++ [r.2])) (s, [])

/-- Whether every band that reaches a fast channel has been gated or off for the whole window that ends now (R380). -/
def State.channelDark (s : State) (c : Nat) : Bool :=
  (upTo 4).all fun b => (bandMap s.live b).isNone || (s.num 0xC007 b != c && s.num 0xC008 b != c) ||
    ((s.lband b).gateOn && decide ((s.lband b).gateFrom + s.num 0xC006 ≤ s.now))

/-- Offsets learnt from a window (R380). -/
def State.learnOffsets (sums : List (Int × Bool)) (s : State) : State :=
  (upTo 8).foldl (fun s c => match sums[c]? with
    | some (x, false) => if s.channelDark c then s.learnOffset c x else s
    | _ => s) s

/-- One band's part of tick `i` with the pickoff mean delivered (R313, R316, R320). -/
def State.bandTick (i : Nat) (means : List (Option Int)) (s : State) (b : Nat) : State :=
  if (bandMap s.live b).isNone then s
  else
    let ts := s.num 0xC006
    let x := s.lband b
    match means.getD (s.num 0xC007 b) none with
    | none => (s.modBand b fun x => { x with miss := x.miss + 1 }).invalidTick b
    | some y =>
      let tc := (((bandMap s.live b).bind fun m => s.lightOf m.1).map fun l => l.2.tc).getD 0
      let free := !x.gateOn && decide (x.gateEnd + tc + ts ≤ s.now) && s.obs (wBand b) != 4
      match (if free then s.windowLevel b ((i - 1) * ts) (i * ts) else none) with
      | some j =>
        let s1 := s.validTick b j i y
        if s1.sweepMeasuring then
          s1.modSweepBand b fun z => { z with
            yn := z.yn + (s1.lband b).yn, windows := z.windows + 1, temp := z.temp + (s1.lband b).temp, temps := z.temps + 1 }
        else s1
      | none => (s.modBand b fun x => { x with miss := 0 }).invalidTick b

/-- A tick of LOOP: the next of the frame, at its time (R312, R320). -/
def State.loopTick (sums : List (Int × Bool)) (s : State) : State :=
  let i := s.loop.tick + 1
  if !s.mews.dev.counts || loopK s.live < i || decide ((s.wall : Int) < s.tF s.seqr.count + (i * s.num 0xC006 : Nat)) then s
  else
    let old := s.loop.strings.map fun x => (x.u, x.dith)
    let (s1, means) := s.meansBy State.fastWindow sums
    let s2 := s1.learnOffsets sums
    let s3 := s2.modLoop fun l => { l with tick := i, sigma := (upTo 4).map s2.sigmaNow }
    let s4 := ((upTo 4).foldl (State.bandTick i means) s3).shiftStrings i old
    let s5 := (upTo 4).foldl (fun s b => s.pilotTick b i) s4
    (upTo 4).foldl (fun s n => s.traceTick n) s5

/-- The Pips of a group's schedule: index and gap start, in order. -/
def State.pipGaps (s : State) (g : Nat) : List (Nat × Nat) :=
  match s.lightOf g with
  | none => []
  | some (h, t) =>
    let gs := ((h.epochs.zip (instants t 0 h.epochs)).filter fun e => e.1.pip).map fun e => e.2.2
    (upTo gs.length).zip gs

/-- A Pip window of a group ends: dump and pickoff means of its bands over 50 samples (R337, R379). -/
def State.pipWindow (g : Nat) (sums : List (Int × Bool)) (s : State) : State :=
  let n := natAt s.loop.pips g
  if 16 ≤ n then s
  else
    let (s0, means) := s.meansBy (fun c => State.fastMean c 50) sums
    let mean (c : Nat) : Option Int := means.getD c none
    let probe := n = s.num 0xC00C
    let s1 := (groupBands s.live g).foldl (fun s b =>
      if s.num 0xC008 b = 0xFF then s
      else
        let d := mean (s.num 0xC008 b)
        let s1 := s.pipBand b d (mean (s.num 0xC007 b)) probe
        match (if s1.sweepMeasuring && s1.bandLit b then d else none) with
        | some d => s1.modSweepBand b fun z => { z with pip := z.pip + d, pips := z.pips + 1 }
        | none => s1) s0
    s1.modLoop fun l => { l with pips := modAt l.pips g (· + 1) }

/-! ## SET and APPLY (R354–R364) -/

/-- The index of the Pip that covers an instant of the frame, for the group of a band. -/
def State.pipAt (s : State) (b at_ : Nat) : Option Nat :=
  match bandMap s.live b with
  | none => none
  | some (g, _) =>
    match s.lightOf g with
    | none => none
    | some (_, t) => ((s.pipGaps g).find? fun p => decide (p.2 ≤ at_) && decide (at_ < p.2 + max t.settle t.tc + 2500)).map Prod.fst

/-- The value of string `k` in a SET for an instant of the frame (R323, R338, R362). -/
def State.setValue (s : State) (k at_ : Nat) : Nat :=
  let b := s.num 0xC002 k
  let ks := s.controlling b
  if 4 ≤ b || !ks.contains k then 0
  else match s.levelAt b at_ with
    | none => 0
    | some j =>
      let probe := s.pipAt b at_ = some (s.num 0xC00C) && ks[(s.lband b).probe % max 1 ks.length]? = some k &&
        s.num 0xC009 b = 0 && !bit (s.lband b).fault 4
      sentValue (s.stringSent b k probe) j

/-- Strings on a chain of the bands of a mask. -/
def State.chainStrings (s : State) (n bands : Nat) : List Nat :=
  (upTo 48).filter fun k => s.num 0xC002 k < 4 && bit bands (s.num 0xC002 k) && (s.stringAt k).map Prod.fst = some n

/-- The 9-byte entry of driver position `k` in a SET. -/
def setEntry (vals : List (Nat × Nat)) : Bytes :=
  toLE 1 (maskOf 4 fun c => (mapGet vals c).isSome) ++ ((upTo 4).map fun c => toLE 2 ((mapGet vals c).getD 0)).flatten

/-- Whether an instant of the frame is a tick of LOOP whose APPLY is not sent for band `b`: it falls between a G and the APPLY that
starts the next epoch, or less than 400 ns before a G (R361). -/
def State.tickWithheld (s : State) (b at_ : Nat) : Bool :=
  at_ % max 1 (s.num 0xC006) = 0 &&
  match (bandMap s.live b).bind fun m => s.lightOf m.1 with
  | none => false
  | some (h, t) => (h.epochs.zip (instants t 0 h.epochs)).any fun e =>
      let g := e.2.2
      (decide (g < at_ + 400) && decide (at_ < g)) ||
        (e.1.pip && decide (g < at_) && decide (at_ < g + max t.settle t.tc + 2500))

/-- Characters of a SET and of a STATUS on a chain of `n` drivers (R353). -/
def setChars (n : Nat) : Nat := 9 * n + 11
def statusChars (n : Nat) : Nat := 4 * n + 8

/-- The instant now, in ns from the latest B(F). -/
def State.frameNs (s : State) : Int := (s.wall : Int) - s.tF s.seqr.count

/-- A SET sent on a chain for an APPLY, `ahead` APPLYs from now, at an instant of the frame (R354, R358, R362). None is sent that
would end later than 200 ns before that instant, or that serves only ticks whose APPLY is withheld (R361, R362). Every driver that
is not LOST is expected to ack it (log entry 169, DEDUCED, unsafe). -/
def State.sendSet' (n bands ahead bank at_ : Nat) (s : State) : State :=
  if (s.chain n).st != 2 || decide ((at_ : Int) < s.frameNs + 4 * setChars (s.num 0xD002 n) + 200) ||
      (upTo 4).all (fun b => !bit bands b || s.tickWithheld b at_) then s
  else
    let c := s.chain n
    let tag := (c.applies + ahead) % 4
    let vals := (s.chainStrings n bands).map fun k => (k, s.setValue k at_)
    let m := s.num 0xD002 n
    let entry (p : Nat) : Bytes := setEntry (vals.filterMap fun v =>
      match s.stringAt v.1 with
      | some (_, q, ch) => if q = p then some (ch, v.2) else none
      | none => none)
    let body := toLE 1 (bank % 2 + 4 * tag) ++ toLE 1 0 ++ toLE 1 m ++ ((upTo m).map entry).flatten
    (s.lampSend n 1 0x0F body).modChain n fun x => { x with
      sets := x.sets ++ [⟨tag, bank % 2, bands, (upTo 4).map (s.levelAt · at_), vals,
        maskOf m fun p => s.obs (wDriver (8 * n + p)) != 4, none, c.seq⟩] }

/-- Whether a driver ignores every APPLY: it holds a kill, or its watchdog has expired (R351, R367). -/
def State.driverDeaf (s : State) (d : Nat) : Bool := s.obs (wDriver d) = 2 || s.obs (wDriver d) = 3

/-- The APPLY of a chain for the bands that are not gated: the SET of its tag takes effect in every driver whose ack came back and
that does not ignore it, with event 0xED for each expected ack that did not (R351, R357, R358). Answers the bands left dark by a
SET that did not arrive. -/
def State.applyLive (n bands : Nat) (s : State) : State × Nat :=
  if bands = 0 || (s.chain n).st != 2 then (s, 0)
  else
    let c := s.chain n
    let tag := c.applies % 4
    let found := c.sets.find? fun x => x.tag = tag
    let bank := (found.map LampSet.bank).getD 0
    let onChain := maskOf 4 fun b => bit bands b && !(s.chainStrings n (2 ^ b)).isEmpty
    let s1 := (s.emit (.lampApply n (bands % 16 * 16 + tag * 4 + bank) (s.now + s.lamp.lead))).modChain n fun x => { x with
      applies := (x.applies + 1) % 4, sets := x.sets.filter fun y => y.tag != tag }
    match found with
    | none => (s1, onChain)
    | some x =>
      let acks := x.acks.getD 0
      let missing := (upTo (s.num 0xD002 n)).filter fun k => bit x.expected k && !bit acks k
      let on (v : Nat × Nat) (p : Nat → Bool) : Bool := (s.stringDriver v.1).any fun d => p (d % 8)
      let take := x.vals.filter fun v => bit bands (s.num 0xC002 v.1) && on v fun p => bit acks p && !s.driverDeaf (8 * n + p)
      let late := maskOf 4 fun b => x.vals.any fun v => s.num 0xC002 v.1 = b && on v missing.contains
      (missing.foldl (fun s k => s.raise 0xED (8 * n + k) (tag * 256 + acks))
        (s1.modLamp fun l => { l with values := take.foldl (fun vs v => setAt vs v.1 v.2) l.values }),
        clearBits onChain x.bands ||| (onChain &&& late))

/-- The APPLY of a chain that gates bands (R357, R364) (log entry 80, DEDUCED, unsafe). -/
def State.applyGate (n bands : Nat) (s : State) : State :=
  if bands = 0 || (s.chain n).st != 2 then s
  else
    (s.emit (.lampApply n (bands % 16 * 16 + (s.chain n).applies % 4 * 4 + 2) (s.now + s.lamp.lead))).modChain n fun x =>
      { x with applies := (x.applies + 1) % 4 }

/-- Whether the SETs that wait for the next APPLYs carry band `b` at the level in force when such an APPLY takes effect, at an instant
that is no withheld tick. LOOP launches no other APPLY for it: a level changes only inside an epoch gap (R220, R222, R361). -/
def State.levelMeets (s : State) (b : Nat) : Bool :=
  let at_ := (s.frameNs + s.lamp.lead).toNat
  !s.tickWithheld b at_ &&
  (upTo 2).all fun n => ((s.chain n).sets.find? fun x => x.tag = (s.chain n).applies % 4).all fun x =>
    !bit x.bands b || x.levels.getD b none = s.levelAt b at_

/-- An APPLY launched for bands on both chains (R359, R361, R364). Bands that LOOP gates take the gate. -/
def State.launch (bands : Nat) (s : State) : State :=
  let gated := maskOf 4 fun b => bit bands b && s.bandGated b
  let live := maskOf 4 fun b => bit (clearBits (bands % 16) gated) b && s.levelMeets b
  let (s1, d0) := s.applyLive 0 live
  let (s2, d1) := s1.applyLive 1 live
  let s3 := (s2.applyGate 0 gated).applyGate 1 gated
  let dark := d0 ||| d1
  let at_ := s3.now + s3.lamp.lead
  (upTo 4).foldl (fun s b =>
    if bit gated b || (bit live b && bit dark b) then s.modBand b (LBand.gate at_)
    else if bit live b then
      s.modBand b fun x => { x with gateEnd := if x.gateOn then at_ else x.gateEnd, gateOn := false }
    else s) s3

/-! ## Frames that return, drivers and chains (R356, R366–R370) -/

/-- Every band's strings follow their drivers, and R20 is judged again. -/
def State.followAll (s : State) : State := ((upTo 4).foldl (fun s b => s.followStrings b) s).judgeDead

/-- A driver resumed (R370). -/
def State.resume (d : Nat) (s : State) : State := (s.lampSend (d / 8) 6 (d % 8) []).setDriver d 1

/-- The state that a STATUS slot shows: KILLED or its kill input, WATCHDOG, FAULT, else ACTIVE (R355, R369). -/
def slotState (v : Nat) : Nat := if bit v 0 || bit v 5 then 2 else if bit v 1 then 3 else if bit v 3 then 5 else 1

/-- A driver's STATUS slot taken (R355, R369, R370). -/
def State.takeSlot (d v : Nat) (s : State) : State :=
  let old := (s.driver d).status
  let s1 := s.modDriver d fun x => { x with status := v }
  let s2 := if bit old 3 != bit v 3 || fld old 15 8 != fld v 15 8 then s1.raise 0xE6 d (fld v 7 0 * 256 + fld v 15 8) else s1
  let was := s2.obs (wDriver d)
  let st := slotState v
  if st = 3 then
    let s3 := if was = 3 then s2 else (s2.setDriver d 3).raise 0xE5 d 2
    s3.resume d
  else s2.setDriver d st

/-- A frame returned with a good CRC: acks noted; STATUS slots and READ replies taken (R356, R386). -/
def State.takeLampFrame (n : Nat) (b : Bytes) (s : State) : State :=
  let acks := lampAcks b
  let s1 := (if 3 ≤ leAt b 0 1 then s.dropLease (7 + n) else s).modChain n fun c => { c with
    lastFrame := s.now
    sets := c.sets.map fun x => if leAt b 0 1 = 1 && x.seq = leAt b 2 1 then { x with acks := some acks } else x }
  let ds := (upTo (s.num 0xD002 n)).filter fun k => bit acks k
  let s2 := ds.foldl (fun s k => s.modDriver (8 * n + k) fun d => { d with lastAck := s.now }) s1
  let s3 := if (s2.chain n).st = 2 then
      ds.foldl (fun s k => if s.obs (wDriver (8 * n + k)) = 4 then s.resume (8 * n + k) else s) s2 else s2
  let s4 := match leAt b 0 1 with
    | 2 => ds.foldl (fun (s : State) k => s.takeSlot (8 * n + k) (leAt b (3 + 4 * k) 4)) s3
    | 3 => s3.modDriver (8 * n + leAt b 1 1 % 8) fun d => { d with reply := leAt b 4 4 }
    | _ => s3
  s4.followAll

/-- A frame that comes back on LRXn (R356). -/
def State.lampReturn (n : Nat) (b : Bytes) (s : State) : State :=
  if lampCrcOk b then s.takeLampFrame n b
  else
    let c := s.chain n
    let due := match c.errEvent with
      | some t => decide (t + 1000000000 ≤ s.now)
      | none => true
    (s.modChain n fun c => { c with
      errors := (c.errors + 1) % 2 ^ 32, errEvent := if due then some s.now else c.errEvent }).raiseLimited due 0xE7 n
      ((c.errors + 1) % 65536)

/-! ## The rows -/

/-- BAND_ESTIMATE_LATCH (R327). -/
def execBandEstimateLatch (t : Nat) (s : State) : Host.Outcome State Fault Refusal :=
  let s := s.advance t
  let f := s.seqr.count + 2
  if s.mews.dev.lit && decide (s.tF (f - 1) ≤ (s.wall : Int) + 50000) && !(s.loop.ests.any fun e => e.frame = f) then
    .next (s.latchEstimate f)
  else .next s

/-- PIP_WINDOW (R379). -/
def execPipWindow (t group : Nat) (sums : List (Int × Bool)) (s : State) : Host.Outcome State Fault Refusal :=
  .next ((s.advance t).pipWindow group sums)

/-- LOOP_TICK (R320). -/
def execLoopTick (t : Nat) (sums : List (Int × Bool)) (s : State) : Host.Outcome State Fault Refusal :=
  .next ((s.advance t).loopTick sums)

/-- LOOP_FEEDBACK_LOST (R316): the second mean missing in a row. -/
def execLoopFeedbackLost (t band : Nat) (s : State) : Host.Outcome State Fault Refusal :=
  let s := s.advance t
  if 2 ≤ (s.lband band).miss && s.obs (wBand band) = 1 then .next ((s.raise 0xC8 band 2).enterHold band 4) else .next s

/-- The deviation of a window in 0.01%, saturating (R341). -/
def deviation (yn m : Int) : Nat := if m = 0 then 65535 else min 65535 ((yn - m).natAbs * 10000 / m.natAbs)

/-- Whether a verdict of R341 is to be acted on: the band is CLOSED, or another verdict of the same tick took it to HOLD_MODEL
or DERATE (R336). -/
def State.verdictDue (s : State) (b flag : Nat) : Bool :=
  let o := s.obs (wBand b)
  o = 1 || ((o = 2 || o = 3) && (s.lband b).fault &&& flag = 0 && (s.lband b).fault &&& 3 != 0)

/-- LOOP_IMPLAUSIBLE (R341). -/
def execLoopImplausible (t band : Nat) (s : State) : Host.Outcome State Fault Refusal :=
  let s := s.advance t
  let x := s.lband band
  if 32 ≤ x.impl && s.verdictDue band 2 then
    let s1 := s.raise 0xC9 band (deviation x.yn x.m)
    .next (if s.obs (wBand band) = 1 then s1.enterHold band 2 else s1.modBand band fun x => { x with fault := x.fault ||| 2 })
  else .next s

/-- BAND_FROZEN (R341). -/
def execBandFrozen (t band : Nat) (s : State) : Host.Outcome State Fault Refusal :=
  let s := s.advance t
  if frozenVerdict (s.lband band).readings (s.num 0xC050 band) && s.verdictDue band 1 then
    let s1 := s.raise 0xC8 band 1
    .next (if s.obs (wBand band) = 1 then s1.enterHold band 1 else s1.modBand band fun x => { x with fault := x.fault ||| 1 })
  else .next s

/-- BAND_CLOSE (R333, R344). -/
def execBandClose (t band : Nat) (s : State) : Host.Outcome State Fault Refusal := .next ((s.advance t).closeBand band)

/-- WARM_RAMP_COMPLETE (R334). -/
def execWarmRampComplete (t band : Nat) (s : State) : Host.Outcome State Fault Refusal := .next ((s.advance t).warmEnd band)

/-- CAL_FREEZE (R339). -/
def execCalFreeze (t band : Nat) (s : State) : Host.Outcome State Fault Refusal :=
  let s := s.advance t
  if 4 ≤ (s.lband band).failRun && !bit (s.lband band).fault 4 then
    .next ((s.modBand band fun x => { x with fault := x.fault ||| 16 }).raise 0xCF band 2)
  else .next s

/-- PILOT_RUN_END (R338). -/
def execPilotRunEnd (t band : Nat) (s : State) : Host.Outcome State Fault Refusal := .next ((s.advance t).pilotEnd band)

/-- TRACE_TRIGGER (R346): an IMMEDIATE trigger, or a FRAME trigger before the first tick of a frame. An EVENT trigger comes
through its task input (R486). -/
def execTraceTrigger (t buffer : Nat) (s : State) : Host.Outcome State Fault Refusal :=
  let s := s.advance t
  let kind := fld (s.num 0xC060 buffer) 39 32
  if kind = 0 || (kind = 2 && s.loop.tick = 0) then .next (s.traceTrigger buffer) else .next s

/-- LOOP_TRACE_DONE (R346). -/
def execLoopTraceDone (t buffer : Nat) (s : State) : Host.Outcome State Fault Refusal := .next ((s.advance t).traceDone buffer)

/-- APPLY_LAUNCH (R359). -/
def execApplyLaunch (t bands : Nat) (s : State) : Host.Outcome State Fault Refusal := .next ((s.advance t).launch bands)

/-- SET_SEND (R362). -/
def execSetSend (t chain bands ahead bank at_ : Nat) (s : State) : Host.Outcome State Fault Refusal :=
  .next ((s.advance t).sendSet' chain bands ahead bank at_)

/-- STATUS_FRAME_SEND (R363). -/
def execStatusFrameSend (t chain : Nat) (s : State) : Host.Outcome State Fault Refusal :=
  let s := s.advance t
  if (s.chain chain).st = 2 then
    .next (s.lampSend chain 2 0x0F (List.replicate (4 * s.num 0xD002 chain) 0))
  else .next s

/-- LAMP_FRAME_RETURN (R356). -/
def execLampFrameReturn (t chain : Nat) (frame : Bytes) (s : State) : Host.Outcome State Fault Refusal :=
  .next ((s.advance t).lampReturn chain frame)

/-- LAMP_DRIVER_LOST (R368). -/
def execLampDriverLost (t driver : Nat) (s : State) : Host.Outcome State Fault Refusal :=
  let s := s.advance t
  if (s.chainDrivers (driver / 8)).contains driver && (s.chain (driver / 8)).st = 2 && s.obs (wDriver driver) != 4 &&
      decide ((s.driver driver).lastAck + 100000 ≤ s.now) then
    .next (((s.setDriver driver 4).raise 0xE5 driver 1).followAll)
  else .next s

/-- LAMP_CHAIN_DOWN (R368): cause 1 lock lost, cause 2 no intact frame for 100 µs. -/
def execLampChainDown (t chain cause : Nat) (s : State) : Host.Outcome State Fault Refusal :=
  let s := s.advance t
  if cause = 1 || (cause = 2 && decide ((s.chain chain).lastFrame + 100000 ≤ s.now)) then
    .next ((s.chainDown chain cause).followAll)
  else .next s

/-- CHAIN_ENUMERATE (R366): the enumeration that is running, or that is due on a chain that is DOWN. -/
def execChainEnumerate (t chain count : Nat) (regs : List (List Nat)) (loop : Nat) (s : State) :
    Host.Outcome State Fault Refusal :=
  let s := s.advance t
  let c := s.chain chain
  if c.st = 1 || (c.st = 0 && s.mews.dev.counts && decide (c.lastEnum + 100000000 ≤ s.now)) then
    .next ((s.enumerate chain count regs loop).followAll)
  else .next s

/-- LAMP_INTLK_DISCREPANCY (R375). -/
def execLampIntlkDiscrepancy (t : Nat) (s : State) : Host.Outcome State Fault Refusal :=
  let s := s.advance t
  match s.lamp.differ with
  | some since =>
    if since + s.num 0xD024 * 1000000 < s.now && !s.lamp.differTold then
      .next ((s.modLamp fun l => { l with discrepancy := true, lowTogether := false, differTold := true }).raise 0xEC 0
        (min 65535 ((s.now - since) / 1000000)))
    else .next s
  | none => .next s

/-- LAMP_SENSOR_LOST (R383, R384). -/
def execLampSensorLost (t channel : Nat) (s : State) : Host.Outcome State Fault Refusal :=
  .next ((upTo 4).foldl (fun s b => s.bandTempJudge b) ((s.advance t).sensorJudge channel))

/-- LAMP_RAIL (R385). -/
def execLampRail (t channel : Nat) (s : State) : Host.Outcome State Fault Refusal := .next ((s.advance t).railJudge channel)

/-- INTERLOCK_CLOSE (R371, R389). -/
def execInterlockClose (t input : Nat) (s : State) : Host.Outcome State Fault Refusal :=
  let s := s.advance t
  let b := input % 2 = 1
  if (if b then s.lamp.intlkB else s.lamp.intlkA) then .next s
  else .next ((s.intlkLevel b true).raise 0xE0 (input % 2) 0)

end Sys2Proof.Machine
end

