-- ==== Sys2Proof/Machine/Whel.lean ====
section
/-! DEFINITION. The wheel motors: starting, catching, holding speed, losing and regaining the rotor, and the rows of their events
(R390–R412), with wheel phase as SEQR judges it (R266–R268). -/

namespace Sys2Proof.Machine

def State.wheel (s : State) (n : Nat) : Wheel := s.whel.getD n {}

/-- Changes one wheel. -/
def State.modWheel (n : Nat) (f : Wheel → Wheel) (s : State) : State := s.modWhel fun w => modAt w n f

/-- The run speed of a wheel in 0.001 rpm (R398). -/
def runSpeed (v : View) (n : Nat) : Nat := if v 0xB040 n = 1 then lockSpeed v n else 1000 * v 0xE003 n

/-- Whether a wheel is fitted. -/
def State.fitted (s : State) (n : Nat) : Bool := s.num 0xE001 n = 1

/-! ## The bridge (R390–R392) -/

/-- The driving and the returning phase of a commutation step. The manual names six steps, and no order of them
(log entry 148, PRESUMED, unsafe). -/
def stepPhases (k : Nat) : Nat × Nat := [(0, 1), (0, 2), (1, 2), (1, 0), (2, 0), (2, 1)].getD (k % 6) (0, 1)

/-- The use of the six gates: the high side of the driving phase is switched, the low side of the returning one is on, and the third
phase floats (R391). Aligning drives from A to B (R400); negative torque exchanges the two phases, and short-circuit braking switches
every low side (R401). -/
def wantGates (m : BridgeMode) (k : Nat) : List GateUse :=
  let pair (hi lo : Nat) : List GateUse := (upTo 6).map fun i => if i = hi then .pwm else if i = lo + 3 then .on else .off
  match m with
  | .off => List.replicate 6 .off
  | .drive => pair (stepPhases k).1 (stepPhases k).2
  | .align => pair 0 1
  | .synchronous => pair (stepPhases k).2 (stepPhases k).1
  | .short => (upTo 6).map fun i => if 3 ≤ i then .pwm else .off

/-- A change of the gates at a tick: gates that leave go off at once, and one that comes waits for the dead time, in ticks, after the
other gate of its phase turned off (R391). Each change comes with its tick. -/
def Bridge.change (dead at_ : Nat) (want : List GateUse) (b : Bridge) : Bridge × List (Nat × GateUse × Nat) :=
  let use (i : Nat) : GateUse := b.gates.getD i .off
  let to_ (i : Nat) : GateUse := want.getD i .off
  let off := (upTo 6).map fun i => if use i != .off && to_ i = .off then at_ else natAt b.offAt i
  ({ b with gates := want, offAt := off },
    ((upTo 6).filter fun i => use i != to_ i).map fun i =>
      (i, to_ i, if use i = .off then max at_ (natAt off ((i + 3) % 6) + dead) else at_))

/-- The local time in ticks of 2.5 ns. -/
def State.tick25 (s : State) : Nat := s.now * 2 / 5

/-- The dead time of a wheel in ticks (R391). -/
def State.deadTicks (s : State) (n : Nat) : Nat := divCeil (s.num 0xE011 n * 2) 5

/-- A wheel's bridge driven in a mode from a step on, `after` ticks from now. Every gate stays off while the fault input is low
(R393). -/
def State.bridgeTo (n : Nat) (m : BridgeMode) (k after : Nat) (s : State) : State :=
  let w := s.wheel n
  let mode := if w.faultIn then .off else m
  let (b, edges) := w.bridge.change (s.deadTicks n) (s.tick25 + after) (wantGates mode k)
  (s.modWheel n fun w => { w with bridge := { b with mode := mode, step := k, cut := false } }).emits
    (edges.map fun e => .wheelGate n e.1 e.2.1 e.2.2)

/-- Every gate of a wheel off, or its bridge driven in six steps. -/
def State.gates (n : Nat) (on : Bool) (s : State) : State :=
  s.bridgeTo n (if on then .drive else .off) (s.wheel n).bridge.step 0

/-- The current in mA at which the switched gates turn off for the rest of the PWM period: that of R392, or the smaller one set for
aligning and braking (log entry 149, DEDUCED, unsafe). -/
def State.gateLimit (s : State) (n : Nat) : Nat :=
  match (s.wheel n).bridge.mode with
  | .align => min (s.num 0xE012 n) (s.num 0xE017 n)
  | .synchronous | .short => min (s.num 0xE012 n) (s.num 0xE014 n)
  | _ => s.num 0xE012 n

/-- The switched gates off for the rest of the period, or on again in the next (R392). -/
def State.cutGates (n : Nat) (v : Bool) (s : State) : State :=
  let w := s.wheel n
  if w.bridge.cut = v || w.bridge.mode = .off then s
  else
    let want := wantGates w.bridge.mode w.bridge.step
    let (b, edges) := w.bridge.change (s.deadTicks n) s.tick25 (if v then want.map fun u => if u = .pwm then .off else u else want)
    (s.modWheel n fun w => { w with bridge := { b with cut := v } }).emits (edges.map fun e => .wheelGate n e.1 e.2.1 e.2.2)

/-- The PWM of a wheel at a duty in 1/32,768: it counts CD21 cycles of 2.5 ns (R391). -/
def State.setDuty (n : Nat) (duty : Int) (s : State) : State :=
  let p := if s.num 0xE010 n = 0 then 0 else divHalfUp 400000000 (s.num 0xE010 n)
  (s.modWheel n fun w => { w with duty := duty }).emit (.wheelPwm n p (p * (clampI 0 32767 duty).toNat / 32768))

/-- Ticks from a crossing to its commutation: 30° electrical less the advance, of a period of 60° (R394). -/
def commutesAfter (tc adv : Nat) : Nat := tc * (300 - adv) / 600

/-- Groups whose light a wheel gates (R407). -/
def State.wheelGroups (s : State) (n : Nat) : List Nat :=
  (existingGroups s.live).filter fun g =>
    s.num 0xE005 n = 1 || (n = 0 && (groupBands s.live g).any fun b => s.num 0xC004 b = 2)

/-- A wheel that leaves LOCKED: its groups are gated, and it leaves phase (R268, R405, R407). -/
def State.unlockWheel (n : Nat) (s : State) : State :=
  let gs := s.wheelGroups n
  (s.modLoop fun l => { l with
    wheelGate := setAt l.wheelGate n true
    relight := (l.relight.zip (upTo 4)).map fun p => if gs.contains p.2 then none else p.1 }).losePhase n

/-- A wheel's observed state, with event 0xF1. -/
def State.setWheel (n v : Nat) (s : State) : State :=
  let old := s.obs (wWheel n)
  if old = v then s
  else
    let s1 := (s.setObs (wWheel n) v).raise 0xF1 n (old * 256 + v)
    if old = 4 then s1.unlockWheel n else s1

/-- A wheel to FAULT with a cause, its gates off (R392, R393, R403). -/
def State.wheelFault (n cause : Nat) (s : State) : State :=
  let s1 := (s.gates n false).modWheel n fun w => { w with
    faultCause := cause, listenEnd := none, recovering := none, seekIndex := false, stopSeen := false }
  if s.obs (wWheel n) = 7 then s1 else (s1.raise 0xF3 n cause).setWheel n 7

/-- The 20 ms listen starts, gates off (R399). -/
def State.listen (n : Nat) (s : State) : State :=
  ((s.gates n false).modWheel n fun w => { w with
    listenEnd := some (s.now + 20000000), trySince := s.now, closed := false, seekIndex := false
    good := 0, bad := 0, seen := 0, stall := 0, fromStop := false, toAlign := true }).setWheel n 1

/-- Braking starts: synchronous where a bus channel is named, else short-circuit (R401). -/
def State.brake (n : Nat) (align : Bool) (s : State) : State :=
  let short := s.num 0xE015 n = 0xFF
  ((s.bridgeTo n (if short then .short else .synchronous) (s.wheel n).bridge.step 0).modWheel n fun w => { w with
    shortBrake := short, toAlign := align, fromStop := !align, listenEnd := none }).setWheel n 6

/-- Aligning starts (R400). -/
def State.align (n : Nat) (s : State) : State :=
  ((s.bridgeTo n .align 0 0).modWheel n fun w => { w with alignSince := s.now, listenEnd := none }).setWheel n 2

/-- The speed command rises at `whel.accel` from the speed that the wheel has (R399, R400, R402). -/
def State.rampSpeed (n : Nat) (s : State) : State :=
  s.modWheel n fun w => { w with rampFrom := 1000 * w.speed.toNat, rampAt := s.now }

/-- The speed command in 0.001 rpm before the trim: it rises at `whel.accel` to the run speed, which LOCKED holds. -/
def State.speedCommand (s : State) (n : Nat) : Nat :=
  let w := s.wheel n
  if s.obs (wWheel n) = 4 then runSpeed s.live n
  else min (runSpeed s.live n) (w.rampFrom + (s.now - w.rampAt) * s.num 0xE01B n / 1000000)

/-- Commutation period in 2.5 ns at a speed in rpm, 0 at standstill (R394). -/
def periodAt (p : Nat) (speed : Int) : Nat := if speed = 0 || p = 0 then 0 else divHalfUp 4000000000 (p * speed.natAbs)

/-- Closed-loop ramping starts from the observer, which is seeded with the present speed, at zero torque (R399). -/
def State.rampClosed (n : Nat) (s : State) : State :=
  (((s.gates n true).setDuty n 0).rampSpeed n).modWheel n (fun w => { w with
    closed := true, listenEnd := none, seekIndex := false, good := 0, bad := 0, stall := 0, pi := 0
    tc := periodAt (s.num 0xE002 n) w.speed }) |>.setWheel n 3

/-- The decision of R399 on a speed in rpm (log entry 86, DEDUCED, safe). -/
def State.startDecide (n : Nat) (speed : Int) (s : State) : State :=
  let run : Int := runSpeed s.live n
  if run < 10000 * speed then s.rampClosed n
  else if 100000 * speed < run && -run < 100000 * speed || run = 0 then s.align n
  else if 0 < speed then
    if s.num 0xE006 n = 1 then s.brake n true
    else ((s.gates n false).modWheel n fun w => { w with
      coastSince := s.now, toAlign := true, fromStop := false, listenEnd := none }).setWheel n 5
  else s.brake n true

/-- A run command (R399, R409, R410). -/
def State.wheelRun (n : Nat) (s : State) : State :=
  let w := s.wheel n
  let begin_ (s : State) : State := s.modWheel n fun w => { w with
    starts := (w.starts + 1) % 2 ^ 32, tries := 0, trySince := s.now, recovering := none }
  if !s.fitted n then s
  else match s.obs (wWheel n) with
    | 0 => (begin_ s).listen n
    | 5 => if w.fromStop then (begin_ s).startDecide n w.speed else if w.listenEnd.isSome || w.toAlign then s else (begin_ s).listen n
    | 6 => if w.fromStop then (begin_ s).startDecide n w.speed else s
    | 7 => if w.stopSeen && !w.faultIn then (begin_ s).listen n else s
    | _ => s

/-- A stop command (R409, R410). -/
def State.wheelStop (n : Nat) (s : State) : State :=
  let s0 := s.modWheel n fun w => { w with recovering := none, seekIndex := false, listenEnd := none, stopSeen := true }
  match s.obs (wWheel n) with
  | 0 | 7 => s0
  | _ =>
    if s.num 0xE007 n = 1 then s0.brake n false
    else ((s0.gates n false).modWheel n fun w => { w with fromStop := true, toAlign := false, coastSince := s.now }).setWheel n 5

/-- A wheel at the entry to SAFE: gates off at once, coasting, commanded STOPPED (R409). -/
def State.wheelSafe (n : Nat) (s : State) : State :=
  let s1 := ((s.gates n false).modWheel n fun w => { w with
    recovering := none, seekIndex := false, listenEnd := none, stopSeen := true, fromStop := true, toAlign := false
    coastSince := s.now }).setCmd (wWheel n) 0
  match s.obs (wWheel n) with
  | 0 | 7 => s1
  | _ => s1.setWheel n 5

/-- A start that failed (R400): the gates go off, and the wheel listens again or goes to FAULT. -/
def State.startFail (n cause : Nat) (s : State) : State :=
  let s1 := ((s.gates n false).modWheel n fun w => { w with tries := w.tries + 1, recovering := none }).raise 0xF4 n cause
  if s.num 0xE01C n ≤ (s1.wheel n).tries then s1.wheelFault n 4 else s1.listen n

/-- The forced speed of an open-loop ramp in rpm (R400). -/
def State.forcedSpeed (s : State) (n : Nat) : Nat := (s.now - (s.wheel n).rampSince) * s.num 0xE019 n / 1000000000

/-- Whether the wheel is in closed-loop RAMPING or LOCKED. -/
def State.closedLoop (s : State) (n : Nat) : Bool :=
  s.obs (wWheel n) = 4 || (s.obs (wWheel n) = 3 && (s.wheel n).closed)

/-- Speed in rpm of a commutation period of `tc` × 2.5 ns (R394). -/
def crossingSpeed (p tc : Nat) : Nat := if p = 0 || tc = 0 then 0 else divHalfUp 4000000000 (p * tc)

/-- Phase error in 0.1° electrical of a crossing `late` × 2.5 ns after the prediction (R395). -/
def crossingError (tc : Nat) (late : Int) : Int := if tc = 0 then 0 else satS16 (divAway (late * 600) tc)

/-- The speed PI at a commutation (R402; log entry 24, DEDUCED, unsafe). -/
def piStep (kp ki : Nat) (err pi : Int) : Int × Int :=
  let i := sat40 (pi + gainMul ki err)
  (i, (gainMul kp err + i) / 32768)

/-- The commutation that follows a crossing: the next step, or the one before where the rotor turns backwards (R394). -/
def State.commutate (n tc : Nat) (back : Bool) (s : State) : State :=
  let b := (s.wheel n).bridge
  s.bridgeTo n b.mode (if back then (b.step + 5) % 6 else (b.step + 1) % 6) (commutesAfter tc (s.num 0xE01D n))

/-- A zero crossing (R394, R395, R402, R403). -/
def State.crossing (n tc : Nat) (late : Int) (back : Bool) (s : State) : State :=
  let w := s.wheel n
  if 10 * tc < w.tc || tc = 0 then s
  else
    let sp : Int := crossingSpeed (s.num 0xE002 n) tc
    let speed := satS16 (if back then -sp else sp)
    let err := crossingError tc late
    let run := runSpeed s.live n
    let fast := if 11 * (run : Int) < 10000 * speed then w.fast + 1 else 0
    let target : Int := divAway ((s.speedCommand n : Int) * 100000 + run * w.trim) 100000000
    let s1 := s.modWheel n fun w => { w with
      tc := tc, prevSpeed := w.speed, speed := speed, phaseErr := err, fast := fast
      good := if err.natAbs ≤ 150 then w.good + 1 else 0
      bad := if 300 < err.natAbs then w.bad + 1 else 0
      seen := if err.natAbs ≤ 300 then w.seen + 1 else 0 }
    if (8 ≤ fast || 19800 < speed) && s.obs (wWheel n) != 0 then s1.wheelFault n 3
    else if s.obs (wWheel n) = 5 && w.toAlign && w.listenEnd.isNone && 100000 * speed < run then s1.align n
    else if s.closedLoop n then
      let (i, duty) := piStep (s.num 0xE020 n) (s.num 0xE021 n) (target - speed) w.pi
      ((s1.modWheel n fun w => { w with pi := i }).setDuty n duty).commutate n tc back
    else if s.obs (wWheel n) = 6 && !w.shortBrake then s1.commutate n tc back
    else s1

/-- The step that open-loop ramping forces: 6 × p steps a revolution at a speed that rises from standstill (R400). -/
def State.forcedStep (s : State) (n : Nat) : Nat :=
  let dt := s.now - (s.wheel n).rampSince
  s.num 0xE002 n * s.num 0xE019 n * dt * dt / 20000000000000000000 % 6

/-- Open-loop ramping follows its forced step, one PWM period at a time. -/
def State.forceStep (n : Nat) (s : State) : State :=
  let w := s.wheel n
  if s.obs (wWheel n) = 3 && !w.closed && w.bridge.step != s.forcedStep n then s.bridgeTo n .drive (s.forcedStep n) 0 else s

/-- A shunt sample in µV at the middle of a PWM period (R392). -/
def State.pwmSample (n uv : Nat) (s0 : State) : State :=
  let s := (s0.cutGates n false).forceStep n
  let sc := s.num 0xE013 n
  let ma := if sc = 0 then 0 else min 65535 (uv / sc)
  let lim := s.num 0xE012 n
  let s1 := s.modWheel n fun w => { w with
    current := ma, stall := if lim ≤ ma && decide (w.speed < w.prevSpeed) then w.stall + 1 else 0 }
  if 3 * lim < 2 * ma then s1.wheelFault n 2
  else if s1.gateLimit n < ma then s1.cutGates n true else s1

/-- The predicted revolution in 2.5 ns: 6 commutations per pole pair (R396). -/
def State.predictedRev (s : State) (n : Nat) : Nat := 6 * s.num 0xE002 n * (s.wheel n).tc

/-- An index edge `period` × 2.5 ns after the one before, 0 for the first (R396, R406). -/
def State.indexEdge (n period width : Nat) (s : State) : State :=
  if s.num 0xE004 n = 0 || width < 100 then s
  else
    let w := s.wheel n
    let pred := s.predictedRev n
    let s1 := s.modWheel n fun w => { w with lastIndex := some s.now, indexMissing := false }
    let s2 := if period = 0 || pred = 0 then s1
      else
        let err := satS16 (divAway (((period : Int) - pred) * 10000) pred)
        let good := if err.natAbs ≤ 50 then w.indexGood + 1 else 0
        let s2 := s1.modWheel n fun w => { w with
          indexErr := err, indexGood := good, goodPeriod := if err.natAbs ≤ 200 then period else w.goodPeriod }
        if 200 < err.natAbs then (s2.modWheel n fun w => { w with indexOk := false }).raise 0xF6 n 0
        else if !w.indexOk && decide (4 ≤ good) then (s2.modWheel n fun w => { w with indexOk := true }).raise 0xF6 n 1
        else s2
    if w.seekIndex && s.obs (wWheel n) = 1 then
      (s2.modWheel n fun w => { w with
        speed := if w.goodPeriod = 0 then w.speed else satS16 (divHalfUp 24000000000 w.goodPeriod : Nat) }).rampClosed n
    else s2

/-- Whether the test of R404 for a cause is met. -/
def State.lossTest (s : State) (n cause : Nat) : Bool :=
  let w := s.wheel n
  match cause with
  | 1 => decide (8 ≤ w.bad)
  | 2 => s.num 0xE004 n != 0 && decide (200 < w.indexErr.natAbs)
  | 3 => s.num 0xE004 n != 0 && w.indexMissing
  | 4 => decide (64 ≤ w.stall)
  | _ => false

/-- The rotor is lost (R405, R406). -/
def State.loseRotor (n cause : Nat) (s : State) : State :=
  let s1 := ((s.gates n false).modWheel n fun w => { w with
    lockLosses := (w.lockLosses + 1) % 2 ^ 32, recovering := some s.now, trySince := s.now
    good := 0, bad := 0, stall := 0, indexErr := 0, indexMissing := false, fromStop := false, toAlign := true }).raise 0xF0 n cause
  if s.num 0xE004 n != 0 then (s1.modWheel n fun w => { w with seekIndex := true, listenEnd := none }).setWheel n 1
  else (s1.modWheel n fun w => { w with listenEnd := some (s.now + 20000000) }).setWheel n 5

/-- The bridge supply judged against its limit while a wheel brakes (R401). `c` is the slow channel just converted. -/
def State.busJudge (c n : Nat) (s : State) : State :=
  if s.num 0xE015 n != c || s.obs (wWheel n) != 6 then s
  else
    let mv := (s.lamp.slow.getD c {}).value
    let top : Int := s.num 0xE016 n
    let w := s.wheel n
    if !w.shortBrake && decide (top ≤ mv) then
      ((s.bridgeTo n .short w.bridge.step 0).modWheel n fun w => { w with shortBrake := true }).raise 0xF5 n 1
    else if w.shortBrake && decide (100 * mv < 95 * top) then
      ((s.bridgeTo n .synchronous w.bridge.step 0).modWheel n fun w => { w with shortBrake := false }).raise 0xF5 n 0
    else s

/-- A wheel at a frame boundary: a change of run speed, the phase trim, and the frame counted towards its phase (R268, R402). -/
def State.wheelBoundary (n : Nat) (s : State) : State :=
  let w := s.wheel n
  let run := runSpeed s.live n
  let lock := s.num 0xB040 n = 1
  let e := (s.seqr.wheels.getD n {}).err
  let trim := if lock then clampI (-500) 500 (divAway ((s.num 0xE022 n : Int) * e) 100) else 0
  let s1 := s.modWheel n fun w => { w with run := run, trim := trim }
  let s2 := if s.obs (wWheel n) = 4 && decide (w.run < 100 * ((run : Int) - w.run).natAbs) then
      ((s1.modWheel n fun w => { w with closed := true, good := 0, trySince := s.now }).rampSpeed n).setWheel n 3 else s1
  if lock && s.obs (wWheel n) = 4 then s2.wheelFrame n else s2

/-- The gates of a wheel's light lifted at a boundary once it is LOCKED, with the ramp of R408. -/
def State.liftWheel (n : Nat) (s : State) : State :=
  if s.obs (wWheel n) = 4 && s.loop.wheelGate.getD n false then
    let gs := s.wheelGroups n
    s.modLoop fun l => { l with
      wheelGate := setAt l.wheelGate n false
      relight := (l.relight.zip (upTo 4)).map fun p => if gs.contains p.2 then some (0, max 1 (s.num 0xE023 n)) else p.1 }
  else s

/-! ## The rows -/

/-- WHEEL_RUN (R399): the run command of a wheel commanded LOCKED. -/
def execWheelRun (t wheel : Nat) (s : State) : Host.Outcome State Fault Refusal :=
  let s := s.advance t
  if (s.unitRec (wWheel wheel)).cmd = 4 then .next (s.wheelRun wheel) else .next s

/-- WHEEL_STOP (R409): the stop command of a wheel commanded STOPPED. -/
def execWheelStop (t wheel : Nat) (s : State) : Host.Outcome State Fault Refusal :=
  let s := s.advance t
  if (s.unitRec (wWheel wheel)).cmd = 0 && !(s.wheel wheel).fromStop then .next (s.wheelStop wheel) else .next s

/-- WHEL_CATCH (R399): the listen ends with a space vector of `amp` µV, negative when the rotor turns backwards. -/
def execWhelCatch (t wheel : Nat) (amp : Int) (s : State) : Host.Outcome State Fault Refusal :=
  let s := s.advance t
  match (s.wheel wheel).listenEnd with
  | some e =>
    if s.now < e then .next s
    else
      let ke := s.num 0xE01E wheel
      let speed := satS16 (if ke = 0 then 0 else divTrunc amp ke)
      let sp := if amp.natAbs < 1000 * s.num 0xE01F wheel then 0 else speed
      let s1 := (s.modWheel wheel fun w => { w with speed := speed, listenEnd := none }).raise 0xF2 wheel (ofS 16 speed)
      .next (s1.startDecide wheel sp)
  | none => .next s

/-- ALIGN_END (R400). -/
def execAlignEnd (t wheel : Nat) (s : State) : Host.Outcome State Fault Refusal :=
  let s := s.advance t
  if s.obs (wWheel wheel) = 2 && decide ((s.wheel wheel).alignSince + s.num 0xE018 wheel * 1000000 ≤ s.now) then
    .next (((s.modWheel wheel fun w => { w with rampSince := s.now, closed := false, seen := 0, good := 0, bad := 0 }).bridgeTo
      wheel .drive 0 0).setWheel wheel 3)
  else .next s

/-- OPEN_LOOP_HANDOVER (R400). -/
def execOpenLoopHandover (t wheel : Nat) (s : State) : Host.Outcome State Fault Refusal :=
  let s := s.advance t
  if s.obs (wWheel wheel) = 3 && !(s.wheel wheel).closed && decide (s.num 0xE01A wheel ≤ s.forcedSpeed wheel) &&
      decide (6 ≤ (s.wheel wheel).seen) then
    .next ((s.modWheel wheel fun w => { w with closed := true, good := 0, bad := 0, pi := 0 }).rampSpeed wheel)
  else .next s

/-- WHEL_START_FAIL (R400): no hand-over by 1.2 times its speed, or not LOCKED within 60 s. -/
def execWhelStartFail (t wheel : Nat) (s : State) : Host.Outcome State Fault Refusal :=
  let s := s.advance t
  let o := s.obs (wWheel wheel)
  let w := s.wheel wheel
  let starting := o = 1 || o = 2 || o = 3 || ((o = 5 || o = 6) && !w.fromStop)
  if o = 3 && !w.closed && decide (12 * s.num 0xE01A wheel ≤ 10 * s.forcedSpeed wheel) then .next (s.startFail wheel 1)
  else if starting && (s.unitRec (wWheel wheel)).cmd = 4 && decide (w.trySince + 60000000000 ≤ s.now) then
    .next (s.startFail wheel 2)
  else .next s

/-- WHEEL_LOCKED (R398). -/
def execWheelLocked (t wheel : Nat) (s : State) : Host.Outcome State Fault Refusal :=
  let s := s.advance t
  let w := s.wheel wheel
  let run := runSpeed s.live wheel
  if s.obs (wWheel wheel) = 3 && w.closed && decide (100 * (1000 * w.speed - run).natAbs ≤ run) && decide (256 ≤ w.good) &&
      (s.num 0xE004 wheel = 0 || decide (4 ≤ w.indexGood)) then
    .next ((s.modWheel wheel fun w => { w with tries := 0, recovering := none, run := run }).setWheel wheel 4)
  else .next s

/-- ZERO_CROSSING (R394). -/
def execZeroCrossing (t wheel period : Nat) (late : Int) (backward : Bool) (s : State) : Host.Outcome State Fault Refusal :=
  .next ((s.advance t).crossing wheel period late backward)

/-- PWM_PERIOD_SAMPLE (R392). -/
def execPwmPeriodSample (t wheel micro : Nat) (s : State) : Host.Outcome State Fault Refusal :=
  .next ((s.advance t).pwmSample wheel micro)

/-- WHEEL_FAULT_INPUT (R393). -/
def execWheelFaultInput (t wheel : Nat) (low : Bool) (s : State) : Host.Outcome State Fault Refusal :=
  let s := (s.advance t).modWheel wheel fun w => { w with faultIn := low }
  .next (if low then s.wheelFault wheel 1 else s)

/-- INDEX_EDGE (R396). -/
def execIndexEdge (t wheel period width : Nat) (s : State) : Host.Outcome State Fault Refusal :=
  .next ((s.advance t).indexEdge wheel period width)

/-- INDEX_MISSING (R396). -/
def execIndexMissing (t wheel : Nat) (s : State) : Host.Outcome State Fault Refusal :=
  let s := s.advance t
  let w := s.wheel wheel
  match w.lastIndex with
  | some l =>
    -- 1.5 revolutions of 2.5 ns units, in quarters of ns
    if s.num 0xE004 wheel != 0 && w.speed != 0 && !w.indexMissing && decide (15 * s.predictedRev wheel ≤ 4 * (s.now - l)) then
      .next ((s.modWheel wheel fun w => { w with indexMissing := true, indexOk := false, indexGood := 0 }).raise 0xF6 wheel 0)
    else .next s
  | none => .next s

/-- WHEL_LOCK_LOST (R404, R405). -/
def execWhelLockLost (t wheel cause : Nat) (s : State) : Host.Outcome State Fault Refusal :=
  let s := s.advance t
  if s.closedLoop wheel && s.lossTest wheel cause then .next (s.loseRotor wheel cause) else .next s

/-- WHEEL_RECOVERY_TIMEOUT (R406). -/
def execWheelRecoveryTimeout (t wheel : Nat) (s : State) : Host.Outcome State Fault Refusal :=
  let s := s.advance t
  match (s.wheel wheel).recovering with
  | some r =>
    if r + 5000000000 ≤ s.now && s.obs (wWheel wheel) != 4 then .next (s.startFail wheel 2) else .next s
  | none => .next s

/-- WHEEL_STANDSTILL (R399, R401): the vector amplitude has stayed below the floor for 100 ms. -/
def execWheelStandstill (t wheel : Nat) (s : State) : Host.Outcome State Fault Refusal :=
  let s := s.advance t
  let o := s.obs (wWheel wheel)
  if o = 6 || (o = 5 && (s.wheel wheel).listenEnd.isNone) then
    let s := s.modWheel wheel fun w => { w with speed := 0 }
    if (s.wheel wheel).toAlign then .next (s.align wheel)
    else .next (((s.gates wheel false).modWheel wheel fun w => { w with fromStop := false }).setWheel wheel 0)
  else .next s

/-- WHEEL_COAST_TIMEOUT (R399). -/
def execWheelCoastTimeout (t wheel : Nat) (s : State) : Host.Outcome State Fault Refusal :=
  let s := s.advance t
  let w := s.wheel wheel
  if s.obs (wWheel wheel) = 5 && w.toAlign && w.listenEnd.isNone && decide (w.coastSince + 5000000000 ≤ s.now) then
    .next (s.brake wheel true)
  else .next s

/-- WHEEL_MARK_PASS (R267). -/
def execWheelMarkPass (t wheel : Nat) (s : State) : Host.Outcome State Fault Refusal :=
  let s := s.advance t
  if s.num 0xB040 wheel = 1 then
    .next (s.modSeqr fun q => { q with wheels := modAt q.wheels wheel fun w => { w with err := s.markError wheel s.wall } })
  else .next s

/-- SEQR_WHEEL_PHASE (R268). -/
def execSeqrWheelPhase (t wheel : Nat) (s : State) : Host.Outcome State Fault Refusal :=
  let s := s.advance t
  if s.num 0xB040 wheel = 1 then .next (s.judgePhase wheel (s.obs (wWheel wheel) = 4)) else .next s

/-- FSYNC_EDGE (R269–R271): a rising edge on FSYNC_IN, whose pulse turns out `width` ns long. FSYNC_OUT repeats it 20 ns later. -/
def execFsyncEdge (t width : Nat) (s : State) : Host.Outcome State Fault Refusal :=
  let s := s.advance t
  if s.num 0xB050 = 2 then .next ((s.emit (.pulse .fsyncOut width)).fsyncEdge s.wall width) else .next s

/-- FSYNC_EDGE_MISSING (R270). -/
def execFsyncEdgeMissing (t : Nat) (s : State) : Host.Outcome State Fault Refusal :=
  let s := s.advance t
  if s.num 0xB050 = 2 && decide (s.seqr.fsyncRef + (s.seqr.fsyncMiss + 1) * s.fsyncPeriodNow + 2000 ≤ s.wall) then
    .next s.fsyncMissing
  else .next s

/-- FSYNC_LOST (R270). -/
def execFsyncLost (t : Nat) (s : State) : Host.Outcome State Fault Refusal :=
  let s := s.advance t
  if s.num 0xB050 = 2 then .next s.fsyncLost else .next s

end Sys2Proof.Machine
end

