-- ==== Sys2Proof/Machine/Wear.lean ====
section
/-! DEFINITION. Thermal levels, throttle, wear and spares: die and lamp-board temperatures, what a node sheds, and how worn
resources are listed and swapped (R494–R517). -/

namespace Sys2Proof.Machine

/-! ## Die temperature (R494–R496) -/

/-- Set and clear levels of the die in 0.0625 °C (R495). -/
def dieSet : List Int := [1600, 1760, 1920]
def dieClear : List Int := [1520, 1664, 1600]

/-- Conversions that a die level takes. -/
def dieCount : List Nat := [16, 16, 2]

def intAt (l : List Int) (i : Nat) : Int := l.getD i 0

/-- A number put into a rising list. -/
def intInsert (x : Int) : List Int → List Int
  | [] => [x]
  | y :: ys => if x ≤ y then x :: y :: ys else y :: intInsert x ys

/-- The median of the eleven sensors other than `i` (R496). -/
def medianOther (ts : List Int) (i : Nat) : Int :=
  intAt (((ts.zip (upTo 12)).filter fun p => p.2 != i).foldl (fun a p => intInsert p.1 a) []) 5

/-- Whether a reading fails a test of R496. -/
def sensorBad (ts : List Int) (i : Nat) : Bool :=
  let t := intAt ts i
  t < -880 || 2400 < t || decide (320 < (t - medianOther ts i).natAbs)

/-- One sensor's counts after a conversion. -/
def DieSensor.take (ts : List Int) (i : Nat) (x : DieSensor) : DieSensor :=
  let t := intAt ts i
  let bad := sensorBad ts i
  { x with
    temp := t
    up := (upTo 3).map fun l => if intAt dieSet l ≤ t then natAt x.up l + 1 else 0
    down := (upTo 3).map fun l => if t ≤ intAt dieClear l then natAt x.down l + 1 else 0
    badRun := if bad then x.badRun + 1 else 0
    okRun := if bad then 0 else x.okRun + 1 }

/-- The twelve die sensors convert (R494). -/
def State.dieConvert (ts : List Int) (s : State) : State :=
  s.modTherm fun m => { m with die := (m.die.zip (upTo 12)).map fun p => p.1.take ts p.2 }

/-- The hottest sensor that is not excluded, with its index. -/
def State.hottest (s : State) : Option (Nat × Int) :=
  (s.therm.die.zip (upTo 12)).foldl (fun (m : Option (Nat × Int)) p =>
    if p.1.excluded then m
    else match m with
      | none => some (p.2, p.1.temp)
      | some q => if q.2 < p.1.temp then some (p.2, p.1.temp) else some q) none

/-- 0x0021. -/
def State.dieMax (s : State) : Int := (s.hottest.map Prod.snd).getD 0

/-- Excluded sensors. -/
def State.excludedCount (s : State) : Nat := (s.therm.die.filter fun x => x.excluded).length

/-- A sensor excluded after 16 bad conversions, or back after 256 good ones (R496). -/
def State.excludeJudge (i : Nat) (s : State) : State :=
  let judge := fun (x : DieSensor) =>
    if !x.excluded && decide (16 ≤ x.badRun) then { x with excluded := true }
    else if x.excluded && decide (256 ≤ x.okRun) then { x with excluded := false } else x
  s.modTherm fun m => { m with die := modAt m.die i judge }

/-- The first sensor that meets a level's set test (R495). -/
def State.dieMeets (s : State) (l : Nat) : Option Nat :=
  (upTo 12).find? fun i =>
    let x := s.therm.die.getD i {}
    !x.excluded && decide (natAt dieCount l ≤ natAt x.up l)

/-- Whether every sensor that is not excluded meets a level's clear test. -/
def State.dieClears (s : State) (l : Nat) : Bool :=
  s.therm.die.all fun x => x.excluded || decide (natAt dieCount l ≤ natAt x.down l)

/-- The throttle level holds while 4 or more sensors are excluded (R496). -/
def State.exclusionThrottle (s : State) : Bool := decide (4 ≤ s.excludedCount)

/-- Stepping starts as throttle is entered (R498). During a restore it goes on from the present d. -/
def State.throttleEntry (s : State) : State :=
  let dmax := s.num 0x0025
  s.modTherm fun m => { m with
    stepping := true, tref := s.dieMax, lastStep := s.now
    dNext := if s.exclusionThrottle then dmax else if m.dNext = 0 && m.shedNext.isEmpty then min 1 dmax else m.dNext }

/-- A die level set or cleared, with its event. -/
def State.setDieLevel (l : Nat) (v : Bool) (inst : Nat) (temp : Int) (s : State) : State :=
  if s.therm.lv.getD l false = v then s
  else
    let s1 := (s.modTherm fun m => { m with lv := setAt m.lv l v }).raise l (inst + (if v then 0 else 128)) (ofS 16 temp)
    if l = 1 then (if v then s1.throttleEntry else s1.modTherm fun m => { m with stepping := false, lastStep := s.now }) else s1

/-- A die level judged (R495): a level entered takes the lower ones with it, and one that is included in a higher level stays while
the higher one is in force. -/
def State.dieJudge (l : Nat) (s : State) : State :=
  if s.therm.lv.getD l false then
    if s.dieClears l && !(s.therm.lv.getD (l + 1) false) then
      match s.hottest with
      | some (i, t) => s.setDieLevel l false i t
      | none => s
    else s
  else match s.dieMeets l with
    | some i => (upTo (l + 1)).foldl (fun s k => s.setDieLevel k true i (s.therm.die.getD i {}).temp) s
    | none => s

/-! ## Throttle (R498, R499) -/

/-- Layers in the order in which they are shed: descending priority, then higher index (R499). -/
def State.shedOrder (s : State) : List Nat :=
  ((upTo 15).map (15 - ·)).flatMap fun p => ((upTo 16).reverse).filter fun n => s.num 0x0026 n = p

/-- Whether any die throttle is in force. -/
def State.dieThrottled (s : State) : Bool := s.therm.lv.getD 1 false || s.exclusionThrottle

/-- One throttle interval (R498). -/
def State.throttleStep (s : State) : State :=
  let m := s.therm
  let dmax := s.num 0x0025
  let t := s.dieMax
  let s0 := s.modTherm fun m => { m with lastStep := s.now }
  if s.exclusionThrottle then s0.modTherm fun m => { m with dNext := dmax, tref := t }
  else if m.lv.getD 1 false then
    let s1 := if m.tref - 16 < t then
        if m.dNext < dmax then s0.modTherm fun m => { m with dNext := m.dNext + 1 }
        else match s.shedOrder.find? fun n => !m.shedNext.contains n && layerOn s.live n with
          | some n => s0.modTherm fun m => { m with shedNext := m.shedNext ++ [n] }
          | none => s0
      else s0
    s1.modTherm fun m => { m with tref := t }
  else if !m.shedNext.isEmpty then s0.modTherm fun m => { m with shedNext := m.shedNext.dropLast }
  else s0.modTherm fun m => { m with dNext := m.dNext - 1 }

/-- The steps that wait take effect at a frame boundary (R498). -/
def State.throttleBoundary (s : State) : State :=
  let m := s.therm
  let d := if s.exclusionThrottle then max m.dNext (s.num 0x0025) else m.dNext
  (upTo 4).foldl (fun s g => s.setDropped g d) (s.modTherm fun m => { m with d := d, shed := m.shedNext })

/-! ## Lamp boards (R501–R503) -/

/-- Set and clear of a lamp-board level (R501). -/
def State.lampSet (s : State) (l c : Nat) : Int := toS 16 (fld (s.num (0x0030 + l) c) 31 16)
def State.lampClear (s : State) (l c : Nat) : Int := toS 16 (fld (s.num (0x0030 + l) c) 15 0)

/-- Changes one lamp-board channel. -/
def State.modLampLevel (c : Nat) (f : LampLevel → LampLevel) (s : State) : State :=
  s.modTherm fun m => { m with lamp := modAt m.lamp c f }

/-- Counts of a channel after a conversion. A channel that is not a good NTC reaches no level. -/
def State.lampCounts (c : Nat) (s : State) : State :=
  let a := s.lamp.slow.getD c {}
  if s.num 0xD040 c != 1 || a.st != 1 then s.modLampLevel c fun x => { x with up := [0, 0, 0], down := [0, 0, 0] }
  else s.modLampLevel c fun x => { x with
    up := (upTo 3).map fun l => if s.lampSet l c ≤ a.value then natAt x.up l + 1 else 0
    down := (upTo 3).map fun l => if a.value ≤ s.lampClear l c then natAt x.down l + 1 else 0 }

/-- The mean set-point of a band now. -/
def State.bandMean (s : State) (b : Nat) : Nat :=
  match (s.controlling b).map fun k => (s.lstring k).u with
  | [] => 0
  | us => us.foldl (· + ·) 0 / us.length

/-- The caps of a throttled channel at entry, from which its intervals count (R502). -/
def State.lampCapStart (c : Nat) (s : State) : State :=
  s.modLampLevel c fun x => { x with
    tref := (s.lamp.slow.getD c {}).value, stepAt := s.now
    caps := (upTo 4).map fun b =>
      if bit (s.num 0xD042 c) b then some (s.bandMean b * s.num 0x0033 / 32768, s.bandMean b) else x.caps.getD b none }

/-- A level of a channel set or cleared, with its event (R501). -/
def State.setLampLevel (c l : Nat) (v : Bool) (s : State) : State :=
  if (s.therm.lamp.getD c {}).lv.getD l false = v then s
  else
    let s1 := (s.modLampLevel c fun x => { x with lv := setAt x.lv l v }).raise l (c + (if v then 0x10 else 0x90))
      (ofS 16 (s.lamp.slow.getD c {}).value)
    if l != 1 then s1 else if v then s1.lampCapStart c else s1.modLampLevel c fun x => { x with stepAt := s.now }

/-- A level of a channel judged (R495, R501): a level entered takes the lower ones with it, and one that is included in a higher level
stays while the higher one is in force. -/
def State.lampJudge (c : Nat) (s : State) (l : Nat) : State :=
  let x := s.therm.lamp.getD c {}
  if x.lv.getD l false then
    if 4 ≤ natAt x.down l && !(x.lv.getD (l + 1) false) then s.setLampLevel c l false else s
  else if 4 ≤ natAt x.up l then (upTo (l + 1)).foldl (fun s k => s.setLampLevel c k true) s
  else s

/-- One throttle interval of a lamp-board channel, where it has passed (R502). -/
def State.lampStep (c : Nat) (s : State) : State :=
  let x := s.therm.lamp.getD c {}
  let t := (s.lamp.slow.getD c {}).value
  let k := s.num 0x0033
  if s.now < x.stepAt + s.num 0x0024 * 1000000 then s
  else if x.lv.getD 1 false then
    s.modLampLevel c fun x => { x with
      tref := t, stepAt := s.now
      caps := if x.tref - 16 < t then x.caps.map fun q => q.map fun p =>
        (max (p.1 * k / 32768) (min p.1 (p.2 * s.num 0x0034 / 32768)), p.2) else x.caps }
  else
    s.modLampLevel c fun x => { x with
      stepAt := s.now
      caps := (x.caps.zip (upTo 4)).map fun q => q.1.bind fun p =>
        let n := if k = 0 then 32767 else p.1 * 32768 / k
        let n' := if n ≤ p.1 then p.1 + 1 else n
        if s.num (0xC031 + q.2) 2 ≤ n' then none else some (n', p.2) }

/-- 0x0022: the highest level in force across the die and the boards (R495). -/
def State.thermalLevel (s : State) : Nat :=
  let on (l : Nat) : Bool := s.therm.lv.getD l false || s.therm.lamp.any fun x => x.lv.getD l false
  if on 2 then 3 else if on 1 || s.exclusionThrottle then 2 else if on 0 then 1 else 0

/-- Bit 0 of the degraded mask (R495). -/
def State.thermalDegraded (s : State) : Bool :=
  s.dieThrottled || (s.therm.lamp.any fun x => x.lv.getD 1 false) || s.excludedCount != 0

/-! ## Wear (R505, R506) -/

/-- The entry of a resource in the wear list. -/
def State.wearOf (s : State) (area res : Nat) : Option WearEntry := s.therm.wear.find? fun e => e.area = area && e.res = res

/-- Losses of lock of a synthesiser in the last 24 h (R505). -/
def State.pllLosses (s : State) (n : Nat) : Nat :=
  ((s.clks.plls.getD n {}).losses.filter fun x => decide (s.now < x + 86400000000000)).length

/-- Whether a resource is worn, or failed, by its indicator (R505). `val` is the indicator's value where the model keeps none of
its own; a channel is in no list (log entry 179, DEDUCED, unsafe). -/
def State.wearHolds (s : State) (area res st val : Nat) : Bool :=
  match area with
  | 0x1 => decide (res ≤ 9) && (if st = 1 then decide (s.num 0x0047 < s.pllLosses res)
      else (s.clks.plls.getD res {}).st = 4)
  | 0x2 => decide (res ≤ 2) && (if st = 1 then decide (s.num 0x0046 < val) else natAt s.firm.cores res = 2)
  | 0x5 => decide (res ≤ 31) && st = 1 && (s.hbm.shadows.getD res none).isSome
  | 0x9 => decide (res ≤ 4) && st = 2 && bit s.therm.engineBad res
  | 0xA =>
    if 0x100 ≤ res then decide (res ≤ 0x109) && (if st = 1 then decide (s.num 0x0046 < val) else true)
    else decide (res / 16 ≤ 3) && decide (res % 16 ≤ 8) &&
      (if st = 1 then (s.aport (res / 16)).worn.contains (res % 16) else !bit (s.aport (res / 16)).locks (res % 16) || val != 0)
  | 0xC => decide (res ≤ 47) && (if st = 1 then
      decide ((s.lstring res).eta0 * 100 < natAt s.therm.commission res * s.num 0x0045) else s.stringDown res)
  | 0xF => decide (res / 16 ≤ 3) && decide (res % 16 ≤ 4) &&
      (if st = 1 then decide (s.num 0xF006 < natAt (s.uport (res / 16)).ser (res % 16)) else !bit (s.uport (res / 16)).farLocks (res % 16))
  | _ => false

/-- The indicator value that the wear list shows. -/
def State.wearValue (s : State) (area res val : Nat) : Nat :=
  match area with
  | 0x1 => s.pllLosses res
  | 0xC => (s.lstring res).eta0
  | 0xF => natAt (s.uport (res / 16)).ser (res % 16)
  | _ => val

/-! ## Swaps (R507–R517) -/

/-- Whether a swap of a resource may start in the present state (R549, R517). A failed synthesiser is swapped in any state. -/
def State.swapAllowed (s : State) (area res : Nat) : Bool :=
  let serving := s.mews.dev = .serving || s.mews.dev = .degraded
  s.seqr.trans.isNone && (match area with
    | 0x1 => s.clks.ref != 3 && (serving || (s.clks.plls.getD res {}).st = 4)
    | 0x2 | 0xF => true
    | _ => serving)

/-- The spare plane engines: those that have not failed and slice for no driven port (R507, R514). -/
def State.spareEngines (s : State) : List Nat :=
  (upTo 5).filter fun e => !bit s.therm.engineBad e && !(s.drivenPorts.any fun p => natAt s.plgn.engines p = e)

/-- The spare that would take a resource's place (R507). Lanes find theirs in their port. -/
def State.spareFor (s : State) (area res : Nat) : Option Nat :=
  match area with
  | 0x1 => ((upTo 10).filter fun n => (s.clks.plls.getD n {}).st = 5).head?
  | 0x2 => ((upTo 3).filter fun n => natAt s.firm.cores n = 1).head?
  | 0x9 => (s.spareEngines.filter fun e => e != res).getLast?
  | 0xA =>
    if 0x100 ≤ res then ((upTo 10).filter fun n => !bit s.arcd.banks n && (s.wearOf 0xA (0x100 + n)).isNone).head?
    else if (s.aport (res / 16)).spare = 3 then none else some (natAt (s.aport (res / 16)).laneMap 8)
  | 0xC => ((s.bandStrings (s.num 0xC002 res)).filter fun k => s.num 0xC003 k = 1 &&
      ((s.stringDriver k).map fun d => s.obs (wDriver d)) = some 1 && s.num 0xC002 res < 4).head?
  | 0xF => if (s.uport (res / 16)).spare = 3 then none else some (natAt (s.uport (res / 16)).laneMap 4)
  | _ => none

/-- A swap undone in its own subsystem, when it has not reached its switch point (R511, R517): a string ramp ends with the worn
string whole, and a spare synthesiser or lane that serves goes back to what it was. -/
def State.swapUndo (w : Nat × Nat × Nat × Nat) (s : State) : State :=
  if w.1 = 0xC then
    (s.modString w.2.1 fun x => { x with factor := 256 }).modString w.2.2.1 fun x => { x with factor := 256, inRamp := false }
  else if w.1 = 0x1 then s.modClks fun c => { c with plls := modAt c.plls w.2.2.1 fun p =>
    if p.st = 4 then p else { st := 5, target := 0xFF } }
  else if w.1 = 0xA && decide (w.2.1 < 0x100) then s.modAport (w.2.1 / 16) fun p =>
    { p with swap := none, spare := if p.spare = 2 then 0 else p.spare }
  else s

/-- A swap that fails (R511) (log entry 97, DEDUCED, safe). -/
def State.swapFail (area res : Nat) (s : State) : State :=
  (s.modTherm fun m => { m with
    failed := if m.failed.contains (area, res) then m.failed else m.failed ++ [(area, res)]
    wear := m.wear.map fun e => if e.area = area && e.res = res then { e with st := 3 } else e
    swaps := m.swaps.filter fun w => w.1 != area }).dropLease (16 + area) |>.raise 0x09 area (0xC000 + res % 0x4000)

/-- A swap that is completed, with event 0x09 (R510). -/
def State.swapDone (area res : Nat) (s : State) : State :=
  ((s.modTherm fun m => { m with swaps := m.swaps.filter fun w => w.1 != area }).dropLease (16 + area)).raise 0x09 area
    (0x8000 + res % 0x4000)

/-- What the start of a swap sets going in its own subsystem. -/
def State.swapBegin (area res spare : Nat) (s : State) : State :=
  match area with
  | 0x1 => s.modClks fun c => { c with plls := modAt c.plls spare fun p => { p with
      st := 1, target := (c.plls.getD res {}).target, band := (c.plls.getD res {}).band
      tableBand := (c.plls.getD res {}).band, fullSearch := false, coastSince := none } }
  | 0xA =>
    if 0x100 ≤ res then s
    else
      let ap := res / 16
      match (upTo 8).find? fun k => natAt (s.aport ap).laneMap k = res % 16 with
      | some k => s.aswapStart ap k (if (s.wearOf 0xA res).any fun e => e.st = 2 then 1 else 0)
      | none => s
  | 0xF =>
    match (upTo 4).find? fun k => natAt (s.uport (res / 16)).laneMap k = res % 16 with
    | some k => s.uaneSwapStart (res / 16) k (if (s.wearOf 0xF res).any fun e => e.st = 2 then 2 else 0)
    | none => s
  | _ => s

/-- One queued swap started, where its area is free and the state allows (R510). -/
def State.swapStart (s : State) (q : Nat × Nat) : State :=
  if s.therm.swaps.any (fun w => w.1 = q.1) || !s.swapAllowed q.1 q.2 || !s.therm.queued.contains q then s
  else
    let s1 := s.modTherm fun m => { m with queued := m.queued.erase q }
    match s.spareFor q.1 q.2 with
    | none => s1.swapFail q.1 q.2
    | some sp => ((s1.modTherm fun m => { m with swaps := m.swaps ++ [(q.1, q.2, sp, 999)] }).takeLeaseOf (16 + q.1)).swapBegin
        q.1 q.2 sp

/-- Queued swaps started in order of detection. -/
def State.pumpSwaps (s : State) : State := s.therm.queued.foldl State.swapStart s

/-- A resource put in the queue of swaps. -/
def State.queueSwap (area res : Nat) (s : State) : State :=
  if area = 5 then s
  else (s.modTherm fun m => { m with queued := if m.queued.contains (area, res) then m.queued else m.queued ++ [(area, res)] }).pumpSwaps

/-- A worn resource put on the list that waits for approval, or outside it while it is full (R508, R509). -/
def State.pend (area res : Nat) (s : State) : State :=
  if s.therm.pending.length < 16 then
    (s.modTherm fun m => { m with pending := m.pending ++ [(area, res)] }).raise 0x09 area (0x4000 + res % 0x4000)
  else s.modTherm fun m => { m with outside := m.outside ++ [(area, res)] }

/-- Resources outside the list enter as it has room (R509). -/
def State.refill (s : State) : State :=
  match s.therm.outside with
  | [] => s
  | q :: _ =>
    if s.therm.pending.length < 16 then (s.modTherm fun m => { m with outside := m.outside.drop 1 }).pend q.1 q.2 else s

/-- The number of the spare of a swap among the resources of its area (R506). -/
def spareNumber (area res spare : Nat) : Nat :=
  if area = 0xA && decide (0x100 ≤ res) then 0x100 + spare
  else if area = 0xA || area = 0xF then res / 16 * 16 + spare else spare

/-- A resource that has failed while it was the spare of a swap: that swap fails (R511). -/
def State.spareLost (area res : Nat) (s : State) : State :=
  match s.therm.swaps.find? fun w => w.1 = area && spareNumber area w.2.1 w.2.2.1 = res with
  | some w => ((s.swapUndo w).swapFail area w.2.1).pumpSwaps
  | none => s

/-- A resource becomes worn (1) or failed (2): event 0x08, its entry, and the policy (R506, R508). -/
def State.wearOut (area res st val : Nat) (s : State) : State :=
  let old := s.wearOf area res
  let known := match old with
    | some e => decide (st ≤ e.st)
    | none => false
  if known then s
  else
    let e : WearEntry := ⟨area, res, st, s.wearValue area res val⟩
    let s1 := (s.modTherm fun m => { m with
      wear := (m.wear.filter fun x => !(x.area = area && x.res = res)) ++ [e]
      pending := if st = 2 then m.pending.filter fun q => q != (area, res) else m.pending }).raise 0x08 area res
    let s2 := if st = 2 then s1.spareLost area res else s1
    if st = 2 || s.num 0x0040 = 0 then (s2.queueSwap area res).refill else s2.pend area res

/-- A resource no longer worn or failed: its entry and its failed swap end (R511). -/
def State.wearClear (area res : Nat) (s : State) : State :=
  s.modTherm fun m => { m with
    wear := m.wear.filter fun e => !(e.area = area && e.res = res)
    failed := m.failed.filter fun q => q != (area, res)
    queued := m.queued.filter fun q => q != (area, res) }

/-- An approval or rejection written to 0x0042: none where the entry is not pending (R509). -/
def State.spareDecide (word : Nat) (s : State) : Option State :=
  let q := (fld word 19 16, fld word 13 0)
  if !s.therm.pending.contains q then none
  else
    let s1 := s.modTherm fun m => { m with pending := m.pending.erase q }
    if bit word 31 then
      let s2 := if q.1 = 5 then s1.modTherm fun m => { m with queued := m.queued ++ [q] } else s1.queueSwap q.1 q.2
      some s2.refill
    else some (s1.modTherm fun m => { m with rejected := m.rejected ++ [(q.1, q.2, s.now)] }).refill

/-- A write of 0x0040: a change to AUTO starts every pending swap in list order (R509). -/
def State.sparePolicy (v : Nat) (s : State) : State :=
  let s1 := s.setNum 0x0040 0 v
  if v = 0 then
    let qs := s1.therm.pending ++ s1.therm.outside
    qs.foldl (fun s q => s.queueSwap q.1 q.2) (s1.modTherm fun m => { m with pending := [], outside := [] })
  else s1

/-- Whether a row shadow may be fused at self-refresh (R133, R508). -/
def State.fuseApproved (s : State) (r : HRow) : Bool :=
  s.num 0x0040 = 0 || (upTo 32).any fun i =>
    s.therm.queued.contains (5, i) && (match s.hbm.shadows.getD i none with
      | some h => h.at_ = r
      | none => false)

/-- Self-refresh with the fuses that the policy allows; each fused row ends its wear entry (R133, R138, R510). -/
def State.selfRefresh (s : State) : State :=
  let before := (upTo 32).filter fun i => (s.hbm.shadows.getD i none).isSome
  let s1 := s.hbmSelfRefresh s.fuseApproved
  before.foldl (fun s i =>
    if (s.hbm.shadows.getD i none).isNone then
      let s2 := s.modTherm fun m => { m with queued := m.queued.filter fun q => q != (5, i) }
      if (s.wearOf 5 i).isSome then
        (s2.modTherm fun m => { m with wear := m.wear.filter fun e => !(e.area = 5 && e.res = i) }).swapDone 5 i
      else s2
    else s) s1

/-- Swaps that have not reached their switch point go back to the queue at the entry to SAFE or STANDBY (R517). A lane swap
already commanded completes; a string ramp stops. -/
def State.swapsBackOf (areas : Nat → Bool) (s : State) : State :=
  let back := s.therm.swaps.filter fun w => areas w.1 &&
    !(w.1 = 0xA && decide (w.2.1 < 0x100) && (match (s.aport (w.2.1 / 16)).swap with
      | some x => x.n.isSome
      | none => false))
  let s1 := s.modTherm fun m => { m with
    swaps := m.swaps.filter fun w => !back.contains w
    queued := (back.map fun w => (w.1, w.2.1)) ++ m.queued }
  back.foldl (fun s w => if s.therm.swaps.any fun x => x.1 = w.1 then s else s.dropLease (16 + w.1))
    (back.foldl (fun s w => s.swapUndo w) s1)

/-- Swaps sent back at the entry to SAFE or STANDBY; those of cores and of Uane lanes go on (R517). -/
def State.swapsBack (s : State) : State := s.swapsBackOf fun a => a != 2 && a != 0xF

/-- The ramp of a string swap at a frame boundary (R516), which waits for the end of a transition (R517). Step 999 stands for a ramp
that waits for its band to be CLOSED. -/
def State.rampBoundary (s : State) : State :=
  match s.therm.swaps.find? fun w => w.1 = 0xC && s.seqr.trans.isNone with
  | none => s
  | some (_, worn, spare, k) =>
    let b := s.num 0xC002 worn
    let put (k : Nat) (s : State) : State := (s.modTherm fun m => { m with
      swaps := m.swaps.map fun w => if w.1 = 0xC then (w.1, w.2.1, w.2.2.1, k) else w }).takeLeaseOf 28
    if s.obs (wBand b) != 1 then put 999 s
    else if k = 999 then
      let others := (s.controlling b).filter fun x => x != worn && x != spare
      let mean := if others.isEmpty then 0 else others.foldl (fun a x => a + (s.lstring x).eta0) 0 / others.length
      let meanT := if others.isEmpty then 0 else others.foldl (fun a x => a + (s.lstring x).etaT) 0 / others.length
      let s1 := if (s.lstring spare).inRamp then s else s.modString spare fun x => { x with eta0 := mean, etaT := meanT }
      put 0 ((s1.modString worn fun x => { x with factor := 256 }).modString spare fun x => { x with factor := 0, inRamp := true })
    else if k < 256 then
      put (k + 1) ((s.modString worn fun x => { x with factor := 256 - (k + 1) }).modString spare fun x => { x with factor := k + 1 })
    else s

/-- The end of a string ramp: the worn string RETIRED, the spare ACTIVE (R516). -/
def State.rampEnd (s : State) : State :=
  match s.therm.swaps.find? fun w => w.1 = 0xC && w.2.2.2 = 256 with
  | none => s
  | some (_, worn, spare, _) =>
    let s1 := ((s.modString worn fun x => { x with factor := 256, u := 0 }).modString spare fun x =>
      { x with factor := 256, inRamp := false })
    (((s1.setNum 0xC003 worn 2).setNum 0xC003 spare 0).swapDone 0xC worn).pumpSwaps

/-- The spare plane engine takes over at a frame boundary, after a transition (R514, R517). A port that the spare had been left to
takes the failed engine in its place. -/
def State.engineBoundary (s : State) : State :=
  match s.therm.swaps.find? fun w => w.1 = 0x9 && s.seqr.trans.isNone with
  | none => s
  | some (_, res, spare, _) =>
    ((s.modPlgn fun p => { p with engines := p.engines.map fun e => if e = res then spare else if e = spare then res else e }).swapDone
      0x9 res).pumpSwaps

/-- The check of the plane engines in a frame (R514): whether the planes that the checker sliced differ from those of the engine of
the array checked. There is none with no spare left. -/
def State.engineCheck (mismatch : Bool) (s : State) : State :=
  match s.drivenPorts, s.spareEngines with
  | [], _ | _, [] => s
  | p :: ports, _ =>
    let a := if (p :: ports).contains s.therm.checkArray then s.therm.checkArray else p
    let m : Therm := { s.therm with checkLeft := if a = s.therm.checkArray then s.therm.checkLeft else 0 }
    let s := s.modTherm fun _ => { m with checkArray := a }
    let next := ((p :: ports).find? fun q => a < q).getD p
    let e := natAt s.plgn.engines a
    if mismatch && 0 < m.checkLeft then
      ((s.modTherm fun m => { m with engineBad := setBit m.engineBad e true, checkLeft := 0, checkArray := next }).wearOut 0x9 e 2 1)
    else if mismatch then s.modTherm fun m => { m with checkLeft := 4 }
    else if 0 < m.checkLeft then s.modTherm fun m => { m with
      checkLeft := m.checkLeft - 1, checkArray := if m.checkLeft = 1 then next else m.checkArray }
    else s.modTherm fun m => { m with checkArray := next }

/-- 0x0043: the spares ready (R507). -/
def State.spareInventory (s : State) : Nat :=
  let lanes := ((upTo 4).filter fun n => bit (s.num 0xB031) n && decide ((s.aport n).spare ≤ 1)).length
  let ulanes := ((upTo 4).filter fun n => decide ((s.uport n).spare ≤ 1)).length
  let banks := ((upTo 10).filter fun n => !bit s.arcd.banks n && (s.wearOf 0xA (0x100 + n)).isNone).length
  let plls := (s.clks.plls.filter fun p => p.st = 5).length
  let cores := (s.firm.cores.filter fun c => c = 1).length
  let eng := s.spareEngines.length
  let rows := (s.hbm.shadows.filter fun h => h.isNone).length
  let strs := ((upTo 48).filter fun k => s.num 0xC003 k = 1 && s.num 0xC002 k < 4).length
  lanes + ulanes * 2 ^ 8 + banks * 2 ^ 16 + plls * 2 ^ 24 + cores * 2 ^ 32 + eng * 2 ^ 40 + rows * 2 ^ 48 + strs * 2 ^ 56

/-- The wear list as it reads (R518). -/
def State.wearBytes (s : State) : Bytes :=
  (s.therm.wear.map fun e => toLE 8 (e.area % 16 + e.res % 0x4000 * 2 ^ 16 + e.st * 2 ^ 30 + e.val % 2 ^ 32 * 2 ^ 32)).flatten

/-- The pending list as it reads (R518). -/
def State.pendingBytes (s : State) : Bytes :=
  (s.therm.pending.map fun q => toLE 4 (0x01000000 + q.1 % 16 * 2 ^ 16 + q.2 % 0x4000)).flatten

/-! ## The rows -/

/-- MEWS_THERMAL_WARN (R495). -/
def execMewsThermalWarn (t : Nat) (s : State) : Host.Outcome State Fault Refusal := .next ((s.advance t).dieJudge 0)

/-- MEWS_THERMAL_THROTTLE (R495, R498). -/
def execMewsThermalThrottle (t : Nat) (s : State) : Host.Outcome State Fault Refusal := .next ((s.advance t).dieJudge 1)

/-- THROTTLE_INTERVAL (R498). -/
def execThrottleInterval (t : Nat) (s : State) : Host.Outcome State Fault Refusal :=
  let s := s.advance t
  if s.therm.lastStep + s.num 0x0024 * 1000000 ≤ s.now then .next s.throttleStep else .next s

/-- LAMP_THROTTLE_INTERVAL (R502). -/
def execLampThrottleInterval (t : Nat) (s : State) : Host.Outcome State Fault Refusal :=
  .next ((upTo 24).foldl (fun s c => s.lampStep c) (s.advance t))

/-- SLOW_CONVERSION (R381, R401, R501): the next slow channel converts. -/
def execSlowConversion (t code vio : Nat) (s : State) : Host.Outcome State Fault Refusal :=
  let s := s.advance t
  let c := s.lamp.nextSlow
  .next ((((s.slowConvert code vio).lampCounts c).busJudge c 0).busJudge c 1)

/-- MEWS_WEAR (R505, R506): a resource passes its limit (1) or has failed (2). State 0 counts corrected words of SRAM that has no
spares (R505) (log entry 180, DESIGN CHOICE, safe). -/
def execMewsWear (t area resource state value : Nat) (s : State) : Host.Outcome State Fault Refusal :=
  let s := s.advance t
  if state = 0 then .next (s.modTherm fun m => { m with sramCe := (m.sramCe + value) % 2 ^ 32 })
  else if (state = 1 || state = 2) && s.wearHolds area resource state value then .next (s.wearOut area resource state value)
  else .next s

/-- LANE (R303): a lane found worn goes to the spare policy; one that reported an uncorrectable codeword has failed. -/
def execLane (t ap : Nat) (msg : Bytes) (s : State) : Host.Outcome State Fault Refusal :=
  .next ((s.advance t).areturn ap 0x15 msg fun s =>
    let (s1, worn) := s.alane ap msg
    match worn with
    | some (ph, unc) => s1.wearOut 0xA (16 * ap + ph) (1 + unc) unc
    | none => s1)

/-- ARCD_LANE_SPARED (R303): the old lane is the new spare; a swap of MEWS ends with it (R510). -/
def execArcdLaneSpared (t ap : Nat) (s : State) : Host.Outcome State Fault Refusal :=
  let s := s.advance t
  let s1 := s.aswapEnd ap
  match (s.aport ap).swap, s.therm.swaps.find? fun w => w.1 = 0xA && w.2.1 < 0x100 && w.2.1 / 16 = ap with
  | some w, some (_, res, _, _) => if w.moved then .next ((s1.swapDone 0xA res).pumpSwaps) else .next s1
  | _, _ => .next s1

/-- BANK_SWAP_MIRRORED (R512, R517): every unit of the worn bank is in the spare, and an epoch boundary comes. -/
def execBankSwapMirrored (t : Nat) (s : State) : Host.Outcome State Fault Refusal :=
  let s := s.advance t
  match s.therm.swaps.find? fun w => w.1 = 0xA && 0x100 ≤ w.2.1 && s.seqr.trans.isNone with
  | some (_, res, spare, _) =>
    let old := res - 0x100
    .next ((((s.modArcd fun a => { a with banks := setBit (setBit a.banks old false) spare true }).raise 0xAA old spare).swapDone
      0xA res).pumpSwaps)
  | none => .next s

/-- STRING_RAMP_END (R516). -/
def execStringRampEnd (t : Nat) (s : State) : Host.Outcome State Fault Refusal := .next (s.advance t).rampEnd

/-- SPARE_REJECT_RECHECK (R509): 24 h after a rejection, a resource still worn is raised again. -/
def execSpareRejectRecheck (t area resource : Nat) (s : State) : Host.Outcome State Fault Refusal :=
  let s := s.advance t
  match s.therm.rejected.find? fun q => q.1 = area && q.2.1 = resource && decide (q.2.2 + 86400000000000 ≤ s.now) with
  | some q =>
    let e := s.wearOf area resource
    let s1 := s.modTherm fun m => { m with
      rejected := m.rejected.erase q, wear := m.wear.filter fun x => !(x.area = area && x.res = resource) }
    .next (match e with
      | some e => if s.wearHolds area resource 1 e.val then s1.wearOut area resource 1 e.val else s1
      | none => s1)
  | none => .next s

/-- DIE_SENSOR_EXCLUDED's part that acts on the sensor (R496). -/
def State.sensorExcluded (i : Nat) (s : State) : State := s.excludeJudge i

/-- RC_TRIM_UPDATE (R504): the entry for the present temperature moves by 1/8 of the error, given in trim steps
(log entry 38, DESIGN CHOICE, unsafe). -/
def execRcTrimUpdate (t : Nat) (error : Int) (s : State) : Host.Outcome State Fault Refusal :=
  let s := s.advance t
  if s.mews.xtal = 1 then
    let e := (clampI 0 15 ((s.dieMax / 16 + 35) / 10)).toNat
    .next (s.modMews fun m => { m with rcTrim := modAt m.rcTrim e fun v => v + divAway error 8 })
  else .next s

/-- CRYSTAL_CHECK (R541, R542): RC cycles counted in 32,768 crystal cycles. -/
def execCrystalCheck (t cycles : Nat) (s : State) : Host.Outcome State Fault Refusal :=
  let s := s.advance t
  let off := ((cycles : Int) - 16000000).natAbs
  let bad := if 160000 < off then s.mews.xtalBad + 1 else 0
  let st := if off ≤ 16000 then 1 else if 3 ≤ bad then 2 else s.mews.xtal
  .next (s.modMews fun m => { m with
    xtal := st, xtalBad := bad, timeOff := if s.wallRun && st = 1 then s.wallOff else m.timeOff })

/-- CRYSTAL_EDGE_TIMEOUT (R542, R574): no edge for 10 ms, from the application of VAON on. -/
def execCrystalEdgeTimeout (t : Nat) (s : State) : Host.Outcome State Fault Refusal :=
  .next ((s.advance t).modMews fun m => { m with xtal := 2 })

end Sys2Proof.Machine
end

