-- ==== Sys2Proof/Machine/Clks.lean ====
section
/-! DEFINITION. Clocks: the synthesisers, the reference and the clock domains (R543–R551), with the rows of their events and the
synthesiser swap (R513). -/

namespace Sys2Proof.Machine

def State.pll (s : State) (n : Nat) : Pll := s.clks.plls.getD n {}

/-- Changes one synthesiser. -/
def State.modPll (n : Nat) (f : Pll → Pll) (s : State) : State := s.modClks fun c => { c with plls := modAt c.plls n f }

/-- The synthesiser that serves a target. A spare that locks for a swap serves it only after the switch. -/
def State.servedBy (s : State) (target : Nat) : Option Nat :=
  (upTo 10).find? fun n => (s.pll n).target = target && !s.therm.swaps.any fun w => w.1 = 1 && w.2.2.1 = n

/-- Index in a band table of the die temperature (R546) (log entry 37, DEDUCED, unsafe). -/
def State.bandStep (s : State) : Nat := (clampI 0 15 ((s.dieMax + 560) / 160)).toNat

/-- The band that the table gives a target at the present temperature. -/
def State.tableBand (s : State) (target : Nat) : Nat := leAt (s.blob 0x1010 target) s.bandStep 1 % 64

/-- A lock search starts (R546). -/
def State.pllSearch (n : Nat) (s : State) : State :=
  s.modPll n fun p => { p with st := 1, tableBand := s.tableBand p.target, fullSearch := false, coastSince := none, limitSeen := false }

/-- The synthesiser of a target starts to lock where it is off (R544, R554, R614). -/
def State.startTarget (target : Nat) (s : State) : State :=
  match s.servedBy target with
  | some n => if (s.pll n).st = 0 then s.pllSearch n else s
  | none => s

/-- The synthesiser of a target powers down (R543, R554). A failed one stays failed. -/
def State.stopTarget (target : Nat) (s : State) : State :=
  match s.servedBy target with
  | some n => if (s.pll n).st = 4 then s else s.modPll n fun p =>
      { p with st := 0, coastSince := none, limitSeen := false, fullSearch := false, err := 0 }
  | none => s

/-- ms that a synthesiser has spent in its present coast. -/
def Pll.coasted (p : Pll) (now : Nat) : Nat :=
  match p.coastSince with
  | some t => (now - t) / 1000000
  | none => 0

/-- Whether a synthesiser tries to lock: one that has failed goes on trying while it serves its target (R546, R548). -/
def Pll.searching (p : Pll) : Bool := p.st = 1 || p.st = 3 || (p.st = 4 && p.target != 0xFF)

/-- A lock declared in a band (R546, R547). -/
def State.pllLocked (n band : Nat) (err : Int) (s : State) : State :=
  let p := s.pll n
  let off : Int := (band : Int) - p.tableBand
  if !p.searching || s.clks.ref != 2 || 64 ≤ band || (2 < off.natAbs && !p.fullSearch) then s
  else
    let i := s.bandStep
    let s1 := (s.modPll n fun p => { p with
      st := 2, band := band, err := satS16 err, lockCount := (p.lockCount + 1) % 2 ^ 32
      holdMs := (p.holdMs + p.coasted s.now) % 2 ^ 32, coastSince := none, limitSeen := false, fullSearch := false }).raise
        0x13 n (band * 256 + ofS 8 off)
    let s2 := if off != 0 && p.target < 8 then s1.setVal 0x1010 p.target (.bytes (setAt (s1.blob 0x1010 p.target) i band)) else s1
    if p.st = 4 then s2.wearClear 1 n else s2

/-- A LOCKED synthesiser coasts (R548, R549). -/
def State.pllCoast (n : Nat) (s : State) : State :=
  s.modPll n fun p => { p with
    st := 3, coastSince := some s.now, limitSeen := false, fullSearch := false, tableBand := s.tableBand p.target }

/-- A synthesiser has failed: the spare takes its target (R505, R513, R548). -/
def State.pllFail (n : Nat) (s : State) : State := (s.modPll n fun p => { p with st := 4 }).wearOut 1 n 2 0

/-- The swaps of synthesisers that have not switched their clocks return to the queue (R551). -/
def State.pllSwapsBack (s : State) : State := s.swapsBackOf fun a => a = 1

/-- The domains move to the spare (R513). -/
def State.pllSwitch (s : State) : State :=
  match s.therm.swaps.find? fun w => w.1 = 1 with
  | some (_, old, spare, _) =>
    if (s.pll spare).st != 2 || s.clks.ref = 3 || s.seqr.trans.isSome then s
    else
      let st := if (s.pll old).st = 4 then 4 else 0
      let s1 := s.modPll old fun p => { p with st := st, target := 0xFF, coastSince := none, holdMs := (p.holdMs + p.coasted s.now) % 2 ^ 32 }
      ((s1.raise 0x14 old spare).swapDone 1 old).pumpSwaps
  | none => s

/-! ## Domains (R543, R544) -/

/-- The target that feeds a domain CD01 to CD25; 8 crystal, RC or external, 9 recovered. -/
def domainTarget (d : Nat) : Nat :=
  match d with
  | 4 => 0 | 5 => 1 | 6 => 2 | 7 => 3
  | 8 | 9 | 10 | 11 => 4
  | 16 => 5
  | 19 | 20 => 6
  | 21 | 22 | 23 => 7
  | 12 | 13 | 14 | 15 | 17 | 18 => 9
  | _ => 8

/-- 0x1006: what feeds a domain. -/
def State.domainSource (s : State) (d : Nat) : Nat :=
  match domainTarget d with
  | 8 => 0xFE
  | 9 => 0xFD
  | t => (s.servedBy t).getD 0xFF

/-- Whether the device state and the use of a domain let its clock run (R543). -/
def State.domainAllowed (s : State) (d : Nat) : Bool :=
  let lit := s.mews.dev.lit
  if s.mews.dev = .mews then d = 1 || d = 2 || d = 24 || d = 25
  else if 8 ≤ d && d ≤ 11 then s.mews.dev = .boot || (lit && s.drivenPorts.contains (d - 8))
  else if 12 ≤ d && d ≤ 15 then s.obs (wUane (d - 12)) != 0
  else if d = 16 then (upTo 4).any fun n => s.obs (wUane n) != 0
  else if d = 17 || d = 18 then lit && (s.port (d - 17)).hpd
  else if d = 6 || d = 7 || d = 22 then lit
  else true

/-- Whether a domain's source runs. A failed synthesiser drives its domains only where it coasts (R547, R548). -/
def State.sourceRuns (s : State) (d : Nat) : Bool :=
  match domainTarget d with
  | 8 => if d = 3 then s.clks.ref = 1 || s.clks.ref = 2 else true
  | 9 => true
  | t => match s.servedBy t with
    | some n => (s.pll n).st = 2 || (s.pll n).st = 3 || ((s.pll n).st = 4 && (s.pll n).coastSince.isSome)
    | none => false

/-- 0x1005: 0 STOPPED, 1 GATED, 2 RUNNING (log entry 36, DEDUCED, unsafe). -/
def State.domainState (s : State) (d : Nat) : Nat :=
  if !s.domainAllowed d || !s.sourceRuns d then 0 else if bit s.clks.gated d then 1 else 2

/-- Bit 1 of the degraded mask, swap failures aside (R548, R549). -/
def State.clksDegraded (s : State) : Bool := s.clks.ref = 3

/-! ## The rows -/

/-- CLKS_BAND_MISS (R546): none of the five bands locks. -/
def execClksBandMiss (t pll : Nat) (s : State) : Host.Outcome State Fault Refusal :=
  let s := s.advance t
  let p := s.pll pll
  if p.searching && !p.fullSearch then
    .next ((s.modPll pll fun p => { p with fullSearch := true }).raise 0x15 pll p.tableBand)
  else .next s

/-- SYNTHESISER_SEARCH_FAILED (R546, R548). One that had failed before starts its search again. -/
def execSynthesiserSearchFailed (t pll : Nat) (s : State) : Host.Outcome State Fault Refusal :=
  let s := s.advance t
  let p := s.pll pll
  if p.searching && p.fullSearch && s.clks.ref = 2 then
    let s1 := s.modPll pll fun p => { p with fullSearch := false }
    .next (if p.st = 4 then s1 else s1.pllFail pll)
  else .next s

/-- CLKS_LOCK_LOST (R548): two windows outside ±500 ppm; `err` is the second's error in ppm. -/
def execClksLockLost (t pll : Nat) (err : Int) (s : State) : Host.Outcome State Fault Refusal :=
  let s := s.advance t
  if (s.pll pll).st = 2 && s.clks.ref != 3 then
    .next (((s.pllCoast pll).modPll pll fun p => { p with
      err := satS16 (err * 10)
      losses := (p.losses.filter fun x => decide (s.now < x + 86400000000000)) ++ [s.now] }).raise 0x10 pll (ofS 16 (satS16 err)))
  else .next s

/-- CLKS_HOLDOVER_LIMIT (R548, R549): 10 ms without a relock. -/
def execClksHoldoverLimit (t pll : Nat) (s : State) : Host.Outcome State Fault Refusal :=
  let s := s.advance t
  let p := s.pll pll
  match p.coastSince with
  | some since =>
    if p.st = 3 && !p.limitSeen && decide (since + 10000000 ≤ s.now) then
      let s1 := (s.modPll pll fun p => { p with limitSeen := true }).raise 0x12 pll (sat 65535 (p.coasted s.now))
      .next (if s.clks.ref = 3 then s1 else s1.pllFail pll)
    else .next s
  | none => .next s

/-- CLKS_REF_LOST (R549, R551). -/
def execClksRefLost (t : Nat) (s : State) : Host.Outcome State Fault Refusal :=
  let s := s.advance t
  if s.clks.ref = 2 then
    let s1 := (s.modClks fun c => { c with ref := 3, refGood := 0 }).pllSwapsBack
    let s2 := (upTo 10).foldl (fun (s : State) n => if (s.pll n).st = 2 then s.pllCoast n else s) s1
    .next (s2.raise 0x11 0 0)
  else .next s

/-- The reference good again (R549): the synthesisers relock in turn, and swaps may run. -/
def State.refGood (s : State) : State :=
  if s.clks.ref = 2 || s.mews.dev = .mews then s
  else (s.modClks fun c => { c with ref := 2, refGood := 64 }).pumpSwaps

/-- DOMAIN_GATE (R544): a root gate closes when every block is idle, or opens on a request. -/
def execDomainGate (t domain : Nat) (idle : Bool) (s : State) : Host.Outcome State Fault Refusal :=
  let s := s.advance t
  if 4 ≤ domain && domain ≤ 23 && s.domainState domain != 0 then
    .next (s.modClks fun c => { c with gated := setBit c.gated domain idle })
  else .next s

/-- CLKS_SPARED (R513). -/
def execClksSpared (t : Nat) (s : State) : Host.Outcome State Fault Refusal := .next (s.advance t).pllSwitch

end Sys2Proof.Machine
end

