-- ==== Sys2Proof/Machine/Device.lean ====
section
/-! DEFINITION. Device states (R30–R33, R604, R614, R615, R631): entering each of them, the degraded mask, the kill path, state
requests, and the rows of interlocks and thermal shutdown (R32, R373, R497, R503). -/

namespace Sys2Proof.Machine

/-! ## The degraded mask (R604) -/

/-- Bands that a group of the node uses. -/
def State.mappedBands (s : State) : List Nat := (upTo 4).filter fun b => (bandMap s.live b).isSome

/-- Whether a LOCK wheel is out of phase (R268). -/
def State.wheelOut (s : State) : Bool :=
  (upTo 2).any fun n => s.fitted n && s.num 0xB040 n = 1 && !(s.seqr.wheels.getD n {}).inPhase

/-- The causes of a bit of 0x0013 other than a disagreement or a failed swap. -/
def State.degradedCause (s : State) (n : Nat) : Bool :=
  let serving := s.mews.dev = .serving || s.mews.dev = .degraded
  match n with
  | 0 => s.thermalDegraded
  | 1 => s.clksDegraded
  | 2 => decide ((s.firm.cores.filter fun c => c = 0).length < 2)
  | 5 => s.hbm.chans.any fun c => c.st = 3
  | 7 => s.curg.voteLate || s.curg.tableDiffers
  | 8 => s.colr.any fun g => decide (16 ≤ g.lateRun)
  | 9 => s.plgn.groups.any fun g => decide (120 ≤ g.fallbackRun)
  | 10 => (upTo 4).any fun a => bit (s.num 0xB031) a && s.obs (wArray a) != 3 && s.obs (wArray a) != 4
  | 11 => s.seqr.absent != 0 || (serving && s.wheelOut) || s.seqr.fsync = 4 || s.coh.rateDiffers
  | 12 => s.mappedBands.any fun b => s.obs (wBand b) = 2 || s.obs (wBand b) = 3
  | 13 => !s.lampWell
  | 14 => serving && (upTo 2).any fun w => s.fitted w && (s.unitRec (wWheel w)).cmd = 4 && s.obs (wWheel w) != 4
  | 15 => s.uane.dupAt.isSome || (upTo 4).any fun p =>
      (s.unitRec (wUane p)).cmd = 2 && s.obs (wUane p) != 2 && s.obs (wUane p) != 3
  | _ => false

/-- 0x0013. Bit 3 always reads 0. -/
def State.degradedMask (s : State) : Nat :=
  maskOf 16 fun n => n != 3 && (s.degradedCause n || s.areaDisagrees n || s.therm.failed.any fun q => q.1 = n)

/-! ## Entering states -/

/-- A new device state, with event 0x03; the kill pins and HPD follow (R30, R91, R372). -/
def State.setDev (d : DevState) (s : State) : State :=
  let old := s.mews.dev
  if old = d then s
  else
    let s1 := ((s.modMews fun m => { m with dev := d }).recommand s).driveKill
    (upTo 2).foldl State.updateHpd (s1.raise 0x03 0 (old.code * 256 + d.code))

/-- An array parked because the device enters SAFE or STANDBY; its link stops (R299, R543). -/
def State.parkDark (ap : Nat) (s : State) : State :=
  let s1 := if s.obs (wArray ap) = 1 then ((s.modAport ap fun p => { p with parkCause := 3 }).setArray ap 5).raise 0xA6 ap 3
    else s.apark ap 3
  s1.modAport ap fun p => { p with lastReturn := none, waiting := [] }

/-- Bands without light: KILLED while the kill latch is set, else OPEN (R333; log entry 30, DEDUCED, unsafe). -/
def State.darkBands (s : State) : State :=
  s.mappedBands.foldl (fun (s : State) b =>
    if s.lamp.latch != 0 then s.killBand b
    else if s.obs (wBand b) = 4 then s
    else ((s.setBand b 0).modStrings (s.bandStrings b) fun x => { x with u := 0, u1 := 0 }).modBand b fun x =>
      { x.gate s.now with warm := none, warmDone := false }) s

/-- What every entry to a state without light does (R30, R138, R299, R517, R543). -/
def State.goDark (s : State) : State :=
  let s1 := (upTo 4).foldl (fun (s : State) ap => s.parkDark ap) s.swapsBack
  let s2 := [2, 3, 4, 6].foldl (fun (s : State) n => s.stopTarget n) s1.darkBands.selfRefresh
  let s3 := ((s2.observeLayers 0 false).clearBlocks (upTo 4)).modPlgn fun p => { p with
    groups := p.groups.map fun g => { g with sched := none, next := none, darkSlots := [], settings := [], hists := [] }
    arrays := p.arrays.map fun a => { a with missing := [], missingNext := [] } }
  (s3.compilerLease.modCurg fun c => { c with layers := c.layers.map fun l => { l with
    comp := {}, mir := {}, runs := [], mirRuns := [], whole := false, mirWhole := false } }).modMews fun m =>
      { m with warmOk := false, rampDown := none }

/-- STANDBY entered from SERVING or DEGRADED, or from SAFE (R31, R409). -/
def State.enterStandby (s : State) : State :=
  let dark := s.mews.dev.lit
  let s1 := s.setDev .standby
  if dark then (upTo 2).foldl (fun (s : State) n => if s.fitted n then (s.wheelStop n).setCmd (wWheel n) 0 else s) s1.goDark
  else s1

/-- SAFE entered with a cause (R31, R409, R631). A thermal or watchdog cause stands until the reset, which it makes due 100 ms
later (R525, R552). -/
def State.enterSafe (cause : Nat) (s : State) : State :=
  let hard := cause = 2 || cause = 3
  let due (s : State) : State := if hard then s.modMews fun m => { m with
    resetDue := if m.resetDue.isSome then m.resetDue else some (if cause = 2 then 4 else 3, s.now + 100000000) } else s
  if s.mews.dev = .mews || s.mews.held then s
  else if s.mews.dev = .boot && s.mews.bootStep != 7 && cause = 1 then s.modMews fun m => { m with bootInterlock := true }
  else if s.mews.dev = .safe then
    due (if hard && s.mews.safeCause != 2 && s.mews.safeCause != 3 then s.modMews fun m => { m with safeCause := cause } else s)
  else
    let s1 := (s.modMews fun m => { m with
      safeCause := cause, bootStep := if m.dev = .boot then 8 else m.bootStep }).setDev .safe
    let s2 := if s.mews.dev = .boot then s1.freeOrigin else s1
    due ((upTo 2).foldl (fun (s : State) n => if s.fitted n then s.wheelSafe n else s) s2.goDark)

/-- A cause sets the kill latch: pins low, /X/ out, every band KILLED, event 0xE1 at the first (R333, R373, R374). -/
def State.killPath (b : Nat) (s : State) : State :=
  let first := s.lamp.latch = 0
  let s1 := s.setLatch (2 ^ b)
  let s2 := if first then s1.raise 0xE1 0 s1.killCause else s1
  s2.mappedBands.foldl (fun (s : State) b => s.killBand b) s2

/-- The kill latch cleared by a request, with event 0xE2; the bands leave KILLED (R333, R374). -/
def State.releaseKill (s : State) : State :=
  if s.lamp.latch = 0 then s
  else
    let s1 := ((s.modLamp fun l => { l with latch := 0 }).driveKill).raise 0xE2 0 0
    (upTo 4).foldl (fun (s : State) b => s.reviveBand b) s1

/-- An array port at the entry to WARMING: brought back by the short training, or trained in full where it is OFF (R300, R554). -/
def State.warmArray (s : State) (ap : Nat) : State :=
  if !bit (s.num 0xB031) ap || (s.unitRec (wArray ap)).cmd != 2 then s
  else match s.obs (wArray ap) with
    | 0 => s.atrain ap
    | 6 => s
    | _ => s.areturnTrain ap

/-- WARMING entered (R614). -/
def State.enterWarming (s : State) : State :=
  let s1 := (s.modMews fun m => { m with warmSince := s.now, warmOk := false, lampHold := [] }).setDev .warming
  let s2 := [2, 3, 4, 6].foldl (fun (s : State) n => s.startTarget n) s1.hbmExitRefresh
  let s3 := (upTo 4).foldl State.warmArray s2
  let s4 := (upTo 2).foldl (fun (s : State) n =>
    if s.num 0xD002 n = 0 then s else s.startEnum n) s3
  let s5 := (upTo 2).foldl (fun (s : State) n => if s.fitted n then (s.setCmd (wWheel n) 4).wheelRun n else s) s4
  s5.warmBands

/-- Lamp-board channels that still refuse WARMING after a shutdown (R503) (log entry 35, DEDUCED, safe). -/
def State.warmRefused (s : State) : Bool :=
  s.mews.lampHold.any fun c => s.num 0xD040 c = 1 &&
    ((s.lamp.slow.getD c {}).codes.isEmpty || decide (s.lampClear 2 c < (s.lamp.slow.getD c {}).value))

/-- A state request (R31, R33, R135, R374): none where R31 does not allow it. MEWS is entered by the power-down of R561. -/
def State.stateRequest (v : Nat) (mews : State → State) (s : State) : Option State :=
  let m := s.mews
  match v with
  | 0 => if m.dev = .standby then some (mews s) else none
  | 2 =>
    if m.dev = .serving || m.dev = .degraded then some (s.modMews fun m => { m with rampDown := m.rampDown.or (some 0) })
    else if m.dev = .safe && (m.safeCause = 1 || m.safeCause = 4 || m.safeCause = 5) && s.latchClearable then
      some s.releaseKill.enterStandby
    else none
  | 3 => if m.dev = .standby && !s.warmRefused && s.hbm.status != 4 then some s.enterWarming else none
  | 6 => if m.dev != .mews && !m.held then some (s.enterSafe 4) else none
  | _ => none

/-! ## Warm-up, SERVING and DEGRADED at a boundary (R31, R604, R615) -/

/-- The conditions of R615. -/
def State.readyToServe (s : State) : Bool :=
  (s.mappedBands.all fun b => s.obs (wBand b) = 1) && ((upTo 2).all fun n => !s.fitted n || s.obs (wWheel n) = 4) && !s.wheelOut

/-- Moves between WARMING, SERVING and DEGRADED at a frame boundary: SERVING where the conditions held at the boundary before and this
frame has flipped (R31, R615). The warm-up limit is judged there (log entry 31, DESIGN CHOICE, unsafe). -/
def State.judgeService (s : State) : State :=
  match s.mews.dev with
  | .warming =>
    let ready := s.readyToServe
    let s1 := s.modMews fun m => { m with warmOk := ready }
    if s.mews.warmOk && s.seqr.flipCount = s.seqr.count then (s.setDev .serving).pumpSwaps
    else if ready || decide (s.now < s.mews.warmSince + s.num 0x0014 * 1000000) then s1
    else if s.mappedBands.any fun b => s.obs (wBand b) = 0 || s.obs (wBand b) = 4 then s.enterSafe 5
    else (s.setDev .degraded).pumpSwaps
  | .serving => if s.degradedMask != 0 then s.setDev .degraded else s
  | .degraded => if s.degradedMask = 0 then s.setDev .serving else s
  | _ => s

/-- The ramp before STANDBY at a frame boundary: the state is entered at its end (R31). Its length is a free value
(log entry 152, DESIGN CHOICE, safe). -/
def State.rampDownBoundary (s : State) : State :=
  match s.mews.rampDown with
  | none => s
  | some k => if Config.standbyRamp < k + 1 then s.enterStandby else s.modMews fun m => { m with rampDown := some (k + 1) }

/-! ## The rows -/

/-- LAMP_INTERLOCK (R32, R373): an input goes low. -/
def execLampInterlock (t input : Nat) (s : State) : Host.Outcome State Fault Refusal :=
  let s := s.advance t
  let b := input % 2 = 1
  if !(if b then s.lamp.intlkB else s.lamp.intlkA) then .next s
  else
    let s1 := (s.intlkLevel b false).modLamp fun l => { l with intlkCount := (l.intlkCount + 1) % 2 ^ 32 }
    .next (((s1.raise 0xE0 (input % 2) 1).killPath (input % 2)).enterSafe 1)

/-- MEWS_THERMAL_SHUTDOWN (R495, R497). -/
def execMewsThermalShutdown (t : Nat) (s : State) : Host.Outcome State Fault Refusal :=
  let s := s.advance t
  let s1 := s.dieJudge 2
  if !(s.therm.lv.getD 2 false) && s1.therm.lv.getD 2 false then .next ((s1.killPath 2).enterSafe 2) else .next s1

/-- DIE_SENSOR_EXCLUDED (R496): a sensor excluded or back; with all twelve out the device enters SAFE. -/
def execDieSensorExcluded (t sensor : Nat) (s : State) : Host.Outcome State Fault Refusal :=
  let s := s.advance t
  let s1 := s.sensorExcluded sensor
  let s2 := if !s.exclusionThrottle && s1.exclusionThrottle then s1.throttleEntry else s1
  if s.excludedCount < 12 && s2.excludedCount = 12 then .next ((s2.killPath 2).enterSafe 2) else .next s2

/-- LAMP_BOARD_LEVEL (R501–R503): the levels of a lamp-board channel. -/
def execLampBoardLevel (t channel : Nat) (s : State) : Host.Outcome State Fault Refusal :=
  let s := s.advance t
  let on (s : State) : Bool := (s.therm.lamp.getD channel {}).lv.getD 2 false
  let s1 := [2, 1, 0].foldl (fun (s : State) l => State.lampJudge channel s l) s
  if !on s && on s1 then
    .next (((s1.modMews fun m => { m with
      lampHold := if m.lampHold.contains channel then m.lampHold else m.lampHold ++ [channel] }).killPath 3).enterSafe 2)
  else .next s1

/-- ARRAY_TRAINING_DONE (R300, R511): lanes that had worn or failed serve again. -/
def execArrayTrainingDone (t ap step : Nat) (regs : List Nat) (roundTrip turnaround : Nat) (s : State) :
    Host.Outcome State Fault Refusal :=
  let s := s.advance t
  let s1 := s.atrainEnd ap step regs roundTrip turnaround
  if s.obs (wArray ap) = 1 && s1.obs (wArray ap) = 2 then
    .next ((upTo 9).foldl (fun (s : State) k => s.wearClear 0xA (16 * ap + k)) (s1.modAport ap fun p =>
      { p with worn := [], grades := [], spare := 0 }))
  else .next s1

end Sys2Proof.Machine
end

