-- ==== Sys2Proof/Machine/Commit.lean ====
section
/-! DEFINITION. Commits (R59, R60, R256–R265, R607): validation of the staged values, the boundary at which they apply, staging of
class II tables, and the managed transition. -/

namespace Sys2Proof.Machine

/-! ## Staged values -/

/-- The values that would apply at the commit boundary. -/
def State.staged (s : State) (obj sub : Nat) : Val := (mapGet s.dict.shadow (okey obj sub)).getD (s.dict.get obj sub)

/-- The numbers that would apply. -/
def State.stagedView (s : State) : View := fun o i => (s.staged o i).toNat

/-- Keys of objects with subindices 0 to `n` − 1. -/
def keysOf (objs : List Nat) (n : Nat) : List (Nat × Nat) := (objs.map fun o => (upTo n).map fun i => (o, i)).flatten

/-- Whether an object and subindex is staged, and whether its staged value differs from the running one. -/
def State.isStaged (s : State) (k : Nat × Nat) : Bool := (mapGet s.dict.shadow (okey k.1 k.2)).isSome
def State.isChanged (s : State) (k : Nat × Nat) : Bool := s.isStaged k && s.staged k.1 k.2 != s.dict.get k.1 k.2

/-- Class of the shadow: the highest class among the staged objects, class I for an empty one (R256). -/
def State.shadowClass (s : State) : Nat := s.dict.shadow.foldl (fun a e => max a (commitClass (e.1 / 256) .rs)) 1

/-- A group as a layout, enable or geometry change sees it: kind, ports and geometries. -/
def groupShape (v : View) (g : Nat) : Option (GKind × List Nat × List Nat) :=
  if groupExists v g then (groupOf v g).map fun p => (p.1, p.2, p.2.map fun a => v 0xB032 a) else none

/-- Arrays affected by a class III commit (R262). -/
def State.affected (s : State) : Nat :=
  let v := s.stagedView
  let all := [(0x5001, 0), (0xB001, 0), (0xB050, 0)].any s.isStaged
  let shape := ([(0xB030, 0), (0xB031, 0)] ++ keysOf [0xB032] 4).any s.isStaged
  maskOf 4 fun a =>
    (all && s.drivenPorts.contains a) ||
    (shape && (upTo 4).any fun g =>
      groupShape s.live g != groupShape v g &&
        (((groupShape s.live g).any fun p => p.2.1.contains a) || ((groupShape v g).any fun p => p.2.1.contains a)))

/-- Whether a plan of a group under staged values is fixed afresh, with the settle times as they are now: where no light is on, or the
managed transition of a class III commit takes the group in (R238, R262). -/
def State.freshPlan (s : State) (v : View) (g : Nat) : Bool :=
  !s.mews.dev.lit || (s.shadowClass = 3 && (((groupOf v g).map Prod.snd).getD []).any (bit s.affected))

/-! ## Preconditions (R607) -/

/-- One precondition: the objects it is reported on, whether it is judged for changed objects only, whether the values break it,
and its reason. -/
structure Pre where
  keys : List (Nat × Nat)
  changed : Bool := false
  bad : Bool
  reason : Nat


/-- Signed 16-bit entries of a table. -/
def s16At (b : Bytes) (i : Nat) : Int := toS 16 (leAt b (2 * i) 2)

/-- Whether a coefficient table meets R151. -/
def coefsOk (taps : Nat) (b : Bytes) : Bool :=
  (upTo 64).all fun ph =>
    let c := (upTo taps).map fun k => s16At b (taps * ph + k)
    (c.all fun x => -2048 ≤ x && x ≤ 2047) && sumI c id = 1024

/-- Whether a geometry meets R249. -/
def geometryOk (w : Nat) : Bool :=
  let x := fld w 31 16
  let y := fld w 15 0
  decide (256 ≤ x) && decide (x ≤ 7680) && x % 32 = 0 && decide (256 ≤ y) && decide (y ≤ 4320) && y % 16 = 0

/-- Whether a chain of `n` drivers cannot carry a period's set-points (R363). -/
def chainShort (ts n : Nat) : Bool := decide (ts < 1200 + 2 * (4 * setChars n) + 4 * statusChars n + 300)

/-- Layers fed by transit under a view (R440). -/
def transitFed (v : View) (n : Nat) : Bool := fld (v 0xF042 n) 7 0 = 1

/-- Bytes of memory rounded up to the unit of 0x5020. -/
def units256 (bytes : Nat) : Nat := divCeil bytes 256

/-- Size in 256 B of a layer's buffers (R96, R156). -/
def layerUnits (v : View) (n : Nat) : Nat :=
  match bufSize v n with
  | some (w, h) => units256 ((if 8 ≤ n then v 0x6031 (n - 8) else v 0x4013 n) * bufWords w h * 32)
  | none => 0

/-- Size in 256 B of an enabled array's plane store (R216). -/
def planeUnits (v : View) (ap : Nat) : Nat :=
  if !bit (v 0xB031 0) ap then 0
  else
    let n := match groupOf v (portGroup v ap) with
      | some (.trio, _) => 12
      | _ => 36
    units256 (2 * n * arrayH v ap * divCeil (arrayW v ap) 256 * 32)

/-- Units that MGMT holds for Uane transit (0x30), tables (0x40) and firmware (0x50): fewer than 2¹⁸ of 256 B each
(log entry 142, DESIGN CHOICE, unsafe). -/
def serviceUnits (owner : Nat) : Nat := Config.serviceUnits owner % 2 ^ 18

/-- First unit of 256 B of an owner's pool, and the one past its last (R115). -/
def poolSpan (owner : Nat) : Nat × Nat :=
  if (0x10 ≤ owner && owner < 0x20) || owner = 0x40 || owner = 0x50 then (0, 2 ^ 24) else (2 ^ 24, 2 ^ 27 - 2 ^ 14)

/-- Whether units do not fit a pool beside what MGMT holds there: the part's own figure is asked only where it decides. -/
def spanOver (owner units : Nat) (mgmt : List Nat) : Bool :=
  let (lo, hi) := poolSpan owner
  decide (hi < lo + units + mgmt.length * 2 ^ 18) && decide (hi < lo + units + (mgmt.map serviceUnits).foldl (· + ·) 0)

/-- Whether the buffers do not fit their pools (R115, R119). -/
def poolOver (v : View) : Bool :=
  spanOver 0x10 (sumTo 8 fun g => layerUnits v (8 + g)) [0x40, 0x50] ||
  spanOver 0x01 ((sumTo 8 fun n => layerUnits v n) + sumTo 4 fun ap => planeUnits v ap) [0x30]

/-- Whether a video layer's destination is out of range (R146). -/
def dstBad (v : View) (n : Nat) : Bool :=
  let (_, _, dw, dh) := dstOf v n
  dw = 0 || decide (32767 < dw) || dh = 0 || decide (32767 < dh)

/-- Whether a video layer's crop does not lie inside its buffer (R146). -/
def cropBad (v : View) (n : Nat) : Bool :=
  match bufSize v n with
  | none => false
  | some (bw, bh) =>
    let (x, y, w, h) := cropOf v n
    decide (bw < x + w) || decide (bh < y + h) || w = 0 || h = 0

/-- Whether a video layer's destination or scale ratio is out of range. The destination of no size that a layer has by default is not
judged before the layer is on (R146) (log entry 145, DEDUCED, unsafe). -/
def scaleBad (v : View) (n : Nat) : Bool :=
  let (_, _, dw, dh) := dstOf v n
  let (_, _, w, h) := cropOf v n
  let off (c d : Nat) : Bool := v 0x6005 n = 0 && (bufSize v n).isSome && (decide (c * 64 < d) || decide (4 * d < c))
  (layerOn v n || v 0x6003 n != 0) && (dstBad v n || off w dw || off h dh)

/-- Whether a target rectangle gives no layer buffer of 64 × 64 to 7680 × 4320 (R92). -/
def targetBad (r : Nat) : Bool :=
  decide (rectW r < 64) || decide (rectH r < 64) || decide (7680 < rectW r) || decide (4320 < rectH r)

/-- Whether a port's thresholds lie the wrong way round (R124). -/
def panicBad (n th : Nat) : Bool :=
  if n = 7 then decide (fld th 23 16 ≤ fld th 31 24) || decide (fld th 15 8 ≤ fld th 7 0)
  else if portReads n then decide (fld th 15 0 ≤ fld th 31 16) else decide (fld th 31 16 ≤ fld th 15 0)

/-- Bands whose loop settings an object touches under a view, as R335 asks: the objects by band. -/
def loopKeys (old v : View) (b : Nat) : List (Nat × Nat) :=
  let mine := (upTo 48).filter fun k => v 0xC002 k = b || old 0xC002 k = b
  [(0xC006, 0)] ++ (mine.map fun k => [(0xC002, k), (0xC010, k), (0xC011, k), (0xC012, k), (0xC013, k)]).flatten ++
    [(0xC014, b), (0xC015, b), (0xC016, b), (0xC017, b)]

/-- The objects that decide the plans of R226. -/
def planKeys : List (Nat × Nat) :=
  ((upTo 7).map fun k => (0x9010 + k, 0)) ++ [(0xB001, 0), (0xB030, 0), (0xB031, 0)] ++ keysOf [0xB032] 4

/-- Layer, group and enable objects (R607). -/
def fetchKeys : List (Nat × Nat) :=
  keysOf [0x4010, 0x4011, 0x4013, 0x6002, 0x6005, 0x6006, 0x6030, 0x6031, 0xF042, 0xF043] 8 ++ keysOf [0x6000, 0x6001, 0x6003] 16 ++
    [(0xB001, 0), (0xB030, 0), (0xB031, 0)] ++ keysOf [0xB032] 4

/-- The rows of R607's table in order, then what other rules refuse with OBJECT. `bl` gives the bytes of BLOBs
(log entry 65, DEDUCED, unsafe) (log entry 66, DEDUCED, unsafe) (log entry 67, DEDUCED, unsafe). -/
def State.preconditions (s : State) (v : View) (bl : Nat → Nat → Bytes) : List Pre :=
  let span (n : Nat) : Bool := v 0x7104 n != 0
  let slave : Bool := v 0xB050 0 = 2
  let groups := existingGroups v
  let mapped := (upTo 4).filter fun b => (bandMap v b).isSome
  ((upTo 8).map fun n => ⟨[(0x4013, n)], true, v 0x4010 n != 0xFF, 1⟩) ++
  ((upTo 8).map fun n =>
    ⟨[(0x4013, n), (0x4015, n), (0x7104, n), (0xF042, n)], false, span n && ((v 0x4015 n = 0 && !transitFed v n) || decide (v 0x4013 n < 5)), 7⟩) ++
  ((upTo 8).map fun g => ⟨[(0x6031, g), (0x7104, 8 + g)], false, span (8 + g) && decide (v 0x6031 g < 5), 7⟩) ++
  ((upTo 16).map fun n =>
    ⟨[(0x7104, n)], false, span n && (slave || (upTo 16).any fun m => m != n && v 0x7104 m = v 0x7104 n), 7⟩) ++
  [⟨keysOf [0x5030] 8, false, decide (1310720 < sumTo 8 fun n => v 0x5030 n), 4⟩] ++
  ((upTo 8).map fun n => ⟨[(0x6008, n)], false, !coefsOk 8 (bl 0x6008 n), 13⟩) ++
  ((upTo 8).map fun n => ⟨[(0x6009, n)], false, !coefsOk 6 (bl 0x6009 n), 13⟩) ++
  [⟨[(0x6011, 0)], false, !inRange .u64 .perm (v 0x6011 0), 13⟩] ++
  ((upTo 4).map fun g => ⟨[(0x6014, g), (0x8001, 0)], true, (match (s.cgroup g).n with
    | some m => (gamutProduct m (sourceMatrix (v 0x6014 g) (v 0x8001 0))).isRight
    | none => false), 8⟩) ++
  [⟨[(0xB001, 0)] ++ keysOf [0xB040, 0xB041] 2, true, s.mews.dev.lit && s.num 0xB040 0 = 1, 12⟩] ++
  ((layoutGroups (v 0xB030 0)).map fun g =>
    let on := g.2.2.filter fun a => bit (v 0xB031 0) a
    ⟨[(0xB030, 0), (0xB031, 0)] ++ keysOf [0xB032] 4, false,
      (!on.isEmpty && decide (on.length < g.2.2.length)) || g.2.2.any fun a => v 0xB032 a != v 0xB032 (g.2.2.headD 0), 11⟩) ++
  (groups.map fun g =>
    let none_ := (s.planOf v (s.freshPlan v g) g).isNone
    let safe : Bool := match groupOf v g with
      | some (k, ap :: aps) =>
        dutyReachable v (primsOf k) (blockTime (arrayW v ap) (arrayH v ap)) (s.settleFor (s.freshPlan v g) g (ap :: aps))
      | _ => false
    ⟨planKeys, false, none_, if safe then 6 else 5⟩) ++
  [⟨[(0xB050, 0)], false, slave && v 0xF001 0 != 0, 1⟩,
   ⟨[(0xB050, 0)], false, slave && (upTo 16).any fun n => span n, 7⟩,
   ⟨[(0xB067, 0)], false, decide (v 0xB067 0 * 1000 < s.pathMax * 600 + 70000), 1⟩] ++
  ((upTo 4).map fun b => ⟨loopKeys s.live v b, true,
    !((s.obs (wBand b) = 0 || s.obs (wBand b) = 4) && (s.unitCmd (wBand b) = 0 || s.unitCmd (wBand b) = 4)), 1⟩) ++
  [⟨[(0xC006, 0)], false, v 0xC006 0 % 40 != 0 || chainShort (v 0xC006 0) (v 0xD002 0) || chainShort (v 0xC006 0) (v 0xD002 1), 1⟩] ++
  ((upTo 4).map fun b => ⟨[(0xC015, b)], false, v 0xC015 b != 0 && decide (8192 < loopK v), 1⟩) ++
  (mapped.map fun b =>
    let m := bl 0xC020 b
    ⟨[(0xC005, b), (0xC020, b)], false, leAt m 0 2 = 0 || leAt m 2 2 = 0 || decide (65536 ≤ leAt m 0 2 + leAt m 2 2), 1⟩) ++
  ((upTo 2).map fun n => ⟨[(0xE001, n), (0xE002, n), (0xE004, n), (0xE01E, n)], true,
    !(s.obs (wWheel n) = 0 && s.unitCmd (wWheel n) = 0), 1⟩) ++
  ((upTo 2).map fun n => ⟨[(0xE003, n), (0xB041, n), (0xB040, n), (0xB001, 0), (0xE002, n)], false,
    decide (18000000 < runSpeed v n) || decide (144000000 < runSpeed v n * v 0xE002 n), 1⟩) ++
  ((upTo 8).map fun n =>
    let r := s.uane.rx.getD n {}
    ⟨[(0xF042, n), (0xF043, n), (0x4010, n)], false, transitFed v n && (v 0x4010 n != 0xFF ||
      (r.width != 0 && v 0xF042 n = s.num 0xF042 n && v 0xF043 n != r.width * 65536 + r.height)), 1⟩) ++
  [⟨fetchKeys, false, decide (300000000000000 < fetchLoad v), 2⟩, ⟨fetchKeys, false, poolOver v, 3⟩] ++
  -- refused by rules outside the table
  ((upTo 4).map fun ap => ⟨[(0xB032, ap)], false, !geometryOk (v 0xB032 ap), 1⟩) ++
  ((upTo 8).map fun n => ⟨[(0x4011, n)], false, targetBad (v 0x4011 n), 1⟩) ++
  ((upTo 8).map fun n => ⟨[(0x4010, n), (0x4011, n)], false, v 0x4010 n != 0xFF && targetBad (v 0x4011 n), 1⟩) ++
  ((upTo 8).map fun n => ⟨[(0x5031, n)], false, panicBad n (v 0x5031 n), 1⟩) ++
  ((upTo 8).map fun n => ⟨[(0x6003, n)], false, dstBad v n, 1⟩) ++
  ((upTo 8).map fun n => ⟨[(0x4010, n), (0x4011, n), (0x6002, n), (0xF042, n), (0xF043, n)], false, cropBad v n, 1⟩) ++
  ((upTo 8).map fun n =>
    ⟨[(0x4010, n), (0x4011, n), (0x6000, n), (0x6001, n), (0x6002, n), (0x6003, n), (0x6005, n), (0x6006, n), (0xF042, n), (0xF043, n)],
      false, scaleBad v n, 1⟩) ++
  ((upTo 32).map fun r => ⟨[(0x6020, r), (0x6021, r), (0xB030, 0)] ++ keysOf [0xB032] 4, false,
    rectW (v 0x6020 r) != 0 && (match outSize v (v 0x6021 r) with
      | some (w, h) => !rectFits (v 0x6020 r) w h
      | none => true), 1⟩) ++
  ((upTo 16).map fun n => ⟨[(0x7102, n)] ++ (if 8 ≤ n then [(0x6030, n - 8)]
      else [(0x4010, n), (0x4011, n), (0xF042, n), (0xF043, n)]), false,
    rectW (v 0x7102 n) != 0 && (match bufSize v n with
      | some (w, h) => !rectFits (v 0x7102 n) w h
      | none => false), 1⟩) ++
  ((upTo 5).map fun k => ⟨[(0xC030 + k, 1), (0xC030 + k, 2)], false, decide (v (0xC030 + k) 2 < v (0xC030 + k) 1), 1⟩) ++
  ((s.seqr.staging.filter fun j => !j.verified).map fun j => ⟨[(j.key / 256, j.key % 256)], false, true, 9⟩)

/-- The object a precondition is reported on: its lowest staged, or changed, object. -/
def Pre.blame (staged changed : Nat × Nat → Bool) (p : Pre) : Option Nat :=
  (p.keys.filter fun k => if p.changed then changed k else staged k).foldl
    (fun a k => some (match a with
      | some o => min o k.1
      | none => k.1)) none

/-- The refusal of a list of preconditions: reason and object of the lowest object that fails, on it the first (R607). -/
def judgePres (staged changed : Nat × Nat → Bool) (ps : List Pre) : Option (Nat × Nat) :=
  ps.foldl (fun best p =>
    match p.blame staged changed with
    | none => best
    | some o =>
      if !p.bad then best
      else match best with
        | some (r, b) => if o < b then some (p.reason, o) else some (r, b)
        | none => some (p.reason, o)) none

/-- Validation of the shadow (R257, R263): reason and object of a refusal. -/
def State.validate (s : State) : Option (Nat × Nat) :=
  if s.mews.dev = .mews || s.mews.dev = .boot then some (12, 0)
  else judgePres s.isStaged s.isChanged (s.preconditions s.stagedView fun o i => (s.staged o i).toBytes)

/-! ## The course of a commit (R257–R260, R264, R265) -/

/-- The shadow sealed for validation (R60, R257). -/
def State.sealShadow (s : State) : State :=
  (s.modDict fun d => { d with isSealed := true }).modSeqr fun q => { q with
    cState := 1, cClass := s.shadowClass, cReason := 0, cObject := 0, cFrame := 0, cWall := false, cSince := s.now }

/-- Whether the shadow is sealed or a transition runs, so that a commit answers COMMIT_PENDING (R60, R264). -/
def State.commitBusy (s : State) : Bool := s.dict.isSealed || s.seqr.trans.isSome

/-- The shadow discarded, or empty after a commit (R59, R60, R261). -/
def State.emptyShadow (s : State) : State :=
  (s.modDict fun d => { d with shadow := [], owner := 0, isSealed := false }).modSeqr fun q => { q with staging := [], stageReady := true }

/-- Whether the owner of the shadow has ended: the mailbox, 0xFFFF, never does (R59, R620). -/
def State.orphaned (s : State) : Bool :=
  s.dict.owner != 0 && s.dict.owner != 0xFFFF && !s.gysol.sessions.any fun x => x.id = s.dict.owner

/-- A shadow whose owner has ended discarded, with event 0x21; a sealed one waits for its commit (R59, R60). -/
def State.dropOrphan (s : State) : State :=
  if s.orphaned && !s.dict.isSealed then s.emptyShadow.raise 0x21 0 s.dict.owner else s

/-- A commit refused (R259, R260). -/
def State.refuseCommit (reason obj : Nat) (s : State) : State :=
  (((s.modDict fun d => { d with isSealed := false }).modSeqr fun q => { q with
    cState := 5, cReason := reason, cObject := obj }).raise 0xBA reason obj).dropOrphan

/-- The commit's boundary fixed as B(c) (R257 step 3) (log entry 69, DEDUCED, safe). -/
def State.pendCommit (c : Nat) (wall : Bool) (s : State) : State :=
  let cls := s.shadowClass
  let mask := if cls = 3 then s.affected else 0
  let s1 := s.modSeqr fun q => { q with
    cState := 2, cClass := cls, cFrame := c, cWall := wall, cManaged := cls = 3 && s.mews.dev.lit, cMask := mask }
  if cls = 3 then s1.raise 0xBC mask (c % 65536) else s1

/-- Whether a wall commit's boundary G can still be met: t(G) at least 200 µs ahead (R265). -/
def State.inTimeFor (s : State) (g : Nat) : Bool := decide ((s.wall : Int) + 200000 ≤ s.tF g)

/-- Validation ends for a commit that this node decides (R257, R265). -/
def State.endLocalValidation (s : State) : State :=
  match s.validate with
  | some (r, o) => s.refuseCommit r o
  | none =>
    let g := (s.staged 0xB012 0).toNat
    if g != 0 then (if s.inTimeFor g then s.pendCommit g true else s.refuseCommit 10 0xB012)
    else s.pendCommit (max (s.seqr.count + 1) (s.countAt ((s.wall : Int) + 200000))) false

/-! ## Staging of class II tables (R209, R261) -/

/-- Bytes to stage for a class II object. -/
def stageBytes (obj : Nat) (len : Nat) : Nat := if obj = 0x8002 then 34818 else len

/-- Staging of a class II object starts, or starts again. -/
def State.stageStart (obj sub len : Nat) (s : State) : State :=
  s.modSeqr fun q => { q with
    stageReady := false
    staging := (q.staging.filter fun j => j.key != okey obj sub) ++ [⟨okey obj sub, stageBytes obj len, 0, false⟩] }

/-- 0xB013 (log entry 126, DEDUCED, unsafe). -/
def State.stageProgress (s : State) : Nat :=
  let js := s.seqr.staging
  if js.all fun j => j.verified then 1000
  else
    let total := js.foldl (fun a j => a + j.total) 0
    let copied := js.foldl (fun a j => a + j.copied) 0
    if total = 0 then 999 else min 999 (1000 * copied / total)

/-- The copy of a frame period: 4,096 bytes of each table. -/
def State.stageBoundary (s : State) : State :=
  s.modSeqr fun q => { q with staging := q.staging.map fun j => { j with copied := min j.total (j.copied + 4096) } }

/-- The verify of the spare banks passes (R261). -/
def State.stageVerified (s : State) : State :=
  let js := s.seqr.staging
  if s.seqr.stageReady || !(js.all fun j => decide (j.total ≤ j.copied)) then s
  else (s.modSeqr fun q => { q with
    stageReady := true, staging := js.map fun j => { j with verified := true } }).raise 0xBB 0 (js.length % 65536)

/-! ## What a commit does at its boundary (R118, R119, R143, R158, R209, R226, R243, R269) -/

/-- What MGMT allocates: owner, units, and the words of one buffer (R119). -/
def wantedRegions (v : View) : List (Nat × Nat × Nat) :=
  let layer (n : Nat) : Nat × Nat × Nat :=
    let (w, h) := (bufSize v n).getD (0, 0)
    (layerOwner n, layerUnits v n, bufWords w h)
  let all := (upTo 16).map layer ++ ((upTo 4).map fun a => (0x20 + a, planeUnits v a, 0))
  (all.filter fun q => q.2.1 != 0) ++ [0x30, 0x40, 0x50].map fun o => (o, serviceUnits o, 0)

/-- The unit ranges between `lo` and `hi` that no region takes, from regions in rising order of base: start and length. -/
def freeSpans (hi : Nat) : Nat → List (Nat × Nat) → List (Nat × Nat)
  | lo, [] => [(lo, hi - lo)]
  | lo, (b, n) :: rs => (lo, b - lo) :: freeSpans hi (max lo (b + n)) rs

/-- A base for a region in its pool beside the regions that stand there: which free span it takes and where in it are MGMT's choice. -/
def freshBase (owner size seed : Nat) (taken : List (Nat × Nat)) : Option Nat :=
  let (lo, hi) := poolSpan owner
  let sorted := taken.foldl (fun m q => mapPut m q.1 q.2) []
  let fits := (freeSpans hi lo (sorted.filter fun q => decide (lo ≤ q.1) && decide (q.1 < hi))).filter fun g => decide (size ≤ g.2)
  (fits[seed % max 1 fits.length]?).map fun g => g.1 + seed / 64 % (g.2 - size + 1)

/-- Regions of 0x5020 (R119): one that is wanted as it stands keeps its place, the others take free places of their pool, and where
free space is too scattered for them every region is packed from its pool's start. The places are MGMT's choice
(log entry 9, DESIGN CHOICE, unsafe). A new grain moves what lies in the picture pool to other addresses (R116, R118). -/
def State.allocate (s : State) : State :=
  let want := wantedRegions s.live
  let old := s.hbm.regions
  let kept (q : Nat × Nat × Nat) : Option HRegion := old.find? fun r => r.owner = q.1 && r.size = q.2.1 && r.per = q.2.2
  let stay := (want.filterMap kept).map fun r => (r.base, r.size)
  let (rs, s1) := want.foldl (fun (acc : List (HRegion × Option Nat) × State) q =>
    match kept q with
    | some r => (acc.1 ++ [(r, some r.base)], acc.2)
    | none =>
      let base := freshBase q.1 q.2.1 acc.2.free (stay ++ acc.1.map fun r => (r.1.base, r.1.size))
      (acc.1 ++ [(⟨q.1, base.getD 0, q.2.1, q.2.2⟩, base)], acc.2.drawn)) ([], s)
  let placed := rs.all fun r => r.2.isSome
  let packed := (rs.zip (upTo rs.length)).map fun x =>
    if placed then x.1.1
    else
      let mine := (rs.take x.2).filter fun r => poolSpan r.1.owner = poolSpan x.1.1.owner
      { x.1.1 with base := mine.foldl (fun a r => a + r.1.size) (poolSpan x.1.1.owner).1 }
  let grain := s.num 0x5001
  let moved (h : Hbm) (w : Nat) : Nat :=
    if w * 32 < 0x100000000 then w else (let (r, c) := placeOf h.grain (w * 32); r.addr grain c / 32)
  s1.modHbm fun h =>
    let h1 := if h.grain = grain then h
      else { h with
        grain := grain
        poisoned := h.poisoned.map (moved h)
        raw := h.raw.foldl (fun m e => mapSet 0 m (moved h e.1) e.2) [] }
    { h1 with regions := packed }

/-- A new FSYNC mode (R269, R270). -/
def State.fsyncMode (s : State) : State :=
  let base (q : Seqr) : Seqr := { q with
    fsyncErr := 0, fsyncGood := 0, fsyncMiss := 0, fsyncEdge := 0, fsyncRef := s.wall, fsyncFirst := true }
  let to_ (n : Nat) (q : Seqr) : Seqr := match q.rephase with
    | some r => { q with rephase := some { r with after_ := n } }
    | none => { q with status := if q.status = 0 then 0 else n }
  if s.num 0xB050 = 2 then (s.modSeqr fun q => to_ 3 (base q)).setFsync 1
  else if s.seqr.fsync = 0 then s
  else (s.rebase.modSeqr fun q => to_ 1 { base q with fsyncPeriod := 0 }).setFsync 0

/-- The array ports of a new layout, enable or geometry, with the states R306 and R630 command (log entry 70, DEDUCED, unsafe). -/
def State.applyArrays (old : View) (s : State) : State :=
  (upTo 4).foldl (fun (s : State) a =>
    let on := bit (s.num 0xB031) a
    let was := bit (old 0xB031 0) a
    let s1 := if on && !was then s.setCmd (wArray a) 2 else if !on && was then ((s.apark a 0).setArray a 0).setCmd (wArray a) 0 else s
    let o := s1.obs (wArray a)
    if !on || o = 1 then s1
    else if s1.mews.dev.lit && (o = 0 || o = 6) && !was then s1.atrain a
    else if s1.num 0xB032 a = old 0xB032 a then s1
    else if s1.mews.dev.lit && (o = 0 || o = 6) then s1.atrain a
    else if o = 0 || o = 6 then s1
    else s1.acontrol a [acmd 8 0x000A 0 (s1.num 0xB032 a)]) s

/-- The staged values put in force at B(`c`), with everything that follows from their change. -/
def State.applyValues (c : Nat) (s : State) : State :=
  let old := s.live
  let changed := s.isChanged
  let any (ks : List (Nat × Nat)) : Bool := ks.any changed
  let tables := s.dict.shadow.filter fun e => commitClass (e.1 / 256) .rs = 2
  let fresh := s.freshPlan s.stagedView
  let s0 := if changed (0xB001, 0) then
      s.modSeqr fun q => { q with t0 := (s.tF (c + 1)).toNat, f0 := c + 1, fsyncPeriod := 0 }
    else s
  let s1 := s.dict.shadow.foldl (fun (t : State) e => if e.1 = okey 0xB012 0 then t else t.setVal (e.1 / 256) (e.1 % 256) e.2) s0
  let s2 := s1.emptyShadow
  let s3 := (upTo 8).foldl (fun (t : State) n =>
    if bufSize t.live n != bufSize old n || t.num 0x4013 n != old 0x4013 n || t.num 0x5001 != old 0x5001 0 then t.discardLayer n
    else if [0x4010, 0x4011, 0xF042, 0xF043].any fun o => t.num o n != old o n then t.discardBoth n
    else t) s2
  let s3 := (upTo 16).foldl (fun (t : State) n =>
    let t1 := if t.num 0x7102 n != old 0x7102 n || t.num 0x7103 n != old 0x7103 n then t.modNewest n fun v => { v with hb := 0 } else t
    if t.num 0x7104 n != old 0x7104 n then t1.modCLayer n fun c => { c with listed := [] } else t1) s3
  let s4 := (upTo 8).foldl (fun (t : State) g =>
    if t.num 0x6030 g != old 0x6030 g || t.num 0x6031 g != old 0x6031 g then t.gfxDiscard g else t) s3
  let s5 := if s4.num 0x5001 != old 0x5001 0 then s4.modPlgn fun p => { p with
      arrays := p.arrays.map fun a => { a with planes := [], other := [], hist := List.replicate 72 0, armed := List.replicate 16 none } } else s4
  let s6 := (upTo 8).foldl (fun (t : State) n =>
    if changed (0xF042, n) || changed (0xF043, n) then t.modUane fun u => { u with rx := setAt u.rx n {} } else t) s5
  let s6 := (upTo 16).foldl (fun (t : State) k =>
    if changed (0xF040, k) || changed (0xF041, k) then t.modUane fun u => { u with
      tx := setAt u.tx k { done := (t.vlayer (fld (t.num 0xF040 k) 31 24)).published } } else t) s6
  let s7 := if any (fetchKeys ++ keysOf [0x4013] 8 ++ [(0x5001, 0)]) then s6.allocate else s6
  let s8 := s7.applyArrays old
  let s9 := if any (planKeys ++ [(0xB050, 0), (0x5001, 0)]) then
      (upTo 4).foldl (fun (t : State) g => t.setPlan g (if groupExists t.live g then t.planOf t.live (fresh g) g else none)) s8
    else s8
  let s10 := if changed (0xB050, 0) then s9.fsyncMode else s9
  let s11 := (upTo 32).foldl (fun (t : State) r =>
    if t.num 0x7121 r = 0 || t.num 0x6020 r != old 0x6020 r || t.num 0x6021 r != old 0x6021 r then t.sigReset r else t) s10
  let s12 := ((upTo 16).foldl (fun (t : State) n => t.reportSpace n) s11).recommand s
  let s13 := if changed (0xF001, 0) || changed (0xF020, 0) then s12.applyTopology else s12
  let s14 := if changed (0xF030, 0) || changed (0xF031, 0) then s13.ptpMode else s13
  tables.foldl (fun (t : State) e =>
    let n := e.1 % 256
    if e.1 / 256 = 0x8020 then t.raise 0x8B (0x10 + n) 2 else t.raise 0x8B n (if e.1 / 256 = 0x8002 then 3 else 1)) s14

/-- A commit reads DONE (R257 step 4). -/
def State.commitDone (first : Nat) (s : State) : State :=
  (s.emptyShadow.modSeqr fun q => { q with cState := 4, commitFrame := first, trans := none }).raise 0xB9 s.seqr.cClass (first % 65536)


/-- Groups with an object of theirs, or one that governs every group, in the shadow; these are not quiet (R164, R210). An object of a
layer or region touches the group it leaves and the one it comes to. -/
def State.touchedGroups (s : State) : Nat :=
  let inGroup (obj n g : Nat) : Bool := s.num obj n = g || s.stagedView obj n = g
  let touch (g : Nat) (e : Nat × Val) : Bool :=
    let o := e.1 / 256
    let n := e.1 % 256
    let a := o / 4096
    if commitClass o .rs = 2 || commitClass o .rs = 3 then true
    else if a != 6 && a != 7 && a != 8 && a != 9 then false
    else match lookup o n with
      | some d =>
        if d.top = 0 then true
        else if o = 0x8021 then portGroup s.live n = g || portGroup s.stagedView n = g
        else if d.top = 3 then n = g
        else if d.top = 31 then inGroup 0x6021 n g
        else if d.top = 15 then inGroup 0x6000 n g
        else if o = 0x6030 || o = 0x6031 then inGroup 0x6000 (8 + n) g
        else inGroup 0x6000 n g
      | none => true
  maskOf 4 fun g => s.dict.shadow.any fun e => touch g e

/-- The commit applied at B(`c`) (R257, R262, R263) (log entry 68, DEDUCED, unsafe). -/
def State.applyCommit (c : Nat) (s : State) : State :=
  let q := s.seqr
  let s1 := s.applyValues c
  if !q.cManaged then s1.commitDone (c + 1)
  else
    let mask := q.cMask
    let s2 := (upTo 4).foldl (fun (t : State) a =>
      if bit mask a && (t.obs (wArray a) = 3 || t.obs (wArray a) = 4) then (t.apark a 0).emit (.clearArray a) else t) s1
    let s3 := s2.modPlgn fun p => { p with
      arrays := (p.arrays.zip (upTo 4)).map fun x => if bit mask x.2 then
        { x.1 with missing := [], missingNext := [], armed := List.replicate 16 none, shown := List.replicate 16 none } else x.1 }
    let s4 := ((upTo 4).filter fun g => (((groupOf s3.live g).map Prod.snd).getD []).any (bit mask)).foldl (fun (t : State) g =>
      t.modPlGroup g fun p => { p with sched := none, next := none, darkSlots := [] }) s3
    (s4.modDict fun d => { d with isSealed := true, owner := s.dict.owner }).modSeqr fun q => { q with
      cState := 3, trans := some ⟨mask, c⟩ }

/-- The commit at a boundary: B(`f`) has just been reached (R257, R264). A boundary jumped over refuses a wall commit. -/
def State.commitBoundary (f : Nat) (s : State) : State :=
  let q := s.seqr
  if q.cState != 2 || f < q.cFrame || q.cFrame = 0 then s
  else if q.cWall && f != q.cFrame then s.refuseCommit 10 0xB012
  else s.applyCommit f

/-- Whether an enabled array had reported ready 100 µs before B(`f`) (R262). -/
def State.readyBy (s : State) (f a : Nat) : Bool :=
  (s.obs (wArray a) = 2 || s.obs (wArray a) = 3 || s.obs (wArray a) = 4) && decide ((((s.aport a).readyAt : Int) + s.wallOff) ≤ s.tF f - 100000)

/-- The end of a transition at B(`f`), and the return of arrays that were late (R262, R264) (log entry 122, DEDUCED, unsafe). -/
def State.transBoundary (f : Nat) (s : State) : State :=
  let back := maskOf 4 fun a => bit s.seqr.absent a && (s.readyBy f a || !bit (s.num 0xB031) a)
  let s1 := s.modSeqr fun q => { q with absent := clearBits q.absent back }
  match s.seqr.trans with
  | none => s1
  | some t =>
    if f < t.frame + 2 || s.seqr.status = 4 then s1
    else
      let late := if s1.mews.dev.lit then maskOf 4 fun a => bit t.mask a && bit (s1.num 0xB031) a && !s1.readyBy f a else 0
      ((s1.modSeqr fun q => { q with absent := q.absent ||| late, trans := none }).raise 0xBD
        (t.mask + if late != 0 then 128 else 0) (f % 65536)).commitDone f

/-- SEQR_STAGE_READY (R261): the spare banks verify. -/
def execSeqrStageReady (t : Nat) (s : State) : Host.Outcome State Fault Refusal := .next (s.advance t).stageVerified

end Sys2Proof.Machine
end

