-- ==== Sys2Proof/Machine/Live.lean ====
section
/-! DEFINITION. What each object reads: values the device holds outside the dictionary, unit records, and the rest from the
dictionary (R9, R44, R47, and the object tables of the chapters). -/

namespace Sys2Proof.Machine

/-- Filtered delay of a Uane link in 0.01 ns: the mean of the last 16 exchanges in 0.1 ns (R433). -/
def State.linkDelay (s : State) (n : Nat) : Nat :=
  let ds := (s.uport n).delays
  if ds.isEmpty then 0 else (divAway (sumI ds fun d => 10 * d) ds.length).toNat

/-- Sources that hold IRQ_N low: events, RESP_READY, PUSH_READY (R492). -/
def State.irqHeld (s : State) : Nat :=
  let src := s.num 0x3032
  let ev := (upTo 4).any fun n => (s.xrds.irqPending >>> (64 * n)) % 2 ^ 64 &&& s.num 0x3030 n != 0
  b2n (bit src 0 && ev) + 2 * b2n (bit src 1 && !s.gysol.spiResp.isEmpty) + 4 * b2n (bit src 2 && !s.gysol.spiPush.isEmpty)

/-- The level of IRQ_N: none while the pin is not driven (R492) (log entry 139, DESIGN CHOICE, safe). -/
def State.irqPin (s : State) : Option Bool :=
  if s.mews.dev = .mews || s.mews.held then none else if s.irqHeld != 0 then some false else none

/-- A session by its identifier. -/
def State.session (s : State) (sid : Nat) : Option Session := s.gysol.sessions.find? fun x => x.id = sid

/-- 0x2014.n (R85): a resume that waits for its first request leaves an active session active (log entry 157, DEDUCED, unsafe). -/
def State.sessionInfo (s : State) (n : Nat) : Nat :=
  match s.gysol.sessions.find? fun x => x.slot = n with
  | some x => x.id * 2 ^ 48 + x.role * 2 ^ 40 + (if x.isPending then 1 else 2) * 2 ^ 32 + x.last % 2 ^ 32
  | none => 0

/-- Bytes of an entry that the profile holds for a value (R609). -/
def entryBytes (obj sub : Nat) (v : Val) : Nat :=
  8 + match v with
    | .num _ => (((lookup obj sub).map fun d => d.ty.width).getD 0 + 3) / 4 * 4
    | .bytes b => (b.length + 3) / 4 * 4

/-- What a save would write: the running values of P objects that differ from their defaults (R608). -/
def State.profileEntries (s : State) : List (Nat × Val) :=
  s.dict.vals.filter fun e => match lookup (e.1 / 256) (e.1 % 256) with
    | some d => d.p && d.acc != .rp
    | none => false

/-- 0x2034 (R611). -/
def State.profileBytes (s : State) : Nat :=
  s.profileEntries.foldl (fun a e => a + entryBytes (e.1 / 256) (e.1 % 256) e.2) 0

/-- A field of a unit record (R35). -/
def State.unitFieldNum (s : State) (w f : Nat) : Nat :=
  let u := s.unitRec w
  match f with
  | 1 => s.unitCmd w
  | 2 => u.obs
  | 3 => b2n u.dis
  | 4 => if u.dis then min ((s.now - u.disSince) / 1000000) 0xFFFFFFFF else 0
  | 5 => u.held
  | _ => (mapGet s.dict.cmdStatus (okey w f)).getD 0

/-- 0x0018 to 0x004A, areas 0x0 and 0x1. -/
def State.readMews (s : State) (obj sub : Nat) : Option Nat :=
  let m := s.mews
  match obj with
  | 0x0003 => some s.firm.fwVersion
  | 0x0010 => some m.dev.code
  | 0x0012 => some m.safeCause
  | 0x0013 => some s.degradedMask
  | 0x0017 => some m.xtal
  | 0x0018 => some s.mewsTime
  | 0x001A => some (m.rails % 128 + 128 * b2n (m.pwren || m.pwrenFallAt.any fun f => decide (s.now < f)))
  | 0x0020 => some (ofS 16 (s.therm.die.getD sub {}).temp)
  | 0x0021 => some (ofS 16 s.dieMax)
  | 0x0022 => some s.thermalLevel
  | 0x0023 => some (b2n (s.therm.die.getD sub {}).excluded)
  | 0x0027 => some (maskOf 16 fun n => s.therm.shed.contains n)
  | 0x0043 => some s.spareInventory
  | 0x0049 => some s.therm.sramCe
  | 0x0052 => some m.resetCount
  | 0x0053 => some m.resetCause
  | 0x1000 => some (s.pll sub).st
  | 0x1001 => some (s.pll sub).target
  | 0x1002 => some (s.pll sub).band
  | 0x1003 => some (ofS 16 (satS16 (s.pll sub).err))
  | 0x1004 => some s.clks.ref
  | 0x1005 => some (s.domainState (sub + 1))
  | 0x1006 => some (s.domainSource (sub + 1))
  | 0x1011 => some (s.pll sub).lockCount
  | 0x1012 => some ((s.pll sub).coasted s.now)
  | _ => none

/-- Area 0x2, for the session that reads. -/
def State.readMgmt (s : State) (sid obj sub : Nat) : Option Nat :=
  let g := s.gysol
  let last := ((s.session sid).map fun x => x.last).getD 0
  match obj with
  | 0x2004 => some (Config.macAddr % 2 ^ 48)
  | 0x2010 => some (last % 65536)
  | 0x2011 => some s.xrds.seqNext
  | 0x2012 => some s.xrds.seqOldest
  | 0x2014 => some (s.sessionInfo sub)
  | 0x2016 => some g.rxDropped
  | 0x2017 => some (last % 2 ^ 32)
  | 0x2018 => some g.authFail
  | 0x2019 => some g.rxMalformed
  | 0x2020 => some s.dict.owner
  | 0x2031 => some g.profStatus
  | 0x2033 => some g.profSkipped
  | 0x2034 => some s.profileBytes
  | 0x2040 => some (b2n ((g.roleKeys.getD (sub - 1) []).any fun b => b != 0))
  | 0x2052 => some (s.coh.master.state * 2 ^ 56 + s.coh.master.sweep % 65536 * 2 ^ 40 + s.coh.master.step % 65536 * 2 ^ 24 +
      s.coh.master.missing.length)
  | 0x2054 => some s.coh.node.held.length
  | 0x2060 =>
    let l := s.firm.leases.getD sub {}
    some (l.area * 2 ^ 56 + l.holder * 2 ^ 48 + l.st * 2 ^ 40 +
      (if l.st = 0 then 0 else min ((s.now - l.renewed) / 1000) 0xFFFFFFFF))
  | 0x2061 => some (s.firm.leases.getD sub {}).revokes
  | 0x2062 => some s.firm.busTimeouts
  | 0x2063 => some s.firm.fwRestarts
  | 0x2070 =>
    let i := s.firm.slots.getD sub {}
    some (i.version % 2 ^ 32 * 2 ^ 32 + i.st * 2 ^ 24 + b2n (s.firm.bootSlot = some sub))
  | 0x2072 => some (s.firm.flashKiB * 2 ^ 32 + b2n s.firm.flashSfdp)
  | _ => none

/-- The level at a ball: driven by its function, else from outside (R487, R570) (log entry 61, DEDUCED, unsafe). -/
def State.ball (s : State) (n : Nat) : Bool :=
  match s.num 0x3041 n with
  | 1 => bit (s.num 0x3042) n
  | 2 => bit (s.num 0x3042) n && bit s.xrds.gpioIn n
  | 3 => match s.xrds.pulseEnd.getD n none with
    | some e => decide (s.now + s.num 0x3040 n * 10 < e)
    | none => false
  | _ => bit s.xrds.gpioIn n

/-- Area 0x3. -/
def State.readXrds (s : State) (obj sub : Nat) : Option Nat :=
  let x := s.xrds
  match obj with
  | 0x3000 => some x.log.length
  | 0x3001 => some x.lost
  | 0x3002 => some x.queue.length
  | 0x3003 => some x.peak
  | 0x3010 => some (s.routeWord sub)
  | 0x3012 => some (natAt x.pending sub)
  | 0x3013 => some (natAt x.overflow sub)
  | 0x3014 => some x.sticky
  | 0x3015 => some (natAt x.acts sub)
  | 0x3021 => some (natAt x.counters sub)
  | 0x3024 => some (natAt x.snap sub)
  | 0x3025 => some x.snapTime
  | 0x3031 => some ((x.irqPending >>> (64 * sub)) % 2 ^ 64)
  | 0x3033 => some (s.irqHeld + 128 * b2n (s.irqPin = some false))
  | 0x3043 => some (maskOf 16 s.ball)
  | _ => none

/-- Area 0x4. -/
def State.readIngs (s : State) (obj sub : Nat) : Option Nat :=
  let p := s.port sub
  let l := s.vlayer sub
  match obj with
  | 0x4003 => some (s.obs (wPort sub))
  | 0x4004 => some (p.rate * 256 + p.lanes)
  | 0x4005 => some ((p.fmt.map fun f => f.width % 65536 * 2 ^ 48 + f.height % 65536 * 2 ^ 32 + f.rate % 65536 * 2 ^ 16 +
      f.enc % 256 * 2 ^ 8 + f.depth % 16 * 16 + f.colr % 16).getD 0)
  | 0x4009 => some (Config.sdpOui % 2 ^ 24)
  | 0x4030 => some ((l.versions.head?.map Version.num).getD 0)
  | 0x4031 => some ((l.versions.head?.map Version.capture).getD 0)
  | 0x4033 => some (b2n l.isStatic)
  | 0x4034 => some l.short
  | 0x4035 => some l.long
  | 0x4036 => some l.drops
  | 0x4037 => some p.sdpErrors
  | _ => none

/-- Area 0x5. -/
def State.readHbm (s : State) (obj sub : Nat) : Option Nat :=
  let h := s.hbm
  let c := h.chans.getD sub {}
  let p := h.ports.getD sub {}
  match obj with
  | 0x5000 => some h.status
  | 0x5010 => some c.st
  | 0x5011 => some (ofS 16 (h.temps.getD sub 0))
  | 0x5020 => some ((h.regions[sub]?.map HRegion.word).getD 0)
  | 0x5032 => some (p.shownLevel sub (s.num 0x5031 sub))
  | 0x5033 => some p.panics
  | 0x5034 => some p.bytes
  | 0x5035 => some p.timeouts
  | 0x5041 => some c.ce
  | 0x5042 => some c.ue
  | 0x5043 => some c.replays
  | 0x5044 => some (((h.shadows.getD sub none).map Shadow.word).getD 0)
  | 0x5045 => some c.repair
  | 0x5046 => some (Config.pprNew sub - c.pprUsed)
  | _ => none

/-- Areas 0x6 and 0x7. -/
def State.readPlaz (s : State) (obj sub : Nat) : Option Nat :=
  let c := s.clayer sub
  let g := s.glayer sub
  let r := s.plaz.sigs.getD sub {}
  match obj with
  | 0x6006 =>
    let (h, v, _, _) := stepsOf s.live sub
    some (h % 2 ^ 32 * 2 ^ 32 + v % 2 ^ 32)
  | 0x6013 => some (fetchLoad s.live / 1000000000)
  | 0x6016 => some (b2n (s.plaz.groups.getD sub {}).quiet)
  | 0x6022 => some r.value
  | 0x6023 => some r.frame
  | 0x6035 => some g.nextLine
  | 0x6036 => some ((g.versions.head?.map Version.num).getD 0)
  | 0x7110 => some c.mir.st
  | 0x7111 => some c.mir.ver
  | 0x7112 => some (min (c.mir.age.toNat / 1000) 0xFFFFFFFF)
  | 0x7113 =>
    if !c.mir.on then some 0
    else some (b2n c.mir.tooOld + 2 * b2n c.mir.frozen +
      4 * b2n (decide (2 ≤ c.mir.cause) && decide (c.mir.cause ≤ 4)) + 8 * b2n (c.mirWhole || !c.mirRuns.isEmpty) +
      16 * b2n (c.mir.ver = 0))
  | 0x7114 => some ((s.newestOf sub).map (fun v => min v.hb 65535) |>.getD 0)
  | 0x7115 => some (min c.mirLines 65535)
  | 0x7122 => some (s.curg.sigs.getD sub {}).st
  | 0x7123 => some (s.curg.sigs.getD sub {}).mismatches
  | 0x7130 => some c.agreed
  | 0x7131 => some c.voteFail
  | 0x7141 => some s.tableCrc
  | _ => none

/-- Areas 0x8 and 0x9. -/
def State.readColr (s : State) (obj sub : Nat) : Option Nat :=
  let c := s.cgroup sub
  let p := s.plgroup sub
  let pl (f : Plan → Nat) : Option Nat := some ((p.plan.map f).getD 0)
  match obj with
  | 0x8011 => some c.mirFrame
  | 0x8013 => some c.lateCount
  | 0x8030 => some c.clip
  | 0x9000 => pl Plan.q
  | 0x9001 => pl Plan.lp
  | 0x9002 => pl Plan.n
  | 0x9003 => pl Plan.emin
  | 0x9004 => pl Plan.eallow
  | 0x9005 => pl Plan.duty
  | 0x9006 => some ((p.sched.map fun h => h.eta (p.darkSlots.map Prod.fst).eraseDups).getD 0)
  | 0x9007 => pl Plan.tblk
  | 0x9008 => pl Plan.settle
  | 0x9023 => some p.fallbacks
  | 0x9024 => some p.d
  | 0x9025 => some p.compileUs
  | _ => none

/-- Area 0xA. -/
def State.readArcd (s : State) (obj sub : Nat) : Option Nat :=
  let p := s.aport sub
  match obj with
  | 0xA001 => some p.id
  | 0xA002 => some p.gmax
  | 0xA003 => some p.settle
  | 0xA004 => some p.delay
  | 0xA005 => some p.parkTime
  | 0xA006 => some (ofS 16 p.temp)
  | 0xA007 => some p.flags
  | 0xA009 => some p.regData
  | 0xA010 => some (sumTo 9 fun k => natAt p.laneMap k * 16 ^ k)
  | 0xA013 => some p.spare
  | 0xA020 => some p.loaded
  | 0xA022 => some p.rejects
  | 0xA023 => some p.ackTimeouts
  | 0xA024 => some p.retErrors
  | 0xA025 => some p.underruns
  | 0xA026 => some p.blanks
  | 0xA030 => some s.arcd.banks
  | 0xA031 => some s.ringSize
  | _ => none

/-- 0xB011 (R258). -/
def State.commitStatus (s : State) : Nat :=
  let q := s.seqr
  q.cState * 2 ^ 60 + q.cClass * 2 ^ 56 + (if q.cState = 5 then q.cReason * 2 ^ 48 + q.cObject % 65536 * 2 ^ 32 else 0) + q.cFrame % 2 ^ 32

/-- Area 0xB. -/
def State.readSeqr (s : State) (obj sub : Nat) : Option Nat :=
  let q := s.seqr
  let w := q.wheels.getD sub {}
  match obj with
  | 0xB000 => some q.status
  | 0xB002 => some (if sub = 1 then q.t0 else q.f0)
  | 0xB003 => some (periodMin (s.num 0xB001) (s.num 0xB050))
  | 0xB010 => some q.cState
  | 0xB011 => some s.commitStatus
  | 0xB013 => some s.stageProgress
  | 0xB014 => some q.commitFrame
  | 0xB020 => some q.count
  | 0xB021 => some q.flipTime
  | 0xB022 => some (ofS 32 (satS32 q.flipErr))
  | 0xB024 => some (if sub = 1 then q.flipCount else q.flipTime)
  | 0xB025 => some q.rephases
  | 0xB033 => some (natAt q.latency sub)
  | 0xB043 => some (ofS 16 (satS16 w.err))
  | 0xB044 => some (b2n w.inPhase)
  | 0xB052 => some q.fsync
  | 0xB053 => some (ofS 32 (satS32 q.fsyncErr))
  | 0xB065 => some (if 3 ≤ s.coh.missed then 0 else s.coh.holder)
  | 0xB066 => some s.coh.term
  | 0xB06A => some (min s.horizon 255)
  | _ => none

/-- Area 0xC. -/
def State.readLoop (s : State) (obj sub : Nat) : Option Nat :=
  let b := s.lband sub
  match obj with
  | 0xC021 => some (s.lstring sub).eta0
  | 0xC024 => some (ofS 16 b.temp)
  | 0xC025 => some (b.x % 65536 * 65536 + b.y % 65536)
  | 0xC026 => some b.cal
  | 0xC030 => if sub = 4 then some s.loop.wallEnv else if sub = 5 then some s.loop.wallV else none
  | 0xC031 | 0xC032 | 0xC033 | 0xC034 =>
    let e := s.lband (obj - 0xC031)
    if sub = 4 then some e.env else if sub = 5 then some e.envV else none
  | 0xC040 => some b.r
  | 0xC041 => some (natAt s.loop.sigma sub)
  | 0xC042 => some s.loop.headroom
  | 0xC043 => some s.loop.achievable
  | 0xC048 => some s.coh.minAch
  | 0xC052 => some b.fault
  | 0xC053 => some b.sat
  | 0xC054 => some b.cap
  | 0xC062 =>
    let t := s.loop.traces.getD sub {}
    some (t.state * 2 ^ 56 + t.tick % 65536 * 2 ^ 32 + t.frame % 2 ^ 32)
  | _ => none

/-- Areas 0xD and 0xE. -/
def State.readLamp (s : State) (obj sub : Nat) : Option Nat :=
  let c := s.chain sub
  let d := s.driver sub
  let w := s.wheel sub
  match obj with
  | 0xD003 => some c.st
  | 0xD005 => some c.loopTime
  | 0xD006 => some s.lamp.lead
  | 0xD007 => some d.id
  | 0xD008 => some d.status
  | 0xD009 => some d.reply
  | 0xD00A => some c.errors
  | 0xD011 => some (natAt s.lamp.values sub)
  | 0xD020 => some (b2n s.lamp.intlkA + 2 * b2n s.lamp.intlkB + 4 * b2n (s.killHigh 0) + 8 * b2n (s.killHigh 1) +
      16 * b2n (s.lamp.latch != 0))
  | 0xD021 => some s.killCause
  | 0xD025 => some s.lamp.intlkCount
  | 0xD031 => some (ofS 16 (satS16 (s.lamp.fast.getD sub {}).offset))
  | 0xD032 => some (ofS 16 (satS16 (s.lamp.fast.getD sub {}).mean))
  | 0xD033 => some (s.lamp.fast.getD sub {}).clips
  | 0xD043 => some (ofS 32 (s.lamp.slow.getD sub {}).value)
  | 0xD044 => some (s.lamp.slow.getD sub {}).st
  | 0xE030 => some (ofS 16 (satS16 w.speed))
  | 0xE031 => some (ofS 16 (satS16 w.phaseErr))
  | 0xE032 => some (ofS 16 (satS16 w.indexErr))
  | 0xE033 => some (min w.current 65535)
  | 0xE034 => some w.lockLosses
  | 0xE035 => some w.starts
  | 0xE036 => some w.faultCause
  | _ => none

/-- Area 0xF. -/
def State.readUane (s : State) (obj sub : Nat) : Option Nat :=
  let u := s.uane
  let p := s.uport sub
  match obj with
  | 0xF003 => some p.neighbour
  | 0xF004 => some (sumTo 5 fun k => natAt p.laneMap k * 16 ^ k)
  | 0xF007 => some p.spare
  | 0xF010 => some u.topoVersion
  | 0xF011 => some (1 + u.routes.length)
  | 0xF012 => some (min s.pathMax 255)
  | 0xF021 => some u.timeState
  | 0xF022 => some u.master
  | 0xF023 => some u.parent
  | 0xF024 => some (min u.depth 255)
  | 0xF025 => some (ofS 32 (satS32 u.offset))
  | 0xF026 => some (min (s.linkDelay sub) 0xFFFFFFFF)
  | 0xF032 => some u.ptpState
  | 0xF033 => some u.ptpGm
  | 0xF034 => some (ofS 32 (satS32 u.ptpOffset))
  | 0xF052 => some (sumTo 4 fun k => min (natAt p.drops k) 65535 * 65536 ^ k)
  | 0xF053 => some p.crcErrors
  | 0xF054 => some (natAt u.transitLost sub)
  | _ => none

/-- What an object holds outside the dictionary, for the session that reads. -/
def State.readLive (s : State) (sid obj sub : Nat) : Option Nat :=
  match obj / 4096 with
  | 0x0 | 0x1 => s.readMews obj sub
  | 0x2 => s.readMgmt sid obj sub
  | 0x3 => s.readXrds obj sub
  | 0x4 => s.readIngs obj sub
  | 0x5 => s.readHbm obj sub
  | 0x6 | 0x7 => s.readPlaz obj sub
  | 0x8 | 0x9 => s.readColr obj sub
  | 0xA => s.readArcd obj sub
  | 0xB => s.readSeqr obj sub
  | 0xC => s.readLoop obj sub
  | 0xD | 0xE => s.readLamp obj sub
  | 0xF => s.readUane obj sub
  | _ => none

/-- Whether the long command of a WC object still runs (R55, R82). -/
def State.cmdRuns (s : State) (obj sub : Nat) : Bool :=
  match obj with
  | 0x2030 => (match s.gysol.profJob with
    | some (.save _) => true
    | _ => false) || s.gysol.profWaiting = some true
  | 0x2032 => s.gysol.profJob = some .erase || s.gysol.profWaiting = some false
  | 0x2051 => s.coh.master.state = 1 || s.coh.master.state = 2
  | 0x5051 => s.hbm.training != 0
  | 0xA014 => (s.aport sub).swap.isSome
  | 0xB010 | 0xB060 => s.dict.isSealed || s.seqr.trans.isSome
  | _ => false

/-- The status of the last command of a WC object (R9): a long command that has ended reads OK. -/
def State.cmdStatusOf (s : State) (obj sub : Nat) : Nat :=
  let st := (mapGet s.dict.cmdStatus (okey obj sub)).getD 0
  if st = 3 && !s.cmdRuns obj sub then 0 else st

/-- The number a readable subindex gives (R9, R35, R44). A WC object gives the status of its last command. -/
def State.readNum (s : State) (sid obj sub : Nat) : Nat :=
  match viewOf obj with
  | some _ => if sub = 0 then 6 else s.unitFieldNum obj sub
  | none =>
    if objKind obj = .record && sub = 0 then objTop obj
    else match s.readLive sid obj sub with
      | some v => v
      | none => match lookup obj sub with
        | some d => if d.acc = .wc then s.cmdStatusOf obj sub else s.num obj sub
        | none => 0

/-- A text padded to the 32 bytes of a STR32. -/
def str32 (b : Bytes) : Bytes := (b ++ List.replicate 32 0).take 32

/-- The texts of R601. -/
def readText (obj : Nat) : Bytes :=
  match obj with
  | 0x0000 => str32 (ascii "FERSITE ETNEL")
  | 0x0001 => str32 (ascii (if Config.wideTemperature then "ETN-8W" else "ETN-8S"))
  | 0x0002 => str32 Config.serial
  | 0x0004 => str32 (ascii "A1")
  | _ => []

/-- The bytes a readable BLOB gives. -/
def State.readBlob (s : State) (obj sub : Nat) : Bytes :=
  match obj with
  | 0x0019 => ((upTo 16).map fun k => toLE 2 (((Config.rcTrimFactory k : Int) + s.mews.rcTrim.getD k 0) % 65536).toNat).flatten
  | 0x0041 => s.pendingBytes
  | 0x004A => s.wearBytes
  | 0x2053 => (s.coh.master.results.map fun r => toLE 2 r.node ++ toLE 2 r.step ++ toLE 4 r.seq ++ r.bands).flatten
  | 0x4032 => match (s.vlayer sub).versions.head? with
    | some v => toLE ((v.rows + 7) / 8) v.map
    | none => []
  | 0x6032 => []
  | 0x7142 => (mapGet s.coh.issued sub).getD []
  | 0x8005 => ((upTo 1025).map fun k => toLE 2 (hlgGain (s.num 0x8002 sub) k)).flatten
  | 0x8010 => ((s.cgroup sub).mirM.map fun v => toLE 2 (ofS 16 v)).flatten
  | 0x8012 => ((sourceMatrix (s.num 0x6014 sub) (s.num 0x8001)).map fun r => toLE 4 (ofS 32 (ratAway (r * 65536)))).flatten
  | 0x9020 => (((s.plgroup sub).sched).map Sched.bytes).getD []
  | 0x9021 => (((s.plgroup sub).plan).map fun p => (p.safeSched s.seqr.count 0).bytes).getD []
  | 0x9022 => ((s.plarray sub).hist.map (toLE 4)).flatten
  | 0xA011 => ((upTo 9).map fun k => toLE 4 ((s.aport sub).ser s.now k)).flatten
  | 0xB063 => match s.coh.result with
    | some r => toLE 4 r.id ++ toLE 1 r.st ++ toLE 8 r.g ++ toLE 2 r.missing.length ++ (r.missing.map (toLE 2)).flatten
    | none => []
  | 0xC018 => ((upTo 8192).map fun k => toLE 2 (ofS 16 ((mapGet (s.lband sub).rep k).getD 0))).flatten
  | 0xC063 => s.traceBytes sub
  | 0xF005 => ((s.uport sub).ser.map (toLE 4)).flatten
  | 0xF013 => (s.uane.routes.map fun r => toLE 2 r.node ++ toLE 1 r.port ++ toLE 1 r.hops).flatten
  | _ => s.blob obj sub

end Sys2Proof.Machine
end

