-- ==== Sys2Proof/Machine/Profile.lean ====
section
/-! DEFINITION. The flash profile (R47, R48, R608–R612): saving, erasing, and loading at reset, with the commanded states that
follow a load (R630). -/

namespace Sys2Proof.Machine

/-! ## Save and erase -/

/-- The save count of a valid copy. -/
def ProfCopy.count : ProfCopy → Option Nat
  | .valid c _ _ => some c
  | _ => none

/-- Whether a save takes copy A as the older one: an invalid copy is older, and A on a tie (log entry 32, DESIGN CHOICE, unsafe). -/
def Gysol.olderIsA (g : Gysol) : Bool :=
  match g.copyA.count, g.copyB.count with
  | none, _ => true
  | some _, none => false
  | some a, some b => decide (a ≤ b)

/-- The save count of the next save: one above the higher valid one. -/
def Gysol.nextCount (g : Gysol) : Nat := (max (g.copyA.count.getD 0) (g.copyB.count.getD 0) + 1) % 2 ^ 32

/-- A save or an erase starts (R48, R608). -/
def State.profStart (save : Bool) (s : State) : State :=
  (s.modGysol fun g => { g with
    profStatus := 1, profJob := some (if save then .save s.profileEntries else .erase), profWaiting := none }).takeLeaseOf 0

/-- A profile command: it starts, or waits for the running one (R612). -/
def State.profCommand (save : Bool) (s : State) : State :=
  if s.gysol.profJob.isSome then s.modGysol fun g => { g with profWaiting := some save } else s.profStart save

/-- What runs after a profile command has ended. -/
def State.profNext (s : State) : State :=
  let s1 := s.dropLease 0
  match s1.gysol.profWaiting with
  | some save => s1.profStart save
  | none => s1

/-- The copy that a save writes, replaced. -/
def Gysol.putOlder (c : ProfCopy) (g : Gysol) : Gysol := if g.olderIsA then { g with copyA := c } else { g with copyB := c }

/-- Bytes of a list of entries (R609). -/
def entriesBytes (es : List (Nat × Val)) : Nat := es.foldl (fun a e => a + entryBytes (e.1 / 256) (e.1 % 256) e.2) 0

/-- A running save ends; `ok` is the outcome of its read-back (R48, R611). -/
def State.saveEnd (ok : Bool) (s : State) : State :=
  match s.gysol.profJob with
  | some (.save es) =>
    let s1 := s.modGysol fun g =>
      let g1 := { g with profJob := none }
      if 65512 < entriesBytes es then { g1 with profStatus := 3 }
      else if ok then { g1.putOlder (.valid g.nextCount s.firm.fwVersion es) with profStatus := 2 }
      else { g1.putOlder .failed with profStatus := 3 }
    s1.profNext
  | _ => s

/-- A running erase ends (R48). -/
def State.eraseEnd (s : State) : State :=
  match s.gysol.profJob with
  | some .erase => (s.modGysol fun g => { g with profJob := none, copyA := .blank, copyB := .blank, profStatus := 0 }).profNext
  | _ => s

/-- A copy of which `n` of its 16 sectors have been erased. -/
def ProfCopy.partly (n : Nat) (c : ProfCopy) : ProfCopy := if n = 0 then c else if 16 ≤ n then .blank else .failed

/-- What a stop leaves of the copies: a save's copy is invalid; an erase has reached `sectors` of 32, copy A first (R48). -/
def Gysol.profStop (sectors : Nat) (g : Gysol) : Gysol :=
  match g.profJob with
  | some (.save _) => { g.putOlder .failed with profJob := none, profWaiting := none }
  | some .erase =>
    { g with copyA := g.copyA.partly sectors, copyB := g.copyB.partly (sectors - 16), profJob := none, profWaiting := none }
  | none => g

/-! ## Loading (R47, R610) -/

/-- The copy that a reset loads: the valid one with the higher save count. -/
def Gysol.loaded (g : Gysol) : List (Nat × Val) :=
  match g.copyA, g.copyB with
  | .valid a _ ea, .valid b _ eb => if b ≤ a then ea else eb
  | .valid _ _ ea, _ => ea
  | _, .valid _ _ eb => eb
  | _, _ => []

/-- Data of event 0x24, none while no copy has failed (R47, R86). -/
def Gysol.profInvalid (g : Gysol) : Option Nat :=
  match g.copyA, g.copyB with
  | .failed, .failed => some 0
  | .failed, _ => some 1
  | _, .failed => some 2
  | _, _ => none

/-- Whether an entry names a P object and fits it (R610). -/
def entryFits (e : Nat × Val) : Bool :=
  match lookup (e.1 / 256) (e.1 % 256), e.2 with
  | some d, .num w => d.p && d.acc != .rp && d.ty != .blob && d.ty != .str32 && d.accepts (e.1 % 256) w.toNat
  | some d, .bytes b => d.p && d.acc != .rp && d.ty = .blob && inRange d.ty d.rng b.length && (d.num != 0x8004 || eotfTableOk b)
  | none, _ => false

/-- Every subindex of an object back at its default. -/
def State.defaultObj (o : Nat) (s : State) : State := s.modDict fun d => { d with vals := d.vals.filter fun e => e.1 / 256 != o }

/-- One more skipped entry or defaulted object. -/
def State.profSkip (s : State) : State := s.modGysol fun g => { g with profSkipped := sat 65535 (g.profSkipped + 1) }

/-- The loaded RS values validated, until validation no longer refuses (R610) (log entry 64, DEDUCED, unsafe). -/
def State.settleProfile : Nat → State → State
  | 0, s => s
  | n + 1, s =>
    let staged (k : Nat × Nat) : Bool := (mapGet s.dict.vals (okey k.1 k.2)).isSome && commitClass k.1 .rs != 0 &&
      ((lookup k.1 k.2).map Desc.acc) = some .rs
    match judgePres staged (fun _ => false) (s.preconditions s.live fun o i => s.blob o i) with
    | none => s
    | some (_, o) => (s.defaultObj o).profSkip.settleProfile n

/-- What loaded values put in force at once: buffers, plans, and FSYNC (R119, R226, R269). -/
def State.enactProfile (s : State) : State :=
  let s1 := s.allocate
  let s2 := (upTo 4).foldl (fun (t : State) g => t.setPlan g (if groupExists t.live g then t.planOf t.live true g else none)) s1
  if s2.num 0xB050 = 2 then s2.fsyncMode else s2

/-- The commanded states after a reset (R630). -/
def State.commandReset (s : State) : State :=
  let put (w v : Nat) (s : State) : State := s.setCmd w v
  let s1 := (upTo 4).foldl (fun (s : State) a => put (wArray a) (if bit (s.num 0xB031) a then 2 else 0) s) s
  let s2 := (upTo 4).foldl (fun (s : State) n => put (wUane n) (if bit (s.num 0xF008) n && s.num 0xF001 != 0 then 2 else 0) s) s1
  let s3 := (upTo 4).foldl (fun (s : State) b => put (wBand b) (if s.num 0xC005 b != 0xFFFF then 1 else 0) s) s2
  let s4 := (upTo 48).foldl (fun (s : State) k =>
    put (wString k) (if s.num 0xC003 k = 0 && decide (s.num 0xC002 k < 4) && (bandMap s.live (s.num 0xC002 k)).isSome then 1 else 0) s) s3
  (upTo 14).foldl (fun (s : State) d =>
    if d = 6 || d = 7 then s else put (wDriver d) (if d % 8 < s.num 0xD002 (d / 8) then 1 else 0) s) s4

/-- The profile loaded at reset, with event 0x24 (R47, R610). 0x0015 keeps its value over a reset, unless VAON was lost (R553). -/
def State.loadProfile (s : State) : State :=
  let es := s.gysol.loaded.filter fun e => s.mews.fresh || e.1 != okey 0x0015 0
  let s0 := match s.gysol.profInvalid with
    | some d => s.raise 0x24 0 d
    | none => s
  let s1 := es.foldl (fun (t : State) e => if entryFits e then t.setVal (e.1 / 256) (e.1 % 256) e.2 else t.profSkip) s0
  let s2 := s1.settleProfile (es.length + 1)
  let s3 := s2.modGysol fun g => { g with
    netIp := s2.num 0x2000, netMask := s2.num 0x2001, netGateway := s2.num 0x2002, netPort := s2.num 0x2003 }
  ((s3.modUane fun u => { u with node := s3.num 0xF002 }).enactProfile.commandReset).modMews fun m => { m with fresh := false }

/-! ## The rows that time drives -/

/-- PROFILE_SAVE_COMPLETE (R48). -/
def execProfileSaveComplete (t : Nat) (ok : Bool) (s : State) : Host.Outcome State Fault Refusal :=
  .next ((s.advance t).saveEnd ok)

/-- PROFILE_ERASE_COMPLETE (R48). -/
def execProfileEraseComplete (t : Nat) (s : State) : Host.Outcome State Fault Refusal := .next (s.advance t).eraseEnd

end Sys2Proof.Machine
end

