-- ==== Sys2Proof/Machine/Boot.lean ====
section
/-! DEFINITION. Reset, BOOT, MEWS state, wake and power (R30–R32, R479, R525, R526, R541, R552–R561, R563, R571, R581). -/

namespace Sys2Proof.Machine

/-! ## Die reset (R552, R553) -/

/-- The die cleared, with what R553 keeps in the Mews, what stands in flash and fuses, and the levels at the pins. The copy a
running profile command was writing stands as a stop leaves it (R612) (log entry 23, DEDUCED, unsafe)
(log entry 27, DESIGN CHOICE, unsafe). -/
def State.clearDie (s : State) : State :=
  let g := s.gysol.profStop (s.free % 33)
  let s0 : State := {
    now := s.now, pending := s.pending, freeCtr := s.freeCtr + 1, outs := s.outs
    dict := { vals := s.dict.vals.filter fun e => e.1 = okey 0x0015 0 }
    xrds := {
      seqNext := s.xrds.seqNext, seqOldest := s.xrds.seqOldest, log := s.xrds.log, logOk := s.xrds.logOk, gpioIn := s.xrds.gpioIn }
    gysol := { roleKeys := s.gysol.roleKeys, copyA := g.copyA, copyB := g.copyB }
    mews := s.mews
    therm := { die := s.therm.die, lv := s.therm.lv }
    firm := { slots := s.firm.slots.map fun i => { image := i.image }, eeprom := s.firm.eeprom }
    hbm := { chans := s.hbm.chans.map fun c => { pprUsed := c.pprUsed }, leftRefresh := s.hbm.status = 3 || s.hbm.leftRefresh }
    tap := s.tap
    lamp := { intlkA := s.lamp.intlkA, intlkB := s.lamp.intlkB, bothHigh := s.lamp.bothHigh, differ := s.lamp.differ } }
  s0.emits [.pin (.kill 0) none, .pin (.kill 1) none, .pin (.gate 0) none, .pin (.gate 1) none, .pin .irqN none,
    .pin (.hpd 0) (some false), .pin (.hpd 1) (some false), .pin .fsyncOut (some false), .pin .timePps (some false)]

/-- A die reset of a cause (R552). The device state becomes BOOT; event 0x03 follows after the release
(log entry 28, DESIGN CHOICE, safe). -/
def State.dieReset (cause : Nat) (s : State) : State :=
  s.clearDie.modMews fun m => { m with
    oldDev := if m.dev = .boot && m.bootStep = 0 then m.oldDev else m.dev
    dev := .boot, safeCause := 0, bootStep := 0, bootInterlock := false, warmOk := false, rampDown := none, resetDue := none
    resetCount := (m.resetCount + 1) % 2 ^ 32, resetCause := cause }

/-- The die held in reset. -/
def State.holdDie (s : State) : State := s.modMews fun m => { m with held := true }

/-! ## Images (R555–R557) -/

/-- Whether an image has a valid header: magic, format and length. -/
def imageHeaderOk (b : Bytes) : Bool :=
  leAt b 0 4 = 0x4E544556 && leAt b 4 4 = 1 && decide (1 ≤ leAt b 12 4) && decide (leAt b 12 4 ≤ 8388352) &&
    decide (256 + leAt b 12 4 ≤ b.length)

/-- Whether an image's body has the digest of its header. -/
def imageDigestOk (b : Bytes) : Bool := sha256 (slice b 256 (leAt b 12 4)) = slice b 32 32

/-- Version of an image. -/
def imageVersion (b : Bytes) : Nat := leAt b 8 4

def State.slotImage (s : State) (n : Nat) : Bytes := (s.firm.slots.getD n {}).image

/-- Slots with a valid header, in descending order of version, slot 0 first on a tie. -/
def State.imageOrder (s : State) : List Nat :=
  let ok := (upTo 2).filter fun n => imageHeaderOk (s.slotImage n)
  if imageVersion (s.slotImage 0) < imageVersion (s.slotImage 1) then ok.reverse else ok

/-- A slot's state and version as 0x2070 shows them. -/
def State.markSlot (n st : Nat) (s : State) : State :=
  s.modFirm fun f => { f with slots := modAt f.slots n fun i => { i with st := st, version := if st = 0 then 0 else imageVersion i.image } }

/-- Candidates checked in turn: the first that passes, with the events of R557. -/
def State.tryImages : List Nat → State → Option Nat × State
  | [], s => (none, s)
  | n :: ns, s =>
    if imageDigestOk (s.slotImage n) && s.firm.sigOk.getD n false then (some n, (s.markSlot n 1).raise 0x06 n 1)
    else State.tryImages ns ((s.markSlot n 2).raise 0x06 n 2)

/-- The boot ROM's check of both slots (R557). A slot with a valid header that was not reached reads valid (log entry 33, DEDUCED, unsafe). -/
def State.checkImages (s : State) : Option Nat × State :=
  let order := s.imageOrder
  let s1 := (upTo 2).foldl (fun (s : State) n =>
    if order.contains n then s.markSlot n 1
    else (s.markSlot n (if (s.slotImage n).all fun b => b = 0xFF then 0 else 2)).raise 0x06 n 3) s
  s1.tryImages order

/-! ## BOOT (R554) -/

/-- Step 4: firmware starts, the wall-time counter is seeded from the Mews count, and the profile is loaded (R432, R476, R610). -/
def State.startFirmware (slot : Nat) (s : State) : State :=
  let s1 := s.modFirm fun f => { f with running := true, bootSlot := some slot, fwVersion := imageVersion (s.slotImage slot), cores := [0, 0, 1] }
  let s2 := { s1 with wallOff := s1.mews.timeOff, wallRun := true, wallTrim := 0, wallFrac := 0 }
  (s2.stepEvent s2.wall).loadProfile.ptpMode.updateMaster

/-- Step 5: the remaining synthesisers, HBM training, and training of the enabled array ports and of the Uane ports commanded UP. -/
def State.startTraining (s : State) : State :=
  let s1 := ([4, 5, 6].foldl (fun (s : State) n => s.startTarget n) s).hbmTrain 1
  let s2 := (upTo 4).foldl (fun (s : State) a => if bit (s.num 0xB031) a then s.atrain a else s) s1
  let s3 := (upTo 4).foldl (fun (s : State) n => s.uaneTrain n) s2
  s3.modMews fun m => { m with bootStep := 5 }

/-- Steps 3 to 5: the images are checked, and firmware starts with the first that passes. -/
def State.bootImage (s : State) : State :=
  match (s.modMews fun m => { m with bootStep := 3, bootReadAt := s.now }).checkImages with
  | (some slot, s1) => (s1.startFirmware slot).startTraining
  | (none, s1) => s1

/-- Whether every die sensor that is not excluded reads 100 °C or below (log entry 26, DEDUCED, safe). -/
def State.coolEnough (s : State) : Bool := s.therm.die.all fun d => d.excluded || decide (d.temp ≤ 1600)

/-- BOOT moved on as far as its checks and locks allow (R554). After a thermal shutdown no synthesiser starts before the die has
cooled (R552) (log entry 181, DEDUCED, unsafe). -/
def State.bootOn (s : State) : State :=
  let s1 := if s.mews.bootStep = 1 && s.mews.rails % 128 = 127 && s.clks.ref = 2 && (s.mews.resetCause != 4 || s.coolEnough) then
      ([0, 1, 7].foldl (fun (s : State) n => s.startTarget n) s).modMews fun m => { m with bootStep := 2 }
    else s
  if s1.mews.bootStep = 2 && ([0, 1, 7].all fun n => (s1.servedBy n).any fun p => (s1.pll p).st = 2) then s1.bootImage else s1

/-- The log checked at BOOT (R479). -/
def State.restoreLog (s : State) : State :=
  if s.xrds.logOk && !s.mews.fresh then s.raise 0x34 0 (sat 65535 s.xrds.log.length)
  else (s.modXrds fun x => { x with log := [], seqNext := 0, seqOldest := 0, logOk := true }).raise 0x34 1 0

/-- The release of the die: events 0x34, 0x05, 0x07 and 0x03, event 0x52 where the stacks have left self-refresh (R138), the latch set
by an open interlock, and step 1 (R479, R525, R552) (log entry 20, DEDUCED, unsafe). -/
def State.releaseDie (s : State) : State :=
  let m := s.mews
  let s1 := (s.modMews fun m => { m with held := false, bootStep := 1, wakeCause := 0, oldDev := .boot }).restoreLog
  let s2 := s1.raise 0x05 m.resetCause m.resetCount
  let s3 := if m.wakeCause = 0 then s2 else s2.raise 0x07 m.wakeCause 0
  let s4 := if m.oldDev = .boot then s3 else s3.raise 0x03 0 (m.oldDev.code * 256 + 1)
  let s4 := if s4.hbm.leftRefresh then (s4.modHbm fun h => { h with leftRefresh := false }).raise 0x52 0 0 else s4
  let s5 := if s4.lamp.intlkA then s4 else (s4.killPath 0).enterSafe 1
  let s6 := if s5.lamp.intlkB then s5 else (s5.killPath 1).enterSafe 1
  s6.modClks fun c => { c with ref := 1, refGood := 0 }

/-- RESET_RELEASE (R554): RESET_N high and every rail in range release the die. A reset command's reset, due by then, comes first
(R552). `sigs` are the verdicts of the signatures, `eeprom` the unison record as read, `logOk` the check of the log. -/
def execResetRelease (t : Nat) (sigs : List Bool) (eeprom : Bytes) (kib : Nat) (sfdp logOk : Bool) (s : State) :
    Host.Outcome State Fault Refusal :=
  let s := s.advance t
  let s1 := match s.mews.resetDue with
    | some (c, due) => if c = 6 && decide (due ≤ s.now) then s.dieReset 6 else s
    | none => s
  if s1.mews.dev = .boot && s1.mews.bootStep = 0 && s1.mews.vaon && s1.mews.rails % 128 = 127 then
    let s2 := (s1.modMews fun m => { m with resetN := true }).modXrds fun x => { x with logOk := logOk }
    let s3 := s2.modFirm fun f => { f with sigOk := sigs, eeprom := eeprom, flashKiB := kib, flashSfdp := sfdp }
    .next s3.releaseDie.bootOn
  else .next s1

/-- REF_GOOD (R549, R554). -/
def execRefGood (t : Nat) (s : State) : Host.Outcome State Fault Refusal := .next (s.advance t).refGood.bootOn

/-- CLKS_LOCKED (R546, R547, R554). -/
def execClksLocked (t pll band : Nat) (err : Int) (s : State) : Host.Outcome State Fault Refusal :=
  .next ((s.advance t).pllLocked pll band err).bootOn

/-- DIE_TEMP_CONVERSION (R494, R552): the sensors convert, and a BOOT that waits for the die to cool goes on. -/
def execDieTempConversion (t : Nat) (temps : List Int) (s : State) : Host.Outcome State Fault Refusal :=
  .next ((s.advance t).dieConvert temps).bootOn

/-- BOOT_RETRY (R558): the flash read again every 10 s while no image has passed. -/
def execBootRetry (t : Nat) (sigs : List Bool) (s : State) : Host.Outcome State Fault Refusal :=
  let s := s.advance t
  if s.mews.dev = .boot && s.mews.bootStep = 3 && !s.firm.running && decide (s.mews.bootReadAt + 10000000000 ≤ s.now) then
    .next (s.modFirm fun f => { f with sigOk := sigs }).bootImage
  else .next s

/-- Whether step 5 has ended. -/
def State.trained (s : State) : Bool :=
  s.hbm.training = 0 && ((upTo 4).all fun a => s.obs (wArray a) != 1) && (upTo 4).all fun n => s.obs (wUane n) != 1

/-- Step 6 (R554): to STANDBY, or to SAFE after an interlock in BOOT (R32); the frame count starts, PLL4 and PLL6 stop, and the stacks
enter self-refresh. -/
def State.bootEnd (s : State) : State :=
  let s1 := s.modMews fun m => { m with bootStep := 7 }
  if s1.mews.bootInterlock then s1.enterSafe 1
  else
    let s2 := (s1.setDev .standby).freeOrigin
    let s3 := (upTo 4).foldl (fun (s : State) a => if s.obs (wArray a) = 2 then s.parkDark a else s) s2
    ((s3.stopTarget 4).stopTarget 6).selfRefresh

/-- BOOT_COMPLETE (R554, R497). -/
def execBootComplete (t : Nat) (s : State) : Host.Outcome State Fault Refusal :=
  let s := s.advance t
  if s.mews.dev = .boot && s.mews.bootStep = 5 && s.trained && s.coolEnough then .next s.bootEnd else .next s

/-- AUTO_WARM_REQUEST (R526). -/
def execAutoWarmRequest (t : Nat) (s : State) : Host.Outcome State Fault Refusal :=
  let s := s.advance t
  let m := s.mews
  let past := m.autoWarm.filter fun x => decide (s.now < x + 3600000000000)
  if m.dev = .standby && m.resetCause = 3 && s.flag 0x0050 && m.beforeWatchdog.lit && decide (past.length < s.num 0x0051) then
    let s1 := s.modMews fun m => { m with autoWarm := past ++ [s.now], beforeWatchdog := .boot }
    .next ((s1.stateRequest 3 id).getD s1)
  else .next s

/-! ## Resets -/

/-- THERMAL_DIE_RESET (R552). -/
def execThermalDieReset (t : Nat) (s : State) : Host.Outcome State Fault Refusal :=
  let s := s.advance t
  match s.mews.resetDue with
  | some (c, due) => if c = 4 && decide (due ≤ s.now) then .next (s.dieReset 4) else .next s
  | none => .next s

/-- WATCHDOG_DIE_RESET (R525). -/
def execWatchdogDieReset (t : Nat) (s : State) : Host.Outcome State Fault Refusal :=
  let s := s.advance t
  match s.mews.resetDue with
  | some (c, due) => if c = 3 && decide (due ≤ s.now) then .next (s.dieReset 3) else .next s
  | none => .next s

/-- MEWS_WATCHDOG (R525): two seconds without service. -/
def execMewsWatchdog (t : Nat) (s : State) : Host.Outcome State Fault Refusal :=
  let s := s.advance t
  if s.mews.dev = .mews || s.mews.held || s.mews.bootStep = 0 then .next s
  else
    let s1 := (s.modMews fun m => { m with beforeWatchdog := m.dev }).raise 0x04 0 0
    .next ((s1.killPath 4).enterSafe 3)

/-- RESET_N_LOW (R552). In MEWS state the die is held already. -/
def execResetNLow (t : Nat) (s : State) : Host.Outcome State Fault Refusal :=
  let s0 := s.advance t
  let s := s0.modMews fun m => { m with resetN := false, resetNLowAt := s0.now }
  if s.mews.dev = .mews || !s.mews.vaon then .next s else .next (s.dieReset 2).holdDie

/-- RAIL_OUT_OF_RANGE (R560): 10 µs outside the monitored range while the die runs. -/
def execRailOutOfRange (t rail : Nat) (s : State) : Host.Outcome State Fault Refusal :=
  let s := (s.advance t).modMews fun m => { m with rails := setBit m.rails (rail % 7) false }
  if s.mews.dev = .mews || s.mews.held || s.mews.bootStep = 0 then .next s else .next (s.dieReset 1).holdDie

/-! ## MEWS state (R561, R563) -/

/-- MEWS state entered: the die is held in reset, MEWS_PWREN falls 1 ms later, and the rails go within 50 ms (R561)
(log entry 25, DEDUCED, safe). -/
def State.enterMews (s : State) : State :=
  let s1 := s.setDev .mews
  let fn := [s1.num 0x3041 0, s1.num 0x3041 1]
  (((s1.clearDie.modHbm fun h => { h with leftRefresh := false }).modXrds fun x => { x with
      queue := s1.xrds.queue, drainCredit := s1.xrds.drainCredit }).modMews fun m => { m with
    held := true, safeCause := 0, bootStep := 0, warmOk := false, rampDown := none, resetDue := none, mewsSince := s1.now, wakeFn := fn, wakeCause := 0
    pwren := false, pwrenFallAt := some (s1.now + 1000000), downUntil := s1.now + 51000000, rails := 0 }).emit
      (.pin .mewsPwren (some false))

/-- The power-up after a wake, once the power-down has ended (R563). -/
def State.wakeUp (s : State) : State :=
  if s.mews.dev != .mews || s.mews.wakeCause = 0 || s.now < s.mews.downUntil then s
  else ((s.dieReset 1).modMews fun m => { m with
    oldDev := .mews, held := true, pwren := true, pwrenFallAt := none }).emit (.pin .mewsPwren (some true))

/-- A wake cause; of several before the power-up, the highest code stands (R571). -/
def State.wake (code : Nat) (s : State) : State :=
  if s.mews.dev != .mews then s else (s.modMews fun m => { m with wakeCause := max code m.wakeCause }).wakeUp

/-- WAKE_TIMER (R563). -/
def execWakeTimer (t : Nat) (s : State) : Host.Outcome State Fault Refusal :=
  let s := s.advance t
  if s.num 0x0015 != 0 && decide (s.mews.mewsSince + s.num 0x0015 * 1000000000 ≤ s.now) then .next (s.wake 1) else .next s

/-- WAKE_GPIO_EDGE (R563, R571). -/
def execWakeGpioEdge (t gpio : Nat) (rising : Bool) (s : State) : Host.Outcome State Fault Refusal :=
  let s := s.advance t
  if gpio < 2 && natAt s.mews.wakeFn gpio = (if rising then 4 else 5) then .next (s.wake (2 + gpio)) else .next s

/-- WAKE_RESET_N_RISE (R563). -/
def execWakeResetNRise (t : Nat) (s : State) : Host.Outcome State Fault Refusal :=
  let s := s.advance t
  if s.mews.dev = .mews then .next ((s.modMews fun m => { m with resetN := true }).wake 4) else .next s

/-- RAIL_RECOVERED (R559, R560): every rail in range for 1 ms. With RESET_N high the die is no longer held. -/
def execRailRecovered (t : Nat) (s : State) : Host.Outcome State Fault Refusal :=
  let s := (s.advance t).wakeUp
  if s.mews.dev = .mews || !s.mews.vaon then .next s
  else .next (s.modMews fun m => { m with rails := 127, held := m.held && !m.resetN })

/-- The Mews cleared with the loss of VAON (R541, R553, R581): what stands in flash and fuses is kept. -/
def State.clearMews (s : State) : State :=
  { s.clearDie with
    dict := {}
    hbm := { chans := s.hbm.chans.map fun c => { pprUsed := c.pprUsed } }
    xrds := { gpioIn := s.xrds.gpioIn, logOk := false }
    therm := {}
    tap := {}
    mews := { timeOff := -(s.now : Int), resetN := false, held := true, vaon := false, fresh := true, pwren := false } }

/-- VAON_REMOVED (R581). -/
def execVaonRemoved (t : Nat) (s : State) : Host.Outcome State Fault Refusal := .next (s.advance t).clearMews

/-- POWER_ON (R541, R552, R559): VAON applied. -/
def execPowerOn (t : Nat) (s : State) : Host.Outcome State Fault Refusal :=
  .next (((((s.advance t).clearMews).dieReset 1).modMews fun m => { m with vaon := true, pwren := true, oldDev := .boot }).emit
    (.pin .mewsPwren (some true)))

end Sys2Proof.Machine
end

