-- ==== Sys2Proof/Machine/WallCommit.lean ====
section
/-! DEFINITION. Coordinated wall commits: the participant and the coordinator of R453–R457, and the end of validation (R257). -/

namespace Sys2Proof.Machine

/-! ## Frames (R454) -/

/-- The bytes of a COMMIT frame: flit 1, then up to seven flits of 15 participants. -/
def commitBytes (kind reason id term g obj cls : Nat) (nodes : List Nat) : Bytes :=
  toLE 1 kind ++ toLE 1 reason ++ toLE 4 id ++ toLE 4 term ++ toLE 8 g ++ toLE 2 obj ++ toLE 1 cls ++ [0] ++
    toLE 2 nodes.length ++ List.replicate 6 0 ++ (nodes.map (toLE 2)).flatten

/-- The start record of R454: identifier, earliest G and participants. -/
def readStart (b : Bytes) : Nat × Nat × List Nat :=
  (leAt b 0 4, leAt b 4 8, (upTo (leAt b 12 2)).map fun k => leAt b (14 + 2 * k) 2)

/-- Whether a start record has the layout of R454. -/
def startOk (b : Bytes) : Bool := leAt b 0 4 != 0 && decide (leAt b 12 2 ≤ 105) && b.length = 14 + 2 * leAt b 12 2

/-! ## The coordinator's record of its participants -/

/-- The commit that runs under an identifier. -/
def State.runningCommit (s : State) (id : Nat) : Option WCommit := s.coh.commit.filter fun c => c.id = id

/-- An ACK recorded (R453). With every ACK the commit no longer runs. -/
def State.commitAck (node id : Nat) (s : State) : State :=
  match s.runningCommit id with
  | none => s
  | some c =>
    let acks := if c.acks.contains node then c.acks else c.acks ++ [node]
    let all := c.parts.all fun p => acks.contains p
    s.modCoh fun w => { w with commit := if c.go.isSome && all then none else some { c with acks := acks } }

/-! ## The participant (R453, R455) -/

/-- The join that has had neither GO nor an end. -/
def State.joined (s : State) : Option WJoin :=
  if s.seqr.cState = 1 || s.seqr.cState = 2 then s.coh.join.filter fun j => j.go.isNone else none

/-- A joined commit refused on its own account or by the coordinator (R455). -/
def State.refuseJoin (reason obj : Nat) (s : State) : State :=
  let id := (s.coh.join.map WJoin.id).getD 0
  (s.refuseCommit reason obj).modCoh fun w => { w with join := none, refusedAs := some (id, reason, obj) }

/-- GO taken: G goes into the sealed shadow, and the commit is fixed at B(G); a late GO is refused (R265, R453, R455). -/
def State.takeGo (src id g : Nat) (s : State) : State :=
  let ack (s : State) : State :=
    if src = s.uane.node then s.commitAck s.uane.node id
    else s.uaneSend 0x12 src 0 [] (commitBytes 5 0 id s.coh.term g 0 0 [])
  match s.coh.join with
  | none => s
  | some j =>
    if j.id != id then s
    else if j.go.isSome then ack s
    else if s.seqr.cState != 2 || !j.ready then s
    else if !s.inTimeFor g then s.refuseJoin 10 0xB012
    else
      let s1 := s.modDict fun d => { d with shadow := mapPut d.shadow (okey 0xB012 0) (nv g) }
      ack ((s1.pendCommit g true).modCoh fun w => { w with join := some { j with go := some g } })

/-- ABORT taken: a joined participant without GO refuses its commit (R453). -/
def State.takeAbort (id : Nat) (s : State) : State :=
  match s.joined with
  | some j => if j.id = id then s.refuseJoin 14 0 else s
  | none => s

/-- The participant's answer to the coordinator (R453). -/
def State.answerBytes (s : State) : Option Bytes :=
  match s.coh.join, s.coh.refusedAs with
  | some j, _ => if j.ready then some (commitBytes 2 0 j.id s.coh.term 0 0 s.seqr.cClass []) else none
  | none, some (id, r, o) => some (commitBytes 3 r id s.coh.term 0 o 0 [])
  | none, none => none

/-! ## The coordinator (R453) -/

/-- The participants named in PREPARE and GO: none for every node. -/
def WCommit.named (c : WCommit) : List Nat := c.listed

/-- GO broadcast, and taken by this node where it takes part. -/
def State.sendGo (s : State) : State :=
  match s.coh.commit with
  | some c =>
    match c.go with
    | some g => (s.uaneSend 0x12 0xFFFF 0 [] (commitBytes 4 0 c.id s.coh.term g 0 0 c.named)).takeGo s.uane.node c.id g
    | none => s
  | none => s

/-- The running commit aborted: ABORT broadcast, event 0xC2, and the result (R453). -/
def State.abortCommit (s : State) : State :=
  match s.coh.commit with
  | none => s
  | some c =>
    let s1 := ((s.modCoh fun w => { w with commit := none, result := some ⟨c.id, 2, 0, []⟩ }).raise 0xC2 2 (c.id % 65536))
    (s1.uaneSend 0x12 0xFFFF 0 [] (commitBytes 6 0 c.id s1.coh.term 0 0 0 [])).takeAbort c.id

/-- READY recorded; with every participant READY, G is fixed and GO goes out (R452, R453). -/
def State.commitReady (node id : Nat) (s : State) : State :=
  match s.runningCommit id with
  | none => s
  | some c =>
    if c.go.isSome || !c.parts.contains node then s
    else
      let ready := if c.ready.contains node then c.ready else c.ready ++ [node]
      let s1 := s.modCoh fun w => { w with commit := some { c with ready := ready } }
      if !(c.parts.all fun p => ready.contains p) then s1
      else
        let g := max c.earliest (s1.seqr.count + s1.horizon)
        ((s1.modCoh fun w => { w with
          commit := some { c with ready := ready, go := some g }, result := some ⟨c.id, 1, g, []⟩ }).raise 0xC2 1 (g % 65536)).sendGo

/-- REFUSED received: ABORT (R453). -/
def State.commitRefused (id : Nat) (s : State) : State :=
  match s.runningCommit id with
  | some c => if c.go.isNone then s.abortCommit else s
  | none => s

/-- The participant's answer, to the coordinator `dst`. -/
def State.sendAnswer (dst : Nat) (s : State) : State :=
  match s.answerBytes with
  | none => s
  | some b =>
    if dst = s.uane.node then (if leAt b 0 1 = 2 then s.commitReady dst (leAt b 2 4) else s.commitRefused (leAt b 2 4))
    else if dst = 0 then s
    else s.uaneSend 0x12 dst 0 [] b

/-- PREPARE taken: a participant that has joined under the identifier answers (R453). -/
def State.takePrepare (src id : Nat) (s : State) : State :=
  let mine : Bool := match s.coh.join, s.coh.refusedAs with
    | some j, _ => j.id = id
    | none, some r => r.1 = id
    | none, none => false
  if mine then s.sendAnswer src else s

/-- PREPARE broadcast. -/
def State.sendPrepare (s : State) : State :=
  match s.coh.commit with
  | some c =>
    if c.go.isSome then s
    else (s.uaneSend 0x12 0xFFFF 0 [] (commitBytes 1 0 c.id s.coh.term 0 0 0 c.named)).takePrepare s.uane.node c.id
  | none => s

/-- A coordinated commit started by its record (R453 step 2, R454). -/
def State.startWallCommit (b : Bytes) (s : State) : State :=
  let (id, earliest, listed) := readStart b
  let parts := if listed.isEmpty then s.reachable else listed
  (s.modCoh fun w => { w with
    commit := some { id := id, earliest := earliest, listed := listed, parts := parts, started := s.now }
    result := some ⟨id, 0, 0, []⟩ }).sendPrepare

/-- The commit of a unison view: the lead runs it over every member in the place of the coordinator (R470, R627)
(log entry 128, DEDUCED, unsafe). -/
def State.startUnisonCommit (id : Nat) (parts : List Nat) (s : State) : State :=
  (s.modCoh fun w => { w with
    commit := some { id := id, earliest := 0, listed := parts, parts := parts, started := s.now, unison := true }
    result := some ⟨id, 0, 0, []⟩ }).sendPrepare

/-! ## Joining and the end of validation (R257, R453) -/

/-- A join: the shadow is sealed for validation. -/
def State.wallJoin (id : Nat) (s : State) : State :=
  s.sealShadow.modCoh fun w => { w with join := some { id := id, at_ := s.now }, refusedAs := none }

/-- A local commit: any earlier join is forgotten. -/
def State.localCommit (s : State) : State := s.sealShadow.modCoh fun w => { w with join := none }

/-- Validation ends for a join: READY with frame 0, or REFUSED (R453). -/
def State.endJoinValidation (j : WJoin) (s : State) : State :=
  match s.validate with
  | some (r, o) => (s.refuseJoin r o).sendAnswer s.coh.holder
  | none =>
    let s1 := s.modSeqr fun q => { q with cState := 2, cClass := s.shadowClass, cFrame := 0, cWall := true }
    (s1.modCoh fun w => { w with join := some { j with ready := true } }).sendAnswer s.coh.holder

/-- COMMIT_VALIDATION_END (R257). -/
def execCommitValidationEnd (t : Nat) (s : State) : Host.Outcome State Fault Refusal :=
  let s := s.advance t
  if s.seqr.cState != 1 || !s.firm.running || decide (s.now < s.firm.restartUntil) then .next s
  else match s.coh.join with
    | some j => .next (s.endJoinValidation j)
    | none => .next s.endLocalValidation

/-- What a LEASE of a new term, or one that takes the role away, does to wall commits (R450, R455). -/
def State.newTerm (before : Nat × Nat) (s : State) : State :=
  if before = (s.coh.term, s.coh.holder) then s
  else
    let s1 := if s.coh.holder != s.uane.node && !(s.coh.commit.any fun c => c.unison) then
      s.modCoh fun w => { w with commit := none, result := none } else s
    match s1.joined with
    | some _ => s1.refuseJoin 14 0
    | none => s1

/-! ## The rows of time and frames -/

/-- PREPARE (R453): `src` is the coordinator. -/
def execPrepare (t src id : Nat) (s : State) : Host.Outcome State Fault Refusal := .next ((s.advance t).takePrepare src id)

/-- READY (R453). -/
def execReady (t node id : Nat) (s : State) : Host.Outcome State Fault Refusal := .next ((s.advance t).commitReady node id)

/-- REFUSED (R453). -/
def execRefused (t id : Nat) (s : State) : Host.Outcome State Fault Refusal := .next ((s.advance t).commitRefused id)

/-- GO (R453, R455). -/
def execGo (t src id g : Nat) (s : State) : Host.Outcome State Fault Refusal := .next ((s.advance t).takeGo src id g)

/-- COMMIT_ACK (R453). -/
def execCommitAck (t node id : Nat) (s : State) : Host.Outcome State Fault Refusal := .next ((s.advance t).commitAck node id)

/-- ABORT (R453). -/
def execAbort (t id : Nat) (s : State) : Host.Outcome State Fault Refusal := .next ((s.advance t).takeAbort id)

/-- PREPARE_REPEAT (R453): every 10 ms. -/
def execPrepareRepeat (t : Nat) (s : State) : Host.Outcome State Fault Refusal := .next (s.advance t).sendPrepare

/-- GO_REPEAT (R453): every 100 µs until every ACK or t(G) − 200 µs. -/
def execGoRepeat (t : Nat) (s : State) : Host.Outcome State Fault Refusal :=
  let s := s.advance t
  if s.coh.commit.any fun c => c.go.any fun g => s.inTimeFor g then .next s.sendGo else .next s

/-- WALL_JOIN_TIMEOUT (R453). -/
def execWallJoinTimeout (t : Nat) (s : State) : Host.Outcome State Fault Refusal :=
  let s := s.advance t
  match s.coh.commit with
  | some c =>
    if c.go.isNone && decide (c.started + s.num 0xB062 * 1000000 ≤ s.now) then .next s.abortCommit else .next s
  | none => .next s

/-- WALL_JOIN_EXPIRY (R455). -/
def execWallJoinExpiry (t : Nat) (s : State) : Host.Outcome State Fault Refusal :=
  let s := s.advance t
  match s.joined with
  | some j => if j.at_ + 2 * s.num 0xB062 * 1000000 ≤ s.now then .next (s.refuseJoin 10 0xB012) else .next s
  | none => .next s

/-- SEQR_WALL_COMMIT (R455): at t(G) − 200 µs, participants without ACK are reported. -/
def execSeqrWallCommit (t : Nat) (s : State) : Host.Outcome State Fault Refusal :=
  let s := s.advance t
  match s.coh.commit with
  | some c =>
    match c.go with
    | some g =>
      if s.tF g ≤ (s.wall : Int) + 200000 then
        let out := c.parts.filter fun p => !c.acks.contains p
        let s1 := s.modCoh fun w => { w with commit := none, result := some ⟨c.id, 1, g, out⟩ }
        .next (out.foldl (fun (s : State) p => s.raise 0xC2 3 p) s1)
      else .next s
    | none => .next s
  | none => .next s

end Sys2Proof.Machine
end

