-- ==== Sys2Proof/Machine/Sweep.lean ====
section
/-! DEFINITION. Calibration sweeps: the participant and the master of R465–R469. -/

namespace Sys2Proof.Machine

/-! ## The program and the frames (R465, R466) -/

/-- Step `k` of a program: dwell, measure and pattern. -/
def progStep (b : Bytes) (k : Nat) : Nat × Nat × List Nat :=
  let o := 4 + 16 * k
  (leAt b o 2, leAt b (o + 2) 2, [leAt b (o + 4) 4, leAt b (o + 8) 4, leAt b (o + 12) 4])

/-- Whether a program has the layout and ranges of R465. -/
def programOk (b : Bytes) : Bool :=
  let n := leAt b 2 2
  leAt b 0 2 != 0 && decide (1 ≤ n) && decide (n ≤ 1024) && b.length = 4 + 16 * n &&
    (upTo n).all fun k =>
      let (d, m, p) := progStep b k
      decide (2 ≤ d) && decide (d ≤ 1200) && decide (1 ≤ m) && decide (m < d) && p.all fun v => decide (v < 2 ^ 18)

/-- The payload of a STEP. -/
def stepBytes (x : SStep) (nodes : List Nat) : Bytes :=
  [1, 0] ++ toLE 2 x.sweep ++ toLE 2 x.step ++ toLE 8 x.first ++ toLE 2 x.dwell ++ toLE 2 x.measure ++
    (x.pattern.map (toLE 4)).flatten ++ toLE 2 nodes.length ++ (nodes.map (toLE 2)).flatten

/-- A STEP read from its payload, from its master, and the participants it names. -/
def readStep (master : Nat) (b : Bytes) : SStep × List Nat :=
  (⟨leAt b 2 2, leAt b 4 2, leAt b 6 8, leAt b 14 2, leAt b 16 2, [leAt b 18 4, leAt b 22 4, leAt b 26 4], master⟩,
   (upTo (leAt b 30 2)).map fun k => leAt b (32 + 2 * k) 2)

/-- The payload of a RESULT. -/
def resultBytes (r : SResult) : Bytes :=
  [2, 0] ++ toLE 2 r.sweep ++ toLE 2 r.step ++ toLE 4 r.seq ++ toLE 4 (r.lastFrame % 2 ^ 32) ++ toLE 2 r.lw ++
    List.replicate 14 0 ++ r.bands

/-- A RESULT read from its payload. -/
def readResult (node : Nat) (b : Bytes) : SResult :=
  ⟨leAt b 2 2, node, leAt b 4 2, leAt b 6 4, leAt b 10 4, leAt b 14 2, slice b 30 28⟩

/-! ## The master: bookkeeping (R468) -/

def State.modMaster (f : SMaster → SMaster) (s : State) : State := s.modCoh fun w => { w with master := f w.master }
def State.modNode (f : SNode → SNode) (s : State) : State := s.modCoh fun w => { w with node := f w.node }

/-- Whether the master runs a sweep. -/
def SMaster.running (m : SMaster) : Bool := m.state = 1 || m.state = 2

/-- A result filed: one record per node and step. -/
def SMaster.file (r : SResult) (m : SMaster) : SMaster :=
  if !m.running || r.sweep != m.sweep then m
  else { m with
    results := if m.results.any fun q => q.node = r.node && q.step = r.step then
        m.results.map fun q => if q.node = r.node && q.step = r.step then r else q
      else m.results ++ [r]
    missing := m.missing.filter fun p => p != (r.node, r.step) }

/-- Whether every result of the present step has arrived. -/
def SMaster.stepDone (m : SMaster) : Bool := m.missing.all fun p => p.2 != m.step

/-! ## The participant (R467, R468) -/

/-- A STEP taken by a node that it names. A step whose last frame has begun is too late to show. -/
def State.takeStep (x : SStep) (nodes : List Nat) (s : State) : State :=
  if !(nodes.isEmpty || nodes.contains s.uane.node) || x.first + x.dwell ≤ s.seqr.count + 1 then s
  else if s.coh.node.cur.isSome then s.modNode fun n => { n with next := some x }
  else s.modNode fun n => { n with cur := some x, endedAt := none, bands := List.replicate 4 {} }

/-- A band record of a RESULT (R466). -/
def SBand.record (z : SBand) : Bytes :=
  let mean (v : Int) (n : Nat) : Nat := ofS 16 (if n = 0 then 0 else satS16 (divAway v n))
  toLE 2 (mean z.yn z.windows) ++ toLE 2 (mean z.pip z.pips) ++ toLE 2 (mean z.temp z.temps) ++ toLE 1 (min z.windows 255)

/-- A RESULT sent to its master, or filed where this node is the master. -/
def State.sendResult (master : Nat) (r : SResult) (s : State) : State :=
  if master = s.uane.node then s.modMaster (SMaster.file r) else s.uaneSend 0x15 master 0 [] (resultBytes r)

/-- The present step ends at the boundary after its last frame: the RESULT goes out, and the next step follows (R467). -/
def State.endStep (s : State) : State :=
  match s.coh.node.cur with
  | none => s
  | some x =>
    if s.seqr.count < x.first + x.dwell then s
    else
      let n := s.coh.node
      let r : SResult := ⟨x.sweep, s.uane.node, x.step, n.seq, x.first + x.dwell - 1, s.loop.wallV, (n.bands.map SBand.record).flatten⟩
      (s.modNode fun n => { n with
        seq := (n.seq + 1) % 2 ^ 32, held := (n.held ++ [r]).drop (n.held.length + 1 - 64)
        cur := n.next, next := none, bands := List.replicate 4 {}, endedAt := if n.next.isSome then none else some s.now }).sendResult
          x.master r

/-- COLLECT answered: every result held for the sweep, again (R468). -/
def State.takeCollect (master sweep : Nat) (s : State) : State :=
  (s.coh.node.held.filter fun r => r.sweep = sweep).foldl (fun (s : State) r => s.sendResult master r) s

/-- END: the sweep's results are discarded, and nothing more of it is shown (R468). -/
def State.takeEnd (sweep : Nat) (s : State) : State :=
  s.modNode fun n => { n with
    held := n.held.filter fun r => r.sweep != sweep
    cur := n.cur.filter fun x => x.sweep != sweep, next := n.next.filter fun x => x.sweep != sweep, endedAt := none }

/-! ## The master (R465, R467–R469) -/

/-- STEP `k` sent to some nodes; none for every node. `after` is the first frame free for it (R467) (log entry 177, DEDUCED, unsafe). -/
def State.sendStep (k after_ : Nat) (named : List Nat) (s : State) : State :=
  let b := s.blob 0x2050
  let (d, m, p) := progStep b k
  let x : SStep := ⟨leAt b 0 2, k, max (s.seqr.count + s.horizon) after_, d, m, p, s.uane.node⟩
  let parts := if named.isEmpty then s.coh.master.nodes else named
  let s1 := s.modMaster fun q => { q with
    step := k, first := x.first, parts := parts
    missing := (q.missing.filter fun e => e.2 != k) ++ parts.map fun n => (n, k) }
  (((s1.raise 0x25 1 k).uaneSend 0x15 0xFFFF 0 [] (stepBytes x named)).takeStep x named)

/-- END sent; the sweep ends in a state. -/
def State.sendEnd (st : Nat) (s : State) : State :=
  let m := s.coh.master
  let s1 := (s.modMaster fun q => { q with state := st }).raise 0x25 (if st = 3 then 4 else 5) m.step
  (s1.uaneSend 0x15 0xFFFF 0 [] ([4, 0] ++ toLE 2 m.sweep ++ List.replicate 26 0)).takeEnd m.sweep

/-- What follows the end of a step: the next step, the steps to run again, or END (R468). -/
def State.nextStep (s : State) : State :=
  let m := s.coh.master
  let steps := leAt (s.blob 0x2050) 2 2
  let after_ := m.first + (progStep (s.blob 0x2050) m.step).1
  let rerun (from_ : Nat) (s : State) : State :=
    match (upTo steps).find? fun k => decide (from_ ≤ k) && m.missing.any fun p => p.2 = k with
    | some k => (s.modMaster fun q => { q with state := 2 }).sendStep k after_ ((m.missing.filter fun p => p.2 = k).map Prod.fst)
    | none => s.sendEnd 3
  if m.state = 1 then (if m.step + 1 < steps then s.sendStep (m.step + 1) after_ [] else rerun 0 s)
  else if m.state = 2 then rerun (m.step + 1) s
  else s

/-- Progress of the master once every result of the present step has arrived. -/
def State.stepGathered (s : State) : State :=
  let m := s.coh.master
  if m.running && m.stepDone then (s.raise 0x25 3 m.step).nextStep else s

/-- A RESULT taken by the master. -/
def State.takeResult (r : SResult) (s : State) : State :=
  let m := s.coh.master
  let s1 := s.modMaster (SMaster.file r)
  if m.stepDone then s1 else s1.stepGathered

/-- COLLECT sent by the master. -/
def State.sendCollect (s : State) : State :=
  let m := s.coh.master
  (s.uaneSend 0x15 0xFFFF 0 [] ([3, 0] ++ toLE 2 m.sweep ++ List.replicate 26 0)).takeCollect s.uane.node m.sweep

/-- The sweep program started with this node as master (R465). -/
def State.sweepStart (s : State) : State :=
  (s.modMaster fun _ => { state := 1, sweep := leAt (s.blob 0x2050) 0 2, nodes := s.reachable }).sendStep 0 0 []

/-- The sweep aborted (R465). -/
def State.sweepAbort (s : State) : State := if s.coh.master.running then s.sendEnd 4 else s

/-- A boundary of this node's part in a sweep, and the master's progress on its own result. -/
def State.sweepBoundary (s : State) : State :=
  let m := s.coh.master
  let s1 := s.endStep
  if m.running && !m.stepDone then s1.stepGathered else s1

/-- A node that has come back into the master's routes is asked for its missing results (R469). -/
def State.sweepReturned (before : List Nat) (s : State) : State :=
  let m := s.coh.master
  if m.running && (s.uane.routes.any fun r => !before.contains r.node && m.missing.any fun p => p.1 = r.node && p.2 != m.step) then
    s.sendCollect
  else s

/-! ## The rows -/

/-- SWEEP_STEP (R467): a STEP received from its master. -/
def execSweepStep (t master : Nat) (payload : Bytes) (s : State) : Host.Outcome State Fault Refusal :=
  let (x, nodes) := readStep master payload
  .next ((s.advance t).takeStep x nodes)

/-- SWEEP_RESULT (R468): a RESULT received by the master. -/
def execSweepResult (t node : Nat) (payload : Bytes) (s : State) : Host.Outcome State Fault Refusal :=
  .next ((s.advance t).takeResult (readResult node payload))

/-- SWEEP_COLLECT (R468). -/
def execSweepCollect (t master sweep : Nat) (s : State) : Host.Outcome State Fault Refusal :=
  .next ((s.advance t).takeCollect master sweep)

/-- SWEEP_END (R468). -/
def execSweepEnd (t sweep : Nat) (s : State) : Host.Outcome State Fault Refusal := .next ((s.advance t).takeEnd sweep)

/-- SWEEP_STEP_TIMEOUT (R468): 100 ms after a step ends without every result. -/
def execSweepStepTimeout (t : Nat) (s : State) : Host.Outcome State Fault Refusal :=
  let s := s.advance t
  let m := s.coh.master
  let stop := m.first + (progStep (s.blob 0x2050) m.step).1
  if m.running && !m.stepDone && decide (s.tF stop + 100000000 ≤ s.wall) then
    .next ((m.missing.filter fun p => p.2 = m.step).foldl (fun (s : State) _ => s.sendCollect) s).nextStep
  else .next s

/-- MGMT_SWEEP (R469): no STEP within the timeout of the last step's end. -/
def execMgmtSweep (t : Nat) (s : State) : Host.Outcome State Fault Refusal :=
  let s := s.advance t
  match s.coh.node.endedAt with
  | some e =>
    if e + s.num 0x2055 * 1000000 ≤ s.now then
      .next ((s.modNode fun n => { n with endedAt := none }).raise 0x25 2 ((s.coh.node.held.getLast?.map SResult.step).getD 0))
    else .next s
  | none => .next s

end Sys2Proof.Machine
end

