-- ==== Sys2Proof/Machine/Store.lean ====
section
/-! DEFINITION. Writes to the object dictionary: what each RW write, RS write and command does at once, and the checks of R57
(R9, R33–R38, R44–R48, R52–R60, R485–R490, R570, R571, R599–R606). -/

namespace Sys2Proof.Machine

/-- Who sends an operation (R57, R70, R620): its session, 0 for none, and its role, 0 for none. -/
structure Caller where
  sid : Nat
  role : Nat
  deriving DecidableEq, Repr

/-! ## GPIO (R487, R569–R571) -/

/-- The level a function drives on its ball; none where it drives nothing. -/
def State.ballDrive (s : State) (n : Nat) : Option Bool :=
  match s.num 0x3041 n with
  | 1 => some (s.ball n)
  | 2 => if bit (s.num 0x3042) n then none else some false
  | 3 => some (s.ball n)
  | _ => none

/-- Rising edges at balls counted by the GPIO_RISE counters that select them (R488). -/
def State.countRises (rose : List Nat) (s : State) : State :=
  let r := (upTo 64).foldl (fun (acc : State × List Occ) i =>
    let w := s.num 0x3020 i
    if fld w 63 56 = 6 && rose.contains (fld w 55 48) then
      let c := acc.1.countOn i 1
      (c.1, acc.2 ++ c.2)
    else acc) (s, [])
  if r.2.isEmpty then r.1 else r.1.raiseAll r.2

/-- A change that may move balls: the pins follow, and rising edges are counted (R488, R571). -/
def State.gpioMove (f : State → State) (s : State) : State :=
  let s1 := f s
  let moved := (upTo 16).filter fun n => s1.ballDrive n != s.ballDrive n
  let s2 := s1.emits (moved.map fun n => .pin (.gpio n) (s1.ballDrive n))
  let rose := (upTo 16).filter fun n => s1.ball n && !s.ball n
  if rose.isEmpty then s2 else s2.countRises rose

/-- A GPIO function written: a pulse in progress ends at once (R571). -/
def State.gpioFunction (n v : Nat) (s : State) : State :=
  s.gpioMove fun s => (s.modXrds fun x => { x with pulseEnd := setAt x.pulseEnd n none }).setNum 0x3041 n v

/-! ## Units (R37, R306, R333, R369, R409, R426, R603) -/

/-- Codes that a unit's commanded state may be written with. -/
def unitCodes (fam : Nat) : List Nat :=
  match fam with
  | 0xC000 | 0xC001 => [0, 1, 4]
  | 0xD001 => [0, 1]
  | 0xE000 => [0, 4]
  | _ => [0, 2]

/-- A command to an array port (R299, R300, R306): OFF parks it and leaves it OFF; READY trains it. Without light the links stand
still, and the command is carried out at the entry to WARMING (log entry 98, DEDUCED, unsafe). -/
def State.arrayCommand (ap v : Nat) (s : State) : State :=
  let s1 := if s.obs (wArray ap) = 3 || s.obs (wArray ap) = 4 || (v = 0 && s.obs (wArray ap) != 0) then s.apark ap 0 else s
  if v = 0 then s1.setArray ap 0 else if s.mews.dev.lit then s1.atrain ap else s1

/-- A command to a unit takes effect. The data of event 0xF8 for a commanded entry to DOWN is stated nowhere: it is free
(log entry 99, DEDUCED, unsafe) (log entry 100, DESIGN CHOICE, safe). -/
def State.unitApply (w v : Nat) (s : State) : State :=
  let s1 := s.setCmd w v
  match viewOf w with
  | some (0x4008, n) => ((s1.setNum 0x4000 n (v / 2)).updateHpd n).recommand s
  | some (0xA000, n) => s1.arrayCommand n v
  | some (0xC000, n) => s1.bandCommand n v
  | some (0xE000, n) => if v = 0 then s1.wheelStop n else if s.mews.dev.lit then s1.wheelRun n else s1
  | some (0xF000, n) =>
    if v = 2 then s1.uaneTrain n
    else if s1.obs (wUane n) = 0 then s1
    else s1.drawn.uaneDown n (s1.free % 65536)
  | _ => s1

/-- A command to a unit: held while its states disagree, else applied (R37). -/
def State.unitCommand (w v : Nat) (s : State) : State × Nat :=
  if (s.unitRec w).dis then (s.holdCmd w v, 0x01) else (s.unitApply w v, 0x00)

/-- A write of 0x01 to `force` (R37). -/
def State.unitForce (w : Nat) (s : State) : State :=
  s.modUnit w fun u => if u.held = 0xFF then u else { u with forced := true }

/-- Whether a training, an enumeration or a wheel start runs on a unit (R536). -/
def State.unitBusy (s : State) (w : Nat) : Bool :=
  match viewOf w with
  | some (0xA000, n) => s.obs (wArray n) = 1
  | some (0xF000, n) => s.obs (wUane n) = 1
  | some (0xD001, n) => (s.chain (n / 8)).st = 1
  | some (0xE000, n) => decide (1 ≤ s.obs (wWheel n)) && decide (s.obs (wWheel n) ≤ 3)
  | _ => false

/-- Held commands applied at a frame boundary (R37, R536). -/
def State.heldBoundary (s : State) : State :=
  s.heldDue.foldl (fun (s : State) p => if !s.agrees p.1 && s.unitBusy p.1 then s else s.unitApply p.1 p.2) s

/-! ## Register paths (R302, R386) -/

/-- A maker register of an array read or written (R302, R308). -/
def State.arrayReg (ap word : Nat) (s : State) : State :=
  (s.takeLeaseOf (3 + ap)).acontrol ap [if bit word 63 then acmd 8 (fld word 47 32) 0 (fld word 31 0) else acmd 7 (fld word 47 32) 0 0]

/-- A maker register of a driver read or written (R386, R388). -/
def State.lampReg (d word : Nat) (s : State) : State :=
  s.lampSend (d / 8) (if bit word 63 then 4 else 3) (d % 8) (toLE 1 (fld word 39 32) ++ toLE 4 (if bit word 63 then fld word 31 0 else 0))

/-! ## Counters (R488–R490) -/

/-- A snapshot of all counters and the wall time (R490). -/
def State.snapshot (s : State) : State := s.modXrds fun x => { x with snap := x.counters, snapTime := s.wall }

/-- The counters of a mask cleared (R490). -/
def State.clearCounters (mask : Nat) (s : State) : State :=
  s.modXrds fun x => { x with counters := (x.counters.zip (upTo 64)).map fun p => if bit mask p.2 then 0 else p.1 }

/-- A counter source written: the counter starts from 0 (R488). -/
def State.counterSource (n v : Nat) (s : State) : State :=
  (s.setNum 0x3020 n v).modXrds fun x => { x with counters := setAt x.counters n 0 }

/-! ## Publishing (R97, R157, R188) -/

/-- The version-complete notice of a layer: CURG takes its heartbeat, and reports it to the vote. -/
def State.versionNotice (n : Nat) (s : State) : State := ((s.hbFill n).reportSpace n).sendReport n

/-! ## Values written -/

/-- An RW number written: it takes effect at once (R9). -/
def State.putRw (obj sub v : Nat) (s : State) : State :=
  match obj with
  | 0x0040 => s.sparePolicy v
  | 0x3012 => s.modXrds fun x => { x with pending := setAt x.pending sub 0 }
  | 0x3014 => s.modXrds fun x => { x with sticky := clearBits x.sticky v }
  | 0x3020 => s.counterSource sub v
  | 0x3031 => s.modXrds fun x => { x with irqPending := clearBits x.irqPending (v <<< (64 * sub)) }
  | 0x3041 => s.gpioFunction sub v
  | 0x3042 => s.gpioMove fun s => s.setNum 0x3042 0 v
  | 0x4000 => ((s.setNum 0x4000 sub v).updateHpd sub).recommand s
  | 0xC053 => s.modBand sub fun b => { b with sat := clearBits b.sat v }
  | _ => s.setNum obj sub v

/-- A value staged by a session (R59, R261, R606). Regenerated tables start their staging with the write. -/
def State.stageVal (sid obj sub : Nat) (v : Val) (s : State) : State :=
  let s1 := s.modDict fun d => { d with shadow := mapPut d.shadow (okey obj sub) v, owner := sid }
  if commitClass obj .rs = 2 then s1.stageStart obj sub v.toBytes.length else s1

/-- A command written to a WC object, with the status it answers (R9). The value has passed every check
(log entry 54, DEDUCED, unsafe). FALSE to a BOOL command does nothing (log entry 182, DEDUCED, unsafe). -/
def State.runCmd (obj sub v : Nat) (s : State) : State × Nat :=
  let when_ (f : State → State) (st : Nat) : State × Nat := if v = 0 then (s, 0x00) else (f s, st)
  match obj with
  | 0x0011 => ((s.stateRequest v State.enterMews).getD s, 0x00)
  | 0x0016 => when_ (fun s => s.modMews fun m => { m with
      resetDue := if m.resetDue.isSome then m.resetDue else some (6, s.now + 10000000) }) 0x00
  | 0x0042 => ((s.spareDecide v).getD s, 0x00)
  | 0x0044 => when_ (fun s => s.modTherm fun m => { m with commission := s.loop.strings.map LString.eta0 }) 0x00
  | 0x2021 => when_ State.emptyShadow 0x00
  | 0x2030 => when_ (fun s => s.profCommand true) 0x03
  | 0x2032 => when_ (fun s => s.profCommand false) 0x03
  | 0x2051 => (if v = 1 then s.sweepStart else s.sweepAbort, 0x03)
  | 0x3023 => when_ State.snapshot 0x00
  | 0x3026 => (s.clearCounters v, 0x00)
  | 0x5051 => (s.hbmTrain v, 0x03)
  | 0x6034 => ((s.gfxPublish sub v).versionNotice (8 + sub), 0x00)
  | 0xA009 => (s.arrayReg sub v, 0x00)
  | 0xA014 => (s.aswapStart sub v 3, 0x03)
  | 0xB010 => (s.localCommit, 0x03)
  | 0xB060 => (s.wallJoin v, 0x03)
  | 0xC019 => when_ (fun s => s.modBand sub fun b => { b with rep := [] }) 0x00
  | 0xC061 => when_ (fun s => s.traceArm sub) 0x00
  | 0xD000 => (s.startEnum sub, 0x00)
  | 0xD009 => (s.lampReg sub v, 0x00)
  | _ => if (viewOf obj).isSome then when_ (fun s => s.unitForce obj) 0x00 else (s, 0x00)

/-- One number written that has passed every check, with its status. -/
def State.writeOne (sid obj sub v : Nat) (s : State) : State × Nat :=
  match lookup obj sub with
  | none => (s, 0x00)
  | some d =>
    match d.acc with
    | .rs => (s.stageVal sid obj sub (nv v), 0x02)
    | .wc =>
      let (s1, st) := s.runCmd obj sub v
      (s1.modDict fun d => { d with cmdStatus := mapPut d.cmdStatus (okey obj sub) st }, st)
    | _ => if (viewOf obj).isSome then s.unitCommand obj v else (s.putRw obj sub v, 0x00)

/-! ## Checks (R45, R57, R605) -/

/-- The first status of two checks. -/
def first (a b : Option Nat) : Option Nat := match a with
  | some x => some x
  | none => b

/-- A check that answers `st` where `bad` holds. -/
def refuseIf (bad : Bool) (st : Nat) : Option Nat := if bad then some st else none

/-- The subindices that an operation names, each with its table row. Subindex 0x00 of a RECORD reads as a U8 (R44). -/
def leafOf (obj sub : Nat) : Option Desc :=
  if objKind obj = .record && sub = 0 then some ⟨obj, .record, 0, 0, objTop obj, .u8, .ro, false, 0, .any⟩ else lookup obj sub

/-- Object and subindex (R55, R57): every subindex that the operation covers must exist. -/
def checkObject (obj sub count : Nat) : Option Nat :=
  first (refuseIf (!objExists obj) 0x10)
    (refuseIf (!(upTo (max count 1)).all fun k => (leafOf obj (sub + k)).isSome) 0x11)

/-- The rows that an operation covers. -/
def leaves (obj sub count : Nat) : List Desc := (upTo count).filterMap fun k => leafOf obj (sub + k)

/-- Whether a write to a row is refused with ACCESS (R55, R482): no role may write it. -/
def noWrite (d : Desc) (sub : Nat) : Bool :=
  d.acc = .ro || d.acc = .rp || (d.num = 0x3010 && decide (sub < 40)) || (d.num = 0x3011 && decide (sub < 20))

/-- The role of a write (R605): an object that no role may write answers ACCESS at any role. -/
def checkRole (role obj sub count : Nat) : Option Nat :=
  let ds := (upTo count).map fun k => (sub + k, leafOf obj (sub + k))
  let shut := ds.any fun p => match p.2 with
    | some d => noWrite d p.1
    | none => true
  if ds.all fun p => match p.2 with
      | some d => noWrite d p.1
      | none => true
  then some 0x12
  else first (refuseIf (decide (role < writeRole obj)) 0x15) (refuseIf shut 0x12)

/-- Whether the bytes of a value spell one of its type (R45). -/
def valueOk (t : Ty) (v : Nat) : Bool :=
  match t with
  | .bool => decide (v ≤ 1)
  | .w36 => decide (v < 2 ^ 36)
  | _ => true

/-- The values of a write, from its data. -/
def splitVals : List Desc → Bytes → List (Desc × Nat)
  | [], _ => []
  | d :: ds, b => (d, leAt b 0 d.ty.width) :: splitVals ds (b.drop d.ty.width)

/-- The type of a write's data (R45, R46). -/
def checkType (ds : List Desc) (data : Bytes) : Option Nat :=
  refuseIf (ds.any (fun d => d.ty = .blob) || data.length != ds.foldl (fun a d => a + d.ty.width) 0 ||
    !(splitVals ds data).all fun p => valueOk p.1.ty p.2) 0x13

/-- What a command or a value is refused with in the present state (R33, R134, R157, R465, R509)
(log entry 101, DEDUCED, unsafe) (log entry 124, DEDUCED, unsafe). -/
def State.stateRefuses (s : State) (obj sub v : Nat) : Option Nat :=
  match obj with
  | 0x0011 => refuseIf (s.stateRequest v State.enterMews).isNone 0x14
  | 0x0042 => refuseIf (s.spareDecide v).isNone 0x14
  | 0x2051 => refuseIf (v = 1 && (!programOk (s.blob 0x2050) || s.coh.master.running)) 0x14
  | 0x5051 => refuseIf (s.mews.dev != .standby || s.hbm.training != 0) 0x14
  | 0x6034 => refuseIf (!s.gfxPublishOk sub v) 0x14
  | _ => match viewOf obj with
    | some (fam, _) => refuseIf (sub = 1 && !(unitCodes fam).contains v) 0x14
    | none => none

/-- Staging ownership (R59, R60, R264, R453): of RS writes, commits, joins and discards (log entry 45, DEDUCED, unsafe). -/
def State.checkStage (s : State) (sid obj : Nat) (rs : Bool) : Option Nat :=
  let cmd := obj = 0xB010 || obj = 0xB060 || obj = 0x2021
  if !rs && !cmd then none
  else first (refuseIf (s.dict.isSealed || (cmd && obj != 0x2021 && s.commitBusy)) 0x17)
    (refuseIf (s.dict.owner != 0 && s.dict.owner != sid) 0x16)

/-- Disagreement (R37). -/
def State.checkDisagree (s : State) (obj sub : Nat) : Option Nat :=
  refuseIf ((viewOf obj).isSome && sub = 1 && (s.unitRec obj).dis) 0x01

/-- Values with their subindices. -/
def numbered (sub : Nat) (vs : List (Desc × Nat)) : List (Nat × Desc × Nat) := (upTo vs.length).zip vs |>.map fun p => (sub + p.1, p.2)

/-- Every check of a write of numbers, in the order of R57; `bad` says that its flags are wrong (R52). HELD is the last. -/
def State.checkWrite (s : State) (c : Caller) (obj sub count : Nat) (data : Bytes) (bad : Bool := false) : Option Nat :=
  first (checkObject obj sub count) <|
  first (checkRole c.role obj sub (max count 1)) <|
  let ds := leaves obj sub count
  let vs := numbered sub (splitVals ds data)
  first (refuseIf bad 0x13) <|
  first (checkType ds data) <|
  first (refuseIf (count = 0 || 64 < count) 0x14) <|
  first (refuseIf (!vs.all fun p => p.2.1.accepts p.1 p.2.2) 0x14) <|
  first (vs.foldl (fun a p => first a (s.stateRefuses obj p.1 p.2.2)) none) <|
  first (s.checkStage c.sid obj (ds.any fun d => d.acc = .rs)) (s.checkDisagree obj sub)

/-- A write that has passed its checks, HELD included. -/
def State.doWrite (c : Caller) (obj sub count : Nat) (data : Bytes) (s : State) : State × Nat :=
  (numbered sub (splitVals (leaves obj sub count) data)).foldl (fun (acc : State × Nat) p =>
    let (s1, st) := acc.1.writeOne c.sid obj p.1 p.2.2
    (s1, if st = 0 then acc.2 else st)) (s, 0x00)

end Sys2Proof.Machine
end

