-- ==== Sys2Proof/Machine/Cross.lean ====
section
/-! DEFINITION. The rows of XRDS: captures, lost records, task activations, GPIO pulses and edges, and clock-cycle counters
(R474, R477, R482–R490). -/

namespace Sys2Proof.Machine

/-- `add` counts on every counter that `hit` picks, with the matches they raise (R488, R489). -/
def State.countWhere (hit : Nat → Bool) (add : Nat) (s : State) : State :=
  let r := (upTo 64).foldl (fun (acc : State × List Occ) i =>
    if hit (s.num 0x3020 i) then
      let c := acc.1.countOn i add
      (c.1, acc.2 ++ c.2)
    else acc) (s, [])
  r.1.raiseAll r.2

/-- Whether a pulse or its low time runs on a GPIO (R487). -/
def State.pulseRuns (s : State) (n : Nat) : Bool := (s.xrds.pulseEnd.getD n none).any fun e => decide (s.now < e)

/-- A pulse starts on a GPIO; its low time ends twice the width later (R487). -/
def State.pulseStart (n : Nat) (s : State) : State :=
  let w := s.num 0x3040 n * 10
  ((s.modXrds fun x => { x with pulseEnd := setAt x.pulseEnd n (some (s.now + 2 * w)) }).emit (.pulse (.gpio n) w)).countRises [n]

/-- What an activation of a task input does (R482, R486). T0 to T15 run firmware tasks, which act through commands of their
own. -/
def State.taskAct (i : Nat) (s : State) : State :=
  if i < 16 then s
  else if i < 20 then (if fld (s.num 0xC060 (i - 16)) 39 32 = 1 then s.traceTrigger (i - 16) else s)
  else if i < 36 then (if s.num 0x3041 (i - 20) = 3 then s.pulseStart (i - 20) else s)
  else if i = 36 then s.snapshot
  else s.clearCounters (s.num 0x3027)

/-- The take of an activation: the pending count falls and the activations rise; a clear or a snapshot of the same cycle comes
before the counts of that cycle (R484, R488, R490). -/
def State.taskTake (i : Nat) (s : State) : State :=
  let s1 := s.modXrds fun x => { x with
    pending := modAt x.pending i (· - 1), acts := modAt x.acts i fun a => (a + 1) % 2 ^ 32 }
  (s1.taskAct i).countWhere (fun w => fld w 63 56 = 2 && fld w 55 48 = i) 1

/-! ## The rows -/

/-- EVENT_OCCURRENCE (R473, R474): occurrences that subsystems signal at once. -/
def execEventOccurrence (t : Nat) (occs : List Occ) (s : State) : Host.Outcome State Fault Refusal :=
  .next ((s.advance t).raiseAll occs)

/-- XRDS_EVENTS_LOST (R477): the level is below 240 after a loss. -/
def execXrdsEventsLost (t : Nat) (s : State) : Host.Outcome State Fault Refusal :=
  let s := s.advance t
  if s.xrds.lostPending != 0 && decide (s.xrds.queue.length < 240) then
    .next ((s.modXrds fun x => { x with lostPending := 0 }).raise 0x31 0 (sat 65535 s.xrds.lostPending))
  else .next s

/-- TASK_ACTIVATION (R484, R487): a consumer takes one pending activation. A GPIO starts none while a pulse of it runs. -/
def execTaskActivation (t input : Nat) (s : State) : Host.Outcome State Fault Refusal :=
  let s := s.advance t
  if 38 ≤ input || natAt s.xrds.pending input = 0 then .next s
  else if 20 ≤ input && input < 36 && s.num 0x3041 (input - 20) = 3 && s.pulseRuns (input - 20) then .next s
  else .next (s.taskTake input)

/-- GPIO_PULSE_END (R487): the low time after a pulse has ended. -/
def execGpioPulseEnd (t gpio : Nat) (s : State) : Host.Outcome State Fault Refusal :=
  let s := s.advance t
  if s.pulseRuns gpio then .next s else .next (s.modXrds fun x => { x with pulseEnd := setAt x.pulseEnd gpio none })

/-- GPIO_INPUT_EDGE (R488, R570): the level from outside at a GPIO ball changes. In MEWS state nothing counts. -/
def execGpioInputEdge (t gpio : Nat) (high : Bool) (s : State) : Host.Outcome State Fault Refusal :=
  let s := s.advance t
  let put (s : State) : State := s.modXrds fun x => { x with gpioIn := setBit x.gpioIn gpio high }
  if 16 ≤ gpio then .next s else if s.mews.dev = .mews || s.mews.held then .next (put s) else .next (s.gpioMove put)

/-- CYCLES_COUNTER_COMPARE (R488, R489): a clock domain that runs has made `cycles` cycles, which its counters count
(log entry 62, DESIGN CHOICE, safe). -/
def execCyclesCounterCompare (t domain cycles : Nat) (s : State) : Host.Outcome State Fault Refusal :=
  let s := s.advance t
  if s.domainState domain = 2 then
    .next (s.countWhere (fun w => fld w 63 56 = 4 && fld w 55 48 = domain) cycles)
  else .next s

end Sys2Proof.Machine
end

