-- ==== Sys2Proof/Machine/Gysol.lean ====
section
/-! DEFINITION. Gysol: operations, sessions, tags, the replay cache, the unison record and the gateway's tags (R49–R76, R443, R600, R605,
R625). -/

namespace Sys2Proof.Machine

/-! ## Operations (R52, R53, R57) -/

/-- An operation of a request (R52). -/
structure GOp where
  code : Nat
  flags : Nat
  obj : Nat
  sub : Nat
  count : Nat
  data : Bytes
  deriving DecidableEq, Repr

/-- Whether an operation's flags are wrong (R52): SHADOW is for READ, LAST for BLOB_WRITE. -/
def GOp.badFlags (o : GOp) : Bool :=
  decide (4 ≤ o.flags) || (bit o.flags 0 && o.code != 1) || (bit o.flags 1 && o.code != 5)

/-- The checks of an operation that names no object (R53), its type before its count (R57). -/
def GOp.plain (o : GOp) (len : Nat) : Option Nat :=
  first (refuseIf (o.obj != 0) 0x10) <|
  first (refuseIf (o.sub != 0) 0x11) <|
  first (refuseIf (o.badFlags || o.data.length != len) 0x13) <|
  refuseIf (o.count != 1) 0x14

/-- Whether an operation needs no session (R71). -/
def GOp.free (o : GOp) : Bool :=
  o.code = 0x08 || o.code = 0x10 || (o.code = 0x01 && decide (o.obj ≤ 4))

/-- A value's bytes on the wire (R8, R45). -/
def State.readBytes (s : State) (sid obj sub : Nat) (d : Desc) : Bytes :=
  if obj = 0x2040 then toLE 1 (s.readNum sid obj sub)
  else if d.ty = .str32 then readText obj
  else toLE d.ty.width (s.readNum sid obj sub)

/-- A staged value's bytes; the running value where nothing is staged (R53, R56). -/
def State.shadowBytes (s : State) (obj sub : Nat) (d : Desc) : Bytes := toLE d.ty.width (s.staged obj sub).toNat

/-- READ (R44, R46, R53). -/
def State.opRead (s : State) (c : Caller) (o : GOp) : Nat × Bytes :=
  let ds := leaves o.obj o.sub o.count
  let shadow := bit o.flags 0
  match first (checkObject o.obj o.sub o.count) <|
      first (refuseIf (shadow && ds.any fun d => d.acc != .rs) 0x12) <|
      first (refuseIf (o.badFlags || !o.data.isEmpty || (o.obj != 0x2040 && ds.any fun d => d.ty = .blob)) 0x13) <|
      refuseIf (o.count = 0 || 64 < o.count) 0x14 with
  | some st => (st, [])
  | none => (0, (((upTo o.count).zip ds).map fun p =>
      if shadow then s.shadowBytes o.obj (o.sub + p.1) p.2 else s.readBytes c.sid o.obj (o.sub + p.1) p.2).flatten)

/-- The present length of a BLOB; a blank key slot has that of a key (log entry 159, DEDUCED, unsafe). -/
def State.blobLength (s : State) (obj sub : Nat) : Nat :=
  if obj = 0x2040 then (s.gysol.roleKeys.getD (sub - 1) []).length else (s.readBlob obj sub).length

/-- The description of a subindex (R600). -/
def State.describeOne (s : State) (obj sub : Nat) : Bytes :=
  match leafOf obj sub with
  | none => []
  | some d =>
    [BitVec.ofNat 8 (objKind obj).code, BitVec.ofNat 8 d.ty.code, BitVec.ofNat 8 d.acc.code, BitVec.ofNat 8 (b2n d.p),
      BitVec.ofNat 8 ((if obj ≤ 4 then 0 else 0x10) + if noWrite d sub then 0 else writeRole obj),
      BitVec.ofNat 8 (commitClass obj d.acc), 0, 0] ++
    if d.ty = .blob then toLE 4 (s.blobLength obj sub) else []

/-- DESCRIBE (R53, R600). -/
def State.opDescribe (s : State) (o : GOp) : Nat × Bytes :=
  match first (checkObject o.obj o.sub o.count) <|
      first (refuseIf (o.badFlags || !o.data.isEmpty) 0x13) <| refuseIf (o.count = 0 || 64 < o.count) 0x14 with
  | some st => (st, [])
  | none => (0, ((upTo o.count).map fun k => s.describeOne o.obj (o.sub + k)).flatten)

/-- BLOB_READ (R46, R53): a chunk from an offset; past the end there are no bytes. -/
def State.opBlobRead (s : State) (o : GOp) : Nat × Bytes :=
  let d := leafOf o.obj o.sub
  let isBlob := d.any fun d => d.ty = .blob
  match first (checkObject o.obj o.sub 1) <|
      first (refuseIf (isBlob && d.any fun d => d.acc = .wc) 0x12) <|
      first (refuseIf (o.badFlags || !isBlob || o.data.length != 8) 0x13) <| refuseIf (o.count != 1) 0x14 with
  | some st => (st, [])
  | none => (0, toLE 4 (leAt o.data 0 4) ++ Machine.slice (s.readBlob o.obj o.sub) (leAt o.data 0 4) (leAt o.data 4 4))

/-- The 16 bytes of an event record (R10). -/
def recordBytes (r : EvRec) : Bytes := toLE 4 r.seq ++ toLE 8 r.time ++ toLE 1 r.code ++ toLE 1 r.inst ++ toLE 2 r.data

/-- LOG_READ (R66, R478): status, and first returned with the records: as many as the count asks for, from the first one held on
(log entry 178, DEDUCED, unsafe). -/
def State.opLogRead (s : State) (o : GOp) : Nat × Bytes :=
  let want := leAt o.data 0 4
  let n := leAt o.data 4 1
  let past (a b : Nat) : Bool := let d := (a + 2 ^ 32 - b) % 2 ^ 32; d != 0 && decide (d < 2 ^ 31)
  match first (o.plain 8) (refuseIf (64 < n) 0x14) with
  | some st => (st, [])
  | none =>
    if past want s.xrds.seqNext then (0x14, toLE 4 want)
    else
      let rs := (s.xrds.log.filter fun r => !past want r.seq).take n
      (if past s.xrds.seqOldest want then 0x1B else 0, toLE 4 ((rs.head?.map EvRec.seq).getD want) ++ (rs.map recordBytes).flatten)

/-! ## BLOB streams (R54, R155, R261) -/

/-- A stream on a BLOB that has had a chunk within 10 s. -/
def State.stream (s : State) (key : Nat) : Option BlobStream :=
  s.gysol.streams.find? fun x => x.key = key && decide (s.now ≤ x.lastAt + 10000000000)

/-- The stream of a BLOB closed. -/
def State.closeStream (key : Nat) (s : State) : State :=
  s.modGysol fun g => { g with streams := g.streams.filter fun x => x.key != key }

/-- A stream's bytes so far kept. -/
def State.keepStream (x : BlobStream) (s : State) : State :=
  s.modGysol fun g => { g with streams := (g.streams.filter fun y => y.key != x.key) ++ [x] }

/-- The largest length a BLOB may have, and the smallest (R45, R46). -/
def blobBounds (d : Desc) : Nat × Nat :=
  match d.rng with
  | .blob lo hi => (lo, min hi 16777216)
  | _ => (0, 16777216)

/-- What a whole BLOB is refused with at LAST, before staging ownership. -/
def State.blobRefuses (s : State) (obj sub : Nat) (b : Bytes) : Option Nat :=
  match obj with
  | 0x6032 => refuseIf (!s.gfxStreamOk sub b) 0x14
  | 0x8004 => refuseIf (!eotfTableOk b) 0x14
  | 0xB061 => first (refuseIf (!s.isCoord) 0x12) <| first (refuseIf (!startOk b) 0x14) (refuseIf s.coh.commit.isSome 0x17)
  | _ => none

/-- A session ends (R59, R76): its record goes, its streams are abandoned, and its shadow is discarded unless a commit has sealed it. -/
def State.endSession (sid cause : Nat) (s : State) : State :=
  if (s.session sid).isNone then s
  else
    let s1 := s.modGysol fun g => { g with
      sessions := g.sessions.filter fun x => x.id != sid, streams := g.streams.filter fun x => x.sid != sid
      relays := g.relays.filter fun x => x.sid != sid, jobs := g.jobs.filter fun x => x.sid != sid }
    if s.dict.owner = sid && !s.dict.isSealed then
      s1.emptyShadow.raiseAll [s.occ 0x21 0 sid, s.occ 0x23 cause sid]
    else s1.raise 0x23 cause sid

/-- A role key written: every session of the role ends (R69). -/
def State.writeKey (role : Nat) (key : Bytes) (s : State) : State :=
  let s1 := s.modGysol fun g => { g with roleKeys := setAt g.roleKeys (role - 1) key }
  (s.gysol.sessions.filter fun x => x.role = role).foldl (fun (s : State) x => s.endSession x.id 1) s1

/-- The image slot that a write goes to: the one that did not boot (R558); from the boot ROM, slot 0 unless its header is valid
(R623). -/
def State.imageTarget (s : State) : Nat :=
  match s.firm.bootSlot with
  | some 0 => 1
  | some _ => 0
  | none => if imageHeaderOk ((s.firm.slots.getD 0 {}).image) then 1 else 0

/-- An image written to its slot, to be checked (R558). -/
def State.writeImage (b : Bytes) (s : State) : State :=
  let n := s.imageTarget
  (s.modFirm fun f => { f with
    slots := modAt f.slots n fun i => { i with image := b, st := 2, version := imageVersion b }, verifying := some n }).takeLeaseOf 0

/-- A whole BLOB that has passed its checks takes effect (R54), with the status it answers. -/
def State.takeBlob (sid obj sub : Nat) (d : Desc) (b : Bytes) (s : State) : State × Nat :=
  match obj with
  | 0x2040 => (s.writeKey sub b, 0x00)
  | 0x2071 => (if s.firm.running then (s.writeImage b).raise 0x28 1 s.imageTarget else s.writeImage b, 0x03)
  | 0x6032 => (s.gfxAccept sub b, 0x00)
  | 0x4020 => ((s.setVal 0x4020 sub (.bytes b)).dropHpd sub (some (s.now + 500000000)), 0x00)
  | 0xB061 => (s.startWallCommit b, 0x03)
  | _ => if d.acc = .rs then (s.stageVal sid obj sub (.bytes b), 0x02) else (s.setVal obj sub (.bytes b), 0x00)

/-- Whether a chunk completes the 32-byte header of a graphics BLOB (R155). -/
def headerDone (obj : Nat) (before whole : Bytes) : Bool :=
  obj = 0x6032 && decide (before.length < 32) && decide (32 ≤ whole.length)

/-- What a header that is complete does before any of its lines is written (R155, R156). -/
def State.headerArrives (obj sub : Nat) (before whole : Bytes) (s : State) : State :=
  if headerDone obj before whole then s.gfxHeader sub (whole.take 32) else s

/-- BLOB_WRITE (R54): the state after the chunk, and its status (log entry 53, DEDUCED, unsafe). Lines go to frame memory through port
BE: an error there is reported by the next chunk with a status that the manual does not name, and ends the stream (R126)
(log entry 160, DESIGN CHOICE, safe). Staging ownership is judged at LAST (R59) (log entry 161, DEDUCED, unsafe). -/
def State.opBlobWrite (c : Caller) (o : GOp) (s : State) : State × Nat :=
  let last := bit o.flags 1
  let key := okey o.obj o.sub
  let leaf := leafOf o.obj o.sub
  match first (checkObject o.obj o.sub 1) <|
      first (checkRole c.role o.obj o.sub 1) <|
      first (refuseIf (o.badFlags || !(leaf.any fun d => d.ty = .blob) || decide (o.data.length < if last then 8 else 4)) 0x13) <|
      refuseIf (o.count != 1) 0x14, leaf with
  | some st, _ => (s, st)
  | none, none => (s, 0x11)
  | none, some d =>
    let open_ := s.stream key
    let before := (open_.map BlobStream.data).getD []
    let chunk := (o.data.drop 4).take (o.data.length - 4 - if last then 4 else 0)
    let whole := before ++ chunk
    let gone := s.closeStream key
    if (open_.any fun x => x.sid != c.sid) || leAt o.data 0 4 != before.length then (gone, 0x18)
    else if headerDone o.obj before whole && !s.gfxHeaderOk o.sub (whole.take 32) then (gone, 0x14)
    else if (blobBounds d).2 < whole.length then (gone, 0x14)
    else if o.obj = 0x6032 && s.hbm.beFailed then (gone.drawn.modHbm fun h => { h with beFailed := false }, 0x10 + s.free % 13)
    else
    let s := s.headerArrives o.obj o.sub before whole
    let gone := s.closeStream key
    if !last then (s.keepStream ⟨key, c.sid, whole, s.now⟩, 0x00)
    else if crc32c whole != leAt o.data (o.data.length - 4) 4 then (gone, 0x19)
    else if whole.length < (blobBounds d).1 then (gone, 0x14)
    else match first (s.blobRefuses o.obj o.sub whole) (s.checkStage c.sid o.obj (d.acc = .rs)) with
      | some 0x17 => if d.acc = .rs then (s, 0x17) else (gone, 0x17)
      | some st => (gone, st)
      | none => gone.takeBlob c.sid o.obj o.sub d whole

/-! ## Running operations (R51–R57, R67) -/

/-- A code mask as a number, bit n for event code n (R67). -/
def State.subscribe (sid : Nat) (mask : Bytes) (s : State) : State :=
  s.modGysol fun g =>
    if sid = 0xFFFF then { g with mbMask := ofLE mask }
    else { g with sessions := g.sessions.map fun x => if x.id = sid then { x with mask := ofLE mask } else x }

/-- One operation run: the state after it, its status and its response data. A SESSION_CLOSE that answers OK ends its session
after its frame (log entry 34, DEDUCED, unsafe). -/
def State.opExec (c : Caller) (o : GOp) (s : State) : State × Nat × Bytes :=
  match o.code with
  | 0x01 => (s, s.opRead c o)
  | 0x02 => match s.checkWrite c o.obj o.sub o.count o.data o.badFlags with
    | some 0x01 => ((s.doWrite c o.obj o.sub o.count o.data).1, 0x01, [])
    | some st => (s, st, [])
    | none => let r := s.doWrite c o.obj o.sub o.count o.data; (r.1, r.2, [])
  | 0x03 => (s, s.opDescribe o)
  | 0x04 => (s, s.opBlobRead o)
  | 0x05 => let r := s.opBlobWrite c o; (r.1, r.2, [])
  | 0x06 => (s, s.opLogRead o)
  | 0x07 => match o.plain 32 with
    | some st => (s, st, [])
    | none => (s.subscribe c.sid o.data, 0x00, [])
  | 0x08 => (s, (o.plain 0).getD 0x00, [])
  | 0x11 => (s, (o.plain 0).getD (if c.sid = 0xFFFF then 0x23 else 0x00), [])
  | _ => (s, 0x13, [])

/-- An operation's part of a response (R52). -/
def GOp.response (o : GOp) (st : Nat) (data : Bytes) : Bytes :=
  toLE 1 o.code ++ toLE 1 st ++ toLE 2 o.obj ++ toLE 1 o.sub ++ toLE 1 o.count ++ toLE 2 data.length ++ pad4 data

/-- Operations run in payload order under a payload limit (R51, R56). The 8-byte heads that must still follow are counted in
(log entry 46, DEDUCED, unsafe). -/
def State.runOps (c : Caller) (limit : Nat) : List GOp → Nat → State → State × Bytes
  | [], _, s => (s, [])
  | o :: os, used, s =>
    let (s1, st, data) := s.opExec c o
    let size := 8 + data.length + padLen data.length
    if limit < used + size + 8 * os.length then
      (s, o.response 0x1C [] ++ (os.map fun p => p.response 0x1A []).flatten)
    else
      let (s2, rest) := State.runOps c limit os (used + size) s1
      (s2, o.response st data ++ rest)

/-- Whether a status fails an atomic request (R57): HELD does, an overrun of the log does not (log entry 47, DEDUCED, unsafe). -/
def atomicFails (o : GOp) (st : Nat) : Bool := st = 0x01 || (decide (0x10 ≤ st) && !(o.code = 0x06 && st = 0x1B))

/-- The operations of a request, atomic or not (R57). An atomic request whose checks pass and whose response overflows runs what comes
before the overflow (log entry 183, DESIGN CHOICE, unsafe). -/
def State.runRequest (c : Caller) (limit : Nat) (atomic : Bool) (os : List GOp) (s : State) : State × Bytes :=
  let bad (o : GOp) : Bool := atomicFails o (s.opExec c o).2.1
  if atomic && os.any bad then
    (s, (os.map fun o => if bad o then o.response (s.opExec c o).2.1 [] else o.response 0x1A []).flatten)
  else s.runOps c limit os 0

/-! ## Frames (R49, R50, R632) -/

/-- A request frame. `tag` is what follows its payload. -/
structure GReq where
  flags : Nat
  sid : Nat
  seq : Nat
  node : Nat
  die : Nat
  version : Nat
  len : Nat
  ops : List GOp
  body : Bytes
  tag : Bytes
  /-- It addresses the unison view (R626). -/
  view : Bool := false
  deriving DecidableEq, Repr

def GReq.tagged (q : GReq) : Bool := bit q.flags 5
def GReq.atomic (q : GReq) : Bool := bit q.flags 4

/-- `n` operations that fill their payload exactly (R632). -/
def parseOps : Nat → Bytes → Option (List GOp)
  | 0, b => if b.isEmpty then some [] else none
  | n + 1, b =>
    let d := leAt b 6 2
    if b.length < 8 + d + padLen d then none
    else (parseOps n (b.drop (8 + d + padLen d))).map fun os =>
      ⟨leAt b 0 1, leAt b 1 1, leAt b 2 2, leAt b 4 1, leAt b 5 1, slice b 8 d⟩ :: os

/-- A frame read, none when it is malformed (R632). -/
def readReq (b : Bytes) : Option GReq :=
  let fl := leAt b 3 1
  let len := leAt b 12 2
  let tagLen := if bit fl 5 then 16 else 0
  if b.length != 16 + len + tagLen || leAt b 0 2 != 0x5947 || fld fl 7 6 != 0 || fld fl 3 0 != 0 || leAt b 14 2 != 0 ||
      leAt b 11 1 = 0 || 32 < leAt b 11 1 then none
  else (parseOps (leAt b 11 1) (slice b 16 len)).map fun os =>
    { flags := fl, sid := leAt b 4 2, seq := leAt b 6 2, node := leAt b 8 2, die := leAt b 10 1, version := leAt b 2 1, len := len
      ops := os, body := b.take (16 + len), tag := b.drop (16 + len) }

/-- A frame cut to its own length where only padding zeros follow, as in-band flits and mailbox words carry it (R443, R621). -/
def trimFrame (b : Bytes) (unit : Nat) : Bytes :=
  let want := 16 + leAt b 12 2 + if bit (leAt b 3 1) 5 then 16 else 0
  if decide (want ≤ b.length) && decide (b.length < want + unit) && (b.drop want).all (· = 0) then b.take want else b

/-- The tag of a frame under a session key (R73). -/
def frameTag (key : Bytes) (ext : Nat) (body : Bytes) : Bytes :=
  (hmac key (toLE 4 ext ++ modAt body 3 fun b => b ||| 0x20#8)).take 16

/-- The CRC that tells whether a request is the same one (R63): session field and flags bit 5 are left out. -/
def GReq.crc (q : GReq) : Nat := crc32c (q.body.take 3 ++ toLE 1 (clearBits q.flags 32) ++ q.body.drop 6)

/-- The unison record of the board EEPROM: identity and members, where it is valid (R625) (log entry 135, DEDUCED, unsafe). -/
def unisonRecord (b : Bytes) : Option (Nat × List Nat) :=
  let n := leAt b 5 1
  let id := leAt b 6 2
  if b.length < 28 || leAt b 0 4 != 0x494E5556 || leAt b 4 1 != 1 || n < 2 || 8 < n || id = 0 || id = 0xFFFF ||
      leAt b 24 4 != crc32c (b.take 24) then none
  else some (id, (upTo n).map fun k => leAt b (8 + 2 * k) 2)

/-- The unison group that this node is a member of (R625). -/
def State.unisonGroup (s : State) : Option (Nat × List Nat) :=
  (unisonRecord s.firm.eeprom).filter fun u => u.2.contains s.uane.node && s.num 0xF001 != 0

/-- The unison view, at the lead: identity and members (R625, R626). -/
def State.unisonView (s : State) : Option (Nat × List Nat) := s.unisonGroup.filter fun u => u.2.head? = some s.uane.node

/-- The node field of what a session is sent: the identity in the view, else this node (R49, R626). -/
def State.nodeField (s : State) (view : Bool) : Nat := if view then (s.unisonView.map Prod.fst).getD s.uane.node else s.uane.node

/-- A frame: kind 1 a response, 2 a push (R49, R50). -/
def gframe (node kind atomic sid seq die nops status : Nat) (payload : Bytes) : Bytes :=
  toLE 2 0x5947 ++ toLE 1 1 ++ toLE 1 (kind * 64 + atomic * 16) ++ toLE 2 sid ++ toLE 2 seq ++ toLE 2 node ++ toLE 1 die ++
    toLE 1 nops ++ toLE 2 payload.length ++ toLE 2 status ++ payload

/-- A frame's flags byte with bits set. -/
def setFlags (m : Byte) (b : Bytes) : Bytes := modAt b 3 fun x => x ||| m

/-- A frame with its tag (R73). -/
def withTag (key : Bytes) (ext : Nat) (b : Bytes) : Bytes := setFlags 0x20#8 b ++ frameTag key ext b

/-- The IPv4 address that a datagram for `ip` is handed to: its host within the mask, else the gateway, if there is one (R77, R85)
(log entry 155, DEDUCED, unsafe). -/
def State.nextHop (s : State) (ip : Nat) : Option Nat :=
  if ip &&& s.gysol.netMask = s.gysol.netIp &&& s.gysol.netMask then some ip
  else if s.gysol.netGateway = 0 then none else some s.gysol.netGateway

/-- A frame sent on a transport: a response, or a push (R77, R79, R443, R621). A UDP address is the IPv4 address times 65,536 plus
the port; an in-band address is the gateway times 65,536 plus its tag. -/
def State.gsend (tr : Transport) (addr kind : Nat) (b : Bytes) (s : State) : State :=
  match tr with
  | .udp => match s.nextHop (addr / 65536) with
    | some hop => s.emit (.gysol .udp addr hop b)
    | none => s
  | .spi => s.modGysol fun g => if kind = 1 then { g with spiResp := g.spiResp ++ [b] } else { g with spiPush := g.spiPush ++ [b] }
  | .jtag => s.modGysol fun g => if kind = 1 then { g with mbResp := g.mbResp ++ [b] } else { g with mbPush := g.mbPush ++ [b] }
  | .inBand => s.uaneSend 0x30 (addr / 65536) 0 (toLE 2 addr ++ toLE 1 kind) b

/-- A response to a request, from a die of the view (R49, R52). A frame status other than OK carries no operations. -/
def State.replyFrom (s : State) (die : Nat) (q : GReq) (status : Nat) (payload : Bytes) : Bytes :=
  gframe (s.nodeField q.view) 1 (b2n q.atomic) q.sid q.seq (if q.view then die else 0xFF) (if status = 0 then q.ops.length else 0) status
    (if status = 0 then payload else [])

/-- A response of this node, which is die 0 where it is a view's lead (R49). -/
def State.reply (s : State) (q : GReq) (status : Nat) (payload : Bytes) : Bytes := s.replyFrom 0 q status payload

/-- Whether a response of `n` operations answers OK to a SESSION_CLOSE (R53, R76). -/
def closes (n : Nat) (resp : Bytes) : Bool :=
  (parseOps n (resp.drop 16)).any fun os => os.any fun o => o.code = 0x11 && o.flags = 0

/-- The largest payload of a transport (R51, R620). -/
def payloadLimit : Transport → Nat
  | .udp | .inBand => 1400
  | .spi | .jtag => 4080

/-! ## Sessions (R61–R76) -/

/-- Changes one session. -/
def State.modSession (sid : Nat) (f : Session → Session) (s : State) : State :=
  s.modGysol fun g => { g with sessions := g.sessions.map fun x => if x.id = sid then f x else x }

/-- The session key (R73). -/
def sessionKey (roleKey : Bytes) (role sid : Nat) (host device : Bytes) : Bytes :=
  hmac roleKey (ascii "GYSK" ++ toLE 1 role ++ toLE 2 sid ++ host ++ device)

/-- An identifier for a new session: the first unused one from a free value on, other than the one asked for (R72, R84)
(log entry 52, DESIGN CHOICE, safe). -/
def State.newSid (s : State) (want : Nat) : Nat :=
  let start := s.free % 0xFFFE
  (((upTo 10).map fun k => (start + k) % 0xFFFE + 1).find? fun i => i != want && (s.session i).isNone).getD 1

/-- A role key is blank (R69). -/
def State.keyBlank (s : State) (role : Nat) : Bool := (s.gysol.roleKeys.getD (role - 1) []).all (· = 0)

/-- A new pending session in the lowest free slot of 0x2014, BUSY when no slot is free (R72, R74, R85)
(log entry 154, DESIGN CHOICE, unsafe). -/
def State.openNew (tr : Transport) (addr role want : Nat) (rk host nonce : Bytes) (s : State) : State × Nat × Nat × Bytes :=
  if 8 ≤ s.gysol.sessions.length then (s, 0x24, 0, [])
  else
    let sid := s.newSid want
    let slot := ((upTo 8).find? fun n => !s.gysol.sessions.any fun x => x.slot = n).getD 0
    let x : Session := { id := sid, slot := slot, role := role, key := sessionKey rk role sid host nonce, openedAt := s.now
                         lastValid := s.now, transport := tr, addr := addr }
    (s.drawn.modGysol fun g => { g with sessions := g.sessions ++ [x] }, 0, 0, toLE 2 sid ++ [0, 0] ++ nonce ++ toLE 4 0)

/-- SESSION_OPEN (R72–R75): frame status, operation status and data (log entry 51, DEDUCED, unsafe)
(log entry 127, DEDUCED, safe). -/
def State.sessionOpen (tr : Transport) (addr : Nat) (o : GOp) (s : State) : State × Nat × Nat × Bytes :=
  let role := leAt o.data 0 1
  let want := leAt o.data 2 2
  match first (o.plain 12) <|
      first (refuseIf (role = 0 || 3 < role || leAt o.data 1 1 != 0) 0x14) (refuseIf (s.keyBlank role) 0x15) with
  | some st => (s, 0, st, [])
  | none =>
    let rk := s.gysol.roleKeys.getD (role - 1) []
    let nonce := toLE 8 (Config.nonce s.freeCtr).toNat
    match s.session want with
    | some x =>
      if x.role = role && want != 0 then
        let k := sessionKey rk role want (Machine.slice o.data 4 8) nonce
        let s1 := s.drawn.modSession want fun x => { x with newKey := some k, resumedAt := s.now }
        (s1, 0, 0, toLE 2 want ++ [0, 0] ++ nonce ++ toLE 4 x.last)
      else s.openNew tr addr role want rk (Machine.slice o.data 4 8) nonce
    | none => s.openNew tr addr role want rk (Machine.slice o.data 4 8) nonce

/-- A valid request of a session: it is active, its old key dies where the new one was used, and its transport is the request's
(R74–R77). -/
def Session.touch (now : Nat) (tr : Transport) (addr : Nat) (key : Bytes) (x : Session) : Session :=
  { x with
    isPending := false, lastValid := now, transport := tr, addr := addr
    key := if x.newKey = some key then key else x.key
    newKey := if x.newKey = some key then none else x.newKey }

/-- The extended number that a 16-bit number stands for, near L (R62). -/
def extend (last seq : Nat) : Int :=
  let d := (seq + 65536 - last % 65536) % 65536
  (last : Int) + if d ≤ 32768 then (d : Int) else (d : Int) - 65536

/-- L once a request has been taken: only a higher number raises it (R62). -/
def raiseLast (last : Nat) (e : Int) : Nat := max last e.toNat

/-- The 32 bits that stand for an extended number in a tag (R62, R73). -/
def tagNum (e : Int) : Nat := (e % (2 ^ 32 : Nat)).toNat

/-- The record of an executed request: L, the executed numbers and the cached responses within the window (R62, R63). -/
def Session.noteRun (e : Int) (crc : Nat) (resp : Bytes) (x : Session) : Session :=
  let keep (n : Int) : Bool := decide ((raiseLast x.last e : Int) < n + 64)
  { x with
    last := raiseLast x.last e
    executed := (x.executed.filter keep) ++ [e]
    cache := (x.cache.filter fun p => keep p.1) ++ [(e, crc, resp)] }

/-- A frame dropped for its tag or session: counted, with event 0x22 at most once a second (R73, R86). -/
def State.authDrop (tr : Transport) (s : State) : State :=
  let due := match s.gysol.authEvent with
    | some t => decide (t + 1000000000 ≤ s.now)
    | none => true
  let n := (s.gysol.authFail + 1) % 2 ^ 32
  (s.modGysol fun g => { g with authFail := n, authEvent := if due then some s.now else g.authEvent }).raiseLimited due 0x22
    (match tr with
      | .udp => 0
      | .spi => 1
      | _ => 2) (n % 65536)

/-! ## The gateway (R81, R443) -/

/-- Gateway tags whose endpoint was used within the session timeout. -/
def State.liveTags (s : State) : List GwTag :=
  s.uane.tags.filter fun g => decide (s.now ≤ g.used + s.num 0x2013 * 1000000)

/-- The tag of an endpoint: the one it has, a new one, or that of the endpoint unused for longest (R443)
(log entry 59, DESIGN CHOICE, safe) (log entry 133, DEDUCED, unsafe). -/
def State.gwTag (tr : Transport) (addr : Nat) (s : State) : Nat × State :=
  let live := s.liveTags
  match live.find? fun g => g.tr = tr && g.addr = addr with
  | some g => (g.tag, s.modUane fun u => { u with tags := live.map fun h => if h.tag = g.tag then { h with used := s.now } else h })
  | none =>
    let kept := if live.length < 64 then live
      else match live.foldl (fun (a : Option GwTag) g => match a with
          | some h => if g.used < h.used then some g else some h
          | none => some g) none with
        | some old => live.filter fun g => g.tag != old.tag
        | none => live
    let start := s.free % 65536
    let tag := (((upTo 65).map fun k => (start + k) % 65536).find? fun n => !kept.any fun g => g.tag = n).getD 0
    (tag, s.drawn.modUane fun u => { u with tags := kept ++ [⟨tag, tr, addr, s.now⟩] })

end Sys2Proof.Machine
end

