-- ==== Sys2Proof/Machine/Unison.lean ====
section
/-! DEFINITION. The unison view at the lead: relay sessions, relayed requests and the merge of their answers (R470, R626–R628). -/

namespace Sys2Proof.Machine

/-! ## Operations of the view (R627) -/

/-- A write to 0xB010. -/
def GOp.isCommit (o : GOp) : Bool := o.code = 0x02 && o.obj = 0xB010

/-- Whether an operation for die 0xFF concerns every member. -/
def GOp.shared (o : GOp) : Bool :=
  o.code = 0x02 || o.code = 0x05 || o.code = 0x07 || (o.code = 0x01 && (o.obj = 0x0010 || o.obj = 0x0013))

/-- An operation's bytes in a request. -/
def GOp.bytes (o : GOp) : Bytes := o.response o.flags o.data

/-- The answer to a request whose commit is refused: nothing else of it runs. -/
def commitAnswer (ops : List GOp) (st : Nat) : Bytes :=
  (ops.map fun o => o.response (if o.isCommit then st else 0x1A) []).flatten

/-- The device state of a view: the highest of SAFE, DEGRADED, WARMING, STANDBY and SERVING, in that order (R627). -/
def mergeState (vs : List Nat) : Nat := (([6, 5, 3, 2, 4].find? fun v => vs.contains v)).getD 6

/-- An operation's answers merged: `r` is die 0's, `here` the members'. `absent` says that a member is absent. Their flags hold the
statuses. -/
def mergeOp (absent : Bool) (o r : GOp) (here : List GOp) : GOp :=
  if o.code = 0x01 then
    if r.flags != 0 then r
    else
      let vs := leAt r.data 0 4 :: (here.filter fun h => h.flags = 0).map fun h => leAt h.data 0 4
      if o.obj = 0x0010 then { r with data := toLE r.data.length (if absent then 6 else mergeState vs) }
      else { r with data := toLE r.data.length (vs.foldl (· ||| ·) 0) }
  else { r with flags := (((r :: here).map GOp.flags).find? (· != 0)).getD 0 }

/-- The answers of a request merged. The members answer the shared operations only. -/
def mergeOps (absent : Bool) : List GOp → List GOp → List (List GOp) → List GOp
  | o :: os, r :: rs, ms =>
    if o.shared then mergeOp absent o r (ms.filterMap List.head?) :: mergeOps absent os rs (ms.map fun m => m.drop 1)
    else r :: mergeOps absent os rs ms
  | _, _, _ => []

/-! ## Relay sessions (R626) -/

/-- A request frame for a member. -/
def requestFrame (atomic : Bool) (sid seq node nops : Nat) (payload : Bytes) : Bytes :=
  toLE 2 0x5947 ++ toLE 1 1 ++ toLE 1 (16 * b2n atomic) ++ toLE 2 sid ++ toLE 2 seq ++ toLE 2 node ++ toLE 1 0xFF ++ toLE 1 nops ++
    toLE 2 payload.length ++ toLE 2 0 ++ payload

/-- The member of the view with a die number. -/
def State.memberNode (s : State) (die : Nat) : Nat := natAt ((s.unisonView.map Prod.snd).getD []) die

/-- A frame sent to a member, under the gateway tag of its relay (log entry 134, DEDUCED, unsafe). -/
def State.relayFrame (sid die : Nat) (b : Bytes) (s : State) : State :=
  let (tag, s1) := s.gwTag .inBand (sid * 8 + die)
  s1.uaneSend 0x30 (s.memberNode die) 0 (toLE 2 tag ++ [0]) b

def State.relay (s : State) (sid die : Nat) : Option Relay := s.gysol.relays.find? fun r => r.sid = sid && r.die = die

def State.setRelay (r : Relay) (s : State) : State :=
  s.modGysol fun g => { g with relays := (g.relays.filter fun x => !(x.sid = r.sid && x.die = r.die)) ++ [r] }

/-- A relay session opened on a member, absent where the member cannot be reached. -/
def State.relayOpen (x : Session) (die : Nat) (s : State) : State :=
  if (s.routeTo (s.memberNode die)).isNone then s.setRelay { sid := x.id, die := die, role := x.role, st := 2 }
  else
    let nonce := toLE 8 (Config.nonce s.freeCtr).toNat
    let op : GOp := ⟨0x10, 0, 0, 0, 1, toLE 1 x.role ++ [0, 0, 0] ++ nonce⟩
    (s.drawn.setRelay { sid := x.id, die := die, role := x.role, nonce := nonce }).relayFrame x.id die
      (requestFrame false 0 0 (s.memberNode die) 1 op.bytes)

/-- The members of the view other than the lead. -/
def State.memberDies (s : State) : List Nat := (upTo ((s.unisonView.map Prod.snd).getD []).length).drop 1

/-- Relay sessions for every member that has none, or whose last one could not open: the first valid request of a session opens them
(R626, R628). -/
def State.ensureRelays (x : Session) (s : State) : State :=
  s.memberDies.foldl (fun (s : State) d => match s.relay x.id d with
    | some r => if r.st = 2 then s.relayOpen x d else s
    | none => s.relayOpen x d) s

def State.modJob (sid : Nat) (ext : Int) (f : RelayJob → RelayJob) (s : State) : State :=
  s.modGysol fun g => { g with jobs := g.jobs.map fun j => if j.sid = sid && j.ext = ext then f j else j }

/-- An answer noted for a member, sent by the die `frm`: the member itself, or the lead in its place (R49). -/
def RelayJob.answer (die frm st : Nat) (payload : Bytes) (j : RelayJob) : RelayJob :=
  { j with waits := j.waits.filter fun w => w.1 != die, got := j.got ++ [(frm, st, payload)] }

/-- A job sent to a member through its open relay session, or answered for it where that cannot be. -/
def State.relayJob (die : Nat) (s : State) (j : RelayJob) : State :=
  match s.relay j.sid die with
  | none => s.modJob j.sid j.ext (RelayJob.answer die 0 0x23 [])
  | some r =>
    if r.st = 2 then s.modJob j.sid j.ext (RelayJob.answer die 0 0x23 [])
    else if r.st = 0 then s
    else if 1400 < j.body.length then s.modJob j.sid j.ext (RelayJob.answer die 0 0x1C [])
    else
      let n := r.seq + 1
      let b := withTag r.key n (requestFrame (bit (leAt j.frame 3 1) 4) r.id (n % 65536) (s.memberNode die) j.nops j.body)
      ((s.setRelay { r with seq := n }).modJob j.sid j.ext fun j =>
        { j with waits := j.waits.map fun w => if w.1 = die then (die, n) else w }).relayFrame j.sid die b

/-! ## Answers (R626, R627) -/

/-- The answer to a job that waits for no member. -/
def State.jobAnswer (s : State) (q : GReq) (j : RelayJob) : Bytes :=
  if q.die != 0xFF then
    match j.got.head? with
    | some (die, st, p) => s.replyFrom die q st p
    | none => s.reply q 0x23 []
  else
    let own := ((parseOps q.ops.length j.own).getD []).zip q.ops |>.map fun p => { p.1 with obj := p.2.obj, sub := p.2.sub, count := p.2.count }
    let here := j.got.filterMap fun a => if a.2.1 = 0 then parseOps j.nops a.2.2 else none
    s.reply q 0 ((mergeOps (j.got.any fun a => a.2.1 = 0x23) q.ops own here).map GOp.bytes).flatten

/-- A relayed request answered, and a session that it closes ended (R63, R76). -/
def State.viewAnswer (tr : Transport) (addr : Nat) (q : GReq) (x : Session) (e : Int) (resp : Bytes) (s : State) : State :=
  let s1 := (s.modSession x.id (Session.noteRun e q.crc resp)).gsend tr addr 1 (withTag x.key (tagNum e) resp)
  if closes q.ops.length resp then s1.endSession x.id 0 else s1

/-- Jobs that wait for no member are answered and recorded (R63) (log entry 132, DEDUCED, safe). -/
def State.finishJobs (s : State) : State :=
  (s.gysol.jobs.filter fun j => j.waits.isEmpty).foldl (fun (s : State) j =>
    let s1 := s.modGysol fun g => { g with jobs := g.jobs.filter fun k => !(k.sid = j.sid && k.ext = j.ext) }
    match (readReq j.frame).map fun q => { q with view := true }, s1.session j.sid with
    | some q, some x => s1.viewAnswer j.tr j.addr q x j.ext (s1.jobAnswer q j)
    | some q, none => if j.sid = 0 then s1.gsend j.tr j.addr 1 (s1.jobAnswer q j) else s1
    | none, _ => s1) s

/-- A member's answer to SESSION_OPEN: the relay session is open, or the member is absent (R626). -/
def State.relayOpened (r : Relay) (b : Bytes) (s : State) : State :=
  let op := ((parseOps 1 (b.drop 16)).getD []).head?
  let r' : Relay := match op with
    | some o =>
      if leAt b 14 2 = 0 && o.flags = 0 && o.data.length = 16 then
        let id := leAt o.data 0 2
        let rk := s.gysol.roleKeys.getD (r.role - 1) []
        { r with st := 1, id := id, key := sessionKey rk r.role id r.nonce (Machine.slice o.data 4 8), seq := leAt o.data 12 4 }
      else { r with st := 2 }
    | none => { r with st := 2 }
  let s1 := s.setRelay r'
  (s1.gysol.jobs.filter fun j => j.sid = r.sid && j.waits.any fun w => w.1 = r.die).foldl (fun s j => s.relayJob r.die j) s1

/-- A member's answer to a relayed request. A session that the member no longer has makes it absent until the next request. -/
def State.relayAnswered (r : Relay) (b : Bytes) (s : State) : State :=
  let body := b.take (b.length - 16)
  let due (j : RelayJob) : Bool := j.sid = r.sid && j.waits.any fun w =>
    w.1 = r.die && w.2 % 65536 = leAt b 6 2 && w.2 != 0 && frameTag r.key w.2 body = b.drop (b.length - 16)
  match s.gysol.jobs.find? due with
  | some j => s.modJob j.sid j.ext (RelayJob.answer r.die r.die (leAt b 14 2) (body.drop 16))
  | none =>
    if leAt b 14 2 = 0x23 then
      (s.setRelay { r with st := 2 }).modGysol fun g => { g with jobs := g.jobs.map fun j =>
        if j.sid = r.sid && (j.waits.any fun w => w.1 = r.die) then j.answer r.die r.die 0x23 [] else j }
    else s

/-- A member's push goes on to the host with the identity and the member's die (R627). -/
def State.relayPush (r : Relay) (b : Bytes) (s : State) : State :=
  let body := b.take (b.length - 16)
  let n := (extend r.pushSeq (leAt b 6 2)).toNat
  if frameTag r.key n body != b.drop (b.length - 16) then s
  else match s.session r.sid with
    | none => s
    | some x =>
      let k := x.pushSeq + 1
      ((s.setRelay { r with pushSeq := n }).modSession r.sid fun x => { x with pushSeq := k }).gsend x.transport x.addr 2
        (withTag x.key k (gframe (s.nodeField true) 2 0 r.sid k r.die 1 0 (body.drop 16)))

/-- A member's answer to a request without a session. -/
def State.freeAnswered (die : Nat) (b : Bytes) (s : State) : State :=
  match s.gysol.jobs.find? fun j => j.sid = 0 && j.waits.contains (die, leAt b 6 2) with
  | some j => (s.modJob 0 j.ext (RelayJob.answer die die (leAt b 14 2) (b.drop 16))).finishJobs
  | none => s

/-- A frame from a member to the relay session of die `die` for session `sid`; session 0 is that of requests without one. -/
def State.relayTake (sid die kind : Nat) (b : Bytes) (s : State) : State :=
  if sid = 0 then (if kind = 1 then s.freeAnswered die b else s)
  else match s.relay sid die with
  | none => s
  | some r =>
    if kind = 2 then (if r.st = 1 then s.relayPush r b else s)
    else if r.st = 0 then (s.relayOpened r b).finishJobs
    else (s.relayAnswered r b).finishJobs

/-! ## A request of the view for every member, or for one other than the lead (R627) -/

/-- The operations as die 0 and the members run them: the view's commit is a join under an identifier of the lead's. -/
def viewOps (id : Nat) (ops : List GOp) : List GOp :=
  ops.map fun o => if o.isCommit then { o with obj := 0xB060, data := toLE 4 id } else o

/-- A request without a session for a die from 1 on, which R71 accepts: relayed under a number of the lead's (R627)
(log entry 131, DEDUCED, unsafe). -/
def State.relayFree (tr : Transport) (addr : Nat) (q : GReq) (s : State) : State :=
  let node := s.memberNode q.die
  let body := (q.ops.map GOp.bytes).flatten
  let start := s.free
  let n : Nat := (((upTo (s.gysol.jobs.length + 1)).map fun k => (start + k) % 65535 + 1).find? fun (n : Nat) =>
    !s.gysol.jobs.any fun j => j.sid = 0 && j.ext = (n : Int)).getD 1
  if (s.routeTo node).isNone then s.gsend tr addr 1 (s.reply q 0x23 [])
  else if 1400 < body.length then s.gsend tr addr 1 (s.reply q 0x1C [])
  else (s.drawn.modGysol fun g => { g with
      jobs := g.jobs ++ [⟨0, n, tr, addr, q.body ++ q.tag, q.ops.length, body, [], [(q.die, n)], []⟩] }).relayFrame 0 q.die
    (requestFrame q.atomic 0 n node q.ops.length body)

/-- A request that has passed its session's checks, for die 0xFF or a die from 1 on (log entry 129, DEDUCED, unsafe)
(log entry 130, DEDUCED, unsafe). -/
def State.serveView (tr : Transport) (addr : Nat) (q : GReq) (x : Session) (e : Int) (s : State) : State :=
  let dies := s.memberDies
  let done (s : State) (resp : Bytes) : State := s.viewAnswer tr addr q x e resp
  let commit := q.ops.any GOp.isCommit
  let frame := q.body ++ q.tag
  if s.gysol.jobs.any fun j => j.sid = x.id && j.ext = e then s
  else if q.die != 0xFF then
    if commit then done s (s.reply q 0 (commitAnswer q.ops 0x12))
    else
      let j : RelayJob := ⟨x.id, e, tr, addr, frame, q.ops.length, (q.ops.map GOp.bytes).flatten, [], [(q.die, 0)], []⟩
      ((s.modGysol fun g => { g with jobs := g.jobs ++ [j] }).relayJob q.die j).finishJobs
  else if commit && s.coh.commit.isSome then done s (s.reply q 0 (commitAnswer q.ops 0x17))
  else
    let id := s.free % (2 ^ 32 - 1) + 1
    let ops := if commit then viewOps id q.ops else q.ops
    let (s2, own) := (if commit then s.drawn else s).runRequest ⟨x.id, x.role⟩ (payloadLimit tr) q.atomic ops
    let rs := (parseOps ops.length own).getD []
    let s3 := if (rs.zip ops).any fun p => p.2.obj = 0xB060 && commit && p.1.flags = 0x03 then
        s2.startUnisonCommit id ((s.unisonView.map Prod.snd).getD []) else s2
    let failed := q.atomic && (rs.zip ops).any fun p => atomicFails p.2 p.1.flags
    let shared := ops.filter GOp.shared
    if failed || shared.isEmpty then
      done s3 (s3.jobAnswer q ⟨x.id, e, tr, addr, frame, 0, [], own, [], []⟩)
    else
      let j : RelayJob := ⟨x.id, e, tr, addr, frame, shared.length, (shared.map GOp.bytes).flatten, own, dies.map fun d => (d, 0), []⟩
      let s4 := s3.modGysol fun g => { g with jobs := g.jobs ++ [j] }
      (dies.foldl (fun s d => s.relayJob d j) s4).finishJobs

end Sys2Proof.Machine
end

