-- ==== Sys2Proof/Machine/Serve.lean ====
section
/-! DEFINITION. How a request frame is served: from a host, from the mailbox, from the queue, and on to another node (R49, R56–R58, R62,
R71–R73, R81, R620, R623, R632). -/

namespace Sys2Proof.Machine

/-! ## Serving a request (R49, R56, R62, R71–R73) -/

/-- Whether a die field names this node or a member of the view that it reaches (R49). -/
def State.dieOk (s : State) (q : GReq) : Bool :=
  q.die = 0xFF || (q.view && decide (q.die < ((s.unisonView.map Prod.snd).getD []).length))

/-- A request of a session whose tag is good (R62–R64, R76) (log entry 48, DEDUCED, unsafe). -/
def State.serveSession (tr : Transport) (addr : Nat) (q : GReq) (x : Session) (key : Bytes) (ext : Int) (s : State) : State :=
  let s0 := s.modSession x.id fun x => { x.touch s.now tr addr key with view := q.view }
  let s1 := if q.view then s0.ensureRelays { x with key := key } else s0
  let answer (s : State) (b : Bytes) : State := s.gsend tr addr 1 (withTag key (tagNum ext) b)
  let run (s : State) (resp : Bytes) : State :=
    let s' := answer (s.modSession x.id (Session.noteRun ext q.crc resp)) resp
    if closes q.ops.length resp then s'.endSession x.id 0 else s'
  if (x.last : Int) - 63 ≤ ext && ext ≤ x.last && x.executed.contains ext then
    match x.cache.find? fun p => p.1 = ext with
    | some (_, crc, resp) =>
      if crc = q.crc then answer s1 (setFlags 0x08#8 resp) else answer s1 (s.reply q 0x21 [])
    | none => answer s1 (s.reply q 0x21 [])
  else if ext < (x.last : Int) - 63 then answer s1 (s.reply q 0x20 [])
  else if !s.dieOk q then answer s1 (s.reply q 0x26 [])
  else if q.view && (q.die = 0xFF || q.die != 0) then
    (s1.modSession x.id fun x => { x with last := raiseLast x.last ext }).serveView tr addr q { x with key := key } ext
  else if q.view && q.ops.any GOp.isCommit then run s1 (s.reply q 0 (commitAnswer q.ops 0x12))
  else
    let s2 := s1.modSession x.id fun x => { x with last := raiseLast x.last ext }
    let (s3, payload) := s2.runRequest ⟨x.id, x.role⟩ (payloadLimit tr) q.atomic q.ops
    run s3 (s.reply q 0 payload)

/-- A request with SESSION_OPEN (R53, R71, R72). -/
def State.serveOpen (tr : Transport) (addr : Nat) (q : GReq) (s : State) : State :=
  if q.tagged || q.sid != 0 then s.authDrop tr
  else if !s.dieOk q then s.gsend tr addr 1 (s.reply q 0x26 [])
  else match q.ops with
    | [o] =>
      let (s1, fst, st, data) := s.sessionOpen tr addr o
      s1.gsend tr addr 1 (s.reply q fst (o.response st data))
    | os =>
      if os.all GOp.free then
        s.gsend tr addr 1 (s.reply q 0 ((os.map fun o => o.response (if o.code = 0x10 then 0x14 else 0x1A) []).flatten))
      else s.gsend tr addr 1 (s.reply q 0x23 [])

/-- A request from UDP, SPI or in band, for this node (R51, R71, R73, R632). One in a session to node 0xFFFF, which R71 does not
accept, answers NO_SESSION (log entry 158, DEDUCED, unsafe). -/
def State.serveHost (tr : Transport) (addr : Nat) (q0 : GReq) (s : State) : State :=
  let q := { q0 with view := (tr = .udp || tr = .spi) && s.unisonView.any fun u => q0.node = 0 || q0.node = u.1 }
  let say (st : Nat) : State := s.gsend tr addr 1 (s.reply q st [])
  if q.version != 1 then say 0x25
  else if payloadLimit tr < q.len then say 0x1C
  else if q.ops.any fun o => o.code = 0x10 then s.serveOpen tr addr q
  else if !q.tagged && q.sid != 0 || (q.tagged && q.sid = 0) then s.authDrop tr
  else if q.sid = 0 then
    if !(q.ops.all GOp.free) then say 0x23
    else if !s.dieOk q then say 0x26
    else if q.view && q.die != 0xFF && q.die != 0 then s.relayFree tr addr q
    else
      let (s1, payload) := s.runRequest ⟨0, 0⟩ (payloadLimit tr) q.atomic q.ops
      s1.gsend tr addr 1 (s.reply q 0 payload)
  else match s.session q.sid with
    | none => say 0x23
    | some x =>
      let ext := extend x.last q.seq
      let good (k : Bytes) : Bool := frameTag k (tagNum ext) q.body = q.tag
      let serve (k : Bytes) : State := if q.node = 0xFFFF then say 0x23 else s.serveSession tr addr q x k ext
      match x.newKey with
      | some k => if good k then serve k else if good x.key then serve x.key else s.authDrop tr
      | none => if good x.key then serve x.key else s.authDrop tr

/-! ## The JTAG mailbox (R620, R623) -/

/-- Objects of the MEWS that stay readable in MEWS state (R553, R623). -/
def mewsReadable (obj : Nat) : Bool :=
  decide (obj ≤ 4) || [0x2011, 0x2012, 0x0010, 0x0015, 0x0017, 0x0018, 0x0019, 0x0020, 0x0021, 0x0022, 0x0023, 0x0052, 0x0053].contains obj

/-- Whether an operation is served through the mailbox in the present state (R623). -/
def State.mailboxServes (s : State) (o : GOp) : Bool :=
  if s.mews.dev = .mews then (o.code = 0x01 && mewsReadable o.obj) || o.code = 0x06
  else if s.firm.running then true
  else (o.code = 0x01 && (decide (o.obj ≤ 4) || o.obj = 0x2070 || o.obj = 0x2072)) || (o.code = 0x05 && o.obj = 0x2071)

/-- A request of the mailbox: SERVICE rights, no session, no tag, no replay cache (R620) (log entry 58, DEDUCED, unsafe). -/
def State.serveMailbox (q : GReq) (s : State) : State :=
  let say (s : State) (st : Nat) (p : Bytes) : State := s.gsend .jtag 0 1 (s.reply q st p)
  if q.version != 1 then say s 0x25 []
  else if 4080 < q.len then say s 0x1C []
  else if !s.dieOk q then say s 0x26 []
  else if q.ops.any fun o => o.code = 0x10 || o.code = 0x11 then say s 0x23 []
  else if q.ops.all s.mailboxServes then
    let (s1, p) := s.runRequest ⟨0xFFFF, 3⟩ 4080 q.atomic q.ops
    say s1 0 p
  else
    let r := q.ops.foldl (fun (acc : State × Bytes) o =>
      if s.mailboxServes o && !q.atomic then
        let (s1, st, data) := acc.1.opExec ⟨0xFFFF, 3⟩ o
        (s1, acc.2 ++ o.response st data)
      else (acc.1, acc.2 ++ o.response (if s.mailboxServes o then 0x1A else 0x12) [])) (s, [])
    say r.1 0 r.2

/-! ## The queue (R56–R58) -/

/-- Whether an atomic request must wait for the boundary that is less than 20 µs ahead (R57) (log entry 57, DEDUCED, safe). -/
def State.atomicWaits (s : State) (b : Bytes) : Bool :=
  bit (leAt b 3 1) 4 && s.seqr.status != 0 && decide (s.tF (s.seqr.count + 1) < (s.wall : Int) + 20000) &&
    decide ((s.wall : Int) ≤ s.tF (s.seqr.count + 1))

/-- One frame served, or dropped as malformed (R632) (log entry 50, DEDUCED, unsafe). -/
def State.serveFrame (f : QFrame) (s : State) : State :=
  match readReq f.bytes with
  | none => s.modGysol fun g => { g with rxMalformed := (g.rxMalformed + 1) % 2 ^ 32 }
  | some q => if f.tr = .jtag then s.serveMailbox q else s.serveHost f.tr f.addr q

/-- Frames served in the order they arrived, at most `n` (R56). None is served while the firmware restarts (R524). -/
def State.pumpFrames : Nat → State → State
  | 0, s => s
  | n + 1, s =>
    match s.gysol.queue with
    | [] => s
    | f :: fs =>
      if s.now < s.firm.restartUntil || s.atomicWaits f.bytes then s
      else State.pumpFrames n ((s.modGysol fun g => { g with queue := fs }).serveFrame f)

/-- Every frame of the queue that can be served now. -/
def State.pump (s : State) : State := s.pumpFrames 32

/-- A frame put into the queue, dropped where it is full (R58). -/
def State.enqueue (f : QFrame) (s : State) : State :=
  if 32 ≤ s.gysol.queue.length then s.modGysol fun g => { g with rxDropped := (g.rxDropped + 1) % 2 ^ 32 }
  else s.modGysol fun g => { g with queue := g.queue ++ [f] }

/-- A whole request frame reaches MGMT (R56, R58, R80, R81). A request for another node goes on as a management frame. -/
def State.request (tr : Transport) (addr : Nat) (b : Bytes) (wait : Bool) (s : State) : State :=
  if tr != .jtag && !s.firm.running then s
  else
    let go (s : State) : State := let s1 := s.enqueue ⟨tr, addr, b⟩; if wait then s1 else s1.pump
    let other := leAt b 8 2
    if (tr = .udp || tr = .spi) && (readReq b).isSome && other != 0 && other != s.uane.node &&
        !(s.unisonView.any fun u => u.1 = other) then
      if other != 0xFFFF && 1400 < leAt b 12 2 then
        match readReq b with
        | some q => s.gsend tr addr 1 (s.reply q 0x1C [])
        | none => s
      else
        let (tag, s1) := s.gwTag tr addr
        let s2 := s1.uaneSend 0x30 other 0 (toLE 2 tag ++ [0]) b
        if other = 0xFFFF then go s2 else s2
    else go s

end Sys2Proof.Machine
end

