-- ==== Sys2Proof/Machine/Fabric.lean ====
section
/-! DEFINITION. What Uane frames do where they arrive, ports and lanes, topology and wall time, and the rows of wall coherence that
frames and time drive (R416–R443, R447–R464). -/

namespace Sys2Proof.Machine

/-- A free integer within ± `n`. -/
def State.freeWithin (s : State) (n : Nat) : Int := ((s.free % (2 * n + 1) : Nat) : Int) - n

/-! ## Hello and lanes (R426–R429) -/

/-- The spare takes over from a transmit lane that the far end no longer has locked, where it can (R429). -/
def State.uaneLostLanes (n : Nat) (s : State) : State :=
  let p := s.uport n
  match (upTo 4).find? fun k => !bit p.farLocks (natAt p.laneMap k) with
  | some k => if bit p.farLocks (natAt p.laneMap 4) then s.uaneSwapStart n k 2 else s
  | none => s

/-- What a HELLO says of swaps: the far end's alignment fixes N, at least 2 µs after the next HELLO and otherwise left to the sender,
so that it is free; the far end's own swap is noted (R428, R429) (log entry 170, DEDUCED, unsafe). -/
def State.uaneHelloSwaps (n : Nat) (p : Bytes) (s : State) : State :=
  let fl := leAt p 3 1
  let s1 := if bit fl 0 && (s.uport n).swap.any fun w => w.n.isNone then
      s.drawn.modUport n fun q => { q with
        swap := q.swap.map fun w => { w with n := some (codewordAt (s.now + 4000) + 1 + s.free % 2 ^ 23) } }
    else s
  if bit fl 1 && (s1.uport n).rxSwap.isNone then s1.modUport n fun q => { q with
      rxSwap := some ⟨leAt p 4 1 / 16, leAt p 4 1 % 16, 0, some (leAt p 5 3)⟩ }
  else s1

/-- An intact HELLO on a port (R427, R428). -/
def State.takeHello (n : Nat) (p : Bytes) (s : State) : State :=
  let src := leAt p 0 2
  let note (q : UPort) : UPort := { q with lastHello := s.now, farLocks := fld (leAt p 8 4) 4 0, farAligned := bit (leAt p 3 1) 0 }
  if s.obs (wUane n) = 1 then
    let run := if (s.uport n).neighbour = src then (s.uport n).helloRun + 1 else 1
    let s1 := s.modUport n fun q => { note q with neighbour := src, helloRun := run }
    if 8 ≤ run then s1.uaneUp n else s1
  else if s.portUp n then
    if (s.uport n).neighbour != src then s.uaneDown n 3
    else ((s.modUport n note).uaneHelloSwaps n p).uaneLostLanes n
  else s

/-- The payload of a HELLO (R428). `aligned` is whether the receiver has a DUP lane aligned. -/
def State.helloPayload (s : State) (n : Nat) (aligned : Bool) : Bytes :=
  let p := s.uport n
  let sw : Nat × Nat := match p.swap with
    | some w => match w.n with
      | some c => (w.logical * 16 + w.phys, c)
      | none => (0, 0)
    | none => (0, 0)
  let has := p.swap.any fun w => w.n.isSome
  toLE 2 s.uane.node ++ toLE 1 n ++ toLE 1 (b2n aligned + 2 * b2n has) ++ toLE 1 sw.1 ++ toLE 3 (sw.2 % 2 ^ 24) ++ toLE 4 p.locks

/-! ## Wall time (R433–R436) -/

/-- The offset `o` of a node from what it follows, applied to its counter: a step above 1 µs while `steps` allows it, otherwise a
phase move within what the frame period still allows and a trim within ±200 ppm. The gains of the PI loop are stated nowhere: both
are free within their bounds (R434) (log entry 108, DESIGN CHOICE, safe). -/
def State.discipline (steps : Bool) (o : Int) (s : State) : State :=
  if steps && decide (1000 < o.natAbs) then (s.stepWall (-o)).startRephase 1
  else
    let c := s.freeWithin s.seqr.slewLeft
    let s1 := (s.drawn.modWallOff (· + c)).modSeqr fun q => { q with slewLeft := q.slewLeft - c.natAbs }
    let tr := s1.freeWithin 200000000
    s1.drawn.modWallTrim fun _ => tr

/-- The runs of exchanges that enter and leave LOCKED (R434). -/
def State.judgeLock (o : Int) (s : State) : State :=
  let good := if o.natAbs ≤ 20 then s.uane.lockRun + 1 else 0
  let bad := if 50 < o.natAbs then s.uane.badRun + 1 else 0
  let s1 := s.modUane fun u => { u with lockRun := good, badRun := bad }
  if s1.uane.timeState = 2 && decide (16 ≤ good) then s1.setTimeState 3
  else if s1.uane.timeState = 3 && decide (16 ≤ bad) then s1.setTimeState 2
  else s1

/-- A TIME frame on a port; `tenths` are the tenths of a ns of its arrival stamp (R433, R434). -/
def State.takeTime (n tenths : Nat) (b : Bytes) (s : State) : State :=
  let b2 := leAt b 0 8
  let a1 := leAt b 8 8
  let b1 := leAt b 16 8
  let a2 : Int := 10 * (s.wall : Int) + (tenths % 10 : Nat)
  let p := s.uport n
  let s1 := s.modUport n fun p => { p with lastTx := b2, lastRx := s.wall, skip := p.skip - 1 }
  if a1 = 0 || p.skip != 0 then s1
  else
    let d := divAway ((a2 - 10 * a1) - (10 * b2 - 10 * b1)) 2
    let ds := (p.delays ++ [d]).drop (p.delays.length + 1 - 16)
    let s2 := s1.modUport n fun p => { p with delays := ds }
    if s.uane.parent != n then s2
    else
      let o := divAway (a2 - 10 * b2 - divAway (sumI ds id) ds.length) 10
      let s3 := s2.modUane fun u => { u with offset := o }
      let st := s3.uane.timeState
      if st = 2 || st = 3 then (s3.discipline (st = 2) o).judgeLock o else s3

/-- The payload of a TIME frame (R433). -/
def State.timePayload (s : State) (n : Nat) : Bytes :=
  let p := s.uport n
  toLE 8 s.wall ++ toLE 8 p.lastTx ++ toLE 8 p.lastRx ++ toLE 1 s.uane.timeState ++ toLE 1 s.uane.depth ++ toLE 2 s.uane.master


/-- Whether one Announce ranks better than another: the data sets compared value by value, then by steps removed and sender
(log entry 109, PRESUMED, unsafe). -/
def annBetter (a b : PtpAnnounce) : Bool := lex (a.rank ++ [a.steps, a.sender]) (b.rank ++ [b.steps, b.sender])
where
  lex : List Nat → List Nat → Bool
    | x :: xs, y :: ys => if x = y then lex xs ys else decide (x < y)
    | _, _ => false

/-- An offset from the PTP master, measured by a whole exchange (R436). The time master of the wall applies it. -/
def State.ptpMeasure (t4 : Nat) (s : State) : State :=
  match s.uane.ptp.t3 with
  | none => s
  | some t3 =>
    let q := s.uane.ptp
    let o := divAway (((q.t2 : Int) - q.t1) - ((t4 : Int) - t3)) 2
    let s1 := (s.modUane fun u => { u with ptpOffset := o, ptp := { u.ptp with t3 := none } }).setPtp 3
    if s1.uane.timeState != 1 then s1
    else (s1.discipline (!s1.uane.ptpStepped) o).modUane fun u => { u with ptpStepped := true }

/-- A PTP message (R436). A Sync's Follow_Up gives its origin time, and a Delay_Req goes out. -/
def State.takePtp (m : PtpMsg) (s : State) : State :=
  let mine (dom sender : Nat) : Bool := dom = s.num 0xF031 && s.uane.ptp.best.any fun b => b.sender = sender
  match m with
  | .announce a =>
    if a.domain != s.num 0xF031 then s
    else if s.uane.ptp.best.all fun b => b.sender = a.sender || annBetter a b then
      let gm := a.rank.getLast?.getD 0
      let same := s.uane.ptp.best.any fun b => b.sender = a.sender
      let s1 := s.modUane fun u => { u with ptpGm := gm, ptp := { (if same then u.ptp else {}) with best := some a } }
      if same then s1 else s1.setPtp 2
    else s
  | .sync d sender n =>
    if mine d sender then s.modUane fun u => { u with ptp := { u.ptp with syncSeq := some n, t2 := s.wall, t3 := none } } else s
  | .followUp d sender n origin =>
    if mine d sender && s.uane.ptp.syncSeq = some n then
      (s.modUane fun u => { u with ptp := { u.ptp with t1 := origin, t3 := some s.wall, syncSeq := none } }).emit .ptpDelayReq
    else s
  | .delayResp d sender received => if mine d sender then s.ptpMeasure received else s

/-! ## Management in band (R443) -/

/-- A management frame for this node: a request to serve, or a response or push for one of its endpoints. -/
def State.takeMgmt (port src : Nat) (spec payload : Bytes) (s : State) : State :=
  let tag := leAt spec 0 2
  let kind := leAt spec 2 1
  let b := trimFrame payload 30
  if kind = 0 then
    (if s.unisonGroup.any fun u => u.1 = leAt b 8 2 then s else s.request .inBand (src * 65536 + tag) b false)
  else match s.liveTags.find? fun g => g.tag = tag with
    | some g =>
      let s1 := s.modUane fun u => { u with tags := u.tags.map fun h => if h.tag = tag then { h with used := s.now } else h }
      if g.tr = .inBand then s1.relayTake (g.addr / 8) (g.addr % 8) kind b else s1.gsend g.tr g.addr kind b
    | none => s.modUport port fun p => { p with drops := modAt p.drops 3 fun d => sat 65535 (d + 1) }

/-! ## Pixel transit (R438–R441) -/

/-- Pixels of a payload: six per flit, 40 bits each. -/
def flitPixels (count : Nat) (b : Bytes) : List Nat := (upTo count).map fun i => leAt b (30 * (i / 6) + 5 * (i % 6)) 5 % 2 ^ 36

/-- A payload of pixels. -/
def pixelFlits (px : List Nat) : Bytes := fit (30 * divCeil px.length 6) ((px.map fun v => toLE 5 v).flatten)

/-- The layer that a stream feeds here. -/
def State.rxLayerOf (s : State) (src stream : Nat) : Option Nat :=
  (upTo 8).find? fun n => let r := s.num 0xF042 n; fld r 7 0 = 1 && fld r 31 16 = src && fld r 15 8 = stream

def State.rxLayer (s : State) (n : Nat) : RxLayer := s.uane.rx.getD n {}
def State.modRx (n : Nat) (f : RxLayer → RxLayer) (s : State) : State := s.modUane fun u => { u with rx := modAt u.rx n f }

/-- The version that a frame names becomes the one being written, if it is newer: it takes a buffer (R97, R440). -/
def State.transitStart (n ver : Nat) (s : State) : State :=
  let r := s.rxLayer n
  if ver = 0 || (r.newest != 0 && !newer ver r.newest) then s
  else
    let s1 := if (s.vlayer n).writing.isSome then
        (s.discardWriting n).modLayer n fun l => { l with drops := (l.drops + 1) % 2 ^ 32 } else s
    let s2 := if (s1.vlayer n).nextBuf.isNone then s1.takeNext n else s1
    let s3 := s2.modRx n fun x => { x with newest := ver, pixels := [], lostLines := 0, ended := false, lastAt := s.now }
    match (s3.vlayer n).nextBuf with
    | none => s3.dropFrame 1 n
    | some b =>
      let z := s.num 0xF043 n
      s3.modLayer n fun l => { l with
        nextBuf := none, writing := some { num := ver, capture := 0, buf := b, width := fld z 31 16, rows := fld z 15 0 } }

/-- A PIXEL segment for a layer of this node (R440) (log entry 111, DEDUCED, unsafe) (log entry 112, DEDUCED, unsafe). -/
def State.takePixel (src : Nat) (spec payload : Bytes) (s : State) : State :=
  match s.rxLayerOf src (leAt spec 0 1) with
  | none => s
  | some n =>
    let ver := leAt spec 2 4
    let y := leAt spec 6 2
    let x := leAt spec 8 2
    let count := leAt spec 10 2
    let s1 := if ((s.vlayer n).writing.map Writing.num) = some ver then s else s.transitStart n ver
    match (s1.vlayer n).writing with
    | none => s1
    | some w =>
      if w.num != ver || w.rows ≤ y || w.width < x + count then s1
      else
        let s2 := s1.modRx n fun r => { r with lastAt := s.now }
        if bit (leAt spec 1 1) 1 then s2
        else (s2.modHbm fun h => h.putPixels (n + 1) w.buf (epochOfVersion ver) (y * w.width + x) (flitPixels count payload)).modRx n
          fun r => { r with pixels := mapPut r.pixels y ((mapGet r.pixels y).getD 0 + count) }

/-- An END for a layer of this node (R440, R441). -/
def State.takePixelEnd (src : Nat) (spec payload : Bytes) (s : State) : State :=
  match s.rxLayerOf src (leAt spec 0 1) with
  | none => s
  | some n =>
    let ver := leAt spec 2 4
    let s1 := if ((s.vlayer n).writing.map Writing.num) = some ver then s else s.transitStart n ver
    match (s1.vlayer n).writing with
    | none => s1
    | some w =>
      if w.num != ver then s1
      else if bit (leAt spec 1 1) 2 then (s1.discardWriting n).modRx n fun r => { r with ended := true }
      else
        let r := s1.rxLayer n
        let whole (y : Nat) : Bool := !bit r.lostLines y && decide (w.width ≤ (mapGet r.pixels y).getD 0)
        let map := maskOf w.rows whole
        let v : Version :=
          { num := ver, capture := leAt payload 0 8, done := s.now, buf := w.buf, epoch := epochOfVersion ver, colr := leAt payload 12 1
            width := w.width, rows := w.rows, map := map }
        let bad := ((upTo w.rows).filter fun y => !whole y).length
        let s2 := s1.modLayer n fun l => { l with versions := v :: l.versions, writing := none, published := ver }
        let s3 := (s2.modRx n fun r => { r with
            ended := true, capture := v.capture, colr := v.colr, total := leAt payload 8 2
            width := leAt payload 14 2, height := leAt payload 16 2 }).modUane fun u => { u with
              transitLost := modAt u.transitLost n fun c => (c + bad) % 2 ^ 32 }
        let s4 := if bad = 0 then s3 else s3.raise 0xFD n 1
        (s4.versionNotice n).takeAfter n

def State.txStream (s : State) (k : Nat) : TxStream := s.uane.tx.getD k {}
def State.modTx (k : Nat) (f : TxStream → TxStream) (s : State) : State := s.modUane fun u => { u with tx := modAt u.tx k f }

/-- The version that a stream sends next: the one in hand, else the oldest whose END it has not sent (R438)
(log entry 113, DEDUCED, unsafe). -/
def State.streamVersion (s : State) (k : Nat) : Nat :=
  let t := s.txStream k
  let l := s.vlayer (fld (s.num 0xF040 k) 31 24)
  if t.version != 0 then t.version
  else
    let all := (l.versions.map Version.num).reverse ++ (l.writing.map Writing.num).toList
    (all.find? fun v => t.done = 0 || newer v t.done).getD 0

/-- The type-specific fields of a PIXEL frame (R439). -/
def pixelSpec (stream flags ver line x count : Nat) : Bytes :=
  toLE 1 stream ++ toLE 1 flags ++ toLE 4 ver ++ toLE 2 line ++ toLE 2 x ++ toLE 2 count

/-- A line of a stream sent in segments of at most 3,840 pixels; a segment with a poisoned word goes with LOST (R438, R439). -/
def State.sendLine (k line ver buf width : Nat) (s : State) : State :=
  let c := s.num 0xF040 k
  let r := s.num 0xF041 k
  let n := fld c 31 24
  let px (x : Nat) : Nat := (rectY r + line) * width + rectX r + x
  let segs := (upTo (divCeil (rectW r) 3840)).map fun i => (3840 * i, min 3840 (rectW r - 3840 * i))
  let lost (g : Nat × Nat) : Bool :=
    let lo := px g.1 / 7
    let hi := px (g.1 + g.2 - 1) / 7
    (upTo (hi + 1 - lo)).any fun i => s.wordBad n buf (lo + i)
  let s1 := segs.foldl (fun (t : State) g =>
    let l := lost g
    let ps := (upTo g.2).map fun x =>
      if l then 0 else let i := px (g.1 + x); pixelAt (s.hbm.word (wkey (n + 1) buf (i / 7))) (i % 7)
    t.uaneSend 0x20 (fld c 15 0) 0 (pixelSpec (fld c 23 16) (2 * b2n l) ver line g.1 g.2) (pixelFlits ps)) s
  s1.modTx k fun t => { t with version := ver, sent := t.sent + 1, lost := t.lost + b2n (segs.any lost) }

/-- The END of a stream's version, with ABORT where the version was discarded (R438, R439). An aborted version has no capture time and
no colorimetry: both are 0 (log entry 172, DESIGN CHOICE, unsafe). -/
def State.sendEndFrame (k ver : Nat) (v : Option Version) (s : State) : State :=
  let c := s.num 0xF040 k
  let r := s.num 0xF041 k
  let t := s.txStream k
  let pay := toLE 8 ((v.map Version.capture).getD 0) ++ toLE 2 t.sent ++ toLE 2 t.lost ++ toLE 2 ((v.map Version.colr).getD 0) ++
    toLE 2 (rectW r) ++ toLE 2 (rectH r)
  (s.uaneSend 0x20 (fld c 15 0) 0 (pixelSpec (fld c 23 16) (if v.isSome then 1 else 5) ver 0 0 0) (fit 30 pay)).modTx k fun _ =>
    { done := ver }

/-- A stream's next frame: line `line` of its rectangle once HBMC has accepted it, or, from the rectangle's height on, the END of a
version that has completed or has been discarded (R438). -/
def State.streamSend (k line : Nat) (s : State) : State :=
  let n := fld (s.num 0xF040 k) 31 24
  let r := s.num 0xF041 k
  let ver := s.streamVersion k
  if 8 ≤ n || ver = 0 then s
  else
    let l := s.vlayer n
    let v := l.versions.find? fun v => v.num = ver
    let w := l.writing.filter fun w => w.num = ver
    if rectH r ≤ line then (if w.isSome then s else s.sendEndFrame k ver v)
    else match v, w with
      | some v, _ => if bit v.map (rectY r + line) then s.sendLine k line ver v.buf v.width else s
      | none, some w => if bit w.acc (rectY r + line) then s.sendLine k line ver w.buf w.width else s
      | none, none => s

/-! ## What frames do where they arrive -/

/-- Whether a PREPARE or GO names this node: its list does, or is empty (R454). -/
def State.namedIn (s : State) (b : Bytes) : Bool :=
  let n := leAt b 22 2
  n = 0 || (upTo n).any fun k => leAt b (30 + 2 * k) 2 = s.uane.node

/-- A COMMIT frame (R453, R454) (log entry 125, DEDUCED, unsafe). -/
def State.takeCommit (src : Nat) (b : Bytes) (s : State) : State :=
  let id := leAt b 2 4
  match leAt b 0 1 with
  | 1 => if s.namedIn b then s.takePrepare src id else s
  | 2 => s.commitReady src id
  | 3 => if s.coh.commit.any fun c => c.parts.contains src then s.commitRefused id else s
  | 4 => if s.namedIn b then s.takeGo src id (leAt b 10 8) else s
  | 5 => s.commitAck src id
  | 6 => s.takeAbort id
  | _ => s

/-- A SWEEP frame (R465–R468). -/
def State.takeSweep (src : Nat) (b : Bytes) (s : State) : State :=
  match leAt b 0 1 with
  | 1 => let (x, nodes) := readStep src b; s.takeStep x nodes
  | 2 => s.takeResult (readResult src b)
  | 3 => s.takeCollect src (leAt b 2 2)
  | 4 => s.takeEnd (leAt b 2 2)
  | _ => s

/-- A LEASE, with what a new term does to wall commits (R450, R455). -/
def State.lease (b : Bytes) (s : State) : State := (s.takeLease b).newTerm (s.coh.term, s.coh.holder)

/-- A LUMA frame (R462). -/
def State.takeLumaFrame (src : Nat) (b : Bytes) (s : State) : State :=
  if leAt b 0 1 = 0 then (if s.isCoord then s.takeLuma src b else s) else s.takeSet b

/-- A TOPO, and what a node's return means to a sweep's master (R425, R469). -/
def State.topoFrame (src : Nat) (b : Bytes) (s : State) : State :=
  (s.takeTopo src b).sweepReturned (s.uane.routes.map URoute.node)

/-- A frame delivered to this node by its type. -/
def State.deliverFrame (port : Nat) (h : UHdr) (p : Bytes) (s : State) : State :=
  match h.typ with
  | 0x03 => s.topoFrame h.src p
  | 0x10 => if s.isCoord then s.takeReport p else s
  | 0x11 => s.takeAgreement p
  | 0x12 => s.takeCommit h.src p
  | 0x13 => s.lease p
  | 0x14 => s.takeLumaFrame h.src p
  | 0x15 => s.takeSweep h.src p
  | 0x20 => if bit (leAt h.spec 1 1) 0 then s.takePixelEnd h.src h.spec p else s.takePixel h.src h.spec p
  | 0x30 => s.takeMgmt port h.src h.spec p
  | _ => s

/-- A broadcast: delivered and forwarded once. This node drops its own when it returns; a TOPO under its identifier that it has not
sent comes from another node that carries it (R422, R423) (log entry 173, DEDUCED, unsafe). -/
def State.recvBroadcast (port : Nat) (h : UHdr) (b : Bytes) (good : Bool) (s : State) : State :=
  let (fresh, s1) := s.seeBroadcast h.src h.typ h.seq
  if h.src = s.uane.node && h.typ = 3 && good && !s.uane.topoSent.contains (h.seq, uPayload b) then s1.topoFrame h.src (uPayload b)
  else if !fresh then s1
  else
    let s2 := if h.hops + 1 = h.ttl then s1 else s1.uaneFlood (some port) (passOn b h.wrapped)
    if good then s2.deliverFrame port h (uPayload b) else s2

/-- A unicast frame: delivered here, or passed on by its route; wrapped, from one ring port to the other (R422, R430). -/
def State.recvUnicast (port : Nat) (h : UHdr) (b : Bytes) (good : Bool) (s : State) : State :=
  if h.dst = s.uane.node then (if good then s.deliverFrame port h (uPayload b) else s)
  else if h.hops + 1 = h.ttl then s
  else if h.wrapped && s.ringPort port then
    (if s.portUp (ringOther port) then s.uaneOut (ringOther port) ((uClass h.typ).getD 0) true (passOn b true) else s)
  else s.uaneRoute (passOn b h.wrapped)

/-- A link-local frame with its payload good (R422). -/
def State.recvLocal (port tenths : Nat) (h : UHdr) (b : Bytes) (s : State) : State :=
  if h.typ = 1 then s.takeHello port (uPayload b) else if s.portUp port then s.takeTime port tenths (uPayload b) else s

/-- A frame that arrives on a port: framing, header, type, payload, and then what it is (R416–R422). `named` is whether a pointer names
its header, which a receiver without framing waits for (log entry 110, DEDUCED, safe). -/
def State.recvFrame (port tenths : Nat) (named : Bool) (b : Bytes) (s : State) : State :=
  let bad (s : State) : State := s.modUport port fun p => { p with crcErrors := (p.crcErrors + 1) % 2 ^ 32 }
  if !s.uaneOn || s.obs (wUane port) = 0 || ((s.uport port).framingLost && !named) then s
  else
    let s0 := s.modUport port fun p => { p with framingLost := false }
    let h := readUHdr b
    if !uHdrOk b then (bad s0).modUport port fun p => { p with framingLost := true }
    else if (uClass h.typ).isNone then bad s0
    else
      let c := payCheck b
      let s1 := if c = .bad then bad s0 else s0
      let b1 := if c = .bad then stompFrame b else b
      if uLocal h.typ then (if c = .good then s1.recvLocal port tenths h b else
        s1.modUport port fun p => { p with helloRun := 0 })
      else if !s1.portUp port then s1
      else if h.bcast || h.dst = 0xFFFF then s1.recvBroadcast port h b1 (c = .good)
      else s1.recvUnicast port h b1 (c = .good)

/-! ## The rows of ports, topology and time -/

/-- HELLO (R428): `intact` is whether its checks pass; `ser` are the error rates that the far end reports, when it does
(log entry 107, DESIGN CHOICE, safe). -/
def execHello (t port : Nat) (intact : Bool) (payload : Bytes) (ser : List Nat) (s : State) : Host.Outcome State Fault Refusal :=
  let s := s.advance t
  if 4 ≤ port || !s.uaneOn then .next s
  else if !intact then .next (s.modUport port fun p => { p with helloRun := 0 })
  else
    let s1 := if ser.length = 5 then s.modUport port fun p => { p with ser := ser.map (min · (2 ^ 32 - 1)) } else s
    .next (s1.takeHello port payload)

/-- HELLO_SEND (R428): `aligned` names, bit per port, the ports whose receiver has a DUP lane aligned. -/
def execHelloSend (t aligned : Nat) (s : State) : Host.Outcome State Fault Refusal :=
  .next ((upTo 4).foldl (fun (s : State) n =>
    if s.obs (wUane n) = 0 then s else s.uaneSend 0x01 0xFFFF n [] (s.helloPayload n (bit aligned n))) (s.advance t))

/-- HELLO_TIMEOUT (R428). -/
def execHelloTimeout (t port : Nat) (s : State) : Host.Outcome State Fault Refusal :=
  let s := s.advance t
  if s.portUp port && decide ((s.uport port).lastHello + 10000 ≤ s.now) then .next (s.uaneDown port 2) else .next s

/-- UANE_LOCK_LOST (R428): a receive lane has lost lock; 2 µs later, not restored by a swap, the port goes DOWN
(log entry 115, DEDUCED, safe). -/
def execUaneLockLost (t port lane : Nat) (s : State) : Host.Outcome State Fault Refusal :=
  let s := s.advance t
  let p := s.uport port
  if 4 ≤ port then .next s
  else
    let s1 := s.modUport port fun p => { p with locks := setBit p.locks lane false }
    if !(s.portUp port && (p.rxMap.take 4).contains lane) then .next s1
    else match p.lostAt with
      | none => .next (s1.modUport port fun p => { p with lostAt := some s.now })
      | some e => if e + 2000 ≤ s.now then .next (s1.uaneDown port 1) else .next s1

/-- UANE_PORT_TRAINING (R427): training starts, or is tried again; with `locked`, every lane is locked and deskewed, and lanes 0 to 3
go to DATA. -/
def execUanePortTraining (t port : Nat) (locked : Bool) (s : State) : Host.Outcome State Fault Refusal :=
  let s := s.advance t
  if 4 ≤ port then .next s
  else if locked then
    if s.obs (wUane port) = 1 then
      .next (s.uaneLocked port)
    else .next s
  else .next (s.uaneRetrain port)

/-- UANE_TRAINING_TIMEOUT (R427). -/
def execUaneTrainingTimeout (t port : Nat) (s : State) : Host.Outcome State Fault Refusal :=
  let s := s.advance t
  if s.obs (wUane port) = 1 && decide ((s.uport port).trainSince + 50000000 ≤ s.now) then .next (s.uaneDown port 4) else .next s

/-- UANE_LANE_SWAP (R429): codeword N at the sending end, which completes a swap of MEWS, or at the receiving end. -/
def execUaneLaneSwap (t port : Nat) (sending : Bool) (s : State) : Host.Outcome State Fault Refusal :=
  let s := s.advance t
  if !sending then .next (s.uaneSwapTaken port)
  else match (s.uport port).swap with
    | none => .next s
    | some w =>
      let res := port * 16 + natAt (s.uport port).laneMap w.logical
      let s1 := s.uaneSwapSent port
      if s.uaneSwapDue w && s.therm.swaps.any fun x => x.1 = 0xF && x.2.1 = res then .next ((s1.swapDone 0xF res).pumpSwaps)
      else .next s1

/-- UANE_FRAMING_LOST (R416): an uncorrectable codeword on a port. -/
def execUaneFramingLost (t port : Nat) (s : State) : Host.Outcome State Fault Refusal :=
  .next ((s.advance t).modUport port fun p => { p with framingLost := true })

/-- UANE_FRAME_FORWARD (R422): a whole frame arrives on a port. -/
def execUaneFrameForward (t port : Nat) (frame : Bytes) (tenths : Nat) (named : Bool) (s : State) : Host.Outcome State Fault Refusal :=
  let s := s.advance t
  if 4 ≤ port then .next s else .next (s.uaneFlush.recvFrame port tenths named frame)

/-- TOPO (R425): the payload of a TOPO frame of another node. -/
def execTopo (t src : Nat) (payload : Bytes) (s : State) : Host.Outcome State Fault Refusal :=
  let s := s.advance t
  if s.uaneOn then .next (s.topoFrame src payload) else .next s

/-- TOPO_SEND (R425): every 1 ms, or on a change of a port's state, which also changes this node's routes. -/
def execTopoSend (t : Nat) (s : State) : Host.Outcome State Fault Refusal :=
  let s := s.advance t
  let s1 := s.uaneSend 0x03 0xFFFF 0 [] s.topoPayload
  if !s.uaneOn then .next s
  else .next ((if s.routesStale then s1.recompute else s1.updateMaster).sweepReturned (s.uane.routes.map URoute.node))

/-- TOPO_STALE (R423, R425): nodes without a TOPO for 3 ms are unreachable; a duplicate that is gone ends its hold. -/
def execTopoStale (t : Nat) (s : State) : Host.Outcome State Fault Refusal :=
  let s := s.advance t
  let s1 := s.modUane fun u => { u with topo := s.freshTopo, dupAt := u.dupAt.filter fun e => decide (s.now < e + 3000000) }
  .next (if s1.uaneOn && s1.routesStale then s1.recompute else s1)

/-- UANE_TIME (R433): a TIME frame on a port. -/
def execUaneTime (t port : Nat) (payload : Bytes) (tenths : Nat) (s : State) : Host.Outcome State Fault Refusal :=
  let s := s.advance t
  if s.uaneOn && s.portUp port then .next (s.takeTime port tenths payload) else .next s

/-- TIME_SEND (R433). -/
def execTimeSend (t : Nat) (s : State) : Host.Outcome State Fault Refusal :=
  .next ((upTo 4).foldl (fun (s : State) n => if s.portUp n then s.uaneSend 0x02 0xFFFF n [] (s.timePayload n) else s) (s.advance t))

/-- PTP_MESSAGE (R436). With the mode OFF nothing is heard. -/
def execPtpMessage (t : Nat) (msg : PtpMsg) (s : State) : Host.Outcome State Fault Refusal :=
  let s := s.advance t
  if s.num 0xF030 = 0 then .next s else .next (s.takePtp msg)

/-- PPS_EDGE (R437): it rises within ±5 ns of a whole second of wall time, and falls 100 µs later. -/
def execPpsEdge (t : Nat) (rises : Bool) (s : State) : Host.Outcome State Fault Refusal :=
  let s := s.advance t
  let near (w : Nat) : Bool := decide ((w + 5) % 1000000000 ≤ 10)
  if (if rises then s.flag 0xF028 && near s.wall else near (s.wall + 999900000)) then .next (s.emit (.pin .timePps (some rises)))
  else .next s

/-- PIXEL (R440). -/
def execPixel (t src : Nat) (spec payload : Bytes) (s : State) : Host.Outcome State Fault Refusal :=
  .next ((s.advance t).takePixel src spec payload)

/-- PIXEL_END (R440). -/
def execPixelEnd (t src : Nat) (spec payload : Bytes) (s : State) : Host.Outcome State Fault Refusal :=
  .next ((s.advance t).takePixelEnd src spec payload)

/-- TRANSIT_LINE_SEND (R438). -/
def execTransitLineSend (t stream line : Nat) (s : State) : Host.Outcome State Fault Refusal :=
  .next ((s.advance t).streamSend stream line)

/-- TRANSIT_END_TIMEOUT (R440): no END within 50 ms of the last frame of the version being written. -/
def execTransitEndTimeout (t layer : Nat) (s : State) : Host.Outcome State Fault Refusal :=
  let s := s.advance t
  if transitFed s.live layer && (s.vlayer layer).writing.isSome && decide ((s.rxLayer layer).lastAt + 50000000 ≤ s.now) then
    .next (((s.discardWriting layer).modRx layer fun r => { r with ended := true }).raise 0xFD layer 2)
  else .next s

/-- MGMT (R443). -/
def execMgmt (t port src : Nat) (spec payload : Bytes) (s : State) : Host.Outcome State Fault Refusal :=
  .next ((s.advance t).takeMgmt port src spec payload)

/-! ## The rows of wall coherence -/

/-- VOTE_REPORT (R460): at the coordinator. -/
def execVoteReport (t : Nat) (report : Bytes) (s : State) : Host.Outcome State Fault Refusal :=
  let s := s.advance t
  if s.isCoord then .next (s.takeReport report) else .next s

/-- AGREEMENT (R190). -/
def execAgreement (t : Nat) (agreement : Bytes) (s : State) : Host.Outcome State Fault Refusal :=
  .next ((s.advance t).takeAgreement agreement)

/-- The frame whose A(F) has come last: the largest F with t(F−1) − L_v in the past (R459). -/
def State.issueFrame (s : State) : Nat :=
  let w : Int := (s.wall : Int) + s.num 0xB067 * 1000
  let c := s.countAt w
  if s.tF c ≤ w then c + 1 else c

/-- AGREEMENT_ISSUE (R459): A(F) at the coordinator, once per frame. -/
def execAgreementIssue (t : Nat) (s : State) : Host.Outcome State Fault Refusal :=
  let s := s.advance t
  let f := s.issueFrame
  if !s.isCoord || s.seqr.status = 0 || (s.coh.issued.any fun p => leAt p.2 4 4 = low32 f) then .next s
  else .next (s.issueAgreements f)

/-- AGREEMENT_REPEAT (R459): 50 µs after A(F). -/
def execAgreementRepeat (t : Nat) (s : State) : Host.Outcome State Fault Refusal :=
  let s := s.advance t
  if s.isCoord then .next (s.repeatAgreements s.issueFrame) else .next s

/-- LEASE (R449–R451). -/
def execLease (t : Nat) (lease : Bytes) (s : State) : Host.Outcome State Fault Refusal := .next ((s.advance t).lease lease)

/-- LEASE_EXPIRY (R449): at a boundary, this node takes the role when its turn has come. -/
def execLeaseExpiry (t : Nat) (s : State) : Host.Outcome State Fault Refusal :=
  let s := s.advance t
  if s.coordEligible && !s.isCoord && s.turnToLead then
    .next ((s.takeRole.newTerm (s.coh.term, s.coh.holder)).checkTable s.tableCrc).sendReports
  else .next s

/-- LUMA_REPORT (R463): at the coordinator. -/
def execLumaReport (t node : Nat) (report : Bytes) (s : State) : Host.Outcome State Fault Refusal :=
  let s := s.advance t
  if s.isCoord then .next (s.takeLuma node report) else .next s

/-- LUMA_SET (R464). -/
def execLumaSet (t : Nat) (set : Bytes) (s : State) : Host.Outcome State Fault Refusal := .next ((s.advance t).takeSet set)

/-- LUMA_SET_REPEAT (R464): the latest SET again, 64 frames after it was last sent (log entry 114, DEDUCED, safe). -/
def execLumaSetRepeat (t : Nat) (s : State) : Host.Outcome State Fault Refusal :=
  let s := s.advance t
  match s.coh.lastSet with
  | some x =>
    if s.isCoord && decide (64 ≤ s.coh.setAge) then
      let b := toLE 1 1 ++ toLE 1 0 ++ toLE 2 x.target ++ toLE 2 x.rate ++ toLE 4 s.coh.term ++ toLE 8 x.g
      .next (((s.modCoh fun w => { w with setAge := 0 }).uaneSend 0x14 0xFFFF 0 [] b).takeSet b)
    else .next s
  | none => .next s

end Sys2Proof.Machine
end

