-- ==== Sys2Proof/Machine/Boundary.lean ====
section
/-! DEFINITION. The frame boundary: what each part of the die does at B(F) (R13, R164, R165, R218, R234, R246, R253–R255), and the rows
of versions, signatures and memory requests that no other file holds. -/

namespace Sys2Proof.Machine

/-! ## Composition and planes (R13, R216–R218, R246, R262) -/

/-- What the set off the mirrors holds of a plane once PLGN has written a frame: the planes of dropped codes are not written (R215). -/
def keptPlanes (d : Nat) (old new : List (List Nat)) : List (List Nat) :=
  (new.zip (upTo new.length)).map fun p => if p.2 % 12 < d then old.getD p.2 [] else p.1

/-- The planes of frame `f` go on the mirrors: the other set of the store, or the same one for a quiet frame (R216, R218). PLGN's
writes into that set all count here (log entry 120, DEDUCED, safe). -/
def State.putPlanes (f : Nat) (s : State) : State :=
  (upTo 4).foldl (fun (t : State) ap =>
    if s.makesPlanes f ap then
      let p := s.slice ap
      t.modPlArray ap fun a => { a with
        planes := keptPlanes (t.plgroup (portGroup t.live ap)).d a.other p.1, other := a.planes
        hist := p.2, missing := a.missingNext, missingNext := [], set1 := !a.set1 }
    else t.modPlArray ap fun a => { a with missing := a.missing ++ a.missingNext, missingNext := [] }) s

/-- The count of out-of-gamut pixels of the frame that goes on the mirrors, for every group that is not quiet (R205). -/
def State.putClips (s : State) : State :=
  (existingGroups s.live).foldl (fun (t : State) g =>
    if (s.plaz.groups.getD g {}).quiet then t else t.clipReport g (s.clipCount g)) s

/-- How long before the next boundary the closing gap of a frame of period `p` applies the next level (R222). -/
def closingLead (t : Timing) (p : Nat) (es : List SchedEpoch) : Nat :=
  match es.getLast? with
  | none => 0
  | some e => (slackOf t p es + (if e.pip then 0 else t.x)).toNat

/-- A group's schedule for frame `f` starts, or the safe schedule where none has come (R234, R248). `period` is that of the frame
that ends. -/
def State.putSchedule (f period : Nat) (s : State) (g : Nat) : State :=
  if !groupExists s.live g || s.drains g f then s.modPlGroup g fun q => { q with sched := none, next := none, darkSlots := [] }
  else
    let old := s.plgroup g
    let lead := match old.sched with
      | some h => closingLead h.timing period h.epochs
      | none => 0
    let s1 := if (old.next.map Sched.frame) = some f then s else s.fallback g f 1
    let runs := (s1.plgroup g).next.filter fun h => h.frame = f
    let s2 := match runs with
      | some h => s1.runsSched g h
      | none => s1
    (s2.modPlGroup g fun q => { q with sched := runs, next := none, darkSlots := [], slotNow := 0 }).modLoop fun l =>
      { l with closeLead := setAt l.closeLead g lead }

/-- The matrix of the frame that goes on the mirrors (R208). -/
def State.putMatrix (s : State) (g : Nat) : State := s.modCGroup g fun c => { c with mirM := c.m, mirFrame := c.mFrame, mirN := c.n.isSome }

/-- What the frame being composed brings to the mirrors, where one was composed. -/
def State.putFrame (f period : Nat) (s : State) : State :=
  let gs := upTo 4
  gs.foldl State.putMatrix (gs.foldl (State.putSchedule f period) (s.putPlanes f).putClips)

/-- Where nothing flips, no schedule runs (R246). -/
def State.putNothing (s : State) : State :=
  s.modPlgn fun p => { p with groups := p.groups.map fun g => { g with sched := none, next := none, darkSlots := [] } }

/-! ## The count and the flip (R246, R253–R255) -/

/-- The count of the latest scheduled boundary that has passed (R253). -/
def State.passedCount (s : State) : Nat := max (s.seqr.count + 1) (s.countAt ((s.wall : Int) + 1) - 1)

/-- The count advances, and a re-phase whose F' is reached ends (R246). -/
def State.countTo (f : Nat) (s : State) : State :=
  s.modSeqr fun q =>
    let done := q.status = 4 && (q.rephase.all fun r => decide (r.target ≤ f))
    { q with
      count := f, slewLeft := 40
      status := if done then (q.rephase.map Rephase.after_).getD 1 else q.status
      rephase := if done then none else q.rephase }

/-- Arrays that flip: driven, and not dark in a transition (R262). -/
def State.flipPorts (s : State) : List Nat :=
  s.drivenPorts.filter fun a => match s.seqr.trans with
    | some t => !bit t.mask a
    | none => true

/-- The flip of frame `f`, `late` ns after its scheduled time, with event 0xB8 (R254, R255). -/
def State.flip (f : Nat) (time late : Int) (s : State) : State :=
  if s.flipPorts.isEmpty || s.seqr.status = 4 then s
  else
    let at_ := ((time + late) % (2 ^ 64 : Nat)).toNat
    let n := s.num 0xB023
    (s.modSeqr fun q => { q with flipCount := f, flipTime := at_, flipErr := late }).raiseAll
      [⟨at_, 0xB8, 0, f % 65536, n != 0 && f % n = 0⟩]

/-! ## Quiet groups (R164, R165) -/

/-- What CURG reports of a layer for the frame being composed: state, buffer of the version, and invalid lines. -/
structure LayerReport where
  layer : Nat
  st : Nat
  buf : Option Nat
  runs : List (Nat × Nat)
  whole : Bool
  deriving DecidableEq, Repr

/-- What CURG reports of a group for the frame being composed, with the hatch regions. -/
structure GroupReport where
  layers : List LayerReport := []
  hatch : List HReg := []
  deriving DecidableEq, Repr

def State.groupReport (s : State) (g : Nat) : GroupReport :=
  { layers := (groupLayers s.live g).map fun n =>
      let c := s.clayer n
      ⟨n, c.comp.st, (s.versionAt n c.comp.ver).map Version.buf, c.runs, c.whole⟩
    hatch := s.hatchRegions g }

/-- Whether a group is quiet for frame `f`. `was` says that the frame before was composed, `touched` that an object of the group
applied, `before` is its report for the frame before. The settings of its schedule are those of the frame before too (R238). -/
def State.isQuiet (s : State) (f g : Nat) (was touched : Bool) (before : GroupReport) : Bool :=
  was && !touched && groupExists s.live g && !s.drains g (f - 1) && decide (s.groupReport g = before) && !(s.cgroup g).mChanged &&
  decide ((s.plgroup g).settings = s.compileSettings g) &&
  (s.patternFor f).isNone && (s.patternFor (f - 1)).isNone && decide ((s.plaz.groups.getD g {}).quietRun < s.num 0x6015)

/-- A group quiet or composed for frame `f`, with event 0x60 on a change and the carried signatures (R165). -/
def State.setQuiet (f g : Nat) (q : Bool) (s : State) : State :=
  let was := (s.plaz.groups.getD g {}).quiet
  let s1 := s.modPlaz fun p => { p with
    groups := modAt p.groups g fun x => { x with quiet := q, quietRun := if q then x.quietRun + 1 else 0 } }
  let s2 := if was = q then s1 else s1.raise 0x60 g (b2n q)
  if !q then s2
  else ((upTo 32).filter fun r => s.sigOn r && s.num 0x6021 r = g).foldl (fun (t : State) r =>
    t.sigFinal r f (t.plaz.sigs.getD r {}).value true) s2

/-! ## The next frame (R13, R164, R168, R200, R229) -/

/-- The compile of frame `f` starts for a group: its inputs are taken, and those of the frame before stand for a quiet group
(R229, R238). -/
def State.startCompile (f g : Nat) (s : State) : State :=
  if !groupExists s.live g || s.drains g f then s.modPlGroup g fun q => { q with settings := [], hists := [] }
  else if (s.plaz.groups.getD g {}).quiet then s
  else
    let settings := s.compileSettings g
    let hists := s.compileHists g
    s.modPlGroup g fun q => { q with settings := settings, hists := hists }

/-- The lease of the compiler at a boundary: the task of the frame before has ended, and that of the next frame starts (R529). -/
def State.takeCompiler (s : State) : State := (s.dropLease 10).compilerLease

/-- B(F) for frame `f` = F + 1: versions, matrices, quiet groups and the inputs of the compile. `touched` has the bits of the groups
for which a commit applied an object here (log entry 118, DEDUCED, unsafe). -/
def State.compose (f touched : Nat) (was : Bool) (s : State) : State :=
  let before := (upTo 4).map s.groupReport
  let s1 := (s.sigHatch.modHbm fun h => { h with badReads := [] }).curgDecide f
  let s2 := ((existingGroups s1.live).filter fun g => !s1.drains g f).foldl (fun (t : State) g => t.colrDecide f g) s1
  let s3 := (upTo 4).foldl (fun (t : State) g =>
    t.setQuiet f g (t.isQuiet f g was (bit touched g) (before.getD g {}))) s2
  ((upTo 4).foldl (fun (t : State) g => t.startCompile f g) s3).takeCompiler

/-- Where frame F + 1 is not composed, no group is quiet and no schedule is compiled. -/
def State.composeNothing (f : Nat) (s : State) : State :=
  ((upTo 4).foldl (fun (t : State) g =>
    (t.setQuiet f g false).modPlGroup g fun q => { q with settings := [], hists := [] }) s).takeCompiler

/-! ## The wall at a boundary (R188, R447–R449, R462–R464) -/

/-- The payload of a luminance REPORT (R462). -/
def State.lumaReport (s : State) : Bytes :=
  let l := s.loop
  fit 30 (toLE 1 0 ++ toLE 1 s.mews.dev.code ++ toLE 2 l.headroom ++ toLE 2 (if l.anyLit then l.achievable else 0xFFFF) ++
    toLE 4 (low32 s.seqr.count))

/-- This node's luminance report sent to the coordinator, or taken where this node is the coordinator. -/
def State.sendLuma (s : State) : State :=
  if s.isCoord then s.takeLuma s.uane.node s.lumaReport
  else if s.coh.holder = 0 then s
  else s.uaneSend 0x14 s.coh.holder 0 [] s.lumaReport

/-! ## Arrays (R262, R299) -/

/-- DRIVE sent for the next boundary to every array that is to be driven. -/
def State.driveArrays (f : Nat) (s : State) : State := (upTo 4).foldl (State.driveArray f) s

/-! ## The boundary -/

/-- B(F). `late` is the measured flip time minus t(F), `mismatch` what the checking plane engine found in the frame that ends
(log entry 116, DEDUCED, unsafe) (log entry 117, DESIGN CHOICE, safe) (log entry 123, DEDUCED, unsafe). -/
def State.boundary (late : Int) (mismatch : Bool) (s : State) : State :=
  let f := s.passedCount
  let time := s.tF f
  let period := s.periodOf s.seqr.count
  let shows := s.composes f
  let a0 := if shows then (s.sigMissing f).putFrame f period else s.putNothing
  let a1 := ((a0.countTo f).fsyncPulse f).countWhere (fun w => fld w 63 56 = 5) 1
  -- the commit
  let a2 := (a1.commitBoundary f).transBoundary f
  let applied := a1.seqr.cState = 2 && (a2.seqr.cState = 3 || a2.seqr.cState = 4)
  let a3 := a2.flip f time late
  -- steps that wait for a boundary: what is observed, then the commands that were held (R38)
  let b1 := ((a3.throttleBoundary.engineCheck mismatch).pumpSwaps.engineBoundary.rampBoundary).stageBoundary
  let b2 := (b1.applySet).loopBoundary f
  let b3 := (upTo 2).foldl (fun (t : State) n => (t.wheelBoundary n).liftWheel n) b2
  let b4 := ((b3.heldBoundary.leaseBoundary).sweepBoundary).driveArrays f
  -- frame F + 1
  let c1 := (if b4.composes (f + 1) then b4.compose (f + 1) (if applied then a1.touchedGroups else 0) shows
    else b4.composeNothing (f + 1)).observeLayers f shows
  -- the wall and the device
  (((c1.sendReports.sendLuma.wallTarget).judgeService).rampDownBoundary).pump

/-- Whether composition of F' starts at an instant B(F'−1) that comes a second time, after a step of wall time backwards (R246). -/
def State.recomposes (s : State) : Bool :=
  s.mews.dev.lit && decide (s.tF s.seqr.count ≤ (s.wall : Int)) &&
    s.seqr.rephase.any fun r => !r.started && r.target = s.seqr.count + 1

/-! ## The rows -/

/-- FRAME_BOUNDARY (R13, R253): the boundary is due and the device counts frames. -/
def execFrameBoundary (t : Nat) (late : Int) (mismatch : Bool) (s : State) : Host.Outcome State Fault Refusal :=
  let s := s.advance t
  if s.mews.dev.counts && s.seqr.status != 0 && decide (s.tF (s.seqr.count + 1) ≤ (s.wall : Int)) then
    .next (s.boundary late mismatch)
  else if s.recomposes then
    .next ((s.modSeqr fun q => { q with rephase := q.rephase.map fun r => { r with started := true } }).compose
      (s.seqr.count + 1) 0 false)
  else .next s

/-- SIGNATURE_FINAL (R163, R183): the last line of a region of the frame being composed. A quiet group carries its signatures. -/
def execSignatureFinal (t region : Nat) (s : State) : Host.Outcome State Fault Refusal :=
  let s := s.advance t
  let f := s.seqr.count + 1
  if s.sigOn region && s.composes f && !(s.plaz.groups.getD (s.num 0x6021 region) {}).quiet then
    .next (s.sigFinal region f (s.signature region) false)
  else .next s

/-- VERSION_COMPLETE (R97, R98): HBMC has accepted the last word of a version whose frame has ended. The notice and the vote report
follow. -/
def execVersionComplete (t layer : Nat) (s : State) : Host.Outcome State Fault Refusal :=
  let s := s.advance t
  match (s.vlayer layer).first with
  | none => .next s
  | some w =>
    if w.ended && !w.copying && (w.skipped != 0 || w.got &&& w.acc = w.got) then
      .next (((s.ingestComplete layer).versionNotice layer).takeAfter layer)
    else .next s

/-! ## Requests of the frame memory (R121, R126, R130) -/

/-- A line of a transit-fed layer that is not valid on this node (R126). -/
def RxLayer.lose (y : Nat) (r : RxLayer) : RxLayer := { r with lostLines := setBit r.lostLines y true }

/-- What the client of a port does about a word whose read came back poisoned, or whose write failed (R126): ARCD counts the block as
missing, PLGN the plane; a word of PLAZ and of a transit stream makes its line bad; INGS discards the version being written; received
transit lines are lost; an operation of BE reports an error. -/
def State.clientFailed (port w : Nat) (write : Bool) (s : State) : State :=
  if port = 8 then s.modHbm fun h => { h with beFailed := true }
  else match s.hbm.regionAt w with
  | none => s
  | some r =>
    if 0x20 ≤ r.owner && r.owner < 0x24 then
      let ap := r.owner - 0x20
      let (k, y) := s.planeWord ap (w - r.start)
      let per := max 1 (12 * (s.arrayPrims ap).length)
      let lost := if write then (upTo 16).map fun b => (k % per, b) else [(k % per, y / max 1 (arrayH s.live ap / 16))]
      s.modPlArray ap fun a =>
        if k / per = b2n a.set1 then { a with missing := a.missing ++ lost } else { a with missingNext := a.missingNext ++ lost }
    else if r.owner = 0 || (8 < r.owner && r.owner < 0x10) || 0x18 ≤ r.owner then s
    else
      let n := r.owner - 1
      let buf := (w - r.start) / max 1 r.per
      let idx := (w - r.start) % max 1 r.per
      if !write then (s.modHbm fun h => { h with badReads := wkey r.owner buf idx :: h.badReads }).findRuns (ownerLayer r.owner)
      else if port = 7 then
        let width := max 1 ((bufSize s.live n).getD (1, 1)).1
        (upTo ((idx * 7 + 6) / width - idx * 7 / width + 1)).foldl (fun (s : State) j =>
          s.modRx n (RxLayer.lose (idx * 7 / width + j))) s
      else if ((s.vlayer n).writing.map Writing.buf) = some buf then (s.discardWriting n).dropFrame 2 n
      else if ((s.vlayer n).finishing.map Writing.buf) = some buf then (s.discardFinishing n).dropFrame 2 n
      else s

/-- Words of requests to quarantined channels: they complete poisoned at once (R130). -/
def Hbm.turnedAway (h : Hbm) (io : HbmTraffic) : List (Nat × Nat × Bool) :=
  (io.issued.filter h.takes).flatMap fun r =>
    ((upTo r.words).map fun i => (r.port, r.addr / 32 + i, r.write)).filter fun q =>
      (h.chans.getD (rowOf h.grain (q.2.1 * 32)).chan {}).st = 3

/-- HBM_READ_RETURN (R120–R127, R129): the traffic since the command before, then the return of a port's oldest read, unless the read
is still in the alert window of a command that waits to be replayed. -/
def execHbmReadReturn (t port severity : Nat) (io : HbmTraffic) (s : State) : Host.Outcome State Fault Refusal :=
  let s0 := s.advance t
  let s1 := ((s0.hbm.turnedAway io).foldl (fun (s : State) q => s.clientFailed q.1 q.2.1 q.2.2) s0).hbmTraffic io
  match (s1.hbm.ports.getD port {}).oldestRead with
  | none => .next s1.portLevels
  | some x =>
    if (s1.hbm.chans.getD (rowOf s1.hbm.grain (x.word * 32)).chan {}).replay.contains (x.word, false) then .next s1.portLevels
    else
      let s2 := (s1.modHbm fun h => { h with ports := modAt h.ports port HPort.returned }).hbmSeverity (x.word * 32) severity
      .next (if s2.hbm.bad x.word then (s2.clientFailed port x.word false).portLevels else s2.portLevels)

/-- The oldest word of a port on a channel that has not completed 20 µs after it entered: its place in the queue (R126). -/
def State.overdue (s : State) (port chan : Nat) : Option Nat :=
  (s.hbm.ports.getD port {}).queue.findIdx? fun x =>
    (rowOf s.hbm.grain (x.word * 32)).chan = chan && !x.served && decide (x.at_ + 20000 ≤ s.now)

/-- HBMC_REQ_TIMEOUT (R126, R521): the word completes with an error. -/
def execHbmcReqTimeout (t port chan : Nat) (s : State) : Host.Outcome State Fault Refusal :=
  let s1 := s.advance t
  match s1.overdue port chan with
  | none => .next s1
  | some i =>
    let x := (s1.hbm.ports.getD port {}).queue.getD i { word := 0, write := false, at_ := 0 }
    let s2 := s1.modHbm fun h => { h with ports := modAt h.ports port fun p => { p with queue := p.queue.eraseIdx i } }
    .next (((s2.clientFailed port x.word x.write).hbmTimeout port chan).portLevels)

end Sys2Proof.Machine
end

