-- ==== Sys2Proof/Machine/Manage.lean ====
section
/-! DEFINITION. Gysol's own rows: operations, sessions, pushes, the transports, and the rows of unit records (R36–R38, R52–R80,
R85, R443, R535). -/

namespace Sys2Proof.Machine

/-! ## One operation of a session -/

/-- An operation of a session run on its own: an unknown session answers NO_SESSION (R55, R71, R76). The session 0xFFFF is the JTAG
mailbox (R620), 0 none (log entry 49, DESIGN CHOICE, safe). -/
def State.opRow (sid : Nat) (o : GOp) (s : State) : State :=
  let run (role : Nat) (s : State) : State :=
    let (s1, st, data) := s.opExec ⟨sid, role⟩ o
    s1.emit (.answer sid o.code st data)
  if sid = 0xFFFF then (if s.mailboxServes o then run 3 s else s.emit (.answer sid o.code 0x12 []))
  else if !s.firm.running then s
  else if sid = 0 then (if o.free then run 0 s else s.emit (.answer sid o.code 0x23 []))
  else match s.session sid with
    | none => s.emit (.answer sid o.code 0x23 [])
    | some x =>
      let s1 := run x.role (s.modSession sid (Session.touch s.now x.transport x.addr x.key))
      if o.code = 0x11 && (o.plain 0).isNone then s1.endSession sid 0 else s1

/-- A write of one number of `w` bytes. -/
def State.writeRow (sid obj sub w v : Nat) (s : State) : State := s.opRow sid ⟨0x02, 0, obj, sub, 1, toLE w v⟩

/-- A whole BLOB written as a stream of one chunk. -/
def State.blobRow (sid obj sub : Nat) (b : Bytes) (s : State) : State :=
  s.opRow sid ⟨0x05, 2, obj, sub, 1, toLE 4 0 ++ b ++ toLE 4 (crc32c b)⟩

/-- READ (R53). -/
def execRead (t sid obj sub count : Nat) (shadow : Bool) (s : State) : Host.Outcome State Fault Refusal :=
  .next ((s.advance t).opRow sid ⟨0x01, b2n shadow, obj, sub, count, []⟩)

/-- WRITE (R45, R57). -/
def execWrite (t sid obj sub count : Nat) (data : Bytes) (s : State) : Host.Outcome State Fault Refusal :=
  .next ((s.advance t).opRow sid ⟨0x02, 0, obj, sub, count, data⟩)

/-- DESCRIBE (R600). -/
def execDescribe (t sid obj sub count : Nat) (s : State) : Host.Outcome State Fault Refusal :=
  .next ((s.advance t).opRow sid ⟨0x03, 0, obj, sub, count, []⟩)

/-- BLOB_READ (R46). -/
def execBlobRead (t sid obj sub offset length : Nat) (s : State) : Host.Outcome State Fault Refusal :=
  .next ((s.advance t).opRow sid ⟨0x04, 0, obj, sub, 1, toLE 4 offset ++ toLE 4 length⟩)

/-- BLOB_WRITE (R54). -/
def execBlobWrite (t sid obj sub offset : Nat) (chunk : Bytes) (last : Bool) (crc : Nat) (s : State) :
    Host.Outcome State Fault Refusal :=
  .next ((s.advance t).opRow sid ⟨0x05, 2 * b2n last, obj, sub, 1, toLE 4 offset ++ chunk ++ if last then toLE 4 crc else []⟩)

/-- LOG_READ (R66). -/
def execLogRead (t sid start count : Nat) (s : State) : Host.Outcome State Fault Refusal :=
  .next ((s.advance t).opRow sid ⟨0x06, 0, 0, 0, 1, toLE 4 start ++ toLE 1 count ++ [0, 0, 0]⟩)

/-- SUBSCRIBE (R67). -/
def execSubscribe (t sid : Nat) (mask : Bytes) (s : State) : Host.Outcome State Fault Refusal :=
  .next ((s.advance t).opRow sid ⟨0x07, 0, 0, 0, 1, mask⟩)

/-- NOP (R53). -/
def execNop (t sid : Nat) (s : State) : Host.Outcome State Fault Refusal :=
  .next ((s.advance t).opRow sid ⟨0x08, 0, 0, 0, 1, []⟩)

/-- SESSION_OPEN (R72): the answer goes to session 0. -/
def execSessionOpen (t : Nat) (tr : Transport) (addr role resume : Nat) (nonce : Bytes) (s : State) :
    Host.Outcome State Fault Refusal :=
  let s := s.advance t
  if !s.firm.running then .next s
  else
    let (s1, fst, st, data) := s.sessionOpen tr addr ⟨0x10, 0, 0, 0, 1, toLE 1 role ++ [0] ++ toLE 2 resume ++ nonce⟩
    .next (s1.emit (.answer 0 0x10 (if fst = 0 then st else fst) data))

/-- SESSION_CLOSE (R76). -/
def execSessionClose (t sid : Nat) (s : State) : Host.Outcome State Fault Refusal :=
  .next ((s.advance t).opRow sid ⟨0x11, 0, 0, 0, 1, []⟩)

/-! ## Session timeouts, streams and pushes -/

/-- PENDING_SESSION_TIMEOUT (R74, R75): a resume that was not used ends alone. A resume of a session that is itself pending has 2 s of
its own (log entry 156, DEDUCED, unsafe). -/
def execPendingSessionTimeout (t sid : Nat) (s : State) : Host.Outcome State Fault Refusal :=
  let s := s.advance t
  match s.session sid with
  | none => .next s
  | some x =>
    if x.isPending && decide (x.openedAt + 2000000000 ≤ s.now) then match x.newKey with
      | some k =>
        if x.resumedAt + 2000000000 ≤ s.now then .next (s.modGysol fun g => { g with sessions := g.sessions.filter fun y => y.id != sid })
        else .next (s.modSession sid fun x => { x with key := k, newKey := none, openedAt := x.resumedAt })
      | none => .next (s.modGysol fun g => { g with sessions := g.sessions.filter fun y => y.id != sid })
    else if x.newKey.isSome && decide (x.resumedAt + 2000000000 ≤ s.now) then
      .next (s.modSession sid fun x => { x with newKey := none })
    else .next s

/-- SESSION_TIMEOUT (R76). -/
def execSessionTimeout (t sid : Nat) (s : State) : Host.Outcome State Fault Refusal :=
  let s := s.advance t
  match s.session sid with
  | none => .next s
  | some x =>
    if !x.isPending && decide (x.lastValid + s.num 0x2013 * 1000000 ≤ s.now) then .next (s.endSession sid 2) else .next s

/-- BLOB_STREAM_ABANDON (R54). -/
def execBlobStreamAbandon (t obj sub : Nat) (s : State) : Host.Outcome State Fault Refusal :=
  let s := s.advance t
  if s.gysol.streams.any fun x => x.key = okey obj sub && decide (x.lastAt + 10000000000 ≤ s.now) then
    .next (s.closeStream (okey obj sub))
  else .next s

/-- Whether a push is due: 80 records wait, or the oldest has waited for 1 ms (R68). -/
def pushDue (now : Nat) (q : List PushItem) : Bool :=
  match q with
  | [] => false
  | r :: _ => decide (80 ≤ q.length) || decide (r.at_ + 1000000 ≤ now)

/-- The payload of a push: one operation with up to 80 records (R68). -/
def pushPayload (q : List PushItem) : Bytes :=
  let rs := (q.take 80).map PushItem.rcd
  GOp.response ⟨0x06, 0, 0, 0, 1, []⟩ 0 (toLE 4 ((rs.head?.map EvRec.seq).getD 0) ++ (rs.map recordBytes).flatten)

/-- EVENT_PUSH (R68, R75). -/
def execEventPush (t sid : Nat) (s : State) : Host.Outcome State Fault Refusal :=
  let s := s.advance t
  if sid = 0xFFFF then
    let g := s.gysol
    if pushDue s.now g.mbPushes then
      .next ((s.modGysol fun g => { g with mbPushes := g.mbPushes.drop 80, mbPushSeq := g.mbPushSeq + 1 }).gsend .jtag 0 2
        (gframe s.uane.node 2 0 0 (g.mbPushSeq + 1) 0xFF 1 0 (pushPayload g.mbPushes)))
    else .next s
  else match s.session sid with
    | none => .next s
    | some x =>
      if pushDue s.now x.pushes then
        let n := x.pushSeq + 1
        .next ((s.modSession sid fun x => { x with pushes := x.pushes.drop 80, pushSeq := n }).gsend x.transport x.addr 2
          (withTag x.key n (gframe (s.nodeField x.view) 2 0 sid n (if x.view then 0 else 0xFF) 1 0 (pushPayload x.pushes))))
      else .next s

/-! ## Transports (R77–R80) -/

/-- GYSOL_REQUEST (R56): `wait` leaves the frame in the queue for the moment (log entry 56, DESIGN CHOICE, safe). A datagram to
another port than 0x2003, or one that is not `plain` (fragmented or with options), is no request (R77). -/
def execGysolRequest (t : Nat) (tr : Transport) (addr port : Nat) (plain : Bool) (frame : Bytes) (wait : Bool) (s : State) :
    Host.Outcome State Fault Refusal :=
  let s := s.advance t
  .next (if tr = .udp && !(plain && port = s.gysol.netPort) then s else s.request tr addr frame wait)

/-- Whether the SPI host port is still taking a frame: RX_BUSY (R78) (log entry 55, DEDUCED, unsafe). -/
def State.rxBusy (s : State) : Bool := s.gysol.queue.any fun f => f.tr = .spi

/-- WRITE_FRAME (R78–R80): `whole` is false where chip select rises before the frame's end. -/
def execWriteFrame (t : Nat) (frame : Bytes) (whole wait : Bool) (s : State) : Host.Outcome State Fault Refusal :=
  let s := s.advance t
  if !s.firm.running then .next s
  else if s.rxBusy then .next (s.modGysol fun g => { g with spiError := true })
  else if !whole then .next s
  else .next (s.request .spi 0 frame wait)

/-- The next frame that READ_FRAME returns: responses before pushes (R79). -/
def Gysol.spiNext (g : Gysol) : Option Bytes := g.spiResp.head?.orElse fun _ => g.spiPush.head?

/-- READ_STATUS (R78, R80): ERROR clears with it, but not while the Mews alone serves the port. -/
def execReadStatus (t : Nat) (s : State) : Host.Outcome State Fault Refusal :=
  let s := s.advance t
  if !s.firm.running then .next (s.emit (.spi [0x84, 0, 0, 0]))
  else
    let g := s.gysol
    let flags := b2n (!g.spiResp.isEmpty) + 2 * b2n (!g.spiPush.isEmpty) + 4 * b2n s.rxBusy + 128 * b2n g.spiError
    .next ((s.modGysol fun g => { g with spiError := false }).emit
      (.spi (toLE 1 flags ++ [0] ++ toLE 2 ((g.spiNext.map List.length).getD 0))))

/-- READ_FRAME (R78–R80). -/
def execReadFrame (t : Nat) (s : State) : Host.Outcome State Fault Refusal :=
  let s := s.advance t
  let g := s.gysol
  if !s.firm.running then .next (s.emit (.spi []))
  else match g.spiResp, g.spiPush with
  | b :: bs, _ => .next ((s.modGysol fun g => { g with spiResp := bs }).emit (.spi b))
  | [], b :: bs => .next ((s.modGysol fun g => { g with spiPush := bs }).emit (.spi b))
  | [], [] => .next (s.emit (.spi []))

/-- ARP_REQUEST (R77): for an address, from another. -/
def execArpRequest (t ip asker : Nat) (s : State) : Host.Outcome State Fault Refusal :=
  let s := s.advance t
  .next (if s.firm.running && ip = s.gysol.netIp then s.emit (.arp ip asker) else s)

/-- ICMP_ECHO (R77): a datagram that is not `plain` is dropped. -/
def execIcmpEcho (t ip asker : Nat) (plain : Bool) (data : Bytes) (s : State) : Host.Outcome State Fault Refusal :=
  let s := s.advance t
  .next (if s.firm.running && ip = s.gysol.netIp && plain then
      match s.nextHop asker with
      | some hop => s.emit (.icmp asker hop data)
      | none => s
    else s)

/-- GATEWAY_TAG_EXPIRY (R443). -/
def execGatewayTagExpiry (t tag : Nat) (s : State) : Host.Outcome State Fault Refusal :=
  let s := s.advance t
  let live (g : GwTag) : Bool := g.tag != tag || decide (s.now ≤ g.used + s.num 0x2013 * 1000000)
  .next (s.modUane fun u => { u with tags := u.tags.filter live })

/-! ## Unit records (R36, R37, R535) -/

/-- UNIT_COMMAND (R37). -/
def execUnitCommand (t sid unit value : Nat) (s : State) : Host.Outcome State Fault Refusal :=
  .next ((s.advance t).writeRow sid unit 1 1 value)

/-- UNIT_FORCE (R37). -/
def execUnitForce (t sid unit : Nat) (s : State) : Host.Outcome State Fault Refusal :=
  .next ((s.advance t).writeRow sid unit 6 1 1)

/-- MGMT_UNIT_DISAGREE (R36). -/
def execMgmtUnitDisagree (t unit : Nat) (s : State) : Host.Outcome State Fault Refusal := .next ((s.advance t).disagreeEvent unit)

/-- DISAGREE_ALLOWANCE_EXPIRY (R535). -/
def execDisagreeAllowanceExpiry (t unit : Nat) (s : State) : Host.Outcome State Fault Refusal :=
  let s := s.advance t
  .next (s.disagreeExpiry unit s.period)

end Sys2Proof.Machine
end

