-- ==== Sys2Proof/Machine/Command.lean ====
section
/-! DEFINITION. The rows that are a write of one object: each is that operation of a session, checked and answered as R57 gives. -/

namespace Sys2Proof.Machine

/-! ## The device (R31, R33, R561) -/

/-- STATE_REQUEST_MEWS (R561). -/
def execStateRequestMews (t sid : Nat) (s : State) : Host.Outcome State Fault Refusal := .next ((s.advance t).writeRow sid 0x0011 0 1 0)

/-- STATE_REQUEST_STANDBY (R31, R374). -/
def execStateRequestStandby (t sid : Nat) (s : State) : Host.Outcome State Fault Refusal :=
  .next ((s.advance t).writeRow sid 0x0011 0 1 2)

/-- STATE_REQUEST_WARMING (R614). -/
def execStateRequestWarming (t sid : Nat) (s : State) : Host.Outcome State Fault Refusal :=
  .next ((s.advance t).writeRow sid 0x0011 0 1 3)

/-- STATE_REQUEST_SAFE (R31). -/
def execStateRequestSafe (t sid : Nat) (s : State) : Host.Outcome State Fault Refusal := .next ((s.advance t).writeRow sid 0x0011 0 1 6)

/-- RESET_CMD (R552) (log entry 19, DESIGN CHOICE, unsafe). -/
def execResetCmd (t sid : Nat) (s : State) : Host.Outcome State Fault Refusal := .next ((s.advance t).writeRow sid 0x0016 0 1 1)

/-! ## Profile, shadow, keys, images (R48, R59, R69, R257, R558) -/

/-- PROFILE_SAVE (R48). -/
def execProfileSave (t sid : Nat) (s : State) : Host.Outcome State Fault Refusal := .next ((s.advance t).writeRow sid 0x2030 0 1 1)

/-- PROFILE_ERASE (R48). -/
def execProfileErase (t sid : Nat) (s : State) : Host.Outcome State Fault Refusal := .next ((s.advance t).writeRow sid 0x2032 0 1 1)

/-- STAGE_DISCARD (R59). -/
def execStageDiscard (t sid : Nat) (s : State) : Host.Outcome State Fault Refusal := .next ((s.advance t).writeRow sid 0x2021 0 1 1)

/-- ROLE_KEY_WRITE (R69). -/
def execRoleKeyWrite (t sid role : Nat) (key : Bytes) (s : State) : Host.Outcome State Fault Refusal :=
  .next ((s.advance t).blobRow sid 0x2040 role key)

/-- COMMIT (R257). -/
def execCommit (t sid : Nat) (s : State) : Host.Outcome State Fault Refusal := .next ((s.advance t).writeRow sid 0xB010 0 1 1)

/-- FW_IMAGE_WRITE (R558) (log entry 44, DEDUCED, unsafe). -/
def execFwImageWrite (t sid : Nat) (image : Bytes) (s : State) : Host.Outcome State Fault Refusal :=
  .next ((s.advance t).blobRow sid 0x2071 0 image)

/-! ## Frame memory, array links, lamp link, loop (R134, R135, R302, R303, R319, R325, R346, R366, R386) -/

/-- HBM_TRAIN_FULL (R134). -/
def execHbmTrainFull (t sid : Nat) (s : State) : Host.Outcome State Fault Refusal := .next ((s.advance t).writeRow sid 0x5051 0 1 1)

/-- HBM_TRAIN_QUICK (R135). -/
def execHbmTrainQuick (t sid : Nat) (s : State) : Host.Outcome State Fault Refusal := .next ((s.advance t).writeRow sid 0x5051 0 1 2)

/-- ARRAY_REG_ACCESS_READ (R302). -/
def execArrayRegAccessRead (t sid ap addr : Nat) (s : State) : Host.Outcome State Fault Refusal :=
  .next ((s.advance t).writeRow sid 0xA009 ap 8 (addr % 65536 * 2 ^ 32))

/-- ARRAY_REG_ACCESS_WRITE (R302). -/
def execArrayRegAccessWrite (t sid ap addr data : Nat) (s : State) : Host.Outcome State Fault Refusal :=
  .next ((s.advance t).writeRow sid 0xA009 ap 8 (2 ^ 63 + addr % 65536 * 2 ^ 32 + data % 2 ^ 32))

/-- LAMP_REG_ACCESS_READ (R386). -/
def execLampRegAccessRead (t sid driver addr : Nat) (s : State) : Host.Outcome State Fault Refusal :=
  .next ((s.advance t).writeRow sid 0xD009 driver 8 (addr % 256 * 2 ^ 32))

/-- LAMP_REG_ACCESS_WRITE (R386). -/
def execLampRegAccessWrite (t sid driver addr data : Nat) (s : State) : Host.Outcome State Fault Refusal :=
  .next ((s.advance t).writeRow sid 0xD009 driver 8 (2 ^ 63 + addr % 256 * 2 ^ 32 + data % 2 ^ 32))

/-- ARCD_LANE_SWAP_CMD (R303). -/
def execArcdLaneSwapCmd (t sid ap lane : Nat) (s : State) : Host.Outcome State Fault Refusal :=
  .next ((s.advance t).writeRow sid 0xA014 ap 1 lane)

/-- REP_CLEAR (R325). -/
def execRepClear (t sid band : Nat) (s : State) : Host.Outcome State Fault Refusal := .next ((s.advance t).writeRow sid 0xC019 band 1 1)

/-- TRACE_ARM (R346). -/
def execTraceArm (t sid buffer : Nat) (s : State) : Host.Outcome State Fault Refusal :=
  .next ((s.advance t).writeRow sid 0xC061 buffer 1 1)

/-- SAT_STICKY_CLEAR (R319). -/
def execSatStickyClear (t sid band bits : Nat) (s : State) : Host.Outcome State Fault Refusal :=
  .next ((s.advance t).writeRow sid 0xC053 band 2 bits)

/-- CHAIN_CMD_ENUMERATE (R366). -/
def execChainCmdEnumerate (t sid chain : Nat) (s : State) : Host.Outcome State Fault Refusal :=
  .next ((s.advance t).writeRow sid 0xD000 chain 1 1)

/-! ## Crossroads (R485–R491, R571) -/

/-- COUNTER_SNAPSHOT (R490). -/
def execCounterSnapshot (t sid : Nat) (s : State) : Host.Outcome State Fault Refusal := .next ((s.advance t).writeRow sid 0x3023 0 1 1)

/-- COUNTER_CLEAR (R490). -/
def execCounterClear (t sid mask : Nat) (s : State) : Host.Outcome State Fault Refusal :=
  .next ((s.advance t).writeRow sid 0x3026 0 8 mask)

/-- COUNTER_SOURCE_WRITE (R488). -/
def execCounterSourceWrite (t sid counter source : Nat) (s : State) : Host.Outcome State Fault Refusal :=
  .next ((s.advance t).writeRow sid 0x3020 counter 8 source)

/-- TASK_PENDING_EMPTY (R486). -/
def execTaskPendingEmpty (t sid input : Nat) (s : State) : Host.Outcome State Fault Refusal :=
  .next ((s.advance t).writeRow sid 0x3012 input 1 0)

/-- TASK_STICKY_CLEAR (R485). -/
def execTaskStickyClear (t sid bits : Nat) (s : State) : Host.Outcome State Fault Refusal :=
  .next ((s.advance t).writeRow sid 0x3014 0 8 bits)

/-- IRQ_PENDING_CLEAR (R491). -/
def execIrqPendingClear (t sid block bits : Nat) (s : State) : Host.Outcome State Fault Refusal :=
  .next ((s.advance t).writeRow sid 0x3031 block 8 bits)

/-- GPIO_FUNCTION_WRITE (R571). -/
def execGpioFunctionWrite (t sid gpio function : Nat) (s : State) : Host.Outcome State Fault Refusal :=
  .next ((s.advance t).writeRow sid 0x3041 gpio 1 function)

/-! ## Graphics, ingest (R90, R155, R157) -/

/-- GFX_LINES_CHUNK (R155). -/
def execGfxLinesChunk (t sid gfx offset : Nat) (chunk : Bytes) (last : Bool) (crc : Nat) (s : State) :
    Host.Outcome State Fault Refusal :=
  .next ((s.advance t).opRow sid ⟨0x05, 2 * b2n last, 0x6032, gfx, 1, toLE 4 offset ++ chunk ++ if last then toLE 4 crc else []⟩)

/-- GFX_PUBLISH (R157). -/
def execGfxPublish (t sid gfx number : Nat) (s : State) : Host.Outcome State Fault Refusal :=
  .next ((s.advance t).writeRow sid 0x6034 gfx 4 number)

/-- EDID_WRITE (R90). -/
def execEdidWrite (t sid port : Nat) (edid : Bytes) (s : State) : Host.Outcome State Fault Refusal :=
  .next ((s.advance t).blobRow sid 0x4020 port edid)

/-! ## Wear and spares (R505, R509) -/

/-- SPARE_APPROVE (R509). -/
def execSpareApprove (t sid area res : Nat) (s : State) : Host.Outcome State Fault Refusal :=
  .next ((s.advance t).writeRow sid 0x0042 0 4 (2 ^ 31 + area % 16 * 65536 + res % 16384))

/-- SPARE_REJECT (R509). -/
def execSpareReject (t sid area res : Nat) (s : State) : Host.Outcome State Fault Refusal :=
  .next ((s.advance t).writeRow sid 0x0042 0 4 (area % 16 * 65536 + res % 16384))

/-- SPARE_POLICY_WRITE (R509). -/
def execSparePolicyWrite (t sid policy : Nat) (s : State) : Host.Outcome State Fault Refusal :=
  .next ((s.advance t).writeRow sid 0x0040 0 1 policy)

/-- STRING_COMMISSION (R505). -/
def execStringCommission (t sid : Nat) (s : State) : Host.Outcome State Fault Refusal :=
  .next ((s.advance t).writeRow sid 0x0044 0 1 1)

/-! ## The wall (R453, R465) -/

/-- SWEEP_START (R465). -/
def execSweepStart (t sid : Nat) (s : State) : Host.Outcome State Fault Refusal := .next ((s.advance t).writeRow sid 0x2051 0 1 1)

/-- SWEEP_ABORT (R465). -/
def execSweepAbort (t sid : Nat) (s : State) : Host.Outcome State Fault Refusal := .next ((s.advance t).writeRow sid 0x2051 0 1 2)

/-- WALL_JOIN (R453). -/
def execWallJoin (t sid id : Nat) (s : State) : Host.Outcome State Fault Refusal := .next ((s.advance t).writeRow sid 0xB060 0 4 id)

/-- WALL_COMMIT_START (R453). -/
def execWallCommitStart (t sid : Nat) (start : Bytes) (s : State) : Host.Outcome State Fault Refusal :=
  .next ((s.advance t).blobRow sid 0xB061 0 start)

end Sys2Proof.Machine
end

