-- ==== Sys2Proof/Machine/Firmware.lean ====
section
/-! DEFINITION. Management cores, firmware tasks, leases, the internal bus and image checks (R515, R519–R532, R558, R623). -/

namespace Sys2Proof.Machine

/-! ## Leases revoked (R530) -/

/-- Lease 0: a running save fails and its copy is invalid; a running erase has reached `sectors` of 32; the command that waits ends
with either (R612); an image being written or checked has failed (log entry 42, DEDUCED, unsafe). -/
def State.revokeFlash (sectors : Nat) (s : State) : State :=
  let s1 := if s.gysol.profJob.isNone then s else s.modGysol fun g => { g.profStop sectors with profStatus := 3 }
  match s1.firm.verifying with
  | some n => (s1.modFirm fun f => { f with verifying := none }).raise 0x28 3 n
  | none => s1

/-- Lease 2: the training runs once again; a second revocation is a failure under R135, on a channel and step that the manual does
not name: they are free (log entry 43, DESIGN CHOICE, safe) (log entry 137, DEDUCED, unsafe). -/
def State.revokeTraining (s : State) : State :=
  if s.hbm.training = 0 then s
  else if s.hbm.again then s.drawn.hbmTrainingDone false (s.free % 32) (s.free / 32 % 256) [] []
  else (s.hbmTrain s.hbm.training).modHbm fun h => { h with again := true }

/-- Leases 7 and 8: the management frame of a chain is abandoned, and retried once. -/
def State.revokeSlot (n : Nat) (s : State) : State :=
  match (s.chain n).mgmt with
  | some (ty, addr, body) =>
    if (s.chain n).retried then s.dropLease (7 + n)
    else (s.lampSend n ty addr body).modChain n fun c => { c with retried := true }
  | none => s.dropLease (7 + n)

/-- Lease 10: the safe schedule in the place of those not delivered for the next frame (R236). -/
def State.revokeCompiler (s : State) : State :=
  (existingGroups s.live).foldl (fun (s : State) g =>
    if ((s.plgroup g).next.map Sched.frame) != some (s.seqr.count + 1) then s.fallback g (s.seqr.count + 1) 1 else s) s

/-- What the revocation of a lease does to the work of its holder (R530). Leases 1 and 9 guard a transfer on the I²C bus and one
operation on the dictionary: the first changes nothing here, and no operation of the model outlasts its command. -/
def State.revokeWork (n sectors : Nat) (s : State) : State :=
  if n = 0 then s.revokeFlash sectors
  else if n = 2 then s.revokeTraining
  else if 3 ≤ n && n ≤ 6 then s.modAport (n - 3) fun p => { p with regStatus := 2 }
  else if n = 7 || n = 8 then s.revokeSlot (n - 7)
  else if n = 10 then s.revokeCompiler
  else if 16 ≤ n then s.swapsBackOf fun a => a = n - 16
  else s

/-- Whether a lease can be held: its record says so, or it is one that the model does not follow (leases 1 and 9). -/
def State.leaseHeld (s : State) (n : Nat) : Bool := (s.firm.leases.getD n {}).st = 1 || n = 1 || n = 9

/-- A lease revoked (R530): the resource is free, the holder's work ends as R530 gives, and event 0x29 names the holder's area. -/
def State.revokeLease (n sectors : Nat) (s : State) : State :=
  if !s.leaseHeld n || 32 ≤ n then s
  else
    let area := if (s.firm.leases.getD n {}).st = 1 then (s.firm.leases.getD n {}).area else 2
    let s1 := (s.dropLease n).revokeWork n sectors
    (s1.modFirm fun f => { f with leases := modAt f.leases n fun l => { l with revokes := (l.revokes + 1) % 2 ^ 32 } }).raise
      0x29 area n

/-- The leases of a list revoked, those of them that are held by a record (log entry 41, DESIGN CHOICE, unsafe). -/
def State.revokeHeld (ns : List Nat) (sectors : Nat) (s : State) : State :=
  ns.foldl (fun (s : State) n => if (s.firm.leases.getD n {}).st = 1 then s.revokeLease n sectors else s) s

/-! ## Cores (R515, R522) -/

/-- The spare takes over from a core, with event 0x26; the swap is complete (R510, R515). -/
def State.coreTakeover (core spare : Nat) (s : State) : State :=
  ((s.modFirm fun f => { f with cores := setAt (setAt f.cores core 2) spare 0 }).raise 0x26 core spare).swapDone 2 core

/-- A core withdrawn: a worn one at a heartbeat boundary, whose swap waits for it, or one that has failed (R515, R522). -/
def State.coreOut (core : Nat) (s : State) : State :=
  match s.therm.swaps.find? fun w => w.1 = 2 && w.2.1 = core with
  | some (_, _, spare, _) => s.coreTakeover core spare
  | none =>
    let s1 := (s.modFirm fun f => { f with cores := setAt f.cores core 2 }).wearOut 2 core 2 1
    match s1.therm.swaps.find? fun w => w.1 = 2 && w.2.1 = core with
    | some (_, _, spare, _) => s1.coreTakeover core spare
    | none => s1

/-! ## Firmware restarts (R523, R524) -/

/-- What a firmware restart does when the retained SRAM fails its check: every session ends, and the shadow is discarded. -/
def State.retainedLost (s : State) : State :=
  let s1 := s.gysol.sessions.foldl (fun (s : State) x => s.endSession x.id 2) s
  if s1.dict.owner = 0 || s1.dict.isSealed then s1 else s1.emptyShadow.raise 0x21 0 s1.dict.owner

/-- A firmware restart: every lease is revoked, and service resumes 300 ms later. `retained` is the check of the retained SRAM. -/
def State.fwRestart (sectors : Nat) (retained : Bool) (s : State) : State :=
  let s1 := (s.revokeHeld (upTo 32) sectors).modFirm fun f => { f with
    fwRestarts := (f.fwRestarts + 1) % 2 ^ 32, restartUntil := s.now + 300000000, misses := [] }
  if retained then s1 else s1.retainedLost

/-! ## The rows -/

/-- MGMT_FW_UPDATE (R558, R623): the check of a written image ends; `signed` is the verdict on its signature. The boot ROM starts an
image that passes at once. -/
def execMgmtFwUpdate (t : Nat) (signed : Bool) (s : State) : Host.Outcome State Fault Refusal :=
  let s := s.advance t
  match s.firm.verifying with
  | none => .next s
  | some n =>
    let ok := imageHeaderOk (s.slotImage n) && imageDigestOk (s.slotImage n) && signed
    let s1 := ((s.modFirm fun f => { f with verifying := none, sigOk := setAt f.sigOk n signed }).markSlot n (if ok then 1 else 2)).dropLease 0
    if s.firm.running then .next (s1.raise 0x28 (if ok then 2 else 3) n)
    else if ok && s.mews.dev = .boot && s.mews.bootStep = 3 then .next ((s1.startFirmware n).startTraining)
    else .next s1

/-- MGMT_CORE_SPARED (R515, R522): a core has failed, or hands over at its heartbeat. `held` are the leases of its tasks
(log entry 39, DEDUCED, safe). -/
def execMgmtCoreSpared (t core : Nat) (held : List Nat) (sectors : Nat) (s : State) : Host.Outcome State Fault Refusal :=
  let s := s.advance t
  if 3 ≤ core || natAt s.firm.cores core != 0 then .next s else .next ((s.revokeHeld held sectors).coreOut core)

/-- MGMT_FW_WATCHDOG (R523, R524): a task has missed its watchdog. A second miss within 10 s restarts the firmware. `held` are the
leases that the task holds. -/
def execMgmtFwWatchdog (t task : Nat) (held : List Nat) (sectors : Nat) (retained : Bool) (s : State) :
    Host.Outcome State Fault Refusal :=
  let s := s.advance t
  if !s.firm.running || s.now < s.firm.restartUntil then .next s
  else
    let again := s.firm.misses.any fun m => m.1 = task && decide (s.now ≤ m.2 + 10000000000)
    let s1 := (s.revokeHeld held sectors).modFirm fun f => { f with misses := mapPut f.misses task s.now }
    let s2 := s1.raise 0x27 0 (task % 65536)
    if again then .next (s2.fwRestart sectors retained) else .next s2

/-- Units of a subsystem's area. -/
def State.areaUnits (s : State) (area : Nat) : List Nat := (s.units.map Prod.fst).filter fun w => w / 4096 = area

/-- A subsystem whose port answers again: its units whose states agree no longer disagree (R35, R520). -/
def State.portAnswers (area : Nat) (s : State) : State :=
  (s.areaUnits area).foldl (fun (s : State) w => if s.agrees w then s.modUnit w fun u => { u with dis := false, evt := false } else s)
    (s.modFirm fun f => { f with busPort := setAt f.busPort area 0 })

/-- BUS_TRANSACTION_TIMEOUT (R520): a transaction on a subsystem's port is unanswered, or, with `answered`, is answered at last. The
third time in a row, every unit of the subsystem disagrees (log entry 40, DESIGN CHOICE, safe). -/
def execBusTransactionTimeout (t area : Nat) (answered : Bool) (s : State) : Host.Outcome State Fault Refusal :=
  let s := s.advance t
  if 16 ≤ area then .next s
  else if answered then .next (s.portAnswers area)
  else
    let n := natAt s.firm.busPort area + 1
    let s1 := s.modFirm fun f => { f with
      busTimeouts := (f.busTimeouts + 1) % 2 ^ 32, busPort := setAt f.busPort area (if n = 3 then 0 else n) }
    .next (if n = 3 then (s1.areaUnits area).foldl (fun (s : State) w => s.forceDisagree w) s1 else s1)

/-- The longest time in ns for which a lease may stay without renewal (R529). Lease 10 ends 100 µs before the next boundary. -/
def leasePeriod (n : Nat) : Nat :=
  if n = 0 then 300000000 else if n = 1 then 10000000 else if n = 2 then 20000000
  else if 3 ≤ n && n ≤ 6 then 100000 else if 7 ≤ n && n ≤ 9 then 1000000 else if 16 ≤ n then 100000000 else 0

/-- MGMT_LEASE_REVOKED (R528–R530): a lease expires without renewal. -/
def execMgmtLeaseRevoked (t lease sectors : Nat) (s : State) : Host.Outcome State Fault Refusal :=
  let s := s.advance t
  let l := s.firm.leases.getD lease {}
  let due := l.st != 1 || decide (l.renewed + leasePeriod lease ≤ s.now)
  if lease = 10 && decide ((s.wall : Int) < s.tF (s.seqr.count + 1) - 100000) then .next s
  else if (11 ≤ lease && lease ≤ 15) || !due then .next s
  else .next (s.revokeLease lease sectors)

end Sys2Proof.Machine
end

