-- ==== Sys2Proof/Machine/Jtag.lean ====
section
/-! DEFINITION. The JTAG port: the TAP and its instructions, the boundary register, the mailbox and PEEK (R617–R624). -/

namespace Sys2Proof.Machine

/-! ## The boundary register (R568, R569, R619) -/

/-- Balls of the boundary register, in its order: two HPD, twelve gates, two index and two fault inputs, two interlocks, two
kills, sixteen GPIO, IRQ_N, RESET_N, FSYNC_IN, FSYNC_OUT, TIME_PPS, TESTEN, six of QSPI, four of SPIH, two of I²C, two of the
PHY's management, and MEWS_PWREN. -/
def ballCount : Nat := 59

/-- Balls whose output and enable cells only observe: the gates, the kills and MEWS_PWREN (R619). -/
def observeOnly (b : Nat) : Bool := (decide (2 ≤ b) && decide (b ≤ 13)) || b = 20 || b = 21 || b = 58

/-- Bit of a ball's input cell; its output and enable cells are the two bits above. The bit nearest TDO is bit 0. -/
def inputCell (b : Nat) : Nat := 3 * (58 - b)

/-- What the update latch drives on the balls under EXTEST: ball and level, none where the enable cell is 0. -/
def extestDrives (cells : Nat) : List (Nat × Option Bool) :=
  ((upTo ballCount).filter fun b => !observeOnly b).map fun b =>
    (b, if cells.testBit (inputCell b + 2) then some (cells.testBit (inputCell b + 1)) else none)

/-! ## The mailbox (R620, R621) -/

/-- What the mailbox register captures: state and data, and the state after it. Responses come before pushes. -/
def State.mailboxCapture (s : State) : Nat × State :=
  let load (g : Gysol) : Gysol :=
    if !g.mbOut.isEmpty then g
    else match g.mbResp, g.mbPush with
      | b :: bs, _ => { g with mbOut := pad4 b, mbResp := bs }
      | [], b :: bs => { g with mbOut := pad4 b, mbPush := bs }
      | [], [] => g
  if s.tap.mbBusy then (3 * 2 ^ 32, s)
  else
    let g := load s.gysol
    if g.mbOut.isEmpty then (0, s)
    else
      let stat := if g.mbOut.length ≤ 4 then 2 else 1
      (stat * 2 ^ 32 + leAt g.mbOut 0 4, s.modGysol fun _ => { g with mbOut := g.mbOut.drop 4 })

/-- Whether MGMT or the boot ROM serves the mailbox: not while the die is held in reset, or before the boot ROM runs. -/
def State.mailboxOpen (s : State) : Bool := s.mews.dev = .mews || s.firm.running || (s.mews.dev = .boot && s.mews.bootStep = 3)

/-- A word shifted into the mailbox: none, a word, the last word of a frame, or the frame abandoned. -/
def State.mailboxTake (ctl data : Nat) (wait : Bool) (s : State) : State :=
  match ctl % 4 with
  | 1 => s.modGysol fun g => { g with mbIn := g.mbIn ++ toLE 4 data }
  | 2 =>
    let b := trimFrame (s.gysol.mbIn ++ toLE 4 data) 4
    (s.modGysol fun g => { g with mbIn := [] }).request .jtag 0 b (wait || !s.mailboxOpen)
  | 3 => s.modGysol fun g => { g with mbIn := [] }
  | _ => s

/-! ## PEEK (R622) -/

/-- Where eight bytes of frame memory stand in the model. -/
inductive PeekPlace where
  /-- A word, by its address over 32. -/
  | word (w : Nat)
  /-- Sixty-four mirrors of a row of a plane: array port, whether of the set on the mirrors, plane, row, first mirror. -/
  | plane (ap : Nat) (shown : Bool) (i y x : Nat)
  /-- The padding of a row of a plane. -/
  | spare
  deriving DecidableEq, Repr

/-- The place of a byte address (R115, R119, R216). -/
def State.peekPlace (s : State) (a : Nat) : PeekPlace :=
  match s.hbm.regionAt (a / 32) with
  | none => .word (a / 32)
  | some r =>
    if 0x20 ≤ r.owner && r.owner < 0x24 then
      let ap := r.owner - 0x20
      let (k, y) := s.planeWord ap (a / 32 - r.start)
      let stride := max 1 (divCeil (arrayW s.live ap) 256)
      let per := max 1 (12 * (s.arrayPrims ap).length)
      let x := (a / 32 - r.start) % stride * 256 + a % 32 * 8
      if k < 2 * per && x < arrayW s.live ap then .plane ap (k / per = b2n (s.plarray ap).set1) (k % per) y x else .spare
    else .word (a / 32)

/-- 64 bits of a wider number, from bit `lo` on. -/
def bits64 (v lo : Nat) : Nat := (v >>> lo) % 2 ^ 64

/-- A number with 64 bits replaced from bit `lo` on. -/
def putBits64 (v lo d : Nat) : Nat := v - bits64 v lo * 2 ^ lo + d % 2 ^ 64 * 2 ^ lo

/-- Eight bytes read. The reserved pool holds what training, scrub and repair last used it for, which is free (R115)
(log entry 104, DESIGN CHOICE, unsafe). -/
def State.peekRead (s : State) (a : Nat) : Nat × State :=
  let lo := a % 32 * 8
  match s.peekPlace a with
  | .word w => if 0x7FFC00000 ≤ a then (s.free % 2 ^ 64, s.drawn) else (bits64 (s.hbm.wordAt w).toNat lo, s)
  | .plane ap shown i y x => (bits64 (natAt ((s.plarray ap).set shown |>.getD i []) y) x, s)
  | .spare => (0, s)

/-- Eight bytes written, without any check. -/
def State.peekWrite (a d : Nat) (s : State) : State :=
  let lo := a % 32 * 8
  match s.peekPlace a with
  | .word w => s.modHbm fun h => h.putAt w (BitVec.ofNat 256 (putBits64 (h.wordAt w).toNat lo d))
  | .plane ap shown i y x =>
    let room := min 64 (arrayW s.live ap - x)
    let put (l : List (List Nat)) : List (List Nat) := modAt l i fun rows => modAt rows y fun r => putBits64 r x (d % 2 ^ room)
    (s.modHbm fun h => h.wrote (a / 32) (h.wordAt (a / 32))).modPlArray ap fun p =>
      if shown then { p with planes := put p.planes } else { p with other := put p.other }
  | .spare => s

/-- Whether an access can be made: the address is aligned and exists, the memory is up, and no read meets an uncorrectable word or a
quarantined channel. The Arcade has banks 0 to 9 of 4 MiB (log entry 103, DEDUCED, unsafe). -/
def State.peekOk (s : State) (write : Bool) (space a : Nat) : Bool :=
  a % 8 = 0 &&
    (match space with
     | 0 => decide (a < 2 ^ 35) && (s.hbm.status = 2 || s.hbm.status = 4) && (write || !s.hbm.bad (a / 32))
     | 1 => decide (a < 2 ^ 26) && decide (fld a 25 22 ≤ 9)
     | _ => false)

/-- A PEEK access that starts at Update-DR, with the result that the next Capture-DR gives (R622). What a bank of the Arcade holds at
an offset is stated nowhere: a read of it is free (log entry 188, DESIGN CHOICE, unsafe). -/
def State.peek (write : Bool) (space a d : Nat) (timely : Bool) (s : State) : State :=
  if !timely || !s.peekOk write space a then s.modTap fun p => { p with peekDone := true, peekError := true, peekData := 0 }
  else
    let done (v : Nat) (s : State) : State := s.modTap fun p => { p with peekDone := true, peekError := false, peekData := v }
    if space = 1 then (if write then done d s else done (s.free % 2 ^ 64) s.drawn)
    else if write then done d (s.peekWrite a d)
    else
      let (v, s1) := s.peekRead a
      done v s1

/-- The PEEK register as captured: done, error and data. -/
def Tap.peekWord (p : Tap) : Nat := b2n p.peekDone * 2 ^ 105 + b2n p.peekError * 2 ^ 104 + p.peekData

/-! ## The rows -/

/-- An instruction taken, with what its data register captures. -/
def State.tapTake (ir captured : Nat) (s : State) : State := s.modTap fun p => { p with ir := ir, captured := captured }

/-- TAP_RESET (R617). -/
def execTapReset (t : Nat) (s : State) : Host.Outcome State Fault Refusal := .next ((s.advance t).modTap fun p => { p with ir := 0x02 })

/-- IDCODE (R617). -/
def execIdcode (t : Nat) (s : State) : Host.Outcome State Fault Refusal := .next ((s.advance t).tapTake 0x02 0x13E7156B)

/-- Whether an instruction acts as BYPASS because the device is in MEWS state (R618). -/
def State.tapOff (s : State) : Bool := s.mews.dev = .mews

/-- EXTEST (R618, R619): `sample` is what the cells capture at the balls, `cells` what is shifted in. -/
def execExtest (t cells sample : Nat) (s : State) : Host.Outcome State Fault Refusal :=
  let s := s.advance t
  if s.tapOff then .next (s.tapTake 0x00 0)
  else .next (((s.tapTake 0x00 (sample % 2 ^ 177)).modTap fun p => { p with boundary := cells % 2 ^ 177 }).emit
    (.extest (extestDrives cells)))

/-- SAMPLE/PRELOAD (R618, R619). -/
def execSamplePreload (t cells sample : Nat) (s : State) : Host.Outcome State Fault Refusal :=
  let s := s.advance t
  if s.tapOff then .next (s.tapTake 0x01 0)
  else .next ((s.tapTake 0x01 (sample % 2 ^ 177)).modTap fun p => { p with boundary := cells % 2 ^ 177 })

/-- Opcodes of R618 other than BYPASS. -/
def tapOpcodes : List Nat := [0x00, 0x01, 0x02, 0x10, 0x11, 0x12]

/-- BYPASS (R618): every opcode that is not listed. -/
def execBypass (t opcode : Nat) (s : State) : Host.Outcome State Fault Refusal :=
  .next ((s.advance t).tapTake (if tapOpcodes.contains (opcode % 256) then 0xFF else opcode % 256) 0)

/-- MAILBOX (R621): the register is captured, then the word shifted in is taken, unless MGMT is busy
(log entry 102, DESIGN CHOICE, safe). -/
def execMailbox (t ctl data : Nat) (busy wait : Bool) (s : State) : Host.Outcome State Fault Refusal :=
  let (v, s1) := (s.advance t).mailboxCapture
  let refused := busy && ctl % 4 != 0
  let s2 := (s1.tapTake 0x10 v).modTap fun p => { p with mbBusy := refused }
  .next (if refused then s2 else s2.mailboxTake ctl data wait)

/-- PEEK (R622): the last result is captured; with `valid` an access starts. `timely` is whether it ends within 4 µs. -/
def execPeek (t : Nat) (valid write : Bool) (space addr data : Nat) (timely : Bool) (s : State) : Host.Outcome State Fault Refusal :=
  let s := s.advance t
  if s.tapOff then .next (s.tapTake 0x11 0)
  else
    let s1 := s.tapTake 0x11 s.tap.peekWord
    .next (if valid then s1.peek write (space % 16) (addr % 2 ^ 36) data timely else s1.modTap fun p => { p with peekDone := false })

/-- DIE_RESET (R618, R552): an entry to Run-Test/Idle with DIE_RESET as the instruction. -/
def execDieReset (t : Nat) (s : State) : Host.Outcome State Fault Refusal :=
  let s := (s.advance t).tapTake 0x12 0
  if s.tapOff || !s.mews.vaon then .next s else .next (s.dieReset 5)

end Sys2Proof.Machine
end

