-- ==== Sys2Proof/Machine/Dispatch.lean ====
section
/-! DEFINITION. One arm per command: each is one direct call of the command's meaning. -/

namespace Sys2Proof.Machine

/-- The effect of a command on everything but the queue. -/
def exec (i : Instr) (s : State) : Host.Outcome State Fault Refusal :=
  match i with
  | .gysolRequest t tr addr port plain frame wait => Sys2Proof.Machine.execGysolRequest t tr addr port plain frame wait s
  | .read t sid obj sub count shadow => Sys2Proof.Machine.execRead t sid obj sub count shadow s
  | .write t sid obj sub count data => Sys2Proof.Machine.execWrite t sid obj sub count data s
  | .describe t sid obj sub count => Sys2Proof.Machine.execDescribe t sid obj sub count s
  | .blobRead t sid obj sub offset length => Sys2Proof.Machine.execBlobRead t sid obj sub offset length s
  | .blobWrite t sid obj sub offset chunk last crc => Sys2Proof.Machine.execBlobWrite t sid obj sub offset chunk last crc s
  | .logRead t sid start count => Sys2Proof.Machine.execLogRead t sid start count s
  | .subscribe t sid mask => Sys2Proof.Machine.execSubscribe t sid mask s
  | .nop t sid => Sys2Proof.Machine.execNop t sid s
  | .sessionOpen t tr addr role resume nonce => Sys2Proof.Machine.execSessionOpen t tr addr role resume nonce s
  | .sessionClose t sid => Sys2Proof.Machine.execSessionClose t sid s
  | .pendingSessionTimeout t sid => Sys2Proof.Machine.execPendingSessionTimeout t sid s
  | .sessionTimeout t sid => Sys2Proof.Machine.execSessionTimeout t sid s
  | .blobStreamAbandon t obj sub => Sys2Proof.Machine.execBlobStreamAbandon t obj sub s
  | .eventPush t sid => Sys2Proof.Machine.execEventPush t sid s
  | .writeFrame t frame whole wait => Sys2Proof.Machine.execWriteFrame t frame whole wait s
  | .readStatus t => Sys2Proof.Machine.execReadStatus t s
  | .readFrame t => Sys2Proof.Machine.execReadFrame t s
  | .arpRequest t ip asker => Sys2Proof.Machine.execArpRequest t ip asker s
  | .icmpEcho t ip asker plain data => Sys2Proof.Machine.execIcmpEcho t ip asker plain data s
  | .stateRequestMews t sid => Sys2Proof.Machine.execStateRequestMews t sid s
  | .stateRequestStandby t sid => Sys2Proof.Machine.execStateRequestStandby t sid s
  | .stateRequestWarming t sid => Sys2Proof.Machine.execStateRequestWarming t sid s
  | .stateRequestSafe t sid => Sys2Proof.Machine.execStateRequestSafe t sid s
  | .unitCommand t sid unit value => Sys2Proof.Machine.execUnitCommand t sid unit value s
  | .unitForce t sid unit => Sys2Proof.Machine.execUnitForce t sid unit s
  | .mgmtUnitDisagree t unit => Sys2Proof.Machine.execMgmtUnitDisagree t unit s
  | .disagreeAllowanceExpiry t unit => Sys2Proof.Machine.execDisagreeAllowanceExpiry t unit s
  | .profileSave t sid => Sys2Proof.Machine.execProfileSave t sid s
  | .profileSaveComplete t ok => Sys2Proof.Machine.execProfileSaveComplete t ok s
  | .profileErase t sid => Sys2Proof.Machine.execProfileErase t sid s
  | .profileEraseComplete t => Sys2Proof.Machine.execProfileEraseComplete t s
  | .stageDiscard t sid => Sys2Proof.Machine.execStageDiscard t sid s
  | .roleKeyWrite t sid role key => Sys2Proof.Machine.execRoleKeyWrite t sid role key s
  | .commit t sid => Sys2Proof.Machine.execCommit t sid s
  | .commitValidationEnd t => Sys2Proof.Machine.execCommitValidationEnd t s
  | .seqrStageReady t => Sys2Proof.Machine.execSeqrStageReady t s
  | .hbmTrainFull t sid => Sys2Proof.Machine.execHbmTrainFull t sid s
  | .hbmTrainQuick t sid => Sys2Proof.Machine.execHbmTrainQuick t sid s
  | .hbmTrainingDone t ok chan step repairs fits => Sys2Proof.Machine.execHbmTrainingDone t ok chan step repairs fits s
  | .arrayRegAccessRead t sid ap addr => Sys2Proof.Machine.execArrayRegAccessRead t sid ap addr s
  | .arrayRegAccessWrite t sid ap addr data => Sys2Proof.Machine.execArrayRegAccessWrite t sid ap addr data s
  | .lampRegAccessRead t sid driver addr => Sys2Proof.Machine.execLampRegAccessRead t sid driver addr s
  | .lampRegAccessWrite t sid driver addr data => Sys2Proof.Machine.execLampRegAccessWrite t sid driver addr data s
  | .arcdLaneSwapCmd t sid ap lane => Sys2Proof.Machine.execArcdLaneSwapCmd t sid ap lane s
  | .repClear t sid band => Sys2Proof.Machine.execRepClear t sid band s
  | .traceArm t sid buffer => Sys2Proof.Machine.execTraceArm t sid buffer s
  | .chainCmdEnumerate t sid chain => Sys2Proof.Machine.execChainCmdEnumerate t sid chain s
  | .counterSnapshot t sid => Sys2Proof.Machine.execCounterSnapshot t sid s
  | .counterClear t sid mask => Sys2Proof.Machine.execCounterClear t sid mask s
  | .counterSourceWrite t sid counter source => Sys2Proof.Machine.execCounterSourceWrite t sid counter source s
  | .taskPendingEmpty t sid input => Sys2Proof.Machine.execTaskPendingEmpty t sid input s
  | .taskStickyClear t sid bits => Sys2Proof.Machine.execTaskStickyClear t sid bits s
  | .irqPendingClear t sid block bits => Sys2Proof.Machine.execIrqPendingClear t sid block bits s
  | .satStickyClear t sid band bits => Sys2Proof.Machine.execSatStickyClear t sid band bits s
  | .gpioFunctionWrite t sid gpio function => Sys2Proof.Machine.execGpioFunctionWrite t sid gpio function s
  | .gfxLinesChunk t sid gfx offset chunk last crc => Sys2Proof.Machine.execGfxLinesChunk t sid gfx offset chunk last crc s
  | .gfxPublish t sid gfx number => Sys2Proof.Machine.execGfxPublish t sid gfx number s
  | .spareApprove t sid area res => Sys2Proof.Machine.execSpareApprove t sid area res s
  | .spareReject t sid area res => Sys2Proof.Machine.execSpareReject t sid area res s
  | .spareRejectRecheck t area resource => Sys2Proof.Machine.execSpareRejectRecheck t area resource s
  | .sparePolicyWrite t sid policy => Sys2Proof.Machine.execSparePolicyWrite t sid policy s
  | .stringCommission t sid => Sys2Proof.Machine.execStringCommission t sid s
  | .resetCmd t sid => Sys2Proof.Machine.execResetCmd t sid s
  | .sweepStart t sid => Sys2Proof.Machine.execSweepStart t sid s
  | .sweepAbort t sid => Sys2Proof.Machine.execSweepAbort t sid s
  | .fwImageWrite t sid image => Sys2Proof.Machine.execFwImageWrite t sid image s
  | .mgmtFwUpdate t signed => Sys2Proof.Machine.execMgmtFwUpdate t signed s
  | .edidWrite t sid port edid => Sys2Proof.Machine.execEdidWrite t sid port edid s
  | .hpdReassert t port => Sys2Proof.Machine.execHpdReassert t port s
  | .wallJoin t sid id => Sys2Proof.Machine.execWallJoin t sid id s
  | .wallCommitStart t sid start => Sys2Proof.Machine.execWallCommitStart t sid start s
  | .ingsLinkUp t port rate lanes fmt => Sys2Proof.Machine.execIngsLinkUp t port rate lanes fmt s
  | .dpSymbolLockLost t port => Sys2Proof.Machine.execDpSymbolLockLost t port s
  | .dpRetrainTimeout t port => Sys2Proof.Machine.execDpRetrainTimeout t port s
  | .ingsFormatChange t port fmt => Sys2Proof.Machine.execIngsFormatChange t port fmt s
  | .currencySdp t port packet => Sys2Proof.Machine.execCurrencySdp t port packet s
  | .dpFrameStart t port => Sys2Proof.Machine.execDpFrameStart t port s
  | .dpLineReceived t port samples => Sys2Proof.Machine.execDpLineReceived t port samples s
  | .lineWriteAccepted t layer line => Sys2Proof.Machine.execLineWriteAccepted t layer line s
  | .dpFrameEnd t port => Sys2Proof.Machine.execDpFrameEnd t port s
  | .versionComplete t layer => Sys2Proof.Machine.execVersionComplete t layer s
  | .staticCopyComplete t layer ok => Sys2Proof.Machine.execStaticCopyComplete t layer ok s
  | .hbmReadReturn t port severity io => Sys2Proof.Machine.execHbmReadReturn t port severity io s
  | .rowShadowCopyDone t shadow => Sys2Proof.Machine.execRowShadowCopyDone t shadow s
  | .hbmcReqTimeout t port chan => Sys2Proof.Machine.execHbmcReqTimeout t port chan s
  | .hbmcParityReplay t chan pc kind replayed onReplay => Sys2Proof.Machine.execHbmcParityReplay t chan pc kind replayed onReplay s
  | .hbmRetrainDone t chan step ok => Sys2Proof.Machine.execHbmRetrainDone t chan step ok s
  | .hbmScrubPass t severity => Sys2Proof.Machine.execHbmScrubPass t severity s
  | .hbmDriftTrack t chan look => Sys2Proof.Machine.execHbmDriftTrack t chan look s
  | .hbmRefresh t pseudo postpone => Sys2Proof.Machine.execHbmRefresh t pseudo postpone s
  | .hbmStackTempRead t stack temp => Sys2Proof.Machine.execHbmStackTempRead t stack temp s
  | .hbmRowTrackerExpiry t stack entry => Sys2Proof.Machine.execHbmRowTrackerExpiry t stack entry s
  | .frameBoundary t late mismatch => Sys2Proof.Machine.execFrameBoundary t late mismatch s
  | .signatureFinal t region => Sys2Proof.Machine.execSignatureFinal t region s
  | .bandEstimateLatch t => Sys2Proof.Machine.execBandEstimateLatch t s
  | .scheduleDelivery t group found us => Sys2Proof.Machine.execScheduleDelivery t group found us s
  | .compileDeadline t group => Sys2Proof.Machine.execCompileDeadline t group s
  | .plgnPlaneLate t late => Sys2Proof.Machine.execPlgnPlaneLate t late s
  | .slotReset t group slot block => Sys2Proof.Machine.execSlotReset t group slot block s
  | .blockLoadWindow t ap slot block next inRing => Sys2Proof.Machine.execBlockLoadWindow t ap slot block next inRing s
  | .epochClear t group epoch block => Sys2Proof.Machine.execEpochClear t group epoch block s
  | .globalReset t group epoch => Sys2Proof.Machine.execGlobalReset t group epoch s
  | .pipWindow t group sums => Sys2Proof.Machine.execPipWindow t group sums s
  | .wheelMarkPass t wheel => Sys2Proof.Machine.execWheelMarkPass t wheel s
  | .seqrWheelPhase t wheel => Sys2Proof.Machine.execSeqrWheelPhase t wheel s
  | .fsyncEdge t width => Sys2Proof.Machine.execFsyncEdge t width s
  | .fsyncEdgeMissing t => Sys2Proof.Machine.execFsyncEdgeMissing t s
  | .fsyncLost t => Sys2Proof.Machine.execFsyncLost t s
  | .ack t ap msg => Sys2Proof.Machine.execAck t ap msg s
  | .status t ap msg => Sys2Proof.Machine.execStatus t ap msg s
  | .regData t ap msg => Sys2Proof.Machine.execRegData t ap msg s
  | .echo t ap msg => Sys2Proof.Machine.execEcho t ap msg s
  | .fault t ap msg => Sys2Proof.Machine.execFault t ap msg s
  | .lane t ap msg => Sys2Proof.Machine.execLane t ap msg s
  | .laneSwapSend t ap codeword => Sys2Proof.Machine.execLaneSwapSend t ap codeword s
  | .laneSwapCodeword t ap => Sys2Proof.Machine.execLaneSwapCodeword t ap s
  | .arcdLaneSpared t ap => Sys2Proof.Machine.execArcdLaneSpared t ap s
  | .arcdAckTimeout t ap => Sys2Proof.Machine.execArcdAckTimeout t ap s
  | .arcdReturnSilent t ap => Sys2Proof.Machine.execArcdReturnSilent t ap s
  | .keepaliveSend t ap => Sys2Proof.Machine.execKeepaliveSend t ap s
  | .arrayTraining t ap => Sys2Proof.Machine.execArrayTraining t ap s
  | .arrayTrainingDone t ap step regs roundTrip turnaround => Sys2Proof.Machine.execArrayTrainingDone t ap step regs roundTrip turnaround s
  | .loopTick t sums => Sys2Proof.Machine.execLoopTick t sums s
  | .loopFeedbackLost t band => Sys2Proof.Machine.execLoopFeedbackLost t band s
  | .loopImplausible t band => Sys2Proof.Machine.execLoopImplausible t band s
  | .bandFrozen t band => Sys2Proof.Machine.execBandFrozen t band s
  | .bandClose t band => Sys2Proof.Machine.execBandClose t band s
  | .warmRampComplete t band => Sys2Proof.Machine.execWarmRampComplete t band s
  | .calFreeze t band => Sys2Proof.Machine.execCalFreeze t band s
  | .pilotRunEnd t band => Sys2Proof.Machine.execPilotRunEnd t band s
  | .traceTrigger t buffer => Sys2Proof.Machine.execTraceTrigger t buffer s
  | .loopTraceDone t buffer => Sys2Proof.Machine.execLoopTraceDone t buffer s
  | .applyLaunch t bands => Sys2Proof.Machine.execApplyLaunch t bands s
  | .setSend t chain bands ahead bank at_ => Sys2Proof.Machine.execSetSend t chain bands ahead bank at_ s
  | .statusFrameSend t chain => Sys2Proof.Machine.execStatusFrameSend t chain s
  | .lampFrameReturn t chain frame => Sys2Proof.Machine.execLampFrameReturn t chain frame s
  | .lampDriverLost t driver => Sys2Proof.Machine.execLampDriverLost t driver s
  | .lampChainDown t chain cause => Sys2Proof.Machine.execLampChainDown t chain cause s
  | .chainEnumerate t chain count regs loop => Sys2Proof.Machine.execChainEnumerate t chain count regs loop s
  | .lampInterlock t input => Sys2Proof.Machine.execLampInterlock t input s
  | .interlockClose t input => Sys2Proof.Machine.execInterlockClose t input s
  | .lampIntlkDiscrepancy t => Sys2Proof.Machine.execLampIntlkDiscrepancy t s
  | .slowConversion t code vio => Sys2Proof.Machine.execSlowConversion t code vio s
  | .lampSensorLost t channel => Sys2Proof.Machine.execLampSensorLost t channel s
  | .lampRail t channel => Sys2Proof.Machine.execLampRail t channel s
  | .wheelRun t wheel => Sys2Proof.Machine.execWheelRun t wheel s
  | .wheelStop t wheel => Sys2Proof.Machine.execWheelStop t wheel s
  | .whelCatch t wheel amp => Sys2Proof.Machine.execWhelCatch t wheel amp s
  | .alignEnd t wheel => Sys2Proof.Machine.execAlignEnd t wheel s
  | .openLoopHandover t wheel => Sys2Proof.Machine.execOpenLoopHandover t wheel s
  | .whelStartFail t wheel => Sys2Proof.Machine.execWhelStartFail t wheel s
  | .wheelLocked t wheel => Sys2Proof.Machine.execWheelLocked t wheel s
  | .zeroCrossing t wheel period late backward => Sys2Proof.Machine.execZeroCrossing t wheel period late backward s
  | .pwmPeriodSample t wheel micro => Sys2Proof.Machine.execPwmPeriodSample t wheel micro s
  | .wheelFaultInput t wheel low => Sys2Proof.Machine.execWheelFaultInput t wheel low s
  | .indexEdge t wheel period width => Sys2Proof.Machine.execIndexEdge t wheel period width s
  | .indexMissing t wheel => Sys2Proof.Machine.execIndexMissing t wheel s
  | .whelLockLost t wheel cause => Sys2Proof.Machine.execWhelLockLost t wheel cause s
  | .wheelRecoveryTimeout t wheel => Sys2Proof.Machine.execWheelRecoveryTimeout t wheel s
  | .wheelStandstill t wheel => Sys2Proof.Machine.execWheelStandstill t wheel s
  | .wheelCoastTimeout t wheel => Sys2Proof.Machine.execWheelCoastTimeout t wheel s
  | .hello t port intact payload ser => Sys2Proof.Machine.execHello t port intact payload ser s
  | .helloSend t aligned => Sys2Proof.Machine.execHelloSend t aligned s
  | .helloTimeout t port => Sys2Proof.Machine.execHelloTimeout t port s
  | .uaneLockLost t port lane => Sys2Proof.Machine.execUaneLockLost t port lane s
  | .uanePortTraining t port locked => Sys2Proof.Machine.execUanePortTraining t port locked s
  | .uaneTrainingTimeout t port => Sys2Proof.Machine.execUaneTrainingTimeout t port s
  | .uaneLaneSwap t port sending => Sys2Proof.Machine.execUaneLaneSwap t port sending s
  | .topo t src payload => Sys2Proof.Machine.execTopo t src payload s
  | .topoSend t => Sys2Proof.Machine.execTopoSend t s
  | .topoStale t => Sys2Proof.Machine.execTopoStale t s
  | .uaneTime t port payload tenths => Sys2Proof.Machine.execUaneTime t port payload tenths s
  | .timeSend t => Sys2Proof.Machine.execTimeSend t s
  | .uaneFrameForward t port frame tenths named => Sys2Proof.Machine.execUaneFrameForward t port frame tenths named s
  | .voteReport t report => Sys2Proof.Machine.execVoteReport t report s
  | .agreement t agreement => Sys2Proof.Machine.execAgreement t agreement s
  | .agreementIssue t => Sys2Proof.Machine.execAgreementIssue t s
  | .agreementRepeat t => Sys2Proof.Machine.execAgreementRepeat t s
  | .lease t lease => Sys2Proof.Machine.execLease t lease s
  | .leaseExpiry t => Sys2Proof.Machine.execLeaseExpiry t s
  | .prepare t src id => Sys2Proof.Machine.execPrepare t src id s
  | .ready t node id => Sys2Proof.Machine.execReady t node id s
  | .refused t id => Sys2Proof.Machine.execRefused t id s
  | .go t src id g => Sys2Proof.Machine.execGo t src id g s
  | .commitAck t node id => Sys2Proof.Machine.execCommitAck t node id s
  | .abort t id => Sys2Proof.Machine.execAbort t id s
  | .prepareRepeat t => Sys2Proof.Machine.execPrepareRepeat t s
  | .goRepeat t => Sys2Proof.Machine.execGoRepeat t s
  | .wallJoinTimeout t => Sys2Proof.Machine.execWallJoinTimeout t s
  | .wallJoinExpiry t => Sys2Proof.Machine.execWallJoinExpiry t s
  | .seqrWallCommit t => Sys2Proof.Machine.execSeqrWallCommit t s
  | .lumaReport t node report => Sys2Proof.Machine.execLumaReport t node report s
  | .lumaSet t set => Sys2Proof.Machine.execLumaSet t set s
  | .lumaSetRepeat t => Sys2Proof.Machine.execLumaSetRepeat t s
  | .sweepStep t master payload => Sys2Proof.Machine.execSweepStep t master payload s
  | .sweepResult t node payload => Sys2Proof.Machine.execSweepResult t node payload s
  | .sweepCollect t master sweep => Sys2Proof.Machine.execSweepCollect t master sweep s
  | .sweepEnd t sweep => Sys2Proof.Machine.execSweepEnd t sweep s
  | .sweepStepTimeout t => Sys2Proof.Machine.execSweepStepTimeout t s
  | .mgmtSweep t => Sys2Proof.Machine.execMgmtSweep t s
  | .pixel t src spec payload => Sys2Proof.Machine.execPixel t src spec payload s
  | .pixelEnd t src spec payload => Sys2Proof.Machine.execPixelEnd t src spec payload s
  | .transitLineSend t stream line => Sys2Proof.Machine.execTransitLineSend t stream line s
  | .transitEndTimeout t layer => Sys2Proof.Machine.execTransitEndTimeout t layer s
  | .mgmt t port src spec payload => Sys2Proof.Machine.execMgmt t port src spec payload s
  | .ptpMessage t msg => Sys2Proof.Machine.execPtpMessage t msg s
  | .ppsEdge t rises => Sys2Proof.Machine.execPpsEdge t rises s
  | .eventOccurrence t occs => Sys2Proof.Machine.execEventOccurrence t occs s
  | .xrdsEventsLost t => Sys2Proof.Machine.execXrdsEventsLost t s
  | .taskActivation t input => Sys2Proof.Machine.execTaskActivation t input s
  | .gpioPulseEnd t gpio => Sys2Proof.Machine.execGpioPulseEnd t gpio s
  | .dieTempConversion t temps => Sys2Proof.Machine.execDieTempConversion t temps s
  | .mewsThermalWarn t => Sys2Proof.Machine.execMewsThermalWarn t s
  | .mewsThermalThrottle t => Sys2Proof.Machine.execMewsThermalThrottle t s
  | .mewsThermalShutdown t => Sys2Proof.Machine.execMewsThermalShutdown t s
  | .thermalDieReset t => Sys2Proof.Machine.execThermalDieReset t s
  | .dieSensorExcluded t sensor => Sys2Proof.Machine.execDieSensorExcluded t sensor s
  | .throttleInterval t => Sys2Proof.Machine.execThrottleInterval t s
  | .lampBoardLevel t channel => Sys2Proof.Machine.execLampBoardLevel t channel s
  | .lampThrottleInterval t => Sys2Proof.Machine.execLampThrottleInterval t s
  | .rcTrimUpdate t error => Sys2Proof.Machine.execRcTrimUpdate t error s
  | .crystalCheck t cycles => Sys2Proof.Machine.execCrystalCheck t cycles s
  | .crystalEdgeTimeout t => Sys2Proof.Machine.execCrystalEdgeTimeout t s
  | .mewsWear t area resource state value => Sys2Proof.Machine.execMewsWear t area resource state value s
  | .bankSwapMirrored t => Sys2Proof.Machine.execBankSwapMirrored t s
  | .clksSpared t => Sys2Proof.Machine.execClksSpared t s
  | .stringRampEnd t => Sys2Proof.Machine.execStringRampEnd t s
  | .mgmtCoreSpared t core held sectors => Sys2Proof.Machine.execMgmtCoreSpared t core held sectors s
  | .mgmtFwWatchdog t task held sectors retained => Sys2Proof.Machine.execMgmtFwWatchdog t task held sectors retained s
  | .busTransactionTimeout t area answered => Sys2Proof.Machine.execBusTransactionTimeout t area answered s
  | .mewsWatchdog t => Sys2Proof.Machine.execMewsWatchdog t s
  | .watchdogDieReset t => Sys2Proof.Machine.execWatchdogDieReset t s
  | .autoWarmRequest t => Sys2Proof.Machine.execAutoWarmRequest t s
  | .mgmtLeaseRevoked t lease sectors => Sys2Proof.Machine.execMgmtLeaseRevoked t lease sectors s
  | .clksLocked t pll band err => Sys2Proof.Machine.execClksLocked t pll band err s
  | .clksBandMiss t pll => Sys2Proof.Machine.execClksBandMiss t pll s
  | .clksLockLost t pll err => Sys2Proof.Machine.execClksLockLost t pll err s
  | .clksHoldoverLimit t pll => Sys2Proof.Machine.execClksHoldoverLimit t pll s
  | .clksRefLost t => Sys2Proof.Machine.execClksRefLost t s
  | .refGood t => Sys2Proof.Machine.execRefGood t s
  | .domainGate t domain idle => Sys2Proof.Machine.execDomainGate t domain idle s
  | .powerOn t => Sys2Proof.Machine.execPowerOn t s
  | .resetNLow t => Sys2Proof.Machine.execResetNLow t s
  | .railOutOfRange t rail => Sys2Proof.Machine.execRailOutOfRange t rail s
  | .railRecovered t => Sys2Proof.Machine.execRailRecovered t s
  | .resetRelease t sigs eeprom kib sfdp logOk => Sys2Proof.Machine.execResetRelease t sigs eeprom kib sfdp logOk s
  | .bootComplete t => Sys2Proof.Machine.execBootComplete t s
  | .bootRetry t sigs => Sys2Proof.Machine.execBootRetry t sigs s
  | .wakeGpioEdge t gpio rising => Sys2Proof.Machine.execWakeGpioEdge t gpio rising s
  | .wakeTimer t => Sys2Proof.Machine.execWakeTimer t s
  | .tapReset t => Sys2Proof.Machine.execTapReset t s
  | .idcode t => Sys2Proof.Machine.execIdcode t s
  | .extest t cells sample => Sys2Proof.Machine.execExtest t cells sample s
  | .samplePreload t cells sample => Sys2Proof.Machine.execSamplePreload t cells sample s
  | .bypass t opcode => Sys2Proof.Machine.execBypass t opcode s
  | .mailbox t ctl data busy wait => Sys2Proof.Machine.execMailbox t ctl data busy wait s
  | .peek t valid write space addr data timely => Sys2Proof.Machine.execPeek t valid write space addr data timely s
  | .dieReset t => Sys2Proof.Machine.execDieReset t s
  | .uaneFramingLost t port => Sys2Proof.Machine.execUaneFramingLost t port s
  | .vaonRemoved t => Sys2Proof.Machine.execVaonRemoved t s
  | .wakeResetNRise t => Sys2Proof.Machine.execWakeResetNRise t s
  | .gpioInputEdge t gpio high => Sys2Proof.Machine.execGpioInputEdge t gpio high s
  | .cyclesCounterCompare t domain cycles => Sys2Proof.Machine.execCyclesCounterCompare t domain cycles s
  | .gatewayTagExpiry t tag => Sys2Proof.Machine.execGatewayTagExpiry t tag s
  | .dpLinkTrainingFail t port rate lanes => Sys2Proof.Machine.execDpLinkTrainingFail t port rate lanes s
  | .synthesiserSearchFailed t pll => Sys2Proof.Machine.execSynthesiserSearchFailed t pll s

end Sys2Proof.Machine
end

