-- ==== Sys2Proof/Safety.lean ====
section
/-! DEFINITION. What counts as a safe run: the block goes on, its memory and dictionary stay canonical, its queues stay within their
bounds, and what it has sent stays sent. -/

namespace Sys2Proof.Machine

/-- An outcome that goes on. -/
def Goes (o : Host.Outcome State Fault Refusal) : Prop := ∃ t, o = .next t

/-- A sparse map in its one canonical form: keys rise strictly, and no entry equals what an unlisted key reads as. -/
def Canon {α : Type} (d : α) (m : List (Nat × α)) : Prop := mapRising m = true ∧ ∀ e ∈ m, e.2 ≠ d

/-- Frame memory in canonical form (R114, R119; log entry 6, DESIGN CHOICE, unsafe). -/
def Hbm.Ok (h : Hbm) : Prop := Canon 0 h.words ∧ Canon 0 h.raw

/-- The dictionary's running and staged values have rising keys (R44, R59). -/
def Dict.Ok (d : Dict) : Prop := mapRising d.vals = true ∧ mapRising d.shadow = true

/-- The log holds at most 4,096 records, the capture queue at most 256 (R65, R477). -/
def Xrds.Ok (x : Xrds) : Prop := x.log.length ≤ 4096 ∧ x.queue.length ≤ 256

/-- At most 8 sessions, and at most 32 request frames in the queue (R58, R74). -/
def Gysol.Ok (g : Gysol) : Prop := g.sessions.length ≤ 8 ∧ g.queue.length ≤ 32

/-- The invariant of the block. -/
structure State.Ok (s : State) : Prop where
  hbm : s.hbm.Ok
  dict : s.dict.Ok
  xrds : s.xrds.Ok
  gysol : s.gysol.Ok

/-- What a command may do to the state around its own effect: the commands that wait stay as they are, local time never runs back,
what has been sent stays sent, and the invariant is kept. -/
structure Kept (s t : State) : Prop where
  queue : t.pending = s.pending
  clock : s.now ≤ t.now
  sent : s.outs <+: t.outs
  ok : s.Ok → t.Ok

/-- An outcome that goes on within these bounds. -/
def KeepsGoing (s : State) (o : Host.Outcome State Fault Refusal) : Prop := ∃ t, o = .next t ∧ Kept s t

/-! ## A session's operation -/

/-- Session `sid` is session `x` when a command of time `t` comes, and the host interface serves it (R58, R71). -/
structure State.Serves (s : State) (t sid : Nat) (x : Session) : Prop where
  running : (s.advance t).firm.running = true
  numbered : sid ≠ 0 ∧ sid ≠ 0xFFFF
  session : (s.advance t).session sid = some x

/-- The state in which an operation of session `x` runs: time has moved on, and the session counts as used (R74–R77). -/
def State.served (t sid : Nat) (x : Session) (s : State) : State :=
  (s.advance t).modSession sid (Session.touch (s.advance t).now x.transport x.addr x.key)

/-- A write of one number of `w` bytes passes every check of R57. -/
def State.Accepts (s : State) (sid : Nat) (x : Session) (obj sub w v : Nat) : Prop :=
  s.checkWrite ⟨sid, x.role⟩ obj sub 1 (toLE w v) = none

/-- A command's status kept for its reads, and answered (R9). -/
def State.commandDone (sid obj sub st : Nat) (s : State) : State :=
  (s.modDict fun d => { d with cmdStatus := mapPut d.cmdStatus (okey obj sub) st }).emit (.answer sid 0x02 st [])

/-- A chunk of a BLOB's stream passes the checks that every chunk gets (R54): `before` is what its stream holds so far. -/
structure State.TakesChunk (s : State) (sid : Nat) (x : Session) (obj sub : Nat) (d : Desc) (before chunk : Bytes) : Prop where
  leaf : leafOf obj sub = some d
  blob : d.ty = .blob
  exists_ : checkObject obj sub 1 = none
  role : checkRole x.role obj sub 1 = none
  own : ∀ y, s.stream (okey obj sub) = some y → y.sid = sid ∧ y.data = before
  fresh : s.stream (okey obj sub) = none → before = []
  length : before.length + chunk.length ≤ (blobBounds d).2
  header : headerDone obj before (before ++ chunk) = true → s.gfxHeaderOk sub ((before ++ chunk).take 32) = true
  written : obj = 0x6032 → s.hbm.beFailed = false

/-- The last chunk of a stream completes a BLOB that its object takes (R54, R57). -/
structure State.TakesLast (s : State) (sid obj sub : Nat) (d : Desc) (whole : Bytes) : Prop where
  length : (blobBounds d).1 ≤ whole.length
  value : first (s.blobRefuses obj sub whole) (s.checkStage sid obj (d.acc = .rs)) = none

/-! ## Request frames over UDP -/

/-- A frame over UDP that this node's host interface serves at once: well-formed, for this node and no other, of version 1, within the
payload limit and without SESSION_OPEN (R49–R51, R56, R57, R632). -/
structure State.Gets (s : State) (frame : Bytes) (q : GReq) : Prop where
  running : s.firm.running = true
  free : s.firm.restartUntil ≤ s.now
  empty : s.gysol.queue = []
  parsed : readReq frame = some q
  here : q.node = 0 ∨ q.node = s.uane.node
  one : q.node ≠ 0xFFFF
  version : q.version = 1
  length : q.len ≤ 1400
  noOpen : ∀ o ∈ q.ops, o.code ≠ 0x10
  noView : s.unisonView = none
  noWait : s.atomicWaits frame = false

/-- The frame is a request of session `x` with extended number `e`, and its tag is good under the session's one key (R62, R73). -/
structure State.GetsIn (s : State) (frame : Bytes) (q : GReq) (x : Session) (e : Int) : Prop where
  gets : s.Gets frame q
  tagged : q.tagged = true
  numbered : q.sid ≠ 0
  session : s.session q.sid = some x
  oneKey : x.newKey = none
  number : extend x.last q.seq = e
  tag : frameTag x.key (tagNum e) q.body = q.tag

/-- A frame that R73 drops: without a tag in a session, with a tag in none, or with a tag that fails under every key of its session. -/
def State.Forged (s : State) (q : GReq) : Prop :=
  (q.tagged = false ∧ q.sid ≠ 0) ∨ (q.tagged = true ∧ q.sid = 0) ∨
  (q.tagged = true ∧ q.sid ≠ 0 ∧ ∃ x, s.session q.sid = some x ∧
    ∀ k, (k = x.key ∨ x.newKey = some k) → frameTag k (tagNum (extend x.last q.seq)) q.body ≠ q.tag)

/-- What a request may change in a session's replay window (R62, R63). -/
def State.replayWindows (s : State) : List (Nat × Nat × List Int × List (Int × Nat × Bytes)) :=
  s.gysol.sessions.map fun x => (x.id, x.last, x.executed, x.cache)

/-- The state in which the operations of a new request of session `x` over UDP run (R62, R74, R77). -/
def State.opened (x : Session) (e : Int) (addr : Nat) (s : State) : State :=
  (s.modSession x.id fun y => { y.touch s.now .udp addr x.key with view := false }).modSession x.id fun y =>
    { y with last := raiseLast y.last e }

/-! ## Runs -/

/-- `n` steps, one command each; none where a step stops. -/
def runSteps : Nat → State → Option State
  | 0, s => some s
  | n + 1, s =>
    match step s with
    | .next t => runSteps n t
    | _ => none

/-! ## Frames -/

/-- The parts of the block that a frame speaks of. Time, the queue of commands, event capture and the pushes that it feeds are left
out: they may move with every command. -/
inductive Part where
  | dict | units | mews | clks | firm | ings | hbm | curg | plaz | seqr | uane | coh | colr | plgn | arcd | loop | lamp | whel | therm
  | tap | outs
  deriving DecidableEq, Repr

/-- Two states agree on a part. -/
def Part.Same (p : Part) (s t : State) : Prop :=
  match p with
  | .dict => t.dict = s.dict
  | .units => t.units = s.units
  | .mews => t.mews = s.mews
  | .clks => t.clks = s.clks
  | .firm => t.firm = s.firm
  | .ings => t.ings = s.ings
  | .hbm => t.hbm = s.hbm
  | .curg => t.curg = s.curg
  | .plaz => t.plaz = s.plaz
  | .seqr => t.seqr = s.seqr
  | .uane => t.uane = s.uane
  | .coh => t.coh = s.coh
  | .colr => t.colr = s.colr
  | .plgn => t.plgn = s.plgn
  | .arcd => t.arcd = s.arcd
  | .loop => t.loop = s.loop
  | .lamp => t.lamp = s.lamp
  | .whel => t.whel = s.whel
  | .therm => t.therm = s.therm
  | .tap => t.tap = s.tap
  | .outs => t.outs = s.outs

/-- The parts of a list are the only ones in which `t` may differ from `s`. -/
def OnlyMoves (ps : List Part) (s t : State) : Prop := ∀ p, p ∉ ps → p.Same s t

/-- What an outcome leaves alone: it goes on, to a state that differs in these parts only. -/
def MovesOnly (ps : List Part) (s : State) (o : Host.Outcome State Fault Refusal) : Prop := ∃ t, o = .next t ∧ OnlyMoves ps s t

end Sys2Proof.Machine
end

