-- ==== Sys2Proof/Certificates/Slice0/Obligations.lean ====
section
/-! DEFINITION. The statements for the provers. -/

open Sys2Proof Sys2Proof.Machine

/-- A step takes the command at the front of the queue and runs it with the queue's rest (the queue is the model's, log entry 3). -/
def Obligations.StepRunsFront : Prop :=
  ∀ (c : Instr) (rest : List Instr) (s : State),
    Sys2Proof.Machine.step { s with pending := c :: rest } = exec c { s with pending := rest }

/-- An empty queue idles, and no word spells a command (log entry 3). -/
def Obligations.EmptyQueueIdles : Prop :=
  (∀ s : State, s.pending = [] → Sys2Proof.Machine.step s = .next s) ∧
  ∀ (nbits w : Nat) (s : State), Sys2Proof.decodeTableWord nbits w = none ∧ s.withFetchWord nbits w = s

/-- What reset leaves (R47, R60, R74, R490, R617). The queue and the record of outputs are the model's own (log entries 3 and 16). -/
def Obligations.ResetValues : Prop :=
  State.reset.pending = [] ∧ State.reset.outs = [] ∧ State.reset.gysol.sessions = [] ∧ State.reset.gysol.queue = [] ∧
  State.reset.dict.shadow = [] ∧ State.reset.dict.owner = 0 ∧ State.reset.dict.isSealed = false ∧
  State.reset.xrds.counters = List.replicate 64 0 ∧ State.reset.xrds.pending = List.replicate 38 0 ∧
  State.reset.xrds.irqPending = 0 ∧ State.reset.xrds.log = [] ∧ State.reset.xrds.queue = [] ∧
  State.reset.hbm.words = [] ∧ State.reset.tap.ir = 0x02 ∧ State.reset.mews.dev.lit = false ∧
  ∀ obj sub, State.reset.num obj sub = (dfltVal obj sub).toNat

/-- The invariant holds after reset. -/
def Obligations.ResetMeetsInvariant : Prop := State.reset.Ok

/-- Every step keeps the invariant (R58, R65, R74, R477). -/
def Obligations.StepKeepsInvariant : Prop :=
  ∀ s t : State, s.Ok → Sys2Proof.Machine.step s = .next t → t.Ok

/-- Every command goes on within the bounds of Safety.lean. -/
def Obligations.EveryCommandGoesOn : Prop := ∀ (c : Instr) (s : State), KeepsGoing s (exec c s)

/-- Every queue drains in its own length (log entry 3). -/
def Obligations.QueueDrains : Prop :=
  ∀ s : State, ∃ t, runSteps s.pending.length s = some t ∧ t.pending = [] ∧ s.now ≤ t.now ∧ s.outs <+: t.outs ∧ (s.Ok → t.Ok)

/-- Rows of the frame memory complete (R95–R140). -/
def Obligations.FrameMemoryRowsComplete : Prop :=
  ∀ (s u : State) (t : Nat), u = s.advance t →
    (∀ ch step repairs fits v, u.hbm.training ≠ 0 → v = repairs.foldl State.hbmLaneRepair u →
      exec (.hbmTrainingDone t true ch step repairs fits) s = .next ((v.modHbm fun h =>
        { h.fitted (h.training = 2) fits with
          training := 0, retrying := false, status := if u.mews.dev = .standby || u.mews.dev = .safe then 3 else 2
          scrubAt := u.now
          chans := (h.fitted (h.training = 2) fits).chans.map fun c =>
            { c with st := 0, recur := 0, retry := [], replay := [], driftAt := u.now } }).dropLease 2)) ∧
    (∀ ch step fits, u.hbm.training = 1 →
      exec (.hbmTrainingDone t false ch step [] fits) s = .next (((u.modHbm fun h => { h with
        training := 0, retrying := false, status := 4, chans := modAt h.chans ch fun c => { c with st := 3 } }).dropLease 2).raise
          0x51 ch step)) ∧
    (∀ port severity io v x w, u.hbm.turnedAway io = [] → v = u.hbmTraffic io → (v.hbm.ports.getD port {}).oldestRead = some x →
      (v.hbm.chans.getD (rowOf v.hbm.grain (x.word * 32)).chan {}).replay.contains (x.word, false) = false →
      w = (v.modHbm fun h => { h with ports := modAt h.ports port HPort.returned }).hbmSeverity (x.word * 32) severity →
      exec (.hbmReadReturn t port severity io) s = .next
        (if w.hbm.bad x.word then (w.clientFailed port x.word false).portLevels else w.portLevels)) ∧
    (∀ port severity io, u.hbm.turnedAway io = [] → ((u.hbmTraffic io).hbm.ports.getD port {}).oldestRead = none →
      exec (.hbmReadReturn t port severity io) s = .next (u.hbmTraffic io).portLevels) ∧
    (∀ n h, u.hbm.shadows.getD n none = some h → h.copying = true →
      exec (.rowShadowCopyDone t n) s = .next ((u.modHbm fun m =>
        { m with shadows := setAt m.shadows n (some (h.filled m)) }).raise 0x4E h.at_.chan h.at_.data)) ∧
    (∀ chan pc kind n, exec (.hbmcParityReplay t chan pc kind n false) s = .next ((u.modHbm fun h =>
      { h with chans := modAt h.chans chan fun c => { c with
          replays := (c.replays + 1) % 2 ^ 32, recur := 0, replay := c.retry.drop (c.retry.length - n)
          st := if c.st = 0 && !(c.retry.drop (c.retry.length - n)).isEmpty then 1 else c.st
          parityEvent := if msGap (u.hbm.chans.getD chan {}).parityEvent u.now then some u.now
            else c.parityEvent } }).raiseLimited
        (msGap (u.hbm.chans.getD chan {}).parityEvent u.now) 0x48 chan (kind % 2 * 32768 + pc % 2 * 256 + n % 256))) ∧
    (∀ chan step, (u.hbm.chans.getD chan {}).st = 2 →
      exec (.hbmRetrainDone t chan step true) s = .next (u.modHbm fun h =>
        { h with chans := modAt h.chans chan fun c => { c with st := 0 } }) ∧
      exec (.hbmRetrainDone t chan step false) s = .next ((u.modHbm fun h =>
        { h with chans := modAt h.chans chan fun c => { c with st := 3 } }).raise 0x51 chan step)) ∧
    (∀ severity, u.hbm.status = 2 → u.hbm.scrubAt + u.scrubGap ≤ u.now →
      (u.hbm.ports.any fun p => p.queue.any fun x => x.write && x.word = u.hbm.scrubNext) = false →
      exec (.hbmScrubPass t severity) s = .next ((u.hbmSeverity (u.hbm.scrubNext * 32) severity).modHbm fun h =>
        { h with scrubNext := (u.hbm.scrubNext + 1) % 2 ^ 30, scrubAt := h.scrubAt + u.scrubGap })) ∧
    (∀ chan look, u.hbm.status = 2 → (u.hbm.chans.getD chan {}).st = 0 → (u.hbm.chans.getD chan {}).driftAt + 100000000 ≤ u.now →
      exec (.hbmDriftTrack t chan look) s = .next (u.modHbm fun h =>
        { h with chans := modAt h.chans chan (HChan.tracked u.now look) })) ∧
    (∀ pseudo, exec (.hbmRefresh t pseudo false) s = .next (u.modHbm fun h =>
      { h with postponed := setAt h.postponed pseudo 0 })) ∧
    (∀ pseudo, (u.hbm.ports.any fun p => p.panic || p.panicW) = true → natAt u.hbm.postponed pseudo < 8 →
      exec (.hbmRefresh t pseudo true) s = .next (u.modHbm fun h =>
        { h with postponed := setAt h.postponed pseudo (natAt u.hbm.postponed pseudo + 1) })) ∧
    (∀ stack (temp : Int), 1360 < temp → u.hbm.hot.getD stack false = false →
      exec (.hbmStackTempRead t stack temp) s = .next ((u.modHbm fun h =>
        { h with temps := setAt h.temps stack (satS16 temp), hot := setAt h.hot stack true }).raise 0x53 stack 1)) ∧
    (∀ stack entry tr, u.hbm.trackers[stack]? = some tr → (∃ e, tr[entry]? = some e ∧ e.last + 86400000000000 ≤ u.now) →
      exec (.hbmRowTrackerExpiry t stack entry) s = .next (u.modHbm fun h =>
        { h with trackers := setAt h.trackers stack (tr.eraseIdx entry) })) ∧
    (∀ port chan i x, u.overdue port chan = some i → (u.hbm.ports.getD port {}).queue[i]? = some x →
      exec (.hbmcReqTimeout t port chan) s = .next ((((u.modHbm fun h =>
        { h with ports := modAt h.ports port fun p => { p with queue := p.queue.eraseIdx i } }).clientFailed
          port x.word x.write).hbmTimeout port chan).portLevels))

/-- Rows of the DisplayPort ports complete (R88–R113). -/
def Obligations.IngestRowsComplete : Prop :=
  ∀ (s u : State) (t port : Nat), u = s.advance t →
    (∀ rate lanes fmt, (u.port port).canTrain rate lanes = true →
      exec (.ingsLinkUp t port rate lanes fmt) s = .next ((((u.abortPort port).modPort port fun p =>
        { p with rate := rate, lanes := lanes, lostAt := none, dpcd := .trained }).raise 0x3A port (rate * 256 + lanes)).checkFormat
          port fmt)) ∧
    (u.obs (wPort port) = 2 ∨ u.obs (wPort port) = 3 →
      exec (.dpSymbolLockLost t port) s = .next (((((u.abortPort port).modPort port fun p => { p with
        lostAt := some u.now, dpcd := .lost, rate := 0, lanes := 0, fmt := none, good := false }).setObs (wPort port) 1).raise
          0x3B port 1).emit
          (.pulse (.irqHpd port) 750000))) ∧
    (∀ l, (u.port port).lostAt = some l → u.obs (wPort port) = 1 → l + 1000000000 ≤ u.now →
      exec (.dpRetrainTimeout t port) s = .next (u.dropHpd port (some (u.now + 500000000)))) ∧
    (∀ fmt, exec (.ingsFormatChange t port fmt) s = .next (((u.abortPort port).raise 0x41 port
      (fmt.enc * 256 + fmt.depth % 16 * 16 + fmt.colr % 16)).checkFormat port fmt)) ∧
    (∀ packet d, readSdp (Config.sdpOui % 2 ^ 24) (u.port port).active packet = .good d → (u.port port).sdp = none →
      exec (.currencySdp t port packet) s = .next (u.modPort port fun p => { p with sdp := some d })) ∧
    ((u.port port).good = true → u.obs (wPort port) = 2 →
      exec (.dpFrameStart t port) s = .next ((u.fedLayers port).foldl (State.layerFrameStart port (u.port port).sdp u.wall)
        (((u.fedLayers port).foldl State.setAside u).modPort port fun p =>
          { p with active := true, lines := 0, arrival := u.wall, dropRest := false, chroma := ([], []), held := none, sdp := none }))) ∧
    (∀ f samples v, (u.port port).active = true → (u.port port).good = true → (u.port port).fmt = some f →
      (u.port port).dropRest = false → (u.port port).lines < f.height →
      v = u.modPort port (fun p => { p with lines := p.lines + 1 }) → v.lineBufferFull port = false →
      exec (.dpLineReceived t port samples) s = .next (
        if f.enc = 3 then v.pairLine port (u.port port).lines f samples
        else (v.fedLayers port).foldl (State.layerLine (u.port port).lines (linePixels f samples ([], []))) v)) ∧
    (∀ layer line, (u.vlayer layer).finishing = none →
      exec (.lineWriteAccepted t layer line) s = .next (u.modLayer layer fun l => { l with
        writing := l.writing.map fun w =>
          if (bit w.got line && !bit w.skipped line) = true then { w with acc := w.acc ||| 2 ^ line } else w })) ∧
    (∀ f, (u.port port).active = true → (u.port port).good = true → (u.port port).fmt = some f → (u.port port).dropRest = false →
      (u.port port).held = none →
      exec (.dpFrameEnd t port) s = .next ((u.fedLayers port).foldl (State.layerFrameEnd (u.port port).lines f.height)
        (u.modPort port fun p => { p with active := false, lines := 0, dropRest := false }))) ∧
    (∀ layer w v, (u.vlayer layer).finishing = none → (u.vlayer layer).writing = some w →
      (u.vlayer layer).versions.head? = some v → w.copying = true →
      exec (.staticCopyComplete t layer true) s = .next ((u.modHbm fun h =>
        ((upTo w.rows).filter (bit w.skipped)).foldl (fun h y => h.putPixels (layer + 1) w.buf (epochOfVersion w.num) (y * w.width)
          (h.linePx (layer + 1) v.buf w.width y)) h).modLayer layer fun l =>
            { l with writing := some { w with copying := false, acc := w.acc ||| w.skipped, skipped := 0 } }) ∧
      exec (.staticCopyComplete t layer false) s = .next ((u.discardWriting layer).dropFrame 2 layer)) ∧
    (∀ rate lanes, u.obs (wPort port) = 1 → (u.port port).advRate < rate ∨ (u.port port).advLanes < lanes →
      exec (.dpLinkTrainingFail t port rate lanes) s = .next (u.modPort port fun p =>
        { p with dpcd := .failed, lostAt := some (p.lostAt.getD u.now) })) ∧
    (∀ b, (u.port port).hpdBackAt = some b → b ≤ u.now → u.hpdWanted port = true →
      exec (.hpdReassert t port) s = .next (((u.modPort port fun p => { p with
        hpd := true, hpdBackAt := none, lostAt := none, dpcd := .idle
        advRate := u.num 0x4001 port, advLanes := u.num 0x4002 port }).setObs (wPort port) 1).emit (.pin (.hpd port) (some true))))

/-- Rows of the schedule and of the forward direction of the array links complete (R195–R251, R273–R300). -/
def Obligations.ArrayScheduleRowsComplete : Prop :=
  ∀ (s u : State) (t ap g : Nat), u = s.advance t →
    (∀ slot block sc e i prim k a gr (start : Int) rows late, (u.plgroup (portGroup u.live ap)).sched = some sc →
      slotAt sc.epochs slot 0 = some (e, i, prim, k) → (instants sc.timing 0 sc.epochs)[e]? = some (a, gr) →
      start = u.tF sc.frame + (resetAt sc.timing a block i : Int) - sc.timing.tblk →
      u.takesBlocks ap sc.frame = true → start ≤ (u.wall : Int) → (u.wall : Int) < start + (sc.timing.tblk + 1 : Nat) →
      rows = ((((u.plarray ap).planes.getD (planeIndex (u.arrayPrims ap).length prim k) []).drop
        (block * (arrayH u.live ap / 16))).take (arrayH u.live ap / 16)) →
      late = ((u.plarray ap).missing.contains (planeIndex (u.arrayPrims ap).length prim k, block) ||
        u.hbm.chans.any fun c => c.st = 3) →
      (k < sc.d ∨ (∀ r ∈ rows, r = 0) →
        exec (.blockLoadWindow t ap slot block false true) s = .next (u.zeroBlock ap block start sc.timing.tblk)) ∧
      (sc.d ≤ k → (∃ r ∈ rows, r ≠ 0) → late = false →
        exec (.blockLoadWindow t ap slot block false true) s = .next ((u.alaunch ap (u.indexFrom ap start) true fun first n =>
          headerWord n block ((blockPayload (arrayW u.live ap) rows).length / 60)
            ((planeIndex (u.arrayPrims ap).length prim k * 256 + slot) % 65536) [acmd 1 (2 ^ block) 0
              (max (u.indexAt ap (start + sc.timing.tblk))
                (first + (blockPayload (arrayW u.live ap) rows).length / 60 + 2) % 2 ^ 32)] ++
            blockPayload (arrayW u.live ap) rows ++ trailerWord n block (blockPayload (arrayW u.live ap) rows)).modPlArray ap
          fun x => { x with armed := setAt x.armed block (some (planeIndex (u.arrayPrims ap).length prim k)) }))) ∧
    (∀ e b ep a gr p (at_ : Int), u.epochOf g e = some (ep, a, gr, p) →
      at_ = u.tF u.seqr.count + (resetAt p a b ep.slots.length : Int) → at_ ≤ (u.wall : Int) → (u.wall : Int) < at_ + p.tblk →
      exec (.epochClear t g e b) s = .next ((u.drivenOf g).foldl (fun s ap =>
        (s.acontrol ap [acmd 2 (2 ^ b) 0 (s.tick ap (at_ - p.tblk)), acmd 1 (2 ^ b) 0 (s.tick ap at_)]).modPlArray
          ap fun x => { x with shown := setAt x.shown b none }) u)) ∧
    (∀ e ep a gr p (at_ last : Int), u.epochOf g e = some (ep, a, gr, p) → at_ = u.tF u.seqr.count + gr →
      last = u.tF u.seqr.count + (resetAt p a 15 (ep.slots.length - 1) : Int) →
      at_ ≤ (u.wall : Int) → (u.wall : Int) < at_ + p.tblk →
      exec (.globalReset t g e) s = .next ((u.drivenOf g).foldl (fun s ap =>
        ((s.acontrol ap [acmd 2 (2 ^ 15) 0 (s.tick ap last), acmd 1 0xFFFF 0 (s.tick ap at_)]).modPlArray ap fun x => { x with
              shown := (x.armed.zip (upTo 16)).map fun q => if q.2 = 0 then q.1 else none
              armed := List.replicate 16 none }).modAport ap fun x => { x with hold := false }) u)) ∧
    (∀ slot b sc e i pk a gr (at_ : Int), (u.plgroup g).sched = some sc → slotAt sc.epochs slot 0 = some (e, i, pk) →
      (instants sc.timing 0 sc.epochs)[e]? = some (a, gr) → at_ = u.tF sc.frame + (resetAt sc.timing a b i : Int) →
      u.seqr.status ≠ 4 → at_ ≤ (u.wall : Int) → (u.wall : Int) < at_ + sc.timing.tblk →
      (b ≠ 0 → exec (.slotReset t g slot b) s = .next ((u.drivenOf g).foldl (fun s ap => s.modPlArray ap fun x =>
        { x with shown := setAt x.shown b (x.armed.getD b none), armed := setAt x.armed b none }) u)) ∧
      (b = 0 → exec (.slotReset t g slot b) s = .next (((u.drivenOf g).foldl (fun s ap => s.modPlArray ap fun x =>
        { x with shown := setAt x.shown 0 (x.armed.getD 0 none), armed := setAt x.armed 0 none }) u).modPlGroup g fun q =>
          { q with slotNow := slot }))) ∧
    (∀ found us p k aps, u.firm.restartUntil ≤ u.now → (u.plgroup g).settings ≠ [] →
      ((u.plgroup g).next.map Sched.frame) ≠ some (u.seqr.count + 1) → (u.plgroup g).plan = some p →
      groupOf u.live g = some (k, aps) →
      (∀ c, (u.plgroup g).inputs = (u.plgroup g).prevInputs → (u.plgroup g).delivered = some c →
        exec (.scheduleDelivery t g found us) s = .next (u.modPlGroup g fun q => q.takes { c with
          frame := u.seqr.count + 1, flags := c.flags % 2 + 2 + 4 * b2n (q.d != 0) }).compilerLease) ∧
      ((u.plgroup g).inputs ≠ (u.plgroup g).prevInputs → (u.wall : Int) ≤ u.compileBy g (u.seqr.count + 1) →
        ∀ v, v = u.modPlGroup g (fun q => { q with compileUs := us }) →
          (∀ es, v.searched g p k aps found = some es →
            exec (.scheduleDelivery t g found us) s = .next (v.modPlGroup g fun q =>
              q.takes (p.schedOf u.pmin (u.seqr.count + 1) q.d 0 es)).compilerLease) ∧
          (v.searched g p k aps found = none →
            exec (.scheduleDelivery t g found us) s = .next (v.modPlGroup g fun q =>
              q.takes (p.schedOf u.pmin (u.seqr.count + 1) q.d (if found.isEmpty then 2 else 3) p.safe)).compilerLease))) ∧
    (∀ p, (u.plgroup g).settings ≠ [] → u.compileBy g (u.seqr.count + 1) ≤ (u.wall : Int) →
      ((u.plgroup g).next.map Sched.frame) ≠ some (u.seqr.count + 1) → (u.plgroup g).plan = some p →
      exec (.compileDeadline t g) s = .next (u.modPlGroup g fun q =>
        q.takes (p.schedOf u.pmin (u.seqr.count + 1) q.d 1 p.safe)).compilerLease) ∧
    (∀ late l more, late.filter (fun x => u.makesPlanes (u.seqr.count + 1) x.1) = l :: more →
      u.tF (u.seqr.count + 1) - 10000 ≤ (u.wall : Int) → u.composes (u.seqr.count + 1) = true →
      u.plgn.lateFor ≠ some (u.seqr.count + 1) →
      exec (.plgnPlaneLate t late) s = .next ((((l :: more).foldl
        (fun s l => s.modPlArray l.1 fun a => { a with missingNext := a.missingNext ++ [l.2] }) u).modPlgn fun p =>
          { p with lateFor := some (u.seqr.count + 1) }).raise 0x93 l.1 (l.2.1 % 256 * 256 + l.2.2 % 256))) ∧
    (u.obs (wArray ap) ≠ 0 → u.obs (wArray ap) ≠ 1 →
      exec (.keepaliveSend t ap) s = .next ((u.modAport ap fun p => { p with
        keepCount := ((u.aport ap).keepCount + 1) % 65536, keepAt := u.now }).acontrol ap
          [acmd 3 (((u.aport ap).keepCount + 1) % 65536) 0 0])) ∧
    (u.callsTraining ap = true → u.obs (wArray ap) ≠ 1 →
      exec (.arrayTraining t ap) s = .next ((upTo 9).foldl (fun (s : State) k => s.setLane ap k 1 k)
        (((u.setArray ap 1).modAport ap fun p => { p with
          trainSince := u.now, short := false, laneMap := upTo 9, swap := none, swapAsked := none, waiting := []
          lastReturn := none, hold := false, keepCount := 0, wordBase := u.free % 2 ^ 32, lineFree := 0 }).drawn))) ∧
    (∀ step regs roundTrip turnaround v, u.obs (wArray ap) = 1 → v = u.atrainEnd ap step regs roundTrip turnaround →
      v.obs (wArray ap) = 2 → exec (.arrayTrainingDone t ap step regs roundTrip turnaround) s = .next ((upTo 9).foldl
        (fun (s : State) k => s.wearClear 0xA (16 * ap + k)) (v.modAport ap fun p => { p with worn := [], grades := [], spare := 0 })))

/-- Rows of the return direction of the array links complete (R281–R308). -/
def Obligations.ArrayReturnRowsComplete : Prop :=
  ∀ (s u : State) (t ap : Nat), u = s.advance t →
    (∀ msg v, retOk msg = true → v = u.modAport ap (fun p => { p with lastReturn := some u.now }) →
      (leAt msg 0 1 = 0x10 → exec (.ack t ap msg) s = .next (v.aack ap msg)) ∧
      (leAt msg 0 1 = 0x11 → exec (.status t ap msg) s = .next (v.astatus ap msg)) ∧
      (leAt msg 0 1 = 0x12 → exec (.regData t ap msg) s = .next ((v.modAport ap fun p => { p with
        regData := leAt msg 3 4, regStatus := leAt msg 7 1, regAddr := leAt msg 1 2 }).dropLease (3 + ap))) ∧
      (leAt msg 0 1 = 0x13 → exec (.echo t ap msg) s = .next v) ∧
      (leAt msg 0 1 = 0x14 → exec (.fault t ap msg) s = .next ((v.raise 0xA8 ap (leAt msg 1 1 * 256 + leAt msg 2 1)).apark ap 4))) ∧
    (∀ w n, (u.aport ap).swap = some w → w.n = none → bit (u.aport ap).flags 7 = true →
      u.swapMay ap n w.cause = true →
      exec (.laneSwapSend t ap n) s = .next ((u.modAport ap fun p => { p with swap := some { w with n := some n } }).acontrol ap
        [acmd 6 0 (w.logical * 16 + w.phys) (n % 2 ^ 24)])) ∧
    (∀ w n, (u.aport ap).swap = some w → w.n = some n → w.moved = false →
      exec (.laneSwapCodeword t ap) s = .next (((u.modAport ap fun p => { p with
        laneMap := setAt (setAt p.laneMap w.logical w.phys) 8 (natAt (u.aport ap).laneMap w.logical)
        swap := some { w with moved := true } }).setLane ap w.phys 0 w.logical).setLane ap
          (natAt (u.aport ap).laneMap w.logical) 2 w.logical)) ∧
    (∀ late, late = (u.aport ap).waiting.filter (fun w => decide (w.2.1 + 2000 ≤ u.now)) → late ≠ [] →
      exec (.arcdAckTimeout t ap) s = .next ((u.modAport ap fun p => { p with
        waiting := p.waiting.filter fun w => !decide (w.2.1 + 2000 ≤ u.now)
        ackTimeouts := ((u.aport ap).ackTimeouts + late.length) % 2 ^ 32
        ackEvent := if msGap (u.aport ap).ackEvent u.now then some u.now else p.ackEvent }).raiseLimited
          (msGap (u.aport ap).ackEvent u.now) 0xA5 ap (((u.aport ap).ackTimeouts + late.length) % 2 ^ 32 % 65536))) ∧
    (∀ l, (u.aport ap).lastReturn = some l → l + 100000 ≤ u.now → u.obs (wArray ap) ≠ 0 → u.obs (wArray ap) ≠ 1 →
      u.mews.dev.lit = true →
      exec (.arcdReturnSilent t ap) s =
        .next (((u.modAport ap fun p => { p with lastReturn := none }).raise 0xAC ap 0).aretrain ap 2))

/-- Rows of the light loop complete (R146–R160, R309–R351). -/
def Obligations.LightLoopRowsComplete : Prop :=
  ∀ (s u : State) (t b : Nat), u = s.advance t →
    (u.mews.dev.lit = true → u.tF (u.seqr.count + 1) ≤ (u.wall : Int) + 50000 →
      (u.loop.ests.any fun e => e.frame = u.seqr.count + 2) = false →
      exec (.bandEstimateLatch t) s = .next (u.latchEstimate (u.seqr.count + 2))) ∧
    (∀ sums v means, natAt u.loop.pips b < 16 → u.meansBy (fun c => State.fastMean c 50) sums = (v, means) →
      exec (.pipWindow t b sums) s = .next (((groupBands u.live b).foldl (fun s k =>
        if s.num 0xC008 k = 0xFF then s
        else
          let w := s.pipBand k (means.getD (s.num 0xC008 k) none) (means.getD (s.num 0xC007 k) none)
            (natAt u.loop.pips b = u.num 0xC00C)
          match (if w.sweepMeasuring && w.bandLit k then means.getD (s.num 0xC008 k) none else none) with
          | some d => w.modSweepBand k fun z => { z with pip := z.pip + d, pips := z.pips + 1 }
          | none => w) v).modLoop fun l => { l with pips := modAt l.pips b (· + 1) })) ∧
    (∀ sums v means w, u.mews.dev.counts = true → u.loop.tick + 1 ≤ loopK u.live →
      u.tF u.seqr.count + ((u.loop.tick + 1) * u.num 0xC006 : Nat) ≤ (u.wall : Int) → u.meansBy State.fastWindow sums = (v, means) →
      w = (v.learnOffsets sums).modLoop (fun l =>
        { l with tick := u.loop.tick + 1, sigma := (upTo 4).map (v.learnOffsets sums).sigmaNow }) →
      exec (.loopTick t sums) s = .next ((upTo 4).foldl (fun s n => s.traceTick n)
        ((upTo 4).foldl (fun s k => s.pilotTick k (u.loop.tick + 1))
          (((upTo 4).foldl (State.bandTick (u.loop.tick + 1) means) w).shiftStrings (u.loop.tick + 1)
            (u.loop.strings.map fun x => (x.u, x.dith)))))) ∧
    (2 ≤ (u.lband b).miss → u.obs (wBand b) = 1 → exec (.loopFeedbackLost t b) s = .next ((u.raise 0xC8 b 2).enterHold b 4)) ∧
    (32 ≤ (u.lband b).impl → u.obs (wBand b) = 1 → exec (.loopImplausible t b) s =
      .next ((u.raise 0xC9 b (deviation (u.lband b).yn (u.lband b).m)).enterHold b 2)) ∧
    (frozenVerdict (u.lband b).readings (u.num 0xC050 b) = true → u.obs (wBand b) = 1 →
      exec (.bandFrozen t b) s = .next ((u.raise 0xC8 b 1).enterHold b 1)) ∧
    (64 ≤ (u.lband b).plaus → (u.unitRec (wBand b)).cmd = 1 →
      (u.obs (wBand b) = 2 ∨
        (u.obs (wBand b) = 0 ∧ ((u.lband b).warm = none ∨ (u.lband b).warmDone = true) ∧ u.calValid b = true)) →
      exec (.bandClose t b) s = .next (((u.preload b).setBand b 1).modBand b fun x => { x with
        fault := x.fault &&& 0x18, warm := none, warmDone := false, impl := 0 })) ∧
    (∀ k, (u.lband b).warm = some k → u.num 0xC045 ≤ k →
      exec (.warmRampComplete t b) s = .next (u.modBand b fun x => { x with warmDone := true })) ∧
    (4 ≤ (u.lband b).failRun → bit (u.lband b).fault 4 = false →
      exec (.calFreeze t b) s = .next ((u.modBand b fun x => { x with fault := x.fault ||| 16 }).raise 0xCF b 2)) ∧
    (64 ≤ (u.lband b).pilotTick → (u.lband b).pilotN < 56 → exec (.pilotRunEnd t b) s = .next
      ((u.modStrings (u.bandStrings b) fun z => { z with pilSum := 0 }).modBand b fun x => { x with pilotTick := 0, pilotN := 0 })) ∧
    (∀ v w, 64 ≤ (u.lband b).pilotTick → 56 ≤ (u.lband b).pilotN → u.obs (wBand b) = 1 →
      v = (u.controlling b).foldl (fun s k =>
        s.learnEta b k ((s.lstring k).pilSum * 200 * 32768) ((u.lband b).pilotN * (s.lstring k).u)) u →
      w = v.modBand b (fun x => { x with pilotRuns := x.pilotRuns + 1 }) →
      exec (.pilotRunEnd t b) s = .next ((w.modStrings
        (w.bandStrings b) fun z => { z with pilSum := 0 }).modBand b fun x => { x with pilotTick := 0, pilotN := 0 })) ∧
    (∀ n, fld (u.num 0xC060 n) 39 32 = 0 → (u.loop.traces.getD n {}).state = 1 →
      exec (.traceTrigger t n) s = .next (((u.padEntries n (fld (u.num 0xC060 n) 15 0 % 16384)).modTrace n fun x => { x with
        state := 2, tick := u.loop.tick, frame := u.seqr.count, left := 16384 - fld (u.num 0xC060 n) 15 0 % 16384
        entries := x.entries.drop (x.entries.length - fld (u.num 0xC060 n) 15 0 % 16384) }))) ∧
    (∀ n, (u.loop.traces.getD n {}).state = 2 → (u.loop.traces.getD n {}).left = 0 →
      exec (.loopTraceDone t n) s = .next ((u.modTrace n fun x => { x with state := 3 }).raise 0xD0 n (u.loop.traces.getD n {}).tick))

/-- Rows of the lamp link and of lamp sensing complete (R352–R389). -/
def Obligations.LampRowsComplete : Prop :=
  ∀ (s u : State) (t n : Nat), u = s.advance t →
    (∀ bands gated live v w d0 d1, gated = maskOf 4 (fun b => bit bands b && u.bandGated b) →
      live = maskOf 4 (fun b => bit (clearBits (bands % 16) gated) b && u.levelMeets b) →
      u.applyLive 0 live = (v, d0) → v.applyLive 1 live = (w, d1) →
      exec (.applyLaunch t bands) s = .next ((upTo 4).foldl (fun (x : State) b =>
        if bit gated b || (bit live b && bit (d0 ||| d1) b) then
          x.modBand b (LBand.gate (((w.applyGate 0 gated).applyGate 1 gated).now + ((w.applyGate 0 gated).applyGate 1 gated).lamp.lead))
        else if bit live b then x.modBand b fun y => { y with
          gateEnd := if y.gateOn then ((w.applyGate 0 gated).applyGate 1 gated).now + ((w.applyGate 0 gated).applyGate 1 gated).lamp.lead
            else y.gateEnd
          gateOn := false }
        else x) ((w.applyGate 0 gated).applyGate 1 gated))) ∧
    (∀ bands ahead bank (at_ : Nat) vals, (u.chain n).st = 2 → u.frameNs + 4 * setChars (u.num 0xD002 n) + 200 ≤ (at_ : Int) →
      (∃ b ∈ upTo 4, bit bands b = true ∧ u.tickWithheld b at_ = false) →
      vals = (u.chainStrings n bands).map (fun k => (k, u.setValue k at_)) →
      exec (.setSend t n bands ahead bank at_) s = .next ((u.lampSend n 1 0x0F (toLE 1 (bank % 2 + 4 * (((u.chain n).applies + ahead) % 4)) ++
        toLE 1 0 ++ toLE 1 (u.num 0xD002 n) ++ ((upTo (u.num 0xD002 n)).map fun p => setEntry (vals.filterMap fun v =>
          match u.stringAt v.1 with
          | some (_, q, ch) => if q = p then some (ch, v.2) else none
          | none => none)).flatten)).modChain n fun x => { x with
        sets := x.sets ++ [⟨((u.chain n).applies + ahead) % 4, bank % 2, bands, (upTo 4).map (u.levelAt · at_), vals,
          maskOf (u.num 0xD002 n) fun p => u.obs (wDriver (8 * n + p)) != 4, none, (u.chain n).seq⟩] })) ∧
    ((u.chain n).st = 2 →
      exec (.statusFrameSend t n) s = .next (u.lampSend n 2 0x0F (List.replicate (4 * u.num 0xD002 n) 0))) ∧
    (∀ frame, lampCrcOk frame = true → exec (.lampFrameReturn t n frame) s = .next (u.takeLampFrame n frame)) ∧
    ((u.chainDrivers (n / 8)).contains n = true → (u.chain (n / 8)).st = 2 → u.obs (wDriver n) ≠ 4 →
      (u.driver n).lastAck + 100000 ≤ u.now →
      exec (.lampDriverLost t n) s = .next (((u.setDriver n 4).raise 0xE5 n 1).followAll)) ∧
    ((u.chain n).st = 2 → exec (.lampChainDown t n 1) s = .next ((u.chainDown n 1).followAll)) ∧
    ((u.chain n).st = 2 → (u.chain n).lastFrame + 100000 ≤ u.now →
      exec (.lampChainDown t n 2) s = .next ((u.chainDown n 2).followAll)) ∧
    (∀ count regs loop, (u.chain n).st = 1 →
      exec (.chainEnumerate t n count regs loop) s = .next ((u.enumerate n count regs loop).followAll)) ∧
    (∀ since, u.lamp.differ = some since → since + u.num 0xD024 * 1000000 < u.now → u.lamp.differTold = false →
      exec (.lampIntlkDiscrepancy t) s = .next ((u.modLamp fun l =>
        { l with discrepancy := true, lowTogether := false, differTold := true }).raise 0xEC 0 (min 65535 ((u.now - since) / 1000000)))) ∧
    (u.num 0xD040 n = 1 → (u.lamp.slow.getD n {}).st = 1 → 3 ≤ (u.lamp.slow.getD n {}).bad →
      exec (.lampSensorLost t n) s = .next ((upTo 4).foldl (fun s b => s.bandTempJudge b) ((u.modLamp fun l => { l with
        slow := modAt l.slow n fun a => { a with st := a.badKind } }).raise 0xEA n (u.lamp.slow.getD n {}).badKind))) ∧
    (u.num 0xD040 n = 2 → (u.lamp.slow.getD n {}).railKind ≠ (u.lamp.slow.getD n {}).rail →
      3 ≤ (u.lamp.slow.getD n {}).railRun →
      exec (.lampRail t n) s = .next ((u.modLamp fun l => { l with
        slow := modAt l.slow n fun a => { a with rail := a.railKind } }).raise 0xEB n (u.lamp.slow.getD n {}).railKind)) ∧
    (u.lamp.intlkA = false → exec (.interlockClose t 0) s = .next ((u.intlkLevel false true).raise 0xE0 0 0)) ∧
    (u.lamp.intlkB = false → exec (.interlockClose t 1) s = .next ((u.intlkLevel true true).raise 0xE0 1 0)) ∧
    (u.lamp.intlkA = true → exec (.lampInterlock t 0) s = .next (((((u.intlkLevel false false).modLamp fun l =>
      { l with intlkCount := (l.intlkCount + 1) % 2 ^ 32 }).raise 0xE0 0 1).killPath 0).enterSafe 1)) ∧
    (u.lamp.intlkB = true → exec (.lampInterlock t 1) s = .next (((((u.intlkLevel true false).modLamp fun l =>
      { l with intlkCount := (l.intlkCount + 1) % 2 ^ 32 }).raise 0xE0 1 1).killPath 1).enterSafe 1)) ∧
    (∀ code vio, exec (.slowConversion t code vio) s = .next
      ((((u.slowConvert code vio).lampCounts u.lamp.nextSlow).busJudge u.lamp.nextSlow 0).busJudge u.lamp.nextSlow 1)) ∧
    (∀ v, v = [2, 1, 0].foldl (fun (s : State) l => State.lampJudge n s l) u →
      (u.therm.lamp.getD n {}).lv.getD 2 false = false → (v.therm.lamp.getD n {}).lv.getD 2 false = true →
      exec (.lampBoardLevel t n) s = .next (((v.modMews fun m => { m with
        lampHold := if m.lampHold.contains n then m.lampHold else m.lampHold ++ [n] }).killPath 3).enterSafe 2))

/-- Rows of the wheel drive complete (R390–R412). -/
def Obligations.WheelRowsComplete : Prop :=
  ∀ (s u : State) (t n : Nat), u = s.advance t →
    ((u.unitRec (wWheel n)).cmd = 4 → u.fitted n = true → u.obs (wWheel n) = 0 →
      exec (.wheelRun t n) s = .next ((u.modWheel n fun w => { w with
        starts := (w.starts + 1) % 2 ^ 32, tries := 0, trySince := u.now, recovering := none }).listen n)) ∧
    (∀ v, (u.unitRec (wWheel n)).cmd = 0 → (u.wheel n).fromStop = false → u.obs (wWheel n) = 4 →
      v = u.modWheel n (fun w => { w with recovering := none, seekIndex := false, listenEnd := none, stopSeen := true }) →
      exec (.wheelStop t n) s = .next (if u.num 0xE007 n = 1 then v.brake n false
        else ((v.gates n false).modWheel n fun w => { w with fromStop := true, toAlign := false, coastSince := u.now }).setWheel n 5)) ∧
    (∀ (amp : Int) e speed, (u.wheel n).listenEnd = some e → e ≤ u.now → u.num 0xE01E n ≠ 0 →
      speed = satS16 (divTrunc amp (u.num 0xE01E n)) →
      exec (.whelCatch t n amp) s = .next (((u.modWheel n fun w => { w with speed := speed, listenEnd := none }).raise 0xF2 n
        (ofS 16 speed)).startDecide n (if amp.natAbs < 1000 * u.num 0xE01F n then 0 else speed))) ∧
    (u.obs (wWheel n) = 2 → (u.wheel n).alignSince + u.num 0xE018 n * 1000000 ≤ u.now →
      exec (.alignEnd t n) s = .next (((u.modWheel n fun w =>
        { w with rampSince := u.now, closed := false, seen := 0, good := 0, bad := 0 }).bridgeTo n .drive 0 0).setWheel n 3)) ∧
    (u.obs (wWheel n) = 3 → (u.wheel n).closed = false → u.num 0xE01A n ≤ u.forcedSpeed n → 6 ≤ (u.wheel n).seen →
      exec (.openLoopHandover t n) s = .next ((u.modWheel n fun w =>
        { w with closed := true, good := 0, bad := 0, pi := 0 }).rampSpeed n)) ∧
    (u.obs (wWheel n) = 3 → (u.wheel n).closed = false → 12 * u.num 0xE01A n ≤ 10 * u.forcedSpeed n →
      exec (.whelStartFail t n) s = .next (u.startFail n 1)) ∧
    (u.obs (wWheel n) = 1 → (u.unitRec (wWheel n)).cmd = 4 → (u.wheel n).trySince + 60000000000 ≤ u.now →
      exec (.whelStartFail t n) s = .next (u.startFail n 2)) ∧
    (u.obs (wWheel n) = 3 → (u.wheel n).closed = true →
      100 * (1000 * (u.wheel n).speed - runSpeed u.live n).natAbs ≤ runSpeed u.live n → 256 ≤ (u.wheel n).good →
      (u.num 0xE004 n = 0 ∨ 4 ≤ (u.wheel n).indexGood) →
      exec (.wheelLocked t n) s = .next ((u.modWheel n fun w =>
        { w with tries := 0, recovering := none, run := runSpeed u.live n }).setWheel n 4)) ∧
    (∀ tc (late : Int) back sp err (target : Int) i duty, (u.wheel n).tc ≤ 10 * tc → tc ≠ 0 → u.closedLoop n = true →
      sp = satS16 (if back then -(crossingSpeed (u.num 0xE002 n) tc : Int) else (crossingSpeed (u.num 0xE002 n) tc : Int)) →
      10000 * sp ≤ 11 * (runSpeed u.live n : Int) → sp ≤ 19800 → err = crossingError tc late →
      target = divAway ((u.speedCommand n : Int) * 100000 + runSpeed u.live n * (u.wheel n).trim) 100000000 →
      piStep (u.num 0xE020 n) (u.num 0xE021 n) (target - sp) (u.wheel n).pi = (i, duty) →
      exec (.zeroCrossing t n tc late back) s = .next ((((u.modWheel n fun w => { w with
        tc := tc, prevSpeed := w.speed, speed := sp, phaseErr := err, fast := 0
        good := if err.natAbs ≤ 150 then w.good + 1 else 0
        bad := if 300 < err.natAbs then w.bad + 1 else 0
        seen := if err.natAbs ≤ 300 then w.seen + 1 else 0 }).modWheel n fun w => { w with pi := i }).setDuty n duty).commutate
          n tc back)) ∧
    (∀ micro ma v w, v = (u.cutGates n false).forceStep n → v.num 0xE013 n ≠ 0 → ma = min 65535 (micro / v.num 0xE013 n) →
      w = v.modWheel n (fun w => { w with
        current := ma, stall := if v.num 0xE012 n ≤ ma && decide (w.speed < w.prevSpeed) then w.stall + 1 else 0 }) →
      2 * ma ≤ 3 * v.num 0xE012 n →
      exec (.pwmPeriodSample t n micro) s = .next (if w.gateLimit n < ma then w.cutGates n true else w)) ∧
    (exec (.wheelFaultInput t n true) s = .next ((u.modWheel n fun w => { w with faultIn := true }).wheelFault n 1) ∧
      exec (.wheelFaultInput t n false) s = .next (u.modWheel n fun w => { w with faultIn := false })) ∧
    (∀ (period width : Nat) (err : Int), u.num 0xE004 n ≠ 0 → 100 ≤ width → (u.wheel n).seekIndex = false → period ≠ 0 → u.predictedRev n ≠ 0 →
      err = satS16 (divAway (((period : Int) - u.predictedRev n) * 10000) (u.predictedRev n)) → err.natAbs ≤ 200 →
      (u.wheel n).indexOk = true →
      exec (.indexEdge t n period width) s = .next ((u.modWheel n fun w =>
        { w with lastIndex := some u.now, indexMissing := false }).modWheel n fun w => { w with
          indexErr := err, indexGood := if err.natAbs ≤ 50 then (u.wheel n).indexGood + 1 else 0, goodPeriod := period })) ∧
    (∀ (period width : Nat), 100 ≤ width → u.num 0xE004 n ≠ 0 → period = 0 → (u.wheel n).seekIndex = false →
      exec (.indexEdge t n period width) s = .next (u.modWheel n fun w => { w with lastIndex := some u.now, indexMissing := false })) ∧
    (∀ l, (u.wheel n).lastIndex = some l → u.num 0xE004 n ≠ 0 → (u.wheel n).speed ≠ 0 → (u.wheel n).indexMissing = false →
      15 * u.predictedRev n ≤ 4 * (u.now - l) →
      exec (.indexMissing t n) s = .next ((u.modWheel n fun w =>
        { w with indexMissing := true, indexOk := false, indexGood := 0 }).raise 0xF6 n 0)) ∧
    (∀ cause, u.closedLoop n = true → u.lossTest n cause = true →
      exec (.whelLockLost t n cause) s = .next (u.loseRotor n cause)) ∧
    (∀ r, (u.wheel n).recovering = some r → r + 5000000000 ≤ u.now → u.obs (wWheel n) ≠ 4 →
      exec (.wheelRecoveryTimeout t n) s = .next (u.startFail n 2)) ∧
    (∀ v, u.obs (wWheel n) = 6 → v = u.modWheel n (fun w => { w with speed := 0 }) →
      ((v.wheel n).toAlign = true → exec (.wheelStandstill t n) s = .next (v.align n)) ∧
      ((v.wheel n).toAlign = false → exec (.wheelStandstill t n) s =
        .next (((v.gates n false).modWheel n fun w => { w with fromStop := false }).setWheel n 0))) ∧
    (u.obs (wWheel n) = 5 → (u.wheel n).toAlign = true → (u.wheel n).listenEnd = none → (u.wheel n).coastSince + 5000000000 ≤ u.now →
      exec (.wheelCoastTimeout t n) s = .next (u.brake n true))

/-- Rows of frame timing complete (R252–R272, R413–R425). -/
def Obligations.TimingRowsComplete : Prop :=
  ∀ (s u : State) (t n : Nat), u = s.advance t →
    (∀ late mismatch, u.mews.dev.counts = true → u.seqr.status ≠ 0 → u.tF (u.seqr.count + 1) ≤ (u.wall : Int) →
      exec (.frameBoundary t late mismatch) s = .next (u.boundary late mismatch)) ∧
    (u.num 0xB040 n = 1 → exec (.wheelMarkPass t n) s = .next (u.modSeqr fun q => { q with
      wheels := modAt q.wheels n fun w => { w with err := u.markError n u.wall } })) ∧
    (u.num 0xB040 n = 1 → exec (.seqrWheelPhase t n) s = .next (u.judgePhase n (u.obs (wWheel n) = 4))) ∧
    (∀ width v, u.num 0xB050 = 2 → v = u.emit (.pulse .fsyncOut width) →
      (u.seqr.fsyncEdge = 0 ∨ fsyncInRate (u.wall - u.seqr.fsyncEdge) (u.num 0xB001) = true →
        exec (.fsyncEdge t width) s = .next (v.fsyncTrack u.wall width)) ∧
      (u.seqr.fsyncEdge ≠ 0 → fsyncInRate (u.wall - u.seqr.fsyncEdge) (u.num 0xB001) = false →
        exec (.fsyncEdge t width) s = .next (v.fsyncMissing.modSeqr fun q => { q with fsyncEdge := u.wall }))) ∧
    (u.num 0xB050 = 2 → u.seqr.fsyncRef + (u.seqr.fsyncMiss + 1) * u.fsyncPeriodNow + 2000 ≤ u.wall →
      exec (.fsyncEdgeMissing t) s = .next u.fsyncMissing) ∧
    (u.num 0xB050 = 2 → 16 ≤ u.seqr.fsyncMiss → u.seqr.fsync ≠ 4 →
      exec (.fsyncLost t) s = .next ((u.setFsync 4).modSeqr fun q => { q with fsyncFirst := true })) ∧
    (u.seqr.stageReady = false → (u.seqr.staging.all fun j => decide (j.total ≤ j.copied)) = true →
      exec (.seqrStageReady t) s = .next ((u.modSeqr fun q => { q with
        stageReady := true, staging := u.seqr.staging.map fun j => { j with verified := true } }).raise 0xBB 0
          (u.seqr.staging.length % 65536))) ∧
    (∀ region, u.sigOn region = true → u.composes (u.seqr.count + 1) = true →
      (u.plaz.groups.getD (u.num 0x6021 region) {}).quiet = false →
      exec (.signatureFinal t region) s = .next (u.sigFinal region (u.seqr.count + 1) (u.signature region) false)) ∧
    (∀ w, (u.vlayer n).first = some w → w.ended = true → w.copying = false → w.got &&& w.acc = w.got →
      exec (.versionComplete t n) s = .next (((u.ingestComplete n).versionNotice n).takeAfter n))

/-- Rows of thermal management, wear and spares complete (R495–R523). -/
def Obligations.ThermalAndWearRowsComplete : Prop :=
  ∀ (s u : State) (t : Nat), u = s.advance t →
    (∀ temps, exec (.dieTempConversion t temps) s = .next (u.modTherm fun m =>
      { m with die := (m.die.zip (upTo 12)).map fun p => p.1.take temps p.2 }).bootOn) ∧
    exec (.mewsThermalWarn t) s = .next (u.dieJudge 0) ∧
    exec (.mewsThermalThrottle t) s = .next (u.dieJudge 1) ∧
    (u.therm.lv.getD 2 false = false → (u.dieJudge 2).therm.lv.getD 2 false = true →
      exec (.mewsThermalShutdown t) s = .next (((u.dieJudge 2).killPath 2).enterSafe 2)) ∧
    (u.therm.lastStep + u.num 0x0024 * 1000000 ≤ u.now → exec (.throttleInterval t) s = .next u.throttleStep) ∧
    exec (.lampThrottleInterval t) s = .next ((upTo 24).foldl (fun s c => s.lampStep c) u) ∧
    (∀ sensor, u.exclusionThrottle = true → u.excludedCount < 12 → (u.sensorExcluded sensor).excludedCount < 12 →
      exec (.dieSensorExcluded t sensor) s = .next (u.sensorExcluded sensor)) ∧
    (∀ area resource value, u.wearHolds area resource 1 value = true →
      exec (.mewsWear t area resource 1 value) s = .next (u.wearOut area resource 1 value)) ∧
    (∀ ap msg v w, retOk msg = true → leAt msg 0 1 = 0x15 →
      (v, w) = (u.modAport ap fun p => { p with lastReturn := some u.now }).alane ap msg →
      (w = none → exec (.lane t ap msg) s = .next v) ∧
      (∀ ph unc, w = some (ph, unc) → exec (.lane t ap msg) s = .next (v.wearOut 0xA (16 * ap + ph) (1 + unc) unc))) ∧
    (∀ ap w, (u.aport ap).swap = some w → w.moved = true →
      (u.therm.swaps.find? fun x => x.1 = 0xA && x.2.1 < 0x100 && x.2.1 / 16 = ap) = none →
      exec (.arcdLaneSpared t ap) s = .next (((u.modAport ap fun p => { p with swap := none, spare := 1 }).setLane
        ap (natAt (u.aport ap).laneMap 8) 1 0xF).raise 0xA1 ap
          (w.logical * 256 + natAt (u.aport ap).laneMap 8 * 16 + w.cause))) ∧
    (∀ res spare k, u.seqr.trans = none → (u.therm.swaps.find? fun w => w.1 = 0xA && 0x100 ≤ w.2.1) = some (0xA, res, spare, k) →
      exec (.bankSwapMirrored t) s = .next ((((u.modArcd fun a => { a with
        banks := setBit (setBit a.banks (res - 0x100) false) spare true }).raise 0xAA (res - 0x100) spare).swapDone 0xA res).pumpSwaps)) ∧
    (∀ a worn spare k, (u.therm.swaps.find? fun w => w.1 = 0xC && w.2.2.2 = 256) = some (a, worn, spare, k) →
      exec (.stringRampEnd t) s = .next ((((((u.modString worn fun x => { x with factor := 256, u := 0 }).modString spare fun x =>
        { x with factor := 256, inRamp := false }).setNum 0xC003 worn 2).setNum 0xC003 spare 0).swapDone 0xC worn).pumpSwaps)) ∧
    (∀ area resource q, (u.therm.rejected.find? fun q =>
        q.1 = area && q.2.1 = resource && decide (q.2.2 + 86400000000000 ≤ u.now)) = some q → u.wearOf area resource = none →
      exec (.spareRejectRecheck t area resource) s = .next (u.modTherm fun m => { m with
        rejected := m.rejected.erase q, wear := m.wear.filter fun x => !(x.area = area && x.res = resource) })) ∧
    (∀ error : Int, u.mews.xtal = 1 → exec (.rcTrimUpdate t error) s = .next (u.modMews fun m => { m with
      rcTrim := modAt m.rcTrim (clampI 0 15 ((u.dieMax / 16 + 35) / 10)).toNat fun v => v + divAway error 8 })) ∧
    (∀ cycles : Nat, 15984000 ≤ cycles → cycles ≤ 16016000 →
      exec (.crystalCheck t cycles) s = .next (u.modMews fun m => { m with
        xtal := 1, xtalBad := 0, timeOff := if u.wallRun then u.wallOff else m.timeOff })) ∧
    exec (.crystalEdgeTimeout t) s = .next (u.modMews fun m => { m with xtal := 2 }) ∧
    (∀ area resource value, exec (.mewsWear t area resource 0 value) s = .next (u.modTherm fun m =>
      { m with sramCe := (m.sramCe + value) % 2 ^ 32 }))

/-- Rows of clocks, resets and power states complete (R534, R541–R572). -/
def Obligations.ClockAndPowerRowsComplete : Prop :=
  ∀ (s u : State) (t : Nat), u = s.advance t →
    (∀ pll, (u.pll pll).st = 1 → (u.pll pll).fullSearch = false →
      exec (.clksBandMiss t pll) s = .next ((u.modPll pll fun p => { p with fullSearch := true }).raise 0x15 pll (u.pll pll).tableBand)) ∧
    (∀ pll, (u.pll pll).st = 1 ∨ (u.pll pll).st = 3 → (u.pll pll).fullSearch = true → u.clks.ref = 2 →
      exec (.synthesiserSearchFailed t pll) s = .next ((u.modPll pll fun p => { p with fullSearch := false }).pllFail pll)) ∧
    (∀ pll (err : Int), (u.pll pll).st = 2 → u.clks.ref ≠ 3 →
      exec (.clksLockLost t pll err) s = .next (((u.pllCoast pll).modPll pll fun p => { p with
        err := satS16 (err * 10)
        losses := (p.losses.filter fun x => decide (u.now < x + 86400000000000)) ++ [u.now] }).raise 0x10 pll
          (ofS 16 (satS16 err)))) ∧
    (∀ pll since, (u.pll pll).coastSince = some since → (u.pll pll).st = 3 → (u.pll pll).limitSeen = false →
      since + 10000000 ≤ u.now → u.clks.ref = 3 →
      exec (.clksHoldoverLimit t pll) s = .next ((u.modPll pll fun p => { p with limitSeen := true }).raise 0x12 pll
        (sat 65535 ((u.pll pll).coasted u.now)))) ∧
    (u.clks.ref = 2 → exec (.clksRefLost t) s = .next (((upTo 10).foldl
      (fun (s : State) n => if (s.pll n).st = 2 then s.pllCoast n else s)
      ((u.modClks fun c => { c with ref := 3, refGood := 0 }).pllSwapsBack)).raise 0x11 0 0)) ∧
    (u.clks.ref ≠ 2 → u.mews.dev ≠ .mews →
      exec (.refGood t) s = .next ((u.modClks fun c => { c with ref := 2, refGood := 64 }).pumpSwaps).bootOn) ∧
    (∀ pll band err, exec (.clksLocked t pll band err) s = .next ((u.pllLocked pll band err).bootOn)) ∧
    (∀ domain idle, 4 ≤ domain → domain ≤ 23 → u.domainState domain ≠ 0 →
      exec (.domainGate t domain idle) s = .next (u.modClks fun c => { c with gated := setBit c.gated domain idle })) ∧
    exec (.clksSpared t) s = .next u.pllSwitch ∧
    (∀ sigs eeprom kib sfdp logOk, u.mews.resetDue = none → u.mews.dev = .boot → u.mews.bootStep = 0 → u.mews.vaon = true →
      u.mews.rails % 128 = 127 →
      exec (.resetRelease t sigs eeprom kib sfdp logOk) s = .next (((((u.modMews fun m => { m with resetN := true }).modXrds fun x =>
        { x with logOk := logOk }).modFirm fun f => { f with
          sigOk := sigs, eeprom := eeprom, flashKiB := kib, flashSfdp := sfdp }).releaseDie).bootOn)) ∧
    (∀ sigs, u.mews.dev = .boot → u.mews.bootStep = 3 → u.firm.running = false → u.mews.bootReadAt + 10000000000 ≤ u.now →
      exec (.bootRetry t sigs) s = .next (u.modFirm fun f => { f with sigOk := sigs }).bootImage) ∧
    (u.mews.dev = .boot → u.mews.bootStep = 5 → u.trained = true → u.coolEnough = true →
      exec (.bootComplete t) s = .next u.bootEnd) ∧
    (∀ past, past = u.mews.autoWarm.filter (fun x => decide (u.now < x + 3600000000000)) → u.mews.dev = .standby →
      u.mews.resetCause = 3 → u.flag 0x0050 = true → u.mews.beforeWatchdog.lit = true → past.length < u.num 0x0051 →
      u.warmRefused = false → u.hbm.status ≠ 4 →
      exec (.autoWarmRequest t) s = .next (u.modMews fun m =>
        { m with autoWarm := past ++ [u.now], beforeWatchdog := .boot }).enterWarming) ∧
    (∀ due, u.mews.resetDue = some (4, due) → due ≤ u.now → exec (.thermalDieReset t) s = .next (u.dieReset 4)) ∧
    (∀ due, u.mews.resetDue = some (3, due) → due ≤ u.now → exec (.watchdogDieReset t) s = .next (u.dieReset 3)) ∧
    (u.mews.dev ≠ .mews → u.mews.held = false → u.mews.bootStep ≠ 0 →
      exec (.mewsWatchdog t) s = .next ((((u.modMews fun m => { m with beforeWatchdog := m.dev }).raise 0x04 0 0).killPath 4).enterSafe 3)) ∧
    (u.mews.dev ≠ .mews → u.mews.vaon = true →
      exec (.resetNLow t) s = .next ((u.modMews fun m => { m with
        resetN := false, resetNLowAt := u.now }).dieReset 2).holdDie) ∧
    (∀ rail, u.mews.dev ≠ .mews → u.mews.held = false → u.mews.bootStep ≠ 0 →
      exec (.railOutOfRange t rail) s = .next ((u.modMews fun m => { m with
        rails := setBit m.rails (rail % 7) false }).dieReset 1).holdDie) ∧
    (u.num 0x0015 ≠ 0 → u.mews.mewsSince + u.num 0x0015 * 1000000000 ≤ u.now →
      exec (.wakeTimer t) s = .next (u.wake 1)) ∧
    (∀ gpio, gpio < 2 → (natAt u.mews.wakeFn gpio = 4 → exec (.wakeGpioEdge t gpio true) s = .next (u.wake (2 + gpio))) ∧
      (natAt u.mews.wakeFn gpio = 5 → exec (.wakeGpioEdge t gpio false) s = .next (u.wake (2 + gpio)))) ∧
    (u.mews.dev = .mews → exec (.wakeResetNRise t) s = .next ((u.modMews fun m => { m with resetN := true }).wake 4)) ∧
    (u.mews.dev ≠ .mews → u.mews.vaon = true → exec (.railRecovered t) s = .next (u.modMews fun m =>
      { m with rails := 127, held := m.held && !m.resetN })) ∧
    exec (.vaonRemoved t) s = .next u.clearMews ∧
    exec (.powerOn t) s = .next ((((u.clearMews).dieReset 1).modMews fun m =>
      { m with vaon := true, pwren := true, oldDev := .boot }).emit (.pin .mewsPwren (some true)))

/-- Rows of the Uane fabric complete (R426–R451). -/
def Obligations.FabricRowsComplete : Prop :=
  ∀ (s u : State) (t n : Nat), u = s.advance t →
    (∀ payload, n < 4 → u.uaneOn = true → exec (.hello t n true payload []) s = .next (u.takeHello n payload)) ∧
    (∀ payload run v, n < 4 → u.uaneOn = true → u.obs (wUane n) = 1 →
      run = (if (u.uport n).neighbour = leAt payload 0 2 then (u.uport n).helloRun + 1 else 1) →
      v = u.modUport n (fun q => { q with
        lastHello := u.now, farLocks := fld (leAt payload 8 4) 4 0, farAligned := bit (leAt payload 3 1) 0
        neighbour := leAt payload 0 2, helloRun := run }) →
      exec (.hello t n true payload []) s = .next (if 8 ≤ run then v.uaneUp n else v)) ∧
    (∀ ser payload, n < 4 → u.uaneOn = true → ser.length = 5 →
      exec (.hello t n true payload ser) s = .next ((u.modUport n fun p =>
        { p with ser := ser.map (min · (2 ^ 32 - 1)) }).takeHello n payload)) ∧
    (∀ payload ser, n < 4 → u.uaneOn = true →
      exec (.hello t n false payload ser) s = .next (u.modUport n fun p => { p with helloRun := 0 })) ∧
    (∀ aligned, exec (.helloSend t aligned) s = .next ((upTo 4).foldl (fun (s : State) n =>
      if s.obs (wUane n) = 0 then s else s.uaneSend 0x01 0xFFFF n [] (s.helloPayload n (bit aligned n))) u)) ∧
    (u.portUp n = true → (u.uport n).lastHello + 10000 ≤ u.now → exec (.helloTimeout t n) s = .next (u.uaneDown n 2)) ∧
    (∀ lane, n < 4 → u.portUp n = true → ((u.uport n).rxMap.take 4).contains lane = true → (u.uport n).lostAt = none →
      exec (.uaneLockLost t n lane) s = .next ((u.modUport n fun p => { p with locks := setBit p.locks lane false }).modUport n
        fun p => { p with lostAt := some u.now })) ∧
    (∀ lane e, n < 4 → u.portUp n = true → ((u.uport n).rxMap.take 4).contains lane = true → (u.uport n).lostAt = some e →
      e + 2000 ≤ u.now →
      exec (.uaneLockLost t n lane) s = .next ((u.modUport n fun p => { p with locks := setBit p.locks lane false }).uaneDown n 1)) ∧
    (n < 4 → ((u.uport n).downAt.all fun e => decide (e + 1000000 ≤ u.now)) = true → u.obs (wUane n) = 0 → u.unitCmd (wUane n) = 2 →
      u.portUsed n = true → exec (.uanePortTraining t n false) s = .next
        ((upTo 5).foldl (fun (s : State) k => s.setUaneLane n k 1 (if k = 4 then 7 else k)) ((u.setUane n 1).modUport n fun p =>
          { p with trainSince := u.now, helloRun := 0, laneMap := [0, 1, 2, 3, 4], rxMap := [0, 1, 2, 3, 4] }))) ∧
    (n < 4 → u.obs (wUane n) = 1 → exec (.uanePortTraining t n true) s = .next
      ((upTo 4).foldl (fun (s : State) k => s.setUaneLane n k 0 k) (u.modUport n fun p => { p with locks := 31 }))) ∧
    (u.obs (wUane n) = 1 → (u.uport n).trainSince + 50000000 ≤ u.now →
      exec (.uaneTrainingTimeout t n) s = .next (u.uaneDown n 4)) ∧
    (∀ w, (u.uport n).rxSwap = some w → exec (.uaneLaneSwap t n false) s = .next (u.modUport n fun p => { p with
      rxMap := setAt (setAt p.rxMap w.logical w.phys) 4 (natAt p.rxMap w.logical), rxSwap := none, lostAt := none, skip := 2 })) ∧
    (∀ w k, (u.uport n).swap = some w → w.n = some k → k ≤ codewordAt u.now → u.therm.swaps = [] →
      exec (.uaneLaneSwap t n true) s = .next ((((u.modUport n fun p => { p with
        laneMap := setAt (setAt p.laneMap w.logical w.phys) 4 (natAt (u.uport n).laneMap w.logical), swap := none, spare := 1
        skip := 2 }).setUaneLane n w.phys 0 w.logical).setUaneLane n (natAt (u.uport n).laneMap w.logical) 1 7).raise 0xFB n
          (w.logical * 256 + natAt (u.uport n).laneMap w.logical * 16 + w.cause))) ∧
    exec (.uaneFramingLost t n) s = .next (u.modUport n fun p => { p with framingLost := true }) ∧
    (∀ frame tenths named, n < 4 →
      exec (.uaneFrameForward t n frame tenths named) s = .next (u.uaneFlush.recvFrame n tenths named frame)) ∧
    (∀ frame tenths v w c, n < 4 → v = u.uaneFlush → w = v.modUport n (fun p => { p with framingLost := false }) →
      v.uaneOn = true → v.obs (wUane n) ≠ 0 → w.portUp n = true → uHdrOk frame = true → uClass (readUHdr frame).typ = some c →
      uLocal (readUHdr frame).typ = false → payCheck frame = .good →
      exec (.uaneFrameForward t n frame tenths true) s = .next (
        if ((readUHdr frame).bcast || (readUHdr frame).dst = 0xFFFF) = true then w.recvBroadcast n (readUHdr frame) frame true
        else w.recvUnicast n (readUHdr frame) frame true)) ∧
    (∀ payload, u.uaneOn = true →
      exec (.topo t n payload) s = .next ((u.takeTopo n payload).sweepReturned (u.uane.routes.map URoute.node))) ∧
    (∀ v, u.uaneOn = true → v = u.uaneSend 0x03 0xFFFF 0 [] u.topoPayload →
      exec (.topoSend t) s =
        .next ((if u.routesStale then v.recompute else v.updateMaster).sweepReturned (u.uane.routes.map URoute.node))) ∧
    (∀ v, v = u.modUane (fun w => { w with topo := u.freshTopo, dupAt := w.dupAt.filter fun e => decide (u.now < e + 3000000) }) →
      exec (.topoStale t) s = .next (if (v.uaneOn && v.routesStale) = true then v.recompute else v)) ∧
    (∀ payload tenths, u.uaneOn = true → u.portUp n = true →
      exec (.uaneTime t n payload tenths) s = .next (u.takeTime n tenths payload)) ∧
    (∀ payload tenths, u.uaneOn = true → u.portUp n = true → (leAt payload 8 8 = 0 ∨ (u.uport n).skip ≠ 0) →
      exec (.uaneTime t n payload tenths) s = .next (u.modUport n fun p =>
        { p with lastTx := leAt payload 0 8, lastRx := u.wall, skip := p.skip - 1 })) ∧
    exec (.timeSend t) s = .next ((upTo 4).foldl (fun (s : State) n =>
      if s.portUp n then s.uaneSend 0x02 0xFFFF n [] (s.timePayload n) else s) u) ∧
    (∀ msg, u.num 0xF030 ≠ 0 → exec (.ptpMessage t msg) s = .next (u.takePtp msg)) ∧
    (u.flag 0xF028 = true → (u.wall + 5) % 1000000000 ≤ 10 →
      exec (.ppsEdge t true) s = .next (u.emit (.pin .timePps (some true)))) ∧
    ((u.wall + 999900005) % 1000000000 ≤ 10 → exec (.ppsEdge t false) s = .next (u.emit (.pin .timePps (some false)))) ∧
    (∀ spec payload, exec (.pixel t n spec payload) s = .next (u.takePixel n spec payload)) ∧
    (∀ spec payload l w, u.rxLayerOf n (leAt spec 0 1) = some l → (u.vlayer l).writing = some w → w.num = leAt spec 2 4 →
      leAt spec 6 2 < w.rows → leAt spec 8 2 + leAt spec 10 2 ≤ w.width → bit (leAt spec 1 1) 1 = false →
      exec (.pixel t n spec payload) s = .next (((u.modRx l fun r => { r with lastAt := u.now }).modHbm fun h =>
        h.putPixels (l + 1) w.buf (epochOfVersion (leAt spec 2 4)) (leAt spec 6 2 * w.width + leAt spec 8 2)
          (flitPixels (leAt spec 10 2) payload)).modRx l fun r => { r with
            pixels := mapPut r.pixels (leAt spec 6 2) ((mapGet r.pixels (leAt spec 6 2)).getD 0 + leAt spec 10 2) })) ∧
    (∀ spec payload, exec (.pixelEnd t n spec payload) s = .next (u.takePixelEnd n spec payload)) ∧
    (∀ spec payload l w, u.rxLayerOf n (leAt spec 0 1) = some l → (u.vlayer l).writing = some w → w.num = leAt spec 2 4 →
      bit (leAt spec 1 1) 2 = true →
      exec (.pixelEnd t n spec payload) s = .next ((u.discardWriting l).modRx l fun r => { r with ended := true })) ∧
    (∀ line, exec (.transitLineSend t n line) s = .next (u.streamSend n line)) ∧
    (∀ line v, fld (u.num 0xF040 n) 31 24 < 8 → u.streamVersion n ≠ 0 → line < rectH (u.num 0xF041 n) →
      ((u.vlayer (fld (u.num 0xF040 n) 31 24)).versions.find? fun v => v.num = u.streamVersion n) = some v →
      bit v.map (rectY (u.num 0xF041 n) + line) = true →
      exec (.transitLineSend t n line) s = .next (u.sendLine n line (u.streamVersion n) v.buf v.width)) ∧
    (transitFed u.live n = true → (u.vlayer n).writing.isSome = true → (u.rxLayer n).lastAt + 50000000 ≤ u.now →
      exec (.transitEndTimeout t n) s =
        .next (((u.discardWriting n).modRx n fun r => { r with ended := true }).raise 0xFD n 2)) ∧
    (∀ src spec payload, exec (.mgmt t n src spec payload) s = .next (u.takeMgmt n src spec payload)) ∧
    (∀ src spec payload, leAt spec 2 1 = 0 → (u.unisonGroup.any fun m => m.1 = leAt (trimFrame payload 30) 8 2) = false →
      exec (.mgmt t n src spec payload) s =
        .next (u.request .inBand (src * 65536 + leAt spec 0 2) (trimFrame payload 30) false))

/-- Rows of wall coherence complete (R176–R190, R264–R266, R452–R462). -/
def Obligations.WallRowsComplete : Prop :=
  ∀ (s u : State) (t : Nat), u = s.advance t →
    (∀ report, u.isCoord = true → exec (.voteReport t report) s = .next (u.takeReport report)) ∧
    (∀ agreement, exec (.agreement t agreement) s = .next (u.takeAgreement agreement)) ∧
    (∀ agreement a n, a = readAgreement agreement → u.windowLayer a.window = some n → u.agreementInTime a.frame = true →
      (u.curg.agreements.find? fun p => p.window = a.window && p.frame = a.frame) = none →
      exec (.agreement t agreement) s = .next ((u.modCurg fun c => { c with agreements := c.agreements ++ [a] }).modCLayer n fun c =>
        { c with
          agreed := if bit a.flags 0 then a.version else 0
          listed := if bit a.flags 0 then c.listed.filter fun v => !newer a.version v else c.listed })) ∧
    (u.isCoord = true → u.seqr.status ≠ 0 → (u.coh.issued.any fun p => leAt p.2 4 4 = low32 u.issueFrame) = false →
      exec (.agreementIssue t) s = .next (u.issueAgreements u.issueFrame)) ∧
    (u.isCoord = true → u.coh.repeated ≠ u.issueFrame → u.issueAt u.issueFrame + 50000 ≤ (u.wall : Int) →
      exec (.agreementRepeat t) s = .next ((u.coh.issued.filter fun p =>
        leAt p.2 4 4 = low32 u.issueFrame).foldl (fun s p => s.uaneSend 0x11 0xFFFF 0 [] p.2)
          (u.modCoh fun w => { w with repeated := u.issueFrame }))) ∧
    (∀ lease, exec (.lease t lease) s = .next ((u.takeLease lease).newTerm (u.coh.term, u.coh.holder))) ∧
    (u.coordEligible = true → u.isCoord = false → u.turnToLead = true →
      exec (.leaseExpiry t) s = .next ((u.takeRole.newTerm (u.coh.term, u.coh.holder)).checkTable u.tableCrc).sendReports) ∧
    (∀ node report, u.isCoord = true → exec (.lumaReport t node report) s = .next (u.modCoh fun w => { w with
      luma := (w.luma.filter fun q => q.node != node) ++
        [⟨node, leAt report 1 1, leAt report 2 2, leAt report 4 2, leAt report 6 4⟩] })) ∧
    (∀ set, (u.coh.pendingSets ≠ [] ∨ (readSet set).target ≠ u.num 0xC030 2 ∨ u.num 0xC030 1 ≠ u.num 0xC030 2) →
      u.coh.pendingSets.contains (readSet set) = false →
      exec (.lumaSet t set) s = .next (u.modCoh fun w => { w with pendingSets := w.pendingSets ++ [readSet set] })) ∧
    (∀ x b, u.coh.lastSet = some x → u.isCoord = true → 64 ≤ u.coh.setAge →
      b = toLE 1 1 ++ toLE 1 0 ++ toLE 2 x.target ++ toLE 2 x.rate ++ toLE 4 u.coh.term ++ toLE 8 x.g →
      exec (.lumaSetRepeat t) s =
        .next (((u.modCoh fun w => { w with setAge := 0 }).uaneSend 0x14 0xFFFF 0 [] b).takeSet b)) ∧
    (u.seqr.cState = 1 → u.firm.running = true → u.firm.restartUntil ≤ u.now → u.coh.join = none →
      exec (.commitValidationEnd t) s = .next u.endLocalValidation) ∧
    (∀ j, u.seqr.cState = 1 → u.firm.running = true → u.firm.restartUntil ≤ u.now → u.coh.join = some j →
      exec (.commitValidationEnd t) s = .next (u.endJoinValidation j)) ∧
    (∀ src j, u.coh.join = some j → exec (.prepare t src j.id) s = .next (u.sendAnswer src)) ∧
    (∀ c node ready, u.runningCommit c.id = some c → c.go = none → c.parts.contains node = true →
      ready = (if c.ready.contains node then c.ready else c.ready ++ [node]) → (c.parts.all fun p => ready.contains p) = false →
      exec (.ready t node c.id) s = .next (u.modCoh fun w => { w with commit := some { c with ready := ready } })) ∧
    (∀ c, u.runningCommit c.id = some c → c.go = none → exec (.refused t c.id) s = .next u.abortCommit) ∧
    (∀ src j g v, u.coh.join = some j → j.go = none → u.seqr.cState = 2 → j.ready = true → u.inTimeFor g = true →
      v = (((u.modDict fun d => { d with shadow := mapPut d.shadow (okey 0xB012 0) (nv g) }).pendCommit g true).modCoh fun w =>
          { w with join := some { j with go := some g } }) → src ≠ v.uane.node →
      exec (.go t src j.id g) s = .next (v.uaneSend 0x12 src 0 [] (commitBytes 5 0 j.id v.coh.term g 0 0 []))) ∧
    (∀ c g node, u.runningCommit c.id = some c → c.go = some g →
      (c.parts.all fun p => (if c.acks.contains node then c.acks else c.acks ++ [node]).contains p) = true →
      exec (.commitAck t node c.id) s = .next (u.modCoh fun w => { w with commit := none })) ∧
    (∀ j, u.joined = some j → exec (.abort t j.id) s = .next (u.refuseJoin 14 0)) ∧
    exec (.prepareRepeat t) s = .next u.sendPrepare ∧
    (∀ c g, u.coh.commit = some c → c.go = some g → u.inTimeFor g = true → exec (.goRepeat t) s = .next u.sendGo) ∧
    (∀ c, u.coh.commit = some c → c.go = none → c.started + u.num 0xB062 * 1000000 ≤ u.now →
      exec (.wallJoinTimeout t) s = .next u.abortCommit) ∧
    (∀ j, u.joined = some j → j.at_ + 2 * u.num 0xB062 * 1000000 ≤ u.now →
      exec (.wallJoinExpiry t) s = .next (u.refuseJoin 10 0xB012)) ∧
    (∀ c g out, u.coh.commit = some c → c.go = some g → u.tF g ≤ (u.wall : Int) + 200000 →
      out = c.parts.filter (fun p => !c.acks.contains p) →
      exec (.seqrWallCommit t) s = .next (out.foldl (fun (s : State) p => s.raise 0xC2 3 p) (u.modCoh fun w =>
        { w with commit := none, result := some ⟨c.id, 1, g, out⟩ })))

/-- Rows of a calibration sweep complete (R463–R472). -/
def Obligations.SweepRowsComplete : Prop :=
  ∀ (s u : State) (t n : Nat), u = s.advance t →
    (∀ payload x nodes, readStep n payload = (x, nodes) → (nodes = [] ∨ nodes.contains u.uane.node = true) →
      u.seqr.count + 1 < x.first + x.dwell →
      (u.coh.node.cur = none → exec (.sweepStep t n payload) s = .next (u.modNode fun m =>
        { m with cur := some x, endedAt := none, bands := List.replicate 4 {} })) ∧
      (u.coh.node.cur ≠ none → exec (.sweepStep t n payload) s = .next (u.modNode fun m => { m with next := some x }))) ∧
    (∀ payload, u.coh.master.stepDone = true →
      exec (.sweepResult t n payload) s = .next (u.modMaster (SMaster.file (readResult n payload)))) ∧
    (∀ payload, u.coh.master.stepDone = false →
      exec (.sweepResult t n payload) s = .next (u.modMaster (SMaster.file (readResult n payload))).stepGathered) ∧
    (∀ sweep, exec (.sweepCollect t n sweep) s =
      .next ((u.coh.node.held.filter fun r => r.sweep = sweep).foldl (fun (s : State) r => s.sendResult n r) u)) ∧
    (∀ sweep, exec (.sweepEnd t sweep) s = .next (u.modNode fun m => { m with
      held := m.held.filter fun r => r.sweep != sweep
      cur := m.cur.filter fun x => x.sweep != sweep, next := m.next.filter fun x => x.sweep != sweep, endedAt := none })) ∧
    (u.coh.master.running = true → u.coh.master.stepDone = false →
      u.tF (u.coh.master.first + (progStep (u.blob 0x2050) u.coh.master.step).1) + 100000000 ≤ (u.wall : Int) →
      exec (.sweepStepTimeout t) s = .next ((u.coh.master.missing.filter fun p => p.2 = u.coh.master.step).foldl
        (fun (s : State) _ => s.sendCollect) u).nextStep) ∧
    (∀ e, u.coh.node.endedAt = some e → e + u.num 0x2055 * 1000000 ≤ u.now →
      exec (.mgmtSweep t) s = .next ((u.modNode fun m => { m with endedAt := none }).raise 0x25 2
        ((u.coh.node.held.getLast?.map SResult.step).getD 0)))

/-- Rows of the firmware and of the flash complete (R40–R43, R515–R531, R558). -/
def Obligations.FirmwareRowsComplete : Prop :=
  ∀ (s u : State) (t : Nat), u = s.advance t →
    (∀ n, u.firm.verifying = some n → imageHeaderOk (u.slotImage n) = true → imageDigestOk (u.slotImage n) = true →
      u.firm.running = true →
      exec (.mgmtFwUpdate t true) s = .next ((((u.modFirm fun f => { f with
        verifying := none, sigOk := setAt f.sigOk n true }).markSlot n 1).dropLease 0).raise 0x28 2 n)) ∧
    (∀ n, u.firm.verifying = some n → u.firm.running = true →
      exec (.mgmtFwUpdate t false) s = .next ((((u.modFirm fun f => { f with
        verifying := none, sigOk := setAt f.sigOk n false }).markSlot n 2).dropLease 0).raise 0x28 3 n)) ∧
    (∀ core held sectors, core < 3 → natAt u.firm.cores core = 0 →
      exec (.mgmtCoreSpared t core held sectors) s = .next ((u.revokeHeld held sectors).coreOut core)) ∧
    (∀ task held sectors retained v, u.firm.running = true → u.firm.restartUntil ≤ u.now →
      v = ((u.revokeHeld held sectors).modFirm fun f => { f with misses := mapPut f.misses task u.now }).raise 0x27 0 (task % 65536) →
      ((u.firm.misses.any fun m => m.1 = task && decide (u.now ≤ m.2 + 10000000000)) = false →
        exec (.mgmtFwWatchdog t task held sectors retained) s = .next v) ∧
      ((u.firm.misses.any fun m => m.1 = task && decide (u.now ≤ m.2 + 10000000000)) = true →
        exec (.mgmtFwWatchdog t task held sectors retained) s = .next (v.fwRestart sectors retained))) ∧
    (∀ area, area < 16 → natAt u.firm.busPort area ≠ 2 →
      exec (.busTransactionTimeout t area false) s = .next (u.modFirm fun f => { f with
        busTimeouts := (f.busTimeouts + 1) % 2 ^ 32, busPort := setAt f.busPort area (natAt u.firm.busPort area + 1) })) ∧
    (∀ area v, area < 16 → natAt u.firm.busPort area = 2 → v = u.modFirm (fun f => { f with
        busTimeouts := (f.busTimeouts + 1) % 2 ^ 32, busPort := setAt f.busPort area 0 }) →
      exec (.busTransactionTimeout t area false) s =
        .next ((v.areaUnits area).foldl (fun (s : State) w => s.forceDisagree w) v)) ∧
    (∀ area, area < 16 → exec (.busTransactionTimeout t area true) s = .next (u.portAnswers area)) ∧
    (∀ lease sectors, lease < 10 → (u.firm.leases.getD lease {}).renewed + leasePeriod lease ≤ u.now →
      exec (.mgmtLeaseRevoked t lease sectors) s = .next (u.revokeLease lease sectors)) ∧
    (∀ sectors, u.tF (u.seqr.count + 1) - 100000 ≤ (u.wall : Int) → (u.firm.leases.getD 10 {}).renewed ≤ u.now →
      exec (.mgmtLeaseRevoked t 10 sectors) s = .next (u.revokeLease 10 sectors)) ∧
    (∀ es, u.gysol.profJob = some (.save es) → entriesBytes es ≤ 65512 →
      exec (.profileSaveComplete t true) s = .next (u.modGysol fun g => { ({ g with profJob := none } : Gysol).putOlder
        (.valid ({ g with profJob := none } : Gysol).nextCount u.firm.fwVersion es) with profStatus := 2 }).profNext) ∧
    (u.gysol.profJob = some .erase → exec (.profileEraseComplete t) s = .next (u.modGysol fun g =>
      { g with profJob := none, copyA := .blank, copyB := .blank, profStatus := 0 }).profNext)

/-- Rows of the JTAG port complete (R616–R624). -/
def Obligations.JtagRowsComplete : Prop :=
  ∀ (s u : State) (t : Nat), u = s.advance t →
    exec (.tapReset t) s = .next (u.modTap fun p => { p with ir := 0x02 }) ∧
    exec (.idcode t) s = .next (u.modTap fun p => { p with ir := 0x02, captured := 0x13E7156B }) ∧
    (∀ cells sample, u.mews.dev ≠ .mews →
      exec (.extest t cells sample) s = .next ((u.modTap fun p => { p with
        ir := 0x00, captured := sample % 2 ^ 177, boundary := cells % 2 ^ 177 }).emit (.extest (extestDrives cells))) ∧
      exec (.samplePreload t cells sample) s = .next (u.modTap fun p => { p with
        ir := 0x01, captured := sample % 2 ^ 177, boundary := cells % 2 ^ 177 })) ∧
    exec (.bypass t 0xFF) s = .next (u.modTap fun p => { p with ir := 0xFF, captured := 0 }) ∧
    (∀ v w ctl data wait, u.mailboxCapture = (v, w) → exec (.mailbox t ctl data false wait) s =
      .next (((w.tapTake 0x10 v).modTap fun p => { p with mbBusy := false }).mailboxTake ctl data wait)) ∧
    (∀ v w ctl data wait, u.mailboxCapture = (v, w) → ctl % 4 ≠ 0 → exec (.mailbox t ctl data true wait) s =
      .next ((w.tapTake 0x10 v).modTap fun p => { p with mbBusy := true })) ∧
    (∀ write space addr data, u.mews.dev ≠ .mews →
      exec (.peek t true write space addr data true) s =
        .next ((u.tapTake 0x11 u.tap.peekWord).peek write (space % 16) (addr % 2 ^ 36) data true)) ∧
    (u.mews.dev ≠ .mews → u.mews.vaon = true → exec (.dieReset t) s = .next ((u.tapTake 0x12 0).dieReset 5))

/-- Rows of event capture, tasks, GPIO and unit disagreement complete (R36, R473–R492, R535, R571). -/
def Obligations.EventRowsComplete : Prop :=
  ∀ (s u : State) (t n : Nat), u = s.advance t →
    (∀ occs, exec (.eventOccurrence t occs) s = .next (u.raiseAll occs)) ∧
    (u.xrds.lostPending ≠ 0 → u.xrds.queue.length < 240 →
      exec (.xrdsEventsLost t) s =
        .next ((u.modXrds fun x => { x with lostPending := 0 }).raise 0x31 0 (sat 65535 u.xrds.lostPending))) ∧
    (n < 38 → natAt u.xrds.pending n ≠ 0 → (20 ≤ n → n < 36 → u.num 0x3041 (n - 20) = 3 → u.pulseRuns (n - 20) = false) →
      exec (.taskActivation t n) s = .next (((u.modXrds fun x => { x with
        pending := modAt x.pending n (· - 1), acts := modAt x.acts n fun a => (a + 1) % 2 ^ 32 }).taskAct n).countWhere
          (fun w => fld w 63 56 = 2 && fld w 55 48 = n) 1)) ∧
    (20 ≤ n → n < 36 → u.num 0x3041 (n - 20) = 3 → u.pulseRuns (n - 20) = true → exec (.taskActivation t n) s = .next u) ∧
    (u.pulseRuns n = false → exec (.gpioPulseEnd t n) s = .next (u.modXrds fun x =>
      { x with pulseEnd := setAt x.pulseEnd n none })) ∧
    (∀ high, n < 16 → u.mews.dev ≠ .mews → u.mews.held = false →
      exec (.gpioInputEdge t n high) s = .next (u.gpioMove fun s => s.modXrds fun x =>
        { x with gpioIn := setBit x.gpioIn n high })) ∧
    (∀ cycles, u.domainState n = 2 → exec (.cyclesCounterCompare t n cycles) s =
      .next (u.countWhere (fun w => fld w 63 56 = 4 && fld w 55 48 = n) cycles)) ∧
    ((u.unitRec n).dis = true → (u.unitRec n).evt = false → (u.unitRec n).disSince + 3000000000 ≤ u.now →
      exec (.mgmtUnitDisagree t n) s = .next ((u.modUnit n fun r => { r with evt := true }).raise 0x20 0 n)) ∧
    (u.agrees n = false → u.darkExempt n = false → (u.unitRec n).dis = false →
      (u.unitRec n).chg + u.allowance n u.period ≤ u.now →
      exec (.disagreeAllowanceExpiry t n) s = .next (u.modUnit n fun r => { r with dis := true, disSince := u.now }))

/-- Operations of a session complete (R44–R68, R76, R600). -/
def Obligations.OperationsComplete : Prop :=
  ∀ (s v : State) (t sid obj sub count : Nat) (x : Session), s.Serves t sid x → v = s.served t sid x →
    (∀ shadow data, v.opRead ⟨sid, x.role⟩ ⟨0x01, b2n shadow, obj, sub, count, []⟩ = (0, data) →
      exec (.read t sid obj sub count shadow) s = .next (v.emit (.answer sid 0x01 0 data))) ∧
    (∀ data w st, v.checkWrite ⟨sid, x.role⟩ obj sub count data = none →
      v.doWrite ⟨sid, x.role⟩ obj sub count data = (w, st) →
      exec (.write t sid obj sub count data) s = .next (w.emit (.answer sid 0x02 st []))) ∧
    (∀ data, v.opDescribe ⟨0x03, 0, obj, sub, count, []⟩ = (0, data) →
      exec (.describe t sid obj sub count) s = .next (v.emit (.answer sid 0x03 0 data))) ∧
    (∀ offset length data, v.opBlobRead ⟨0x04, 0, obj, sub, 1, toLE 4 offset ++ toLE 4 length⟩ = (0, data) →
      exec (.blobRead t sid obj sub offset length) s = .next (v.emit (.answer sid 0x04 0 data))) ∧
    (∀ d before chunk crc h, v.TakesChunk sid x obj sub d before chunk → before.length < 2 ^ 32 →
      h = v.headerArrives obj sub before (before ++ chunk) →
      exec (.blobWrite t sid obj sub before.length chunk false crc) s =
        .next ((h.keepStream ⟨okey obj sub, sid, before ++ chunk, h.now⟩).emit (.answer sid 0x05 0 []))) ∧
    (∀ d before chunk h w st, v.TakesChunk sid x obj sub d before chunk → before.length < 2 ^ 32 →
      h = v.headerArrives obj sub before (before ++ chunk) → h.TakesLast sid obj sub d (before ++ chunk) →
      (h.closeStream (okey obj sub)).takeBlob sid obj sub d (before ++ chunk) = (w, st) →
      exec (.blobWrite t sid obj sub before.length chunk true (crc32c (before ++ chunk))) s =
        .next (w.emit (.answer sid 0x05 st []))) ∧
    (∀ start n data, v.opLogRead ⟨0x06, 0, 0, 0, 1, toLE 4 start ++ toLE 1 n ++ [0, 0, 0]⟩ = (0, data) →
      exec (.logRead t sid start n) s = .next (v.emit (.answer sid 0x06 0 data))) ∧
    (∀ mask : Bytes, mask.length = 32 → exec (.subscribe t sid mask) s = .next ((v.modSession sid fun y =>
      { y with mask := ofLE mask }).emit (.answer sid 0x07 0 []))) ∧
    exec (.nop t sid) s = .next (v.emit (.answer sid 0x08 0 [])) ∧
    exec (.sessionClose t sid) s = .next ((v.emit (.answer sid 0x11 0 [])).endSession sid 0)

/-- Rows of sessions and transports complete (R54, R56, R68, R72–R80, R443). -/
def Obligations.SessionRowsComplete : Prop :=
  ∀ (s u : State) (t sid : Nat), u = s.advance t →
    (∀ tr addr role resume nonce w fst st data, u.firm.running = true →
      u.sessionOpen tr addr ⟨0x10, 0, 0, 0, 1, toLE 1 role ++ [0] ++ toLE 2 resume ++ nonce⟩ = (w, fst, st, data) →
      exec (.sessionOpen t tr addr role resume nonce) s =
        .next (w.emit (.answer 0 0x10 (if fst = 0 then st else fst) data))) ∧
    (∀ x, u.session sid = some x → x.isPending = true → x.openedAt + 2000000000 ≤ u.now →
      (x.newKey = none ∨ x.resumedAt + 2000000000 ≤ u.now → exec (.pendingSessionTimeout t sid) s = .next (u.modGysol fun g =>
        { g with sessions := g.sessions.filter fun y => y.id != sid })) ∧
      (∀ k, x.newKey = some k → u.now < x.resumedAt + 2000000000 → exec (.pendingSessionTimeout t sid) s =
        .next (u.modSession sid fun y => { y with key := k, newKey := none, openedAt := y.resumedAt }))) ∧
    (∀ x, u.session sid = some x → x.isPending = false → x.newKey ≠ none → x.resumedAt + 2000000000 ≤ u.now →
      exec (.pendingSessionTimeout t sid) s = .next (u.modSession sid fun y => { y with newKey := none })) ∧
    (∀ x, u.session sid = some x → x.isPending = false → x.lastValid + u.num 0x2013 * 1000000 ≤ u.now →
      exec (.sessionTimeout t sid) s = .next (u.endSession sid 2)) ∧
    (∀ obj sub y, y ∈ u.gysol.streams → y.key = okey obj sub → y.lastAt + 10000000000 ≤ u.now →
      exec (.blobStreamAbandon t obj sub) s = .next (u.modGysol fun g =>
        { g with streams := g.streams.filter fun z => z.key != okey obj sub })) ∧
    (∀ x n, sid ≠ 0xFFFF → u.session sid = some x → pushDue u.now x.pushes = true → n = x.pushSeq + 1 →
      exec (.eventPush t sid) s = .next ((u.modSession sid fun y => { y with pushes := y.pushes.drop 80, pushSeq := n }).gsend
        x.transport x.addr 2 (withTag x.key n (gframe (u.nodeField x.view) 2 0 sid n (if x.view then 0 else 0xFF) 1 0
          (pushPayload x.pushes))))) ∧
    (pushDue u.now u.gysol.mbPushes = true →
      exec (.eventPush t 0xFFFF) s = .next ((u.modGysol fun g =>
        { g with mbPushes := g.mbPushes.drop 80, mbPushSeq := g.mbPushSeq + 1 }).gsend .jtag 0 2
          (gframe u.uane.node 2 0 0 (u.gysol.mbPushSeq + 1) 0xFF 1 0 (pushPayload u.gysol.mbPushes)))) ∧
    (∀ tr addr port plain frame, u.firm.running = true → leAt frame 8 2 = 0 ∨ leAt frame 8 2 = u.uane.node →
      (tr = .udp → port = u.gysol.netPort ∧ plain = true) →
      exec (.gysolRequest t tr addr port plain frame true) s = .next (u.enqueue ⟨tr, addr, frame⟩) ∧
      exec (.gysolRequest t tr addr port plain frame false) s = .next (u.enqueue ⟨tr, addr, frame⟩).pump) ∧
    (∀ addr port plain frame wait, port ≠ u.gysol.netPort ∨ plain = false →
      exec (.gysolRequest t .udp addr port plain frame wait) s = .next u) ∧
    (∀ frame wait, u.firm.running = true → u.rxBusy = false →
      exec (.writeFrame t frame true wait) s = .next (u.request .spi 0 frame wait)) ∧
    (∀ frame whole wait, u.firm.running = true → u.rxBusy = true →
      exec (.writeFrame t frame whole wait) s = .next (u.modGysol fun g => { g with spiError := true })) ∧
    (u.firm.running = true → exec (.readStatus t) s = .next ((u.modGysol fun g => { g with spiError := false }).emit
      (.spi (toLE 1 (b2n (!u.gysol.spiResp.isEmpty) + 2 * b2n (!u.gysol.spiPush.isEmpty) + 4 * b2n u.rxBusy +
        128 * b2n u.gysol.spiError) ++ [0] ++ toLE 2 ((u.gysol.spiNext.map List.length).getD 0))))) ∧
    (u.firm.running = false → exec (.readStatus t) s = .next (u.emit (.spi [0x84, 0, 0, 0]))) ∧
    (∀ b bs, u.firm.running = true → u.gysol.spiResp = b :: bs → exec (.readFrame t) s = .next ((u.modGysol fun g =>
      { g with spiResp := bs }).emit (.spi b))) ∧
    (∀ b bs, u.firm.running = true → u.gysol.spiResp = [] → u.gysol.spiPush = b :: bs → exec (.readFrame t) s = .next ((u.modGysol fun g =>
      { g with spiPush := bs }).emit (.spi b))) ∧
    (∀ asker, u.firm.running = true → exec (.arpRequest t u.gysol.netIp asker) s = .next (u.emit (.arp u.gysol.netIp asker))) ∧
    (∀ asker hop data, u.firm.running = true → u.nextHop asker = some hop →
      exec (.icmpEcho t u.gysol.netIp asker true data) s = .next (u.emit (.icmp asker hop data))) ∧
    (∀ tag, (∀ g, g ∈ u.uane.tags → g.tag = tag → g.used + u.num 0x2013 * 1000000 < u.now) →
      exec (.gatewayTagExpiry t tag) s = .next (u.modUane fun w => { w with tags := w.tags.filter fun g => g.tag != tag }))

/-- State requests and commands of the device complete (R33, R36, R37, R509, R510, R518, R552). -/
def Obligations.StateCommandsComplete : Prop :=
  ∀ (s v : State) (t sid : Nat) (x : Session), s.Serves t sid x → v = s.served t sid x →
    (v.Accepts sid x 0x0011 0 1 0 →
      exec (.stateRequestMews t sid) s = .next (v.enterMews.commandDone sid 0x0011 0 0)) ∧
    (v.Accepts sid x 0x0011 0 1 2 → exec (.stateRequestStandby t sid) s = .next
      ((if v.mews.dev = .safe then v.releaseKill.enterStandby else v.modMews fun m =>
        { m with rampDown := m.rampDown.or (some 0) }).commandDone sid 0x0011 0 0)) ∧
    (v.Accepts sid x 0x0011 0 1 3 →
      exec (.stateRequestWarming t sid) s = .next (v.enterWarming.commandDone sid 0x0011 0 0)) ∧
    (v.Accepts sid x 0x0011 0 1 6 →
      exec (.stateRequestSafe t sid) s = .next ((v.enterSafe 4).commandDone sid 0x0011 0 0)) ∧
    (v.Accepts sid x 0x0016 0 1 1 → v.mews.resetDue = none → exec (.resetCmd t sid) s = .next
      ((v.modMews fun m => { m with resetDue := some (6, v.now + 10000000) }).commandDone sid 0x0016 0 0)) ∧
    (∀ unit value fam, viewOf unit = some fam → value < 256 → v.Accepts sid x unit 1 1 value →
      exec (.unitCommand t sid unit value) s = .next ((v.unitApply unit value).emit (.answer sid 0x02 0 []))) ∧
    (∀ unit fam, viewOf unit = some fam → v.Accepts sid x unit 6 1 1 → (v.unitRec unit).held ≠ 0xFF →
      exec (.unitForce t sid unit) s = .next
        ((v.modUnit unit fun r => if r.held = 0xFF then r else { r with forced := true }).commandDone sid unit 6 0)) ∧
    (∀ area res word w, word = 2 ^ 31 + area % 16 * 65536 + res % 16384 → v.Accepts sid x 0x0042 0 4 word →
      v.spareDecide word = some w → exec (.spareApprove t sid area res) s = .next (w.commandDone sid 0x0042 0 0)) ∧
    (∀ area res word w, word = area % 16 * 65536 + res % 16384 → v.Accepts sid x 0x0042 0 4 word →
      v.spareDecide word = some w → exec (.spareReject t sid area res) s = .next (w.commandDone sid 0x0042 0 0)) ∧
    (∀ policy, policy < 256 → v.Accepts sid x 0x0040 0 1 policy →
      exec (.sparePolicyWrite t sid policy) s = .next ((v.sparePolicy policy).emit (.answer sid 0x02 0 []))) ∧
    (v.Accepts sid x 0x0044 0 1 1 → exec (.stringCommission t sid) s = .next
      ((v.modTherm fun m => { m with commission := v.loop.strings.map LString.eta0 }).commandDone sid 0x0044 0 0))

/-- Commands of the store complete (R40–R43, R54, R59, R69, R97, R166, R260, R453, R465, R558). -/
def Obligations.StoreCommandsComplete : Prop :=
  ∀ (s v : State) (t sid : Nat) (x : Session), s.Serves t sid x → v = s.served t sid x →
    (v.Accepts sid x 0x2030 0 1 1 →
      exec (.profileSave t sid) s = .next ((v.profCommand true).commandDone sid 0x2030 0 3)) ∧
    (v.Accepts sid x 0x2032 0 1 1 →
      exec (.profileErase t sid) s = .next ((v.profCommand false).commandDone sid 0x2032 0 3)) ∧
    (v.Accepts sid x 0x2021 0 1 1 → exec (.stageDiscard t sid) s = .next
      (((v.modDict fun d => { d with shadow := [], owner := 0, isSealed := false }).modSeqr fun q =>
        { q with staging := [], stageReady := true }).commandDone sid 0x2021 0 0)) ∧
    (∀ role d key, v.TakesChunk sid x 0x2040 role d [] key → v.TakesLast sid 0x2040 role d key →
      exec (.roleKeyWrite t sid role key) s =
        .next (((v.closeStream (okey 0x2040 role)).writeKey role key).emit (.answer sid 0x05 0 []))) ∧
    (∀ d image w, v.TakesChunk sid x 0x2071 0 d [] image → v.TakesLast sid 0x2071 0 d image →
      w = v.closeStream (okey 0x2071 0) → exec (.fwImageWrite t sid image) s =
        .next (((w.writeImage image).raise 0x28 1 w.imageTarget).emit (.answer sid 0x05 3 []))) ∧
    (∀ port d edid, v.TakesChunk sid x 0x4020 port d [] edid → v.TakesLast sid 0x4020 port d edid →
      exec (.edidWrite t sid port edid) s = .next ((((v.closeStream (okey 0x4020 port)).setVal 0x4020 port
        (.bytes edid)).dropHpd port (some (v.now + 500000000))).emit (.answer sid 0x05 0 []))) ∧
    (∀ d start, v.TakesChunk sid x 0xB061 0 d [] start → v.TakesLast sid 0xB061 0 d start →
      exec (.wallCommitStart t sid start) s =
        .next (((v.closeStream (okey 0xB061 0)).startWallCommit start).emit (.answer sid 0x05 3 []))) ∧
    (v.Accepts sid x 0xB010 0 1 1 → exec (.commit t sid) s = .next
      ((v.sealShadow.modCoh fun w => { w with join := none }).commandDone sid 0xB010 0 3)) ∧
    (∀ id, id < 2 ^ 32 → v.Accepts sid x 0xB060 0 4 id → exec (.wallJoin t sid id) s = .next
      ((v.sealShadow.modCoh fun w => { w with join := some { id := id, at_ := v.now }, refusedAs := none }).commandDone
        sid 0xB060 0 3)) ∧
    (v.Accepts sid x 0x2051 0 1 1 → exec (.sweepStart t sid) s = .next (v.sweepStart.commandDone sid 0x2051 0 3)) ∧
    (v.Accepts sid x 0x2051 0 1 2 → exec (.sweepAbort t sid) s = .next (v.sweepAbort.commandDone sid 0x2051 0 3)) ∧
    (∀ gfx d before chunk crc h, v.TakesChunk sid x 0x6032 gfx d before chunk → before.length < 2 ^ 32 →
      h = v.headerArrives 0x6032 gfx before (before ++ chunk) →
      exec (.gfxLinesChunk t sid gfx before.length chunk false crc) s =
        .next ((h.keepStream ⟨okey 0x6032 gfx, sid, before ++ chunk, h.now⟩).emit (.answer sid 0x05 0 []))) ∧
    (∀ gfx d before chunk h, v.TakesChunk sid x 0x6032 gfx d before chunk → before.length < 2 ^ 32 →
      h = v.headerArrives 0x6032 gfx before (before ++ chunk) → h.TakesLast sid 0x6032 gfx d (before ++ chunk) →
      exec (.gfxLinesChunk t sid gfx before.length chunk true (crc32c (before ++ chunk))) s =
        .next (((h.closeStream (okey 0x6032 gfx)).gfxAccept gfx (before ++ chunk)).emit (.answer sid 0x05 0 []))) ∧
    (∀ gfx number, gfx < 8 → number < 2 ^ 32 → v.Accepts sid x 0x6034 gfx 4 number → exec (.gfxPublish t sid gfx number) s =
      .next (((v.gfxPublish gfx number).versionNotice (8 + gfx)).commandDone sid 0x6034 gfx 0))

/-- Commands to the engines complete (R134, R302, R308, R333, R347, R386–R388, R484–R491, R571). -/
def Obligations.EngineCommandsComplete : Prop :=
  ∀ (s v : State) (t sid : Nat) (x : Session), s.Serves t sid x → v = s.served t sid x →
    (v.Accepts sid x 0x5051 0 1 1 → exec (.hbmTrainFull t sid) s = .next
      (((v.modHbm fun h => { h with training := 1, retrying := false, again := false, status := 1 }).takeLeaseOf 2).commandDone
        sid 0x5051 0 3)) ∧
    (v.Accepts sid x 0x5051 0 1 2 → exec (.hbmTrainQuick t sid) s = .next
      (((v.modHbm fun h => { h with training := 2, retrying := false, again := false, status := 1 }).takeLeaseOf 2).commandDone
        sid 0x5051 0 3)) ∧
    (∀ ap addr, ap < 4 → v.Accepts sid x 0xA009 ap 8 (addr % 65536 * 2 ^ 32) → exec (.arrayRegAccessRead t sid ap addr) s =
      .next (((v.takeLeaseOf (3 + ap)).acontrol ap [acmd 7 (addr % 65536) 0 0]).commandDone sid 0xA009 ap 0)) ∧
    (∀ ap addr data, ap < 4 → v.Accepts sid x 0xA009 ap 8 (2 ^ 63 + addr % 65536 * 2 ^ 32 + data % 2 ^ 32) →
      exec (.arrayRegAccessWrite t sid ap addr data) s =
        .next (((v.takeLeaseOf (3 + ap)).acontrol ap [acmd 8 (addr % 65536) 0 (data % 2 ^ 32)]).commandDone sid 0xA009 ap 0)) ∧
    (∀ d addr, d < 14 → v.Accepts sid x 0xD009 d 8 (addr % 256 * 2 ^ 32) → exec (.lampRegAccessRead t sid d addr) s =
      .next ((v.lampSend (d / 8) 3 (d % 8) (toLE 1 (addr % 256) ++ toLE 4 0)).commandDone sid 0xD009 d 0)) ∧
    (∀ d addr data, d < 14 → v.Accepts sid x 0xD009 d 8 (2 ^ 63 + addr % 256 * 2 ^ 32 + data % 2 ^ 32) →
      exec (.lampRegAccessWrite t sid d addr data) s =
        .next ((v.lampSend (d / 8) 4 (d % 8) (toLE 1 (addr % 256) ++ toLE 4 (data % 2 ^ 32))).commandDone sid 0xD009 d 0)) ∧
    (∀ ap lane, ap < 4 → lane < 256 → v.Accepts sid x 0xA014 ap 1 lane → exec (.arcdLaneSwapCmd t sid ap lane) s =
      .next ((v.aswapStart ap lane 3).commandDone sid 0xA014 ap 3)) ∧
    (∀ band, band < 4 → v.Accepts sid x 0xC019 band 1 1 → exec (.repClear t sid band) s =
      .next ((v.modBand band fun b => { b with rep := [] }).commandDone sid 0xC019 band 0)) ∧
    (∀ n, n < 4 → v.Accepts sid x 0xC061 n 1 1 → exec (.traceArm t sid n) s =
      .next ((v.modTrace n fun _ => { state := 1 }).commandDone sid 0xC061 n 0)) ∧
    (∀ band bits, band < 4 → bits < 2 ^ 16 → v.Accepts sid x 0xC053 band 2 bits → exec (.satStickyClear t sid band bits) s =
      .next ((v.modBand band fun b => { b with sat := clearBits b.sat bits }).emit (.answer sid 0x02 0 []))) ∧
    (∀ chain, chain < 2 → v.Accepts sid x 0xD000 chain 1 1 → exec (.chainCmdEnumerate t sid chain) s =
      .next (((v.modChain chain fun c => { c with sets := [], lastFrame := v.now }).setChain chain 1).commandDone sid 0xD000 chain 0)) ∧
    (v.Accepts sid x 0x3023 0 1 1 → exec (.counterSnapshot t sid) s = .next
      ((v.modXrds fun r => { r with snap := r.counters, snapTime := v.wall }).commandDone sid 0x3023 0 0)) ∧
    (∀ mask, mask < 2 ^ 64 → v.Accepts sid x 0x3026 0 8 mask → exec (.counterClear t sid mask) s = .next
      ((v.modXrds fun r => { r with counters := (r.counters.zip (upTo 64)).map fun p =>
        if (bit mask p.2) = true then 0 else p.1 }).commandDone sid 0x3026 0 0)) ∧
    (∀ n source, n < 64 → source < 2 ^ 64 → v.Accepts sid x 0x3020 n 8 source → exec (.counterSourceWrite t sid n source) s =
      .next (((v.setNum 0x3020 n source).modXrds fun r => { r with counters := setAt r.counters n 0 }).emit
        (.answer sid 0x02 0 []))) ∧
    (∀ input, input < 38 → v.Accepts sid x 0x3012 input 1 0 → exec (.taskPendingEmpty t sid input) s =
      .next ((v.modXrds fun r => { r with pending := setAt r.pending input 0 }).emit (.answer sid 0x02 0 []))) ∧
    (∀ bits, bits < 2 ^ 64 → v.Accepts sid x 0x3014 0 8 bits → exec (.taskStickyClear t sid bits) s =
      .next ((v.modXrds fun r => { r with sticky := clearBits r.sticky bits }).emit (.answer sid 0x02 0 []))) ∧
    (∀ block bits, block < 4 → bits < 2 ^ 64 → v.Accepts sid x 0x3031 block 8 bits → exec (.irqPendingClear t sid block bits) s =
      .next ((v.modXrds fun r => { r with irqPending := clearBits r.irqPending (bits <<< (64 * block)) }).emit
        (.answer sid 0x02 0 []))) ∧
    (∀ gpio function, gpio < 16 → function < 256 → v.Accepts sid x 0x3041 gpio 1 function →
      exec (.gpioFunctionWrite t sid gpio function) s =
        .next ((v.gpioFunction gpio function).emit (.answer sid 0x02 0 [])))

/-- What the rows of the frame memory leave alone. -/
def Obligations.FrameMemoryFrame : Prop :=
  ∀ (s : State) (t a b c d : Nat) (i : Int) (f : Bool) (look : DriftLook) (io : HbmTraffic),
    (∀ o ∈ [exec (.rowShadowCopyDone t a) s, exec (.hbmcParityReplay t a b c d f) s, exec (.hbmRetrainDone t a b f) s,
      exec (.hbmScrubPass t a) s, exec (.hbmDriftTrack t a look) s, exec (.hbmRefresh t a f) s, exec (.hbmStackTempRead t a i) s,
      exec (.hbmRowTrackerExpiry t a b) s],
      ∃ w, o = .next w ∧ OnlyMoves [.hbm] s w ∧ w.hbm.words = s.hbm.words ∧ w.hbm.raw = s.hbm.raw) ∧
    (∃ w, exec (.hbmcReqTimeout t a b) s = .next w ∧ OnlyMoves [.hbm, .plgn, .curg, .uane, .ings] s w ∧
      w.hbm.words = s.hbm.words ∧ w.hbm.raw = s.hbm.raw) ∧
    ∃ w, exec (.hbmReadReturn t a b io) s = .next w ∧ OnlyMoves [.hbm, .plgn, .curg, .uane, .ings] s w ∧
      (io.turns = [] → w.hbm.words = s.hbm.words ∧ w.hbm.raw = s.hbm.raw)

/-- What the rows of the DisplayPort ports leave alone. -/
def Obligations.IngestFrame : Prop :=
  ∀ (s : State) (t n a b : Nat) (fmt : DpFormat) (bs : Bytes) (ls : LineSamples) (ok : Bool),
    ∀ o ∈ [exec (.ingsLinkUp t n a b fmt) s, exec (.dpSymbolLockLost t n) s, exec (.dpRetrainTimeout t n) s,
      exec (.ingsFormatChange t n fmt) s, exec (.currencySdp t n bs) s, exec (.dpFrameStart t n) s, exec (.dpLineReceived t n ls) s,
      exec (.lineWriteAccepted t n a) s, exec (.dpFrameEnd t n) s, exec (.staticCopyComplete t n ok) s,
      exec (.dpLinkTrainingFail t n a b) s, exec (.hpdReassert t n) s],
      MovesOnly [.ings, .units, .hbm, .outs] s o

/-- What the rows of the schedule and the array links leave alone. -/
def Obligations.ArrayFrame : Prop :=
  ∀ (s : State) (t ap g a b : Nat) (f h : Bool) (bs : Bytes) (found : List (List SchedEpoch)) (late : List (Nat × Nat × Nat)),
    ∀ o ∈ [exec (.blockLoadWindow t ap a b f h) s, exec (.epochClear t g a b) s, exec (.globalReset t g a) s,
      exec (.slotReset t g a b) s, exec (.scheduleDelivery t g found a) s, exec (.compileDeadline t g) s,
      exec (.plgnPlaneLate t late) s, exec (.keepaliveSend t ap) s, exec (.arrayTraining t ap) s, exec (.ack t ap bs) s,
      exec (.status t ap bs) s, exec (.regData t ap bs) s, exec (.echo t ap bs) s, exec (.fault t ap bs) s,
      exec (.laneSwapSend t ap a) s, exec (.laneSwapCodeword t ap) s, exec (.arcdAckTimeout t ap) s, exec (.arcdReturnSilent t ap) s],
      MovesOnly [.plgn, .arcd, .units, .firm, .outs] s o

/-- What the rows of the light loop leave alone. -/
def Obligations.LoopFrame : Prop :=
  ∀ (s : State) (t b : Nat) (sums : List (Int × Bool)),
    (∀ o ∈ [exec (.bandEstimateLatch t) s, exec (.loopFeedbackLost t b) s,
      exec (.loopImplausible t b) s, exec (.bandFrozen t b) s, exec (.bandClose t b) s, exec (.warmRampComplete t b) s,
      exec (.calFreeze t b) s, exec (.pilotRunEnd t b) s, exec (.traceTrigger t b) s, exec (.loopTraceDone t b) s],
      MovesOnly [.loop, .coh, .colr, .units] s o) ∧
    ∀ o ∈ [exec (.loopTick t sums) s, exec (.pipWindow t b sums) s], ∃ w, o = .next w ∧ OnlyMoves [.loop, .coh, .lamp] s w ∧
      w.lamp.latch = s.lamp.latch ∧ w.lamp.intlkA = s.lamp.intlkA ∧ w.lamp.intlkB = s.lamp.intlkB

/-- What the rows of the wheel drive leave alone. -/
def Obligations.WheelFrame : Prop :=
  ∀ (s : State) (t n a b : Nat) (i : Int) (f : Bool),
    ∀ o ∈ [exec (.wheelRun t n) s, exec (.wheelStop t n) s, exec (.whelCatch t n i) s, exec (.alignEnd t n) s,
      exec (.openLoopHandover t n) s, exec (.whelStartFail t n) s, exec (.wheelLocked t n) s, exec (.zeroCrossing t n a i f) s,
      exec (.pwmPeriodSample t n a) s, exec (.wheelFaultInput t n f) s, exec (.indexEdge t n a b) s, exec (.indexMissing t n) s,
      exec (.whelLockLost t n a) s, exec (.wheelRecoveryTimeout t n) s, exec (.wheelStandstill t n) s,
      exec (.wheelCoastTimeout t n) s, exec (.wheelMarkPass t n) s, exec (.seqrWheelPhase t n) s],
      MovesOnly [.whel, .seqr, .loop, .units, .outs] s o

/-- What frames and timers of the wall leave alone. -/
def Obligations.FabricAndWallFrame : Prop :=
  ∀ (s : State) (t n a : Nat) (f : Bool) (bs : Bytes) (ser : List Nat) (msg : PtpMsg),
    (∀ o ∈ [exec (.hello t n f bs ser) s, exec (.helloSend t a) s, exec (.helloTimeout t n) s, exec (.topo t a bs) s,
      exec (.topoSend t) s, exec (.topoStale t) s, exec (.timeSend t) s, exec (.voteReport t bs) s, exec (.agreement t bs) s,
      exec (.agreementIssue t) s, exec (.agreementRepeat t) s, exec (.leaseExpiry t) s, exec (.lumaReport t n bs) s, exec (.lumaSet t bs) s, exec (.lumaSetRepeat t) s,
      exec (.prepare t n a) s, exec (.ready t n a) s, exec (.refused t a) s, exec (.go t n a a) s, exec (.commitAck t n a) s,
      exec (.abort t a) s, exec (.prepareRepeat t) s, exec (.goRepeat t) s, exec (.wallJoinTimeout t) s, exec (.wallJoinExpiry t) s,
      exec (.seqrWallCommit t) s, exec (.sweepStep t n bs) s, exec (.sweepResult t n bs) s, exec (.sweepCollect t n a) s,
      exec (.sweepEnd t a) s, exec (.sweepStepTimeout t) s, exec (.mgmtSweep t) s],
      MovesOnly [.uane, .coh, .curg, .seqr, .dict, .units, .outs] s o) ∧
    (∀ o ∈ [exec (.uaneTime t n bs a) s, exec (.ptpMessage t msg) s], MovesOnly [.uane, .seqr, .plgn, .outs] s o) ∧
    MovesOnly [.uane, .coh, .curg, .seqr, .dict, .plgn, .outs] s (exec (.lease t bs) s)

/-- What the instructions of the JTAG port leave alone. -/
def Obligations.ServicePortFrame : Prop :=
  ∀ (s : State) (t a b c : Nat) (f g h : Bool),
    (∀ o ∈ [exec (.tapReset t) s, exec (.idcode t) s, exec (.samplePreload t a b) s, exec (.bypass t a) s], MovesOnly [.tap] s o) ∧
    MovesOnly [.tap, .outs] s (exec (.extest t a b) s) ∧
    MovesOnly [.tap, .hbm, .plgn] s (exec (.peek t f g a b c h) s)

/-- What the rows of the lamp link and of sensing leave alone. -/
def Obligations.LampFrame : Prop :=
  ∀ (s : State) (t n a b c d : Nat) (bs : Bytes) (regs : List (List Nat)),
    ∀ o ∈ [exec (.applyLaunch t a) s, exec (.setSend t n a b c d) s, exec (.statusFrameSend t n) s, exec (.lampFrameReturn t n bs) s,
      exec (.lampDriverLost t n) s, exec (.lampChainDown t n a) s, exec (.chainEnumerate t n a regs b) s,
      exec (.lampIntlkDiscrepancy t) s, exec (.lampSensorLost t n) s, exec (.lampRail t n) s, exec (.interlockClose t n) s],
      MovesOnly [.lamp, .loop, .units, .firm, .outs] s o

/-- What the rows of clocks, thermal management and wear leave alone. -/
def Obligations.ClockAndThermalFrame : Prop :=
  ∀ (s : State) (t n a b c : Nat) (i : Int) (f : Bool) (is : List Int) (bs : Bytes),
    ((s.advance t).mews.bootStep ≠ 1 → (s.advance t).mews.bootStep ≠ 2 → MovesOnly [.therm] s (exec (.dieTempConversion t is) s)) ∧
    (∀ o ∈ [exec (.mewsThermalWarn t) s, exec (.mewsThermalThrottle t) s, exec (.throttleInterval t) s,
      exec (.lampThrottleInterval t) s], MovesOnly [.therm] s o) ∧
    (∀ o ∈ [exec (.rcTrimUpdate t i) s, exec (.crystalCheck t n) s, exec (.crystalEdgeTimeout t) s], MovesOnly [.mews] s o) ∧
    (∀ o ∈ [exec (.clksBandMiss t n) s, exec (.clksLockLost t n i) s, exec (.domainGate t n f) s], MovesOnly [.clks] s o) ∧
    MovesOnly [.clks, .therm, .firm, .arcd, .loop] s (exec (.clksRefLost t) s) ∧
    ∀ o ∈ [exec (.mewsWear t n a b c) s, exec (.lane t n bs) s, exec (.arcdLaneSpared t n) s, exec (.bankSwapMirrored t) s,
      exec (.spareRejectRecheck t n a) s, exec (.clksSpared t) s, exec (.clksHoldoverLimit t n) s,
      exec (.synthesiserSearchFailed t n) s], MovesOnly [.clks, .firm, .uane, .arcd, .loop, .therm, .outs] s o

/-- A full request queue drops the frame that arrives (R58). -/
def Obligations.FullQueueDropsTheFrame : Prop :=
  ∀ (s u : State) (t : Nat) (tr : Transport) (addr port : Nat) (plain : Bool) (frame : Bytes), u = s.advance t →
    u.firm.running = true → (leAt frame 8 2 = 0 ∨ leAt frame 8 2 = u.uane.node) →
    (tr = .udp → port = u.gysol.netPort ∧ plain = true) →
    (u.gysol.queue.length < 32 →
      exec (.gysolRequest t tr addr port plain frame true) s =
        .next (u.modGysol fun g => { g with queue := g.queue ++ [⟨tr, addr, frame⟩] }) ∧
      exec (.gysolRequest t tr addr port plain frame false) s =
        .next (u.modGysol fun g => { g with queue := g.queue ++ [⟨tr, addr, frame⟩] }).pump) ∧
    (32 ≤ u.gysol.queue.length → u.gysol.rxDropped + 1 < 2 ^ 32 →
      exec (.gysolRequest t tr addr port plain frame true) s = .next (u.modGysol fun g => { g with rxDropped := g.rxDropped + 1 }) ∧
      exec (.gysolRequest t tr addr port plain frame false) s = .next (u.modGysol fun g => { g with rxDropped := g.rxDropped + 1 }).pump) ∧
    ∀ sid, u.readNum sid 0x2016 0 = u.gysol.rxDropped

/-- Sessions start pending, and at most 8 are open (R74). -/
def Obligations.SessionsStartPendingAndAreEight : Prop :=
  (∀ (s u : State) (t : Nat) (tr : Transport) (addr role resume : Nat) (nonce : Bytes), u = s.advance t → u.firm.running = true →
    1 ≤ role → role ≤ 3 → u.keyBlank role = false → nonce.length = 8 → resume < 2 ^ 16 → u.session resume = none →
    (u.gysol.sessions.length < 8 → ∃ w x, exec (.sessionOpen t tr addr role resume nonce) s = .next w ∧
      w.gysol.sessions = u.gysol.sessions ++ [x] ∧ x.isPending = true ∧ x.role = role ∧ x.openedAt = u.now) ∧
    (8 ≤ u.gysol.sessions.length →
      exec (.sessionOpen t tr addr role resume nonce) s = .next (u.emit (.answer 0 0x10 0x24 [])))) ∧
  (∀ (s : State) (t sid : Nat) (x : Session), s.Serves t sid x →
    ∃ w y, exec (.nop t sid) s = .next w ∧ w.session sid = some y ∧ y.isPending = false) ∧
  (∀ (s u : State) (t sid : Nat) (x : Session), u = s.advance t → u.session sid = some x → x.isPending = true →
    x.openedAt + 2000000000 ≤ u.now → ∃ w, exec (.pendingSessionTimeout t sid) s = .next w ∧ w.session sid = none) ∧
  ∀ (c : Instr) (s t : State), s.Ok → exec c s = .next t → t.gysol.sessions.length ≤ 8

/-- SUBSCRIBE and the queues of pushes (R67). -/
def Obligations.SubscribersQueueEachEvent : Prop :=
  (∀ (s v : State) (t sid : Nat) (x : Session) (mask : Bytes), s.Serves t sid x → v = s.served t sid x → mask.length = 32 →
    ∃ w, exec (.subscribe t sid mask) s = .next w ∧
      w.gysol.sessions = v.gysol.sessions.map fun y => if y.id = sid then { y with mask := ofLE mask } else y) ∧
  ∀ (s : State) (o : Occ), o.rcd = true →
    (s.captureRecord o).gysol.sessions = (s.gysol.sessions.map fun y =>
      if y.mask.testBit o.code = true ∧ y.pushes.length < 256 then
        { y with pushes := y.pushes ++ [⟨⟨s.xrds.seqNext, o.time, o.code, o.inst, o.data⟩, s.now⟩] } else y) ∧
    ∀ g : Gysol, ((s.modGysol fun _ => g).captureRecord o).xrds = (s.captureRecord o).xrds

/-- The role check of a write (R605). -/
def Obligations.WritesNeedTheirRole : Prop :=
  (∀ obj, writeRole obj = if obj ∈ [0x0016, 0x0030, 0x0031, 0x0032, 0x0044, 0x1010, 0x2000, 0x2001, 0x2002, 0x2003, 0x2032, 0x2040,
    0x2071, 0x5051, 0x5061, 0xA009, 0xC002, 0xC004, 0xC00A, 0xC00F, 0xC020, 0xC022, 0xC039, 0xD002, 0xD004, 0xD009, 0xD010, 0xD024,
    0xD040, 0xD041, 0xE001, 0xE002, 0xE004, 0xE005, 0xE011, 0xE012, 0xE013, 0xE01E, 0xF002] then 3 else 2) ∧
  ∀ (s v : State) (t sid obj sub count : Nat) (x : Session) (data : Bytes), s.Serves t sid x → v = s.served t sid x →
    (objExists obj = false → exec (.write t sid obj sub count data) s = .next (v.emit (.answer sid 0x02 0x10 []))) ∧
    (objExists obj = true → (∃ k, k < min (max count 1) 64 ∧ leafOf obj (sub + k) = none) →
      exec (.write t sid obj sub count data) s = .next (v.emit (.answer sid 0x02 0x11 []))) ∧
    (objExists obj = true → count ≤ 64 → (∀ k, k < max count 1 → ∃ d, leafOf obj (sub + k) = some d ∧ noWrite d (sub + k) = true) →
      exec (.write t sid obj sub count data) s = .next (v.emit (.answer sid 0x02 0x12 []))) ∧
    (objExists obj = true → count ≤ 64 → (∀ k, k < max count 1 → (leafOf obj (sub + k)).isSome = true) →
      (∃ k d, k < max count 1 ∧ leafOf obj (sub + k) = some d ∧ noWrite d (sub + k) = false) → x.role < writeRole obj →
      exec (.write t sid obj sub count data) s = .next (v.emit (.answer sid 0x02 0x15 []))) ∧
    ∀ (offset crc : Nat) (chunk : Bytes) (last : Bool) (st : Nat),
      (if objExists obj = false then st = 0x10 else match leafOf obj sub with
        | none => st = 0x11
        | some d => if noWrite d sub = true then st = 0x12 else x.role < writeRole obj ∧ st = 0x15) →
      exec (.blobWrite t sid obj sub offset chunk last crc) s = .next (v.emit (.answer sid 0x05 st []))

/-- Timeouts of one channel (R521). -/
def Obligations.FourTimeoutsRetrainAChannel : Prop :=
  ∀ (s u : State) (t port n : Nat) (c : HChan), u = s.advance t → u.hbm.chans[n]? = some c →
    (u.overdue port n = none → exec (.hbmcReqTimeout t port n) s = .next u) ∧
    ∀ i, u.overdue port n = some i → ∃ w, exec (.hbmcReqTimeout t port n) s = .next w ∧
      (∀ p, u.hbm.ports[port]? = some p → p.timeouts + 1 < 2 ^ 32 →
        ∃ q, w.hbm.ports[port]? = some q ∧ q.timeouts = p.timeouts + 1 ∧ q.queue = p.queue.eraseIdx i) ∧
      (c.st = 0 → ∃ d, w.hbm.chans[n]? = some d ∧
        (d.st = if 3 ≤ (c.timeouts.filter fun x => decide (u.now ≤ x + 100000)).length then 2 else 0)) ∧
      (∀ m, m ≠ n → w.hbm.chans[m]? = u.hbm.chans[m]?) ∧
      ∀ sid m p, w.hbm.ports[m]? = some p → w.readNum sid 0x5035 m = p.timeouts

/-- The order of capture (R474). -/
def Obligations.CaptureOrder : Prop :=
  ∀ os : List Occ, List.Perm (occSort os) os ∧
    (occSort os).Pairwise fun a b => a.code < b.code ∨ (a.code = b.code ∧ a.inst ≤ b.inst)

/-- Event numbers and the capture queue (R65, R477, R491). -/
def Obligations.EveryRecordTakesTheNextNumber : Prop :=
  (∀ (os : List Occ) (s : State), s.xrds.seqNext < 2 ^ 32 →
    (os.foldl State.captureRecord s).xrds.seqNext = (s.xrds.seqNext + (os.filter fun o => o.rcd).length) % 2 ^ 32) ∧
  ∀ (x : Xrds) (o : Occ), (x.record o).irqPending.testBit o.code = true ∧
    (∀ k, x.irqPending.testBit k = true → (x.record o).irqPending.testBit k = true) ∧
    ((x.queue.length < 240 ∨ (x.queue.length < 256 ∧
        (o.code ≤ 0x0F ∨ (0xE0 ≤ o.code ∧ o.code ≤ 0xE3) ∨ o.code = 0x31 ∨ o.code = 0x34))) →
      (x.record o).queue = x.queue ++ [⟨x.seqNext, o.time, o.code, o.inst, o.data⟩] ∧ (x.record o).lost = x.lost) ∧
    (¬ (x.queue.length < 240 ∨ (x.queue.length < 256 ∧
        (o.code ≤ 0x0F ∨ (0xE0 ≤ o.code ∧ o.code ≤ 0xE3) ∨ o.code = 0x31 ∨ o.code = 0x34))) →
      (x.record o).queue = x.queue ∧ (x.record o).lost = (x.lost + 1) % 2 ^ 32)

/-- Task counters are 4 bits wide, counters 48 (R484, R488). -/
def Obligations.TaskCountersStayAtFifteen : Prop :=
  ∀ (os : List Occ) (s : State), (∀ n ∈ s.xrds.pending, n ≤ 15) → (∀ n ∈ s.xrds.counters, n < 2 ^ 48) →
    (∀ n ∈ (s.raiseAll os).xrds.pending, n ≤ 15) ∧ ∀ n ∈ (s.raiseAll os).xrds.counters, n < 2 ^ 48

/-- A written number reads back, and nothing else changes (R9, R44, R47). -/
def Obligations.DictionaryReadsBack : Prop :=
  ∀ (s : State) (obj sub n obj' sub' : Nat), mapRising s.dict.vals = true → n < 2 ^ 64 → sub < 256 → sub' < 256 →
    (s.setNum obj sub n).num obj' sub' = if obj' = obj ∧ sub' = sub then n else s.num obj' sub'

/-- A written pixel reads back, from its row or from its row's shadow (R94, R99, R116, R117, R132). -/
def Obligations.PixelsReadBack : Prop :=
  ∀ (h h' : Hbm) (owner buf epoch i px key : Nat), h.Ok → px < 2 ^ 36 → epoch < 16 → key = wkey owner buf (i / 7) →
    h' = h.putPixel owner buf epoch i px →
    pixelAt (h'.word key) (i % 7) = px ∧ epochOf (h'.word key) = epoch ∧
    (∀ k, k < 7 → k ≠ i % 7 → pixelAt (h'.word key) k = pixelAt (h.word key) k) ∧
    (∀ a, a ≠ key → (∀ v w, h.addrOf a = some v → h.addrOf key = some w → v ≠ w ∧ v < 2 ^ 30 ∧ w < 2 ^ 30) →
      8 ≤ h.grain → h.grain ≤ 16 → h'.word a = h.word a) ∧
    (∀ w, h.addrOf key = some w → (h.chans.all fun c => c.st ≠ 3) = true → h'.bad w = false) ∧ h'.Ok

/-- The address map is one-to-one (R116). -/
def Obligations.AddressMapIsOneToOne : Prop :=
  ∀ grain a b : Nat, a < 2 ^ 35 → b < 2 ^ 35 → (addrMap grain a = addrMap grain b → a = b) ∧ (addrMap grain a).1 < 64

/-- Drift tracking (R136). -/
def Obligations.DriftMovesOneStep : Prop :=
  ∀ (s u : State) (t n : Nat) (look : DriftLook) (c : HChan), u = s.advance t → u.hbm.chans[n]? = some c →
    c.fit.rd.length ≤ 64 → (∀ x ∈ c.fit.rd ++ c.fit.wr, x ≤ 127) →
    (u.driftDue n 0 = false → exec (.hbmDriftTrack t n look) s = .next u) ∧
    (u.hbm.status = 2 → c.st = 0 → u.driftDue n 0 = true → ∃ w d, exec (.hbmDriftTrack t n look) s = .next w ∧
      w.hbm.chans[n]? = some d ∧
      d = { c with driftAt := u.now, errors := d.errors, firstFail := d.firstFail, fit := { c.fit with rd := d.fit.rd, wr := d.fit.wr } } ∧
      (∀ k, natAt d.fit.rd k ≤ 127 ∧ natAt d.fit.rd k ≤ natAt c.fit.rd k + 1 ∧ natAt c.fit.rd k ≤ natAt d.fit.rd k + 1) ∧
      (∀ k, natAt d.fit.wr k ≤ 127 ∧ natAt d.fit.wr k ≤ natAt c.fit.wr k + 1 ∧ natAt c.fit.wr k ≤ natAt d.fit.wr k + 1) ∧
      (look.osc = c.fit.osc → d.fit.wr = c.fit.wr) ∧ (∀ x ∈ d.errors, x ≤ 65535) ∧
      ∀ m, m ≠ n → w.hbm.chans[m]? = u.hbm.chans[m]?)

/-- Staging (R9, R59, R60). -/
def Obligations.StagedWritesWait : Prop :=
  ∀ (s v : State) (t sid obj sub n : Nat) (x : Session), s.Serves t sid x → v = s.served t sid x →
    (∀ d, objExists obj = true → leafOf obj sub = some d → lookup obj sub = some d → viewOf obj = none → d.acc = .rs →
      d.ty ≠ .blob → noWrite d sub = false → writeRole obj ≤ x.role → valueOk d.ty n = true → d.accepts sub n = true →
      n < 2 ^ (8 * d.ty.width) → v.stateRefuses obj sub n = none →
      (v.dict.isSealed = false → (v.dict.owner = 0 ∨ v.dict.owner = sid) → ∃ w : State,
        exec (.write t sid obj sub 1 (toLE d.ty.width n)) s = .next (w.emit (.answer sid 0x02 0x02 [])) ∧
        w.dict.vals = v.dict.vals ∧ w.dict.shadow = mapPut v.dict.shadow (okey obj sub) (nv n) ∧ w.dict.owner = sid ∧
        OnlyMoves [.dict, .seqr] v w) ∧
      (v.dict.isSealed = false → v.dict.owner ≠ 0 → v.dict.owner ≠ sid →
        exec (.write t sid obj sub 1 (toLE d.ty.width n)) s = .next (v.emit (.answer sid 0x02 0x16 []))) ∧
      (v.dict.isSealed = true →
        exec (.write t sid obj sub 1 (toLE d.ty.width n)) s = .next (v.emit (.answer sid 0x02 0x17 [])))) ∧
    (2 ≤ x.role → v.dict.isSealed = false → v.dict.owner ≠ 0 → v.dict.owner ≠ sid →
      exec (.stageDiscard t sid) s = .next (v.emit (.answer sid 0x02 0x16 [])) ∧
      (v.seqr.trans = none → exec (.commit t sid) s = .next (v.emit (.answer sid 0x02 0x16 []))))

/-- Frames that are dropped (R73). -/
def Obligations.ForgedFramesAreDropped : Prop :=
  ∀ (s u : State) (t addr : Nat) (frame : Bytes) (q : GReq), u = s.advance t → u.Gets frame q → u.Forged q →
    ∃ w, exec (.gysolRequest t .udp addr u.gysol.netPort true frame false) s = .next w ∧ OnlyMoves [] u w ∧
      w.gysol.authFail = (u.gysol.authFail + 1) % 2 ^ 32 ∧ w.replayWindows = u.replayWindows ∧ w.gysol.queue = []

/-- Replayed and old requests (R62, R63). -/
def Obligations.ReplayedRequestsRunOnce : Prop :=
  ∀ (s u : State) (t addr hop : Nat) (frame : Bytes) (q : GReq) (x : Session) (e : Int), u = s.advance t →
    u.GetsIn frame q x e → u.nextHop (addr / 65536) = some hop →
    ((x.last : Int) - 63 ≤ e → e ≤ x.last → e ∈ x.executed →
      (∀ resp, x.cache.find? (fun p => p.1 = e) = some (e, q.crc, resp) →
        ∃ w, exec (.gysolRequest t .udp addr u.gysol.netPort true frame false) s = .next w ∧ OnlyMoves [.outs] u w ∧
          w.xrds = u.xrds ∧ w.replayWindows = u.replayWindows ∧
          w.outs = u.outs ++ [.gysol .udp addr hop (withTag x.key (tagNum e) (setFlags 0x08#8 resp))]) ∧
      (∀ crc resp, x.cache.find? (fun p => p.1 = e) = some (e, crc, resp) → crc ≠ q.crc →
        ∃ w, exec (.gysolRequest t .udp addr u.gysol.netPort true frame false) s = .next w ∧ OnlyMoves [.outs] u w ∧
          w.xrds = u.xrds ∧ w.replayWindows = u.replayWindows ∧
          w.outs = u.outs ++ [.gysol .udp addr hop (withTag x.key (tagNum e) (u.reply q 0x21 []))])) ∧
    (e < (x.last : Int) - 63 →
      ∃ w, exec (.gysolRequest t .udp addr u.gysol.netPort true frame false) s = .next w ∧ OnlyMoves [.outs] u w ∧
        w.xrds = u.xrds ∧ w.replayWindows = u.replayWindows ∧
        w.outs = u.outs ++ [.gysol .udp addr hop (withTag x.key (tagNum e) (u.reply q 0x20 []))])

/-- Atomic requests (R57). -/
def Obligations.AtomicRequestsChangeAllOrNothing : Prop :=
  ∀ (s u v : State) (t addr hop : Nat) (frame : Bytes) (q : GReq) (x : Session) (e : Int), u = s.advance t →
    u.GetsIn frame q x e → u.nextHop (addr / 65536) = some hop → v = u.opened x e addr → (x.last : Int) < e → q.die = 0xFF →
    q.atomic = true → (∃ o ∈ q.ops, atomicFails o (v.opExec ⟨x.id, x.role⟩ o).2.1 = true) →
    ∃ w, exec (.gysolRequest t .udp addr u.gysol.netPort true frame false) s = .next w ∧ OnlyMoves [.outs] u w ∧ w.xrds = u.xrds ∧
      w.outs = u.outs ++ [.gysol .udp addr hop (withTag x.key (tagNum e) (u.reply q 0 (q.ops.map fun o =>
        if atomicFails o (v.opExec ⟨x.id, x.role⟩ o).2.1 = true then o.response (v.opExec ⟨x.id, x.role⟩ o).2.1 []
        else o.response 0x1A []).flatten))]

/-- Chunks out of order and wrong CRCs (R54). -/
def Obligations.BadBlobsLeaveTheValue : Prop :=
  ∀ (s v h : State) (t sid obj sub offset crc : Nat) (x : Session) (d : Desc) (before chunk : Bytes) (last : Bool),
    s.Serves t sid x → v = s.served t sid x → v.TakesChunk sid x obj sub d before chunk → before.length < 2 ^ 32 →
    offset < 2 ^ 32 → crc < 2 ^ 32 → h = v.headerArrives obj sub before (before ++ chunk) →
    (offset ≠ before.length → exec (.blobWrite t sid obj sub offset chunk last crc) s =
      .next ((v.closeStream (okey obj sub)).emit (.answer sid 0x05 0x18 []))) ∧
    (offset = before.length → last = true → crc ≠ crc32c (before ++ chunk) →
      exec (.blobWrite t sid obj sub offset chunk last crc) s =
        .next ((h.closeStream (okey obj sub)).emit (.answer sid 0x05 0x19 []))) ∧
    h.dict = v.dict ∧ (obj ≠ 0x6032 → h = v)

/-- State requests (R31, R33, R374). -/
def Obligations.StateRequestsFollowTheTable : Prop :=
  ∀ (s v : State) (t sid : Nat) (x : Session), s.Serves t sid x → v = s.served t sid x → 2 ≤ x.role →
    (v.mews.dev ≠ .standby → exec (.stateRequestMews t sid) s = .next (v.emit (.answer sid 0x02 0x14 [])) ∧
      exec (.stateRequestWarming t sid) s = .next (v.emit (.answer sid 0x02 0x14 []))) ∧
    (v.mews.dev ≠ .serving → v.mews.dev ≠ .degraded →
      (v.mews.dev ≠ .safe ∨ v.mews.safeCause ∉ [1, 4, 5] ∨ v.latchClearable = false) →
      exec (.stateRequestStandby t sid) s = .next (v.emit (.answer sid 0x02 0x14 []))) ∧
    (∀ n, n < 256 → n ∉ [0, 2, 3, 6] →
      exec (.write t sid 0x0011 0 1 (toLE 1 n)) s = .next (v.emit (.answer sid 0x02 0x14 []))) ∧
    (v.mews.dev ≠ .mews → v.mews.held = false → ∃ w : State, exec (.stateRequestSafe t sid) s = .next (w.emit (.answer sid 0x02 0 [])) ∧
      w.mews.dev = .safe ∧ (v.mews.dev ≠ .safe → w.mews.safeCause = 4))

/-- An interlock opens (R31, R333, R373, R374). -/
def Obligations.InterlocksEndInSafe : Prop :=
  ∀ (s u : State) (t input : Nat), u = s.advance t → u.mews.held = false → (u.mews.dev.lit = true ∨ u.mews.dev = .standby) →
    (input % 2 = 0 → u.lamp.intlkA = true) → (input % 2 = 1 → u.lamp.intlkB = true) →
    ∃ w, exec (.lampInterlock t input) s = .next w ∧ w.mews.dev = .safe ∧ w.mews.safeCause = 1 ∧
      w.lamp.latch.testBit (input % 2) = true ∧ (∀ n, w.killHigh n = false) ∧
      (∀ n, n < 2 → Out.pin (.kill n) (some false) ∈ w.outs ∧ Out.lampKill n ∈ w.outs) ∧
      (∀ b ∈ u.mappedBands, (mapGet u.units (wBand b)).isSome = true → w.obs (wBand b) = 4) ∧
      w.xrds.irqPending.testBit 0xE0 = true ∧ (u.lamp.latch = 0 → w.xrds.irqPending.testBit 0xE1 = true)

/-- A wheel's fault input (R393). -/
def Obligations.FaultInputStopsTheWheel : Prop :=
  (∀ (s u : State) (t n : Nat) (x : Wheel), u = s.advance t → u.whel[n]? = some x → (mapGet u.units (wWheel n)).isSome = true →
    ∃ w, exec (.wheelFaultInput t n true) s = .next w ∧ w.obs (wWheel n) = 7 ∧ (w.wheel n).bridge.mode = .off ∧
      (w.wheel n).faultIn = true ∧ (w.wheel n).faultCause = 1 ∧ (∀ g ∈ (w.wheel n).bridge.gates, g = .off) ∧
      ∀ g, g < 6 → x.bridge.gates.getD g .off ≠ .off → Out.wheelGate n g .off u.tick25 ∈ w.outs) ∧
  ∀ (s u : State) (t n : Nat), u = s.advance t → u.obs (wWheel n) = 7 → (u.wheel n).faultIn = true →
    exec (.wheelRun t n) s = .next u

/-- Feedback lost (R316, R336, R343). -/
def Obligations.LostFeedbackHoldsTheModel : Prop :=
  ∀ (s u : State) (t b : Nat), u = s.advance t → b < 4 →
    (2 ≤ (u.lband b).miss → u.obs (wBand b) = 1 → ∃ w, exec (.loopFeedbackLost t b) s = .next w ∧
      (w.obs (wBand b) = if (u.lband b).tempLost = true then 3 else 2) ∧ (w.lband b).fault.testBit 2 = true ∧
      w.xrds.irqPending.testBit 0xC8 = true ∧ w.xrds.irqPending.testBit 0xCC = true) ∧
    (u.obs (wBand b) ≠ 1 → exec (.loopFeedbackLost t b) s = .next u)

/-- What a die reset keeps and clears (R552, R553). -/
def Obligations.DieResetKeepsTheMews : Prop :=
  ∀ (s u : State) (t : Nat), u = s.advance t → u.mews.dev ≠ .mews → u.mews.vaon = true →
    ∃ w, exec (.resetNLow t) s = .next w ∧ w.xrds.log = u.xrds.log ∧ w.xrds.seqNext = u.xrds.seqNext ∧
      w.xrds.seqOldest = u.xrds.seqOldest ∧ w.mews.timeOff = u.mews.timeOff ∧ w.mews.rcTrim = u.mews.rcTrim ∧
      w.mews.xtal = u.mews.xtal ∧ w.therm.die = u.therm.die ∧ w.therm.lv = u.therm.lv ∧ w.gysol.roleKeys = u.gysol.roleKeys ∧
      w.mews.resetCount = (u.mews.resetCount + 1) % 2 ^ 32 ∧ w.mews.resetCause = 2 ∧ w.mews.dev = .boot ∧ w.mews.held = true ∧
      w.lamp.latch = 0 ∧ w.gysol.sessions = [] ∧ w.dict.shadow = [] ∧ w.dict.owner = 0 ∧ w.hbm.words = [] ∧ w.wallRun = false ∧
      ∀ obj sub, w.num obj sub = if okey obj sub = okey 0x0015 0 then u.num obj sub else (dfltVal obj sub).toNat

/-- The check values of R629. -/
def Obligations.CheckValues : Prop :=
  crc16 (ascii "123456789") = 0x29B1 ∧ crc32 (ascii "123456789") = 0xCBF43926 ∧ crc32c (ascii "123456789") = 0xE3069283
end

