-- ==== Sys2Proof/Laws/Frame.lean ====
section
/-! SUPPORT. Frames: which parts of the block an operation may move. An operation's frame follows from those of the updates that it is
made of. -/

namespace Sys2Proof.Machine

theorem OnlyMoves.refl (ps : List Part) (s : State) : OnlyMoves ps s s := by
  intro p _
  cases p <;> rfl

theorem OnlyMoves.trans {ps : List Part} {s t u : State} (h : OnlyMoves ps s t) (k : OnlyMoves ps t u) : OnlyMoves ps s u := by
  intro p hp
  have h1 := h p hp
  have h2 := k p hp
  cases p <;> exact Eq.trans h2 h1

/-- A frame holds with more parts as well. -/
theorem OnlyMoves.mono {ps qs : List Part} {s t : State} (h : OnlyMoves ps s t) (k : ∀ p ∈ ps, p ∈ qs) : OnlyMoves qs s t :=
  fun p hp => h p fun hm => hp (k p hm)

theorem OnlyMoves.ite {ps : List Part} {c : Prop} [Decidable c] {s t u : State} (h : c → OnlyMoves ps s t)
    (k : ¬c → OnlyMoves ps s u) : OnlyMoves ps s (if c then t else u) := by
  split
  · exact h ‹_›
  · exact k ‹_›

theorem OnlyMoves.foldl {α : Type} {ps : List Part} {f : State → α → State} (h : ∀ s a, OnlyMoves ps s (f s a)) (l : List α)
    (s : State) : OnlyMoves ps s (l.foldl f s) := by
  induction l generalizing s with
  | nil => exact OnlyMoves.refl ps s
  | cons a l ih => exact (h s a).trans (ih _)

theorem OnlyMoves.foldlFst {α β : Type} {ps : List Part} {f : State × β → α → State × β} (h : ∀ p x, OnlyMoves ps p.1 (f p x).1)
    (l : List α) (p : State × β) : OnlyMoves ps p.1 (l.foldl f p).1 := by
  induction l generalizing p with
  | nil => exact OnlyMoves.refl ps p.1
  | cons a l ih => exact (h p a).trans (ih (f p a))

theorem OnlyMoves.foldlPair {α β : Type} {ps : List Part} {f : State × β → α → State × β} (h : ∀ p x, OnlyMoves ps p.1 (f p x).1)
    (l : List α) (s : State) (b : β) : OnlyMoves ps s (l.foldl f (s, b)).1 := OnlyMoves.foldlFst h l (s, b)

/-! ## Updates of one field -/

theorem onlyMoves_modNow (ps : List Part) (f) (s : State) : OnlyMoves ps s (s.modNow f) := by
  intro p _
  cases p <;> rfl

theorem onlyMoves_modWallOff (ps : List Part) (f) (s : State) : OnlyMoves ps s (s.modWallOff f) := by
  intro p _
  cases p <;> rfl

theorem onlyMoves_modWallRun (ps : List Part) (f) (s : State) : OnlyMoves ps s (s.modWallRun f) := by
  intro p _
  cases p <;> rfl

theorem onlyMoves_modPending (ps : List Part) (f) (s : State) : OnlyMoves ps s (s.modPending f) := by
  intro p _
  cases p <;> rfl

theorem onlyMoves_modFreeCtr (ps : List Part) (f) (s : State) : OnlyMoves ps s (s.modFreeCtr f) := by
  intro p _
  cases p <;> rfl

theorem onlyMoves_modOuts {ps : List Part} (hp : Part.outs ∈ ps) (f) (s : State) : OnlyMoves ps s (s.modOuts f) := by
  intro p h
  cases p <;> first | exact absurd hp h | rfl

theorem onlyMoves_modDict {ps : List Part} (hp : Part.dict ∈ ps) (f) (s : State) : OnlyMoves ps s (s.modDict f) := by
  intro p h
  cases p <;> first | exact absurd hp h | rfl

theorem onlyMoves_modUnits {ps : List Part} (hp : Part.units ∈ ps) (f) (s : State) : OnlyMoves ps s (s.modUnits f) := by
  intro p h
  cases p <;> first | exact absurd hp h | rfl

theorem onlyMoves_modXrds (ps : List Part) (f) (s : State) : OnlyMoves ps s (s.modXrds f) := by
  intro p _
  cases p <;> rfl

theorem onlyMoves_modGysol (ps : List Part) (f) (s : State) : OnlyMoves ps s (s.modGysol f) := by
  intro p _
  cases p <;> rfl

theorem onlyMoves_modMews {ps : List Part} (hp : Part.mews ∈ ps) (f) (s : State) : OnlyMoves ps s (s.modMews f) := by
  intro p h
  cases p <;> first | exact absurd hp h | rfl

theorem onlyMoves_modClks {ps : List Part} (hp : Part.clks ∈ ps) (f) (s : State) : OnlyMoves ps s (s.modClks f) := by
  intro p h
  cases p <;> first | exact absurd hp h | rfl

theorem onlyMoves_modFirm {ps : List Part} (hp : Part.firm ∈ ps) (f) (s : State) : OnlyMoves ps s (s.modFirm f) := by
  intro p h
  cases p <;> first | exact absurd hp h | rfl

theorem onlyMoves_modIngs {ps : List Part} (hp : Part.ings ∈ ps) (f) (s : State) : OnlyMoves ps s (s.modIngs f) := by
  intro p h
  cases p <;> first | exact absurd hp h | rfl

theorem onlyMoves_modHbm {ps : List Part} (hp : Part.hbm ∈ ps) (f) (s : State) : OnlyMoves ps s (s.modHbm f) := by
  intro p h
  cases p <;> first | exact absurd hp h | rfl

theorem onlyMoves_modCurg {ps : List Part} (hp : Part.curg ∈ ps) (f) (s : State) : OnlyMoves ps s (s.modCurg f) := by
  intro p h
  cases p <;> first | exact absurd hp h | rfl

theorem onlyMoves_modPlaz {ps : List Part} (hp : Part.plaz ∈ ps) (f) (s : State) : OnlyMoves ps s (s.modPlaz f) := by
  intro p h
  cases p <;> first | exact absurd hp h | rfl

theorem onlyMoves_modSeqr {ps : List Part} (hp : Part.seqr ∈ ps) (f) (s : State) : OnlyMoves ps s (s.modSeqr f) := by
  intro p h
  cases p <;> first | exact absurd hp h | rfl

theorem onlyMoves_modUane {ps : List Part} (hp : Part.uane ∈ ps) (f) (s : State) : OnlyMoves ps s (s.modUane f) := by
  intro p h
  cases p <;> first | exact absurd hp h | rfl

theorem onlyMoves_modWallTrim (ps : List Part) (f) (s : State) : OnlyMoves ps s (s.modWallTrim f) := by
  intro p _
  cases p <;> rfl

theorem onlyMoves_modWallFrac (ps : List Part) (f) (s : State) : OnlyMoves ps s (s.modWallFrac f) := by
  intro p _
  cases p <;> rfl

theorem onlyMoves_modCoh {ps : List Part} (hp : Part.coh ∈ ps) (f) (s : State) : OnlyMoves ps s (s.modCoh f) := by
  intro p h
  cases p <;> first | exact absurd hp h | rfl

theorem onlyMoves_modColr {ps : List Part} (hp : Part.colr ∈ ps) (f) (s : State) : OnlyMoves ps s (s.modColr f) := by
  intro p h
  cases p <;> first | exact absurd hp h | rfl

theorem onlyMoves_modPlgn {ps : List Part} (hp : Part.plgn ∈ ps) (f) (s : State) : OnlyMoves ps s (s.modPlgn f) := by
  intro p h
  cases p <;> first | exact absurd hp h | rfl

theorem onlyMoves_modArcd {ps : List Part} (hp : Part.arcd ∈ ps) (f) (s : State) : OnlyMoves ps s (s.modArcd f) := by
  intro p h
  cases p <;> first | exact absurd hp h | rfl

theorem onlyMoves_modLoop {ps : List Part} (hp : Part.loop ∈ ps) (f) (s : State) : OnlyMoves ps s (s.modLoop f) := by
  intro p h
  cases p <;> first | exact absurd hp h | rfl

theorem onlyMoves_modLamp {ps : List Part} (hp : Part.lamp ∈ ps) (f) (s : State) : OnlyMoves ps s (s.modLamp f) := by
  intro p h
  cases p <;> first | exact absurd hp h | rfl

theorem onlyMoves_modWhel {ps : List Part} (hp : Part.whel ∈ ps) (f) (s : State) : OnlyMoves ps s (s.modWhel f) := by
  intro p h
  cases p <;> first | exact absurd hp h | rfl

theorem onlyMoves_modTherm {ps : List Part} (hp : Part.therm ∈ ps) (f) (s : State) : OnlyMoves ps s (s.modTherm f) := by
  intro p h
  cases p <;> first | exact absurd hp h | rfl

theorem onlyMoves_modTap {ps : List Part} (hp : Part.tap ∈ ps) (f) (s : State) : OnlyMoves ps s (s.modTap f) := by
  intro p h
  cases p <;> first | exact absurd hp h | rfl

/-! ## Time and events -/

theorem onlyMoves_advance (ps : List Part) (t : Nat) (s : State) : OnlyMoves ps s (s.advance t) := by
  intro p _
  cases p <;> rfl

theorem onlyMoves_captureRecord (ps : List Part) (s : State) (o : Occ) : OnlyMoves ps s (s.captureRecord o) := by
  unfold State.captureRecord
  exact OnlyMoves.ite (fun _ => (onlyMoves_modGysol ps _ _).trans (onlyMoves_modXrds ps _ _)) fun _ => OnlyMoves.refl ps s

theorem onlyMoves_captureTask (ps : List Part) (os : List Occ) (acc : State × List Occ × List Nat) (i : Nat) :
    OnlyMoves ps acc.1 (State.captureTask os acc i).1 := by
  unfold State.captureTask
  dsimp only
  split <;> exact onlyMoves_modXrds ps _ _

theorem onlyMoves_countOn (ps : List Part) (i add : Nat) (s : State) : OnlyMoves ps s (State.countOn i add s).1 := by
  unfold State.countOn
  exact onlyMoves_modXrds ps _ _

theorem onlyMoves_captureCycle (ps : List Part) (os : List Occ) (s : State) : OnlyMoves ps s (s.captureCycle os).1 := by
  have h : OnlyMoves ps s ((upTo 38).foldl (State.captureTask os) (os.foldl State.captureRecord s, [], [])).1 :=
    (OnlyMoves.foldl (onlyMoves_captureRecord ps) os s).trans
      (OnlyMoves.foldlFst (onlyMoves_captureTask ps os) (upTo 38) (os.foldl State.captureRecord s, [], []))
  unfold State.captureCycle
  dsimp only
  refine h.trans (OnlyMoves.foldlPair (fun p x => ?_) (upTo 64) _ _)
  split
  · exact OnlyMoves.refl _ _
  · exact onlyMoves_countOn _ _ _ _

theorem onlyMoves_captureFor (ps : List Part) (n : Nat) (os : List Occ) (s : State) : OnlyMoves ps s (s.captureFor n os) := by
  induction n generalizing os s with
  | zero => exact OnlyMoves.refl ps s
  | succ n ih =>
    unfold State.captureFor
    split
    · exact OnlyMoves.refl ps s
    · exact (onlyMoves_captureCycle ps _ s).trans (ih _ _)

/-- Events move event capture and the pushes that it feeds, nothing else. -/
theorem onlyMoves_raiseAll (ps : List Part) (os : List Occ) (s : State) : OnlyMoves ps s (s.raiseAll os) :=
  onlyMoves_captureFor ps _ os s

theorem onlyMoves_raise (ps : List Part) (code inst data : Nat) (s : State) : OnlyMoves ps s (s.raise code inst data) :=
  onlyMoves_raiseAll ps _ s

theorem onlyMoves_raiseLimited (ps : List Part) (rcd : Bool) (code inst data : Nat) (s : State) :
    OnlyMoves ps s (s.raiseLimited rcd code inst data) := onlyMoves_raiseAll ps _ s

theorem onlyMoves_emit {ps : List Part} (hp : Part.outs ∈ ps) (o : Out) (s : State) : OnlyMoves ps s (s.emit o) :=
  onlyMoves_modOuts hp _ s

theorem onlyMoves_emits {ps : List Part} (hp : Part.outs ∈ ps) (os : List Out) (s : State) : OnlyMoves ps s (s.emits os) :=
  onlyMoves_modOuts hp _ s

end Sys2Proof.Machine
end

