-- ==== Sys2Proof/Laws/Maps.lean ====
section
/-! SUPPORT. Sparse maps keep their canonical form: keys rise strictly, and no entry equals what an unlisted key reads as. -/

namespace Sys2Proof.Machine

theorem mapRising_iff {α : Type} (m : List (Nat × α)) : mapRising m = true ↔ m.Pairwise (fun a b => a.1 < b.1) := by
  induction m with
  | nil => simp [mapRising]
  | cons a m ih =>
    cases m with
    | nil => simp [mapRising]
    | cons b m =>
      obtain ⟨j, x⟩ := a
      obtain ⟨k, y⟩ := b
      rw [mapRising, Bool.and_eq_true, ih]
      simp only [List.pairwise_cons, decide_eq_true_eq, List.mem_cons]
      constructor
      · rintro ⟨h, h1, h2⟩
        refine ⟨?_, h1, h2⟩
        rintro e (rfl | he)
        · exact h
        · exact lt_trans h (h1 e he)
      · rintro ⟨h, h1, h2⟩
        exact ⟨h (k, y) (Or.inl rfl), h1, h2⟩

theorem mem_mapPut {α : Type} (m : List (Nat × α)) (k : Nat) (a : α) (e : Nat × α) (h : e ∈ mapPut m k a) :
    e = (k, a) ∨ e ∈ m := by
  induction m with
  | nil => simpa [mapPut] using h
  | cons b m ih =>
    obtain ⟨j, x⟩ := b
    rw [mapPut] at h
    split at h
    · simpa using h
    · split at h
      · rcases List.mem_cons.1 h with h | h
        · exact Or.inl h
        · exact Or.inr (List.mem_cons_of_mem _ h)
      · rcases List.mem_cons.1 h with h | h
        · exact Or.inr (h ▸ List.mem_cons_self)
        · rcases ih h with h | h
          · exact Or.inl h
          · exact Or.inr (List.mem_cons_of_mem _ h)

theorem mem_mapErase {α : Type} (m : List (Nat × α)) (k : Nat) (e : Nat × α) (h : e ∈ mapErase m k) : e ∈ m := by
  induction m with
  | nil => simp [mapErase] at h
  | cons b m ih =>
    obtain ⟨j, x⟩ := b
    rw [mapErase] at h
    split at h
    · exact List.mem_cons_of_mem _ h
    · rcases List.mem_cons.1 h with h | h
      · exact h ▸ List.mem_cons_self
      · exact List.mem_cons_of_mem _ (ih h)

/-- A write keeps the keys rising. -/
theorem mapRising_put {α : Type} (m : List (Nat × α)) (k : Nat) (a : α) (h : mapRising m = true) :
    mapRising (mapPut m k a) = true := by
  rw [mapRising_iff] at h ⊢
  induction m with
  | nil => simp [mapPut]
  | cons b m ih =>
    obtain ⟨j, x⟩ := b
    obtain ⟨h1, h2⟩ := List.pairwise_cons.1 h
    rw [mapPut]
    split
    · rename_i hk
      refine List.pairwise_cons.2 ⟨?_, h⟩
      intro e he
      rcases List.mem_cons.1 he with rfl | he
      · exact hk
      · exact lt_trans hk (h1 e he)
    · split
      · rename_i hk
        subst hk
        exact List.pairwise_cons.2 ⟨h1, h2⟩
      · rename_i hk hne
        refine List.pairwise_cons.2 ⟨?_, ih h2⟩
        intro e he
        rcases mem_mapPut m k a e he with rfl | he
        · exact lt_of_le_of_ne (not_lt.1 hk) hne
        · exact h1 e he

/-- An erasure keeps the keys rising. -/
theorem mapRising_erase {α : Type} (m : List (Nat × α)) (k : Nat) (h : mapRising m = true) :
    mapRising (mapErase m k) = true := by
  rw [mapRising_iff] at h ⊢
  induction m with
  | nil => simp [mapErase]
  | cons b m ih =>
    obtain ⟨j, x⟩ := b
    obtain ⟨h1, h2⟩ := List.pairwise_cons.1 h
    rw [mapErase]
    split
    · exact h2
    · exact List.pairwise_cons.2 ⟨fun e he => h1 e (mem_mapErase m k e he), ih h2⟩

theorem mapRising_filter {α : Type} (m : List (Nat × α)) (p : Nat × α → Bool) (h : mapRising m = true) :
    mapRising (m.filter p) = true := by
  rw [mapRising_iff] at h ⊢
  exact h.filter p

theorem mapRising_set {α : Type} [DecidableEq α] (d : α) (m : List (Nat × α)) (k : Nat) (a : α) (h : mapRising m = true) :
    mapRising (mapSet d m k a) = true := by
  unfold mapSet
  split
  · exact mapRising_erase m k h
  · exact mapRising_put m k a h

/-- A canonical write leaves no entry that equals the value of an unlisted key. -/
theorem mapSet_listed {α : Type} [DecidableEq α] (d : α) (m : List (Nat × α)) (k : Nat) (a : α) (h : ∀ e ∈ m, e.2 ≠ d) :
    ∀ e ∈ mapSet d m k a, e.2 ≠ d := by
  intro e he
  unfold mapSet at he
  split at he
  · exact h e (mem_mapErase m k e he)
  · rename_i hne
    rcases mem_mapPut m k a e he with rfl | he
    · exact hne
    · exact h e he

/-- What a key reads as after a write. -/
theorem mapGet_put {α : Type} (m : List (Nat × α)) (k j : Nat) (a : α) (h : mapRising m = true) :
    mapGet (mapPut m k a) j = if j = k then some a else mapGet m j := by
  rw [mapRising_iff] at h
  induction m with
  | nil => by_cases hj : k = j <;> simp [mapPut, mapGet, hj, eq_comm]
  | cons b m ih =>
    obtain ⟨i, x⟩ := b
    obtain ⟨h1, h2⟩ := List.pairwise_cons.1 h
    rw [mapPut]
    split
    · by_cases hj : k = j <;> simp [mapGet, hj, eq_comm]
    · split
      · rename_i hk
        subst hk
        by_cases hj : i = j
        · simp [mapGet, hj]
        · simp [mapGet, hj, Ne.symm hj]
      · rename_i hne
        rw [mapGet, mapGet, ih h2]
        by_cases hj : i = j
        · subst hj
          simp [hne]
        · simp [hj]

end Sys2Proof.Machine
end

