-- ==== Sys2Proof/Laws/State.lean ====
section
/-! SUPPORT. What each update of one field leaves of every field. -/

namespace Sys2Proof.Machine

@[simp] theorem modNow_now (f : Nat → Nat) (s : State) : (s.modNow f).now = f s.now := rfl
@[simp] theorem modNow_wallOff (f : Nat → Nat) (s : State) : (s.modNow f).wallOff = s.wallOff := rfl
@[simp] theorem modNow_wallRun (f : Nat → Nat) (s : State) : (s.modNow f).wallRun = s.wallRun := rfl
@[simp] theorem modNow_pending (f : Nat → Nat) (s : State) : (s.modNow f).pending = s.pending := rfl
@[simp] theorem modNow_freeCtr (f : Nat → Nat) (s : State) : (s.modNow f).freeCtr = s.freeCtr := rfl
@[simp] theorem modNow_outs (f : Nat → Nat) (s : State) : (s.modNow f).outs = s.outs := rfl
@[simp] theorem modNow_dict (f : Nat → Nat) (s : State) : (s.modNow f).dict = s.dict := rfl
@[simp] theorem modNow_units (f : Nat → Nat) (s : State) : (s.modNow f).units = s.units := rfl
@[simp] theorem modNow_xrds (f : Nat → Nat) (s : State) : (s.modNow f).xrds = s.xrds := rfl
@[simp] theorem modNow_gysol (f : Nat → Nat) (s : State) : (s.modNow f).gysol = s.gysol := rfl
@[simp] theorem modNow_mews (f : Nat → Nat) (s : State) : (s.modNow f).mews = s.mews := rfl
@[simp] theorem modNow_clks (f : Nat → Nat) (s : State) : (s.modNow f).clks = s.clks := rfl
@[simp] theorem modNow_firm (f : Nat → Nat) (s : State) : (s.modNow f).firm = s.firm := rfl
@[simp] theorem modNow_ings (f : Nat → Nat) (s : State) : (s.modNow f).ings = s.ings := rfl
@[simp] theorem modNow_hbm (f : Nat → Nat) (s : State) : (s.modNow f).hbm = s.hbm := rfl
@[simp] theorem modNow_curg (f : Nat → Nat) (s : State) : (s.modNow f).curg = s.curg := rfl
@[simp] theorem modNow_plaz (f : Nat → Nat) (s : State) : (s.modNow f).plaz = s.plaz := rfl
@[simp] theorem modNow_seqr (f : Nat → Nat) (s : State) : (s.modNow f).seqr = s.seqr := rfl
@[simp] theorem modNow_uane (f : Nat → Nat) (s : State) : (s.modNow f).uane = s.uane := rfl
@[simp] theorem modNow_wallTrim (f : Nat → Nat) (s : State) : (s.modNow f).wallTrim = s.wallTrim := rfl
@[simp] theorem modNow_wallFrac (f : Nat → Nat) (s : State) : (s.modNow f).wallFrac = s.wallFrac := rfl
@[simp] theorem modNow_coh (f : Nat → Nat) (s : State) : (s.modNow f).coh = s.coh := rfl
@[simp] theorem modNow_colr (f : Nat → Nat) (s : State) : (s.modNow f).colr = s.colr := rfl
@[simp] theorem modNow_plgn (f : Nat → Nat) (s : State) : (s.modNow f).plgn = s.plgn := rfl
@[simp] theorem modNow_arcd (f : Nat → Nat) (s : State) : (s.modNow f).arcd = s.arcd := rfl
@[simp] theorem modNow_loop (f : Nat → Nat) (s : State) : (s.modNow f).loop = s.loop := rfl
@[simp] theorem modNow_lamp (f : Nat → Nat) (s : State) : (s.modNow f).lamp = s.lamp := rfl
@[simp] theorem modNow_whel (f : Nat → Nat) (s : State) : (s.modNow f).whel = s.whel := rfl
@[simp] theorem modNow_therm (f : Nat → Nat) (s : State) : (s.modNow f).therm = s.therm := rfl
@[simp] theorem modNow_tap (f : Nat → Nat) (s : State) : (s.modNow f).tap = s.tap := rfl

@[simp] theorem modWallOff_now (f : Int → Int) (s : State) : (s.modWallOff f).now = s.now := rfl
@[simp] theorem modWallOff_wallOff (f : Int → Int) (s : State) : (s.modWallOff f).wallOff = f s.wallOff := rfl
@[simp] theorem modWallOff_wallRun (f : Int → Int) (s : State) : (s.modWallOff f).wallRun = s.wallRun := rfl
@[simp] theorem modWallOff_pending (f : Int → Int) (s : State) : (s.modWallOff f).pending = s.pending := rfl
@[simp] theorem modWallOff_freeCtr (f : Int → Int) (s : State) : (s.modWallOff f).freeCtr = s.freeCtr := rfl
@[simp] theorem modWallOff_outs (f : Int → Int) (s : State) : (s.modWallOff f).outs = s.outs := rfl
@[simp] theorem modWallOff_dict (f : Int → Int) (s : State) : (s.modWallOff f).dict = s.dict := rfl
@[simp] theorem modWallOff_units (f : Int → Int) (s : State) : (s.modWallOff f).units = s.units := rfl
@[simp] theorem modWallOff_xrds (f : Int → Int) (s : State) : (s.modWallOff f).xrds = s.xrds := rfl
@[simp] theorem modWallOff_gysol (f : Int → Int) (s : State) : (s.modWallOff f).gysol = s.gysol := rfl
@[simp] theorem modWallOff_mews (f : Int → Int) (s : State) : (s.modWallOff f).mews = s.mews := rfl
@[simp] theorem modWallOff_clks (f : Int → Int) (s : State) : (s.modWallOff f).clks = s.clks := rfl
@[simp] theorem modWallOff_firm (f : Int → Int) (s : State) : (s.modWallOff f).firm = s.firm := rfl
@[simp] theorem modWallOff_ings (f : Int → Int) (s : State) : (s.modWallOff f).ings = s.ings := rfl
@[simp] theorem modWallOff_hbm (f : Int → Int) (s : State) : (s.modWallOff f).hbm = s.hbm := rfl
@[simp] theorem modWallOff_curg (f : Int → Int) (s : State) : (s.modWallOff f).curg = s.curg := rfl
@[simp] theorem modWallOff_plaz (f : Int → Int) (s : State) : (s.modWallOff f).plaz = s.plaz := rfl
@[simp] theorem modWallOff_seqr (f : Int → Int) (s : State) : (s.modWallOff f).seqr = s.seqr := rfl
@[simp] theorem modWallOff_uane (f : Int → Int) (s : State) : (s.modWallOff f).uane = s.uane := rfl
@[simp] theorem modWallOff_wallTrim (f : Int → Int) (s : State) : (s.modWallOff f).wallTrim = s.wallTrim := rfl
@[simp] theorem modWallOff_wallFrac (f : Int → Int) (s : State) : (s.modWallOff f).wallFrac = s.wallFrac := rfl
@[simp] theorem modWallOff_coh (f : Int → Int) (s : State) : (s.modWallOff f).coh = s.coh := rfl
@[simp] theorem modWallOff_colr (f : Int → Int) (s : State) : (s.modWallOff f).colr = s.colr := rfl
@[simp] theorem modWallOff_plgn (f : Int → Int) (s : State) : (s.modWallOff f).plgn = s.plgn := rfl
@[simp] theorem modWallOff_arcd (f : Int → Int) (s : State) : (s.modWallOff f).arcd = s.arcd := rfl
@[simp] theorem modWallOff_loop (f : Int → Int) (s : State) : (s.modWallOff f).loop = s.loop := rfl
@[simp] theorem modWallOff_lamp (f : Int → Int) (s : State) : (s.modWallOff f).lamp = s.lamp := rfl
@[simp] theorem modWallOff_whel (f : Int → Int) (s : State) : (s.modWallOff f).whel = s.whel := rfl
@[simp] theorem modWallOff_therm (f : Int → Int) (s : State) : (s.modWallOff f).therm = s.therm := rfl
@[simp] theorem modWallOff_tap (f : Int → Int) (s : State) : (s.modWallOff f).tap = s.tap := rfl

@[simp] theorem modWallRun_now (f : Bool → Bool) (s : State) : (s.modWallRun f).now = s.now := rfl
@[simp] theorem modWallRun_wallOff (f : Bool → Bool) (s : State) : (s.modWallRun f).wallOff = s.wallOff := rfl
@[simp] theorem modWallRun_wallRun (f : Bool → Bool) (s : State) : (s.modWallRun f).wallRun = f s.wallRun := rfl
@[simp] theorem modWallRun_pending (f : Bool → Bool) (s : State) : (s.modWallRun f).pending = s.pending := rfl
@[simp] theorem modWallRun_freeCtr (f : Bool → Bool) (s : State) : (s.modWallRun f).freeCtr = s.freeCtr := rfl
@[simp] theorem modWallRun_outs (f : Bool → Bool) (s : State) : (s.modWallRun f).outs = s.outs := rfl
@[simp] theorem modWallRun_dict (f : Bool → Bool) (s : State) : (s.modWallRun f).dict = s.dict := rfl
@[simp] theorem modWallRun_units (f : Bool → Bool) (s : State) : (s.modWallRun f).units = s.units := rfl
@[simp] theorem modWallRun_xrds (f : Bool → Bool) (s : State) : (s.modWallRun f).xrds = s.xrds := rfl
@[simp] theorem modWallRun_gysol (f : Bool → Bool) (s : State) : (s.modWallRun f).gysol = s.gysol := rfl
@[simp] theorem modWallRun_mews (f : Bool → Bool) (s : State) : (s.modWallRun f).mews = s.mews := rfl
@[simp] theorem modWallRun_clks (f : Bool → Bool) (s : State) : (s.modWallRun f).clks = s.clks := rfl
@[simp] theorem modWallRun_firm (f : Bool → Bool) (s : State) : (s.modWallRun f).firm = s.firm := rfl
@[simp] theorem modWallRun_ings (f : Bool → Bool) (s : State) : (s.modWallRun f).ings = s.ings := rfl
@[simp] theorem modWallRun_hbm (f : Bool → Bool) (s : State) : (s.modWallRun f).hbm = s.hbm := rfl
@[simp] theorem modWallRun_curg (f : Bool → Bool) (s : State) : (s.modWallRun f).curg = s.curg := rfl
@[simp] theorem modWallRun_plaz (f : Bool → Bool) (s : State) : (s.modWallRun f).plaz = s.plaz := rfl
@[simp] theorem modWallRun_seqr (f : Bool → Bool) (s : State) : (s.modWallRun f).seqr = s.seqr := rfl
@[simp] theorem modWallRun_uane (f : Bool → Bool) (s : State) : (s.modWallRun f).uane = s.uane := rfl
@[simp] theorem modWallRun_wallTrim (f : Bool → Bool) (s : State) : (s.modWallRun f).wallTrim = s.wallTrim := rfl
@[simp] theorem modWallRun_wallFrac (f : Bool → Bool) (s : State) : (s.modWallRun f).wallFrac = s.wallFrac := rfl
@[simp] theorem modWallRun_coh (f : Bool → Bool) (s : State) : (s.modWallRun f).coh = s.coh := rfl
@[simp] theorem modWallRun_colr (f : Bool → Bool) (s : State) : (s.modWallRun f).colr = s.colr := rfl
@[simp] theorem modWallRun_plgn (f : Bool → Bool) (s : State) : (s.modWallRun f).plgn = s.plgn := rfl
@[simp] theorem modWallRun_arcd (f : Bool → Bool) (s : State) : (s.modWallRun f).arcd = s.arcd := rfl
@[simp] theorem modWallRun_loop (f : Bool → Bool) (s : State) : (s.modWallRun f).loop = s.loop := rfl
@[simp] theorem modWallRun_lamp (f : Bool → Bool) (s : State) : (s.modWallRun f).lamp = s.lamp := rfl
@[simp] theorem modWallRun_whel (f : Bool → Bool) (s : State) : (s.modWallRun f).whel = s.whel := rfl
@[simp] theorem modWallRun_therm (f : Bool → Bool) (s : State) : (s.modWallRun f).therm = s.therm := rfl
@[simp] theorem modWallRun_tap (f : Bool → Bool) (s : State) : (s.modWallRun f).tap = s.tap := rfl

@[simp] theorem modPending_now (f : (List Instr) → (List Instr)) (s : State) : (s.modPending f).now = s.now := rfl
@[simp] theorem modPending_wallOff (f : (List Instr) → (List Instr)) (s : State) : (s.modPending f).wallOff = s.wallOff := rfl
@[simp] theorem modPending_wallRun (f : (List Instr) → (List Instr)) (s : State) : (s.modPending f).wallRun = s.wallRun := rfl
@[simp] theorem modPending_pending (f : (List Instr) → (List Instr)) (s : State) : (s.modPending f).pending = f s.pending := rfl
@[simp] theorem modPending_freeCtr (f : (List Instr) → (List Instr)) (s : State) : (s.modPending f).freeCtr = s.freeCtr := rfl
@[simp] theorem modPending_outs (f : (List Instr) → (List Instr)) (s : State) : (s.modPending f).outs = s.outs := rfl
@[simp] theorem modPending_dict (f : (List Instr) → (List Instr)) (s : State) : (s.modPending f).dict = s.dict := rfl
@[simp] theorem modPending_units (f : (List Instr) → (List Instr)) (s : State) : (s.modPending f).units = s.units := rfl
@[simp] theorem modPending_xrds (f : (List Instr) → (List Instr)) (s : State) : (s.modPending f).xrds = s.xrds := rfl
@[simp] theorem modPending_gysol (f : (List Instr) → (List Instr)) (s : State) : (s.modPending f).gysol = s.gysol := rfl
@[simp] theorem modPending_mews (f : (List Instr) → (List Instr)) (s : State) : (s.modPending f).mews = s.mews := rfl
@[simp] theorem modPending_clks (f : (List Instr) → (List Instr)) (s : State) : (s.modPending f).clks = s.clks := rfl
@[simp] theorem modPending_firm (f : (List Instr) → (List Instr)) (s : State) : (s.modPending f).firm = s.firm := rfl
@[simp] theorem modPending_ings (f : (List Instr) → (List Instr)) (s : State) : (s.modPending f).ings = s.ings := rfl
@[simp] theorem modPending_hbm (f : (List Instr) → (List Instr)) (s : State) : (s.modPending f).hbm = s.hbm := rfl
@[simp] theorem modPending_curg (f : (List Instr) → (List Instr)) (s : State) : (s.modPending f).curg = s.curg := rfl
@[simp] theorem modPending_plaz (f : (List Instr) → (List Instr)) (s : State) : (s.modPending f).plaz = s.plaz := rfl
@[simp] theorem modPending_seqr (f : (List Instr) → (List Instr)) (s : State) : (s.modPending f).seqr = s.seqr := rfl
@[simp] theorem modPending_uane (f : (List Instr) → (List Instr)) (s : State) : (s.modPending f).uane = s.uane := rfl
@[simp] theorem modPending_wallTrim (f : (List Instr) → (List Instr)) (s : State) : (s.modPending f).wallTrim = s.wallTrim := rfl
@[simp] theorem modPending_wallFrac (f : (List Instr) → (List Instr)) (s : State) : (s.modPending f).wallFrac = s.wallFrac := rfl
@[simp] theorem modPending_coh (f : (List Instr) → (List Instr)) (s : State) : (s.modPending f).coh = s.coh := rfl
@[simp] theorem modPending_colr (f : (List Instr) → (List Instr)) (s : State) : (s.modPending f).colr = s.colr := rfl
@[simp] theorem modPending_plgn (f : (List Instr) → (List Instr)) (s : State) : (s.modPending f).plgn = s.plgn := rfl
@[simp] theorem modPending_arcd (f : (List Instr) → (List Instr)) (s : State) : (s.modPending f).arcd = s.arcd := rfl
@[simp] theorem modPending_loop (f : (List Instr) → (List Instr)) (s : State) : (s.modPending f).loop = s.loop := rfl
@[simp] theorem modPending_lamp (f : (List Instr) → (List Instr)) (s : State) : (s.modPending f).lamp = s.lamp := rfl
@[simp] theorem modPending_whel (f : (List Instr) → (List Instr)) (s : State) : (s.modPending f).whel = s.whel := rfl
@[simp] theorem modPending_therm (f : (List Instr) → (List Instr)) (s : State) : (s.modPending f).therm = s.therm := rfl
@[simp] theorem modPending_tap (f : (List Instr) → (List Instr)) (s : State) : (s.modPending f).tap = s.tap := rfl

@[simp] theorem modFreeCtr_now (f : Nat → Nat) (s : State) : (s.modFreeCtr f).now = s.now := rfl
@[simp] theorem modFreeCtr_wallOff (f : Nat → Nat) (s : State) : (s.modFreeCtr f).wallOff = s.wallOff := rfl
@[simp] theorem modFreeCtr_wallRun (f : Nat → Nat) (s : State) : (s.modFreeCtr f).wallRun = s.wallRun := rfl
@[simp] theorem modFreeCtr_pending (f : Nat → Nat) (s : State) : (s.modFreeCtr f).pending = s.pending := rfl
@[simp] theorem modFreeCtr_freeCtr (f : Nat → Nat) (s : State) : (s.modFreeCtr f).freeCtr = f s.freeCtr := rfl
@[simp] theorem modFreeCtr_outs (f : Nat → Nat) (s : State) : (s.modFreeCtr f).outs = s.outs := rfl
@[simp] theorem modFreeCtr_dict (f : Nat → Nat) (s : State) : (s.modFreeCtr f).dict = s.dict := rfl
@[simp] theorem modFreeCtr_units (f : Nat → Nat) (s : State) : (s.modFreeCtr f).units = s.units := rfl
@[simp] theorem modFreeCtr_xrds (f : Nat → Nat) (s : State) : (s.modFreeCtr f).xrds = s.xrds := rfl
@[simp] theorem modFreeCtr_gysol (f : Nat → Nat) (s : State) : (s.modFreeCtr f).gysol = s.gysol := rfl
@[simp] theorem modFreeCtr_mews (f : Nat → Nat) (s : State) : (s.modFreeCtr f).mews = s.mews := rfl
@[simp] theorem modFreeCtr_clks (f : Nat → Nat) (s : State) : (s.modFreeCtr f).clks = s.clks := rfl
@[simp] theorem modFreeCtr_firm (f : Nat → Nat) (s : State) : (s.modFreeCtr f).firm = s.firm := rfl
@[simp] theorem modFreeCtr_ings (f : Nat → Nat) (s : State) : (s.modFreeCtr f).ings = s.ings := rfl
@[simp] theorem modFreeCtr_hbm (f : Nat → Nat) (s : State) : (s.modFreeCtr f).hbm = s.hbm := rfl
@[simp] theorem modFreeCtr_curg (f : Nat → Nat) (s : State) : (s.modFreeCtr f).curg = s.curg := rfl
@[simp] theorem modFreeCtr_plaz (f : Nat → Nat) (s : State) : (s.modFreeCtr f).plaz = s.plaz := rfl
@[simp] theorem modFreeCtr_seqr (f : Nat → Nat) (s : State) : (s.modFreeCtr f).seqr = s.seqr := rfl
@[simp] theorem modFreeCtr_uane (f : Nat → Nat) (s : State) : (s.modFreeCtr f).uane = s.uane := rfl
@[simp] theorem modFreeCtr_wallTrim (f : Nat → Nat) (s : State) : (s.modFreeCtr f).wallTrim = s.wallTrim := rfl
@[simp] theorem modFreeCtr_wallFrac (f : Nat → Nat) (s : State) : (s.modFreeCtr f).wallFrac = s.wallFrac := rfl
@[simp] theorem modFreeCtr_coh (f : Nat → Nat) (s : State) : (s.modFreeCtr f).coh = s.coh := rfl
@[simp] theorem modFreeCtr_colr (f : Nat → Nat) (s : State) : (s.modFreeCtr f).colr = s.colr := rfl
@[simp] theorem modFreeCtr_plgn (f : Nat → Nat) (s : State) : (s.modFreeCtr f).plgn = s.plgn := rfl
@[simp] theorem modFreeCtr_arcd (f : Nat → Nat) (s : State) : (s.modFreeCtr f).arcd = s.arcd := rfl
@[simp] theorem modFreeCtr_loop (f : Nat → Nat) (s : State) : (s.modFreeCtr f).loop = s.loop := rfl
@[simp] theorem modFreeCtr_lamp (f : Nat → Nat) (s : State) : (s.modFreeCtr f).lamp = s.lamp := rfl
@[simp] theorem modFreeCtr_whel (f : Nat → Nat) (s : State) : (s.modFreeCtr f).whel = s.whel := rfl
@[simp] theorem modFreeCtr_therm (f : Nat → Nat) (s : State) : (s.modFreeCtr f).therm = s.therm := rfl
@[simp] theorem modFreeCtr_tap (f : Nat → Nat) (s : State) : (s.modFreeCtr f).tap = s.tap := rfl

@[simp] theorem modOuts_now (f : (List Out) → (List Out)) (s : State) : (s.modOuts f).now = s.now := rfl
@[simp] theorem modOuts_wallOff (f : (List Out) → (List Out)) (s : State) : (s.modOuts f).wallOff = s.wallOff := rfl
@[simp] theorem modOuts_wallRun (f : (List Out) → (List Out)) (s : State) : (s.modOuts f).wallRun = s.wallRun := rfl
@[simp] theorem modOuts_pending (f : (List Out) → (List Out)) (s : State) : (s.modOuts f).pending = s.pending := rfl
@[simp] theorem modOuts_freeCtr (f : (List Out) → (List Out)) (s : State) : (s.modOuts f).freeCtr = s.freeCtr := rfl
@[simp] theorem modOuts_outs (f : (List Out) → (List Out)) (s : State) : (s.modOuts f).outs = f s.outs := rfl
@[simp] theorem modOuts_dict (f : (List Out) → (List Out)) (s : State) : (s.modOuts f).dict = s.dict := rfl
@[simp] theorem modOuts_units (f : (List Out) → (List Out)) (s : State) : (s.modOuts f).units = s.units := rfl
@[simp] theorem modOuts_xrds (f : (List Out) → (List Out)) (s : State) : (s.modOuts f).xrds = s.xrds := rfl
@[simp] theorem modOuts_gysol (f : (List Out) → (List Out)) (s : State) : (s.modOuts f).gysol = s.gysol := rfl
@[simp] theorem modOuts_mews (f : (List Out) → (List Out)) (s : State) : (s.modOuts f).mews = s.mews := rfl
@[simp] theorem modOuts_clks (f : (List Out) → (List Out)) (s : State) : (s.modOuts f).clks = s.clks := rfl
@[simp] theorem modOuts_firm (f : (List Out) → (List Out)) (s : State) : (s.modOuts f).firm = s.firm := rfl
@[simp] theorem modOuts_ings (f : (List Out) → (List Out)) (s : State) : (s.modOuts f).ings = s.ings := rfl
@[simp] theorem modOuts_hbm (f : (List Out) → (List Out)) (s : State) : (s.modOuts f).hbm = s.hbm := rfl
@[simp] theorem modOuts_curg (f : (List Out) → (List Out)) (s : State) : (s.modOuts f).curg = s.curg := rfl
@[simp] theorem modOuts_plaz (f : (List Out) → (List Out)) (s : State) : (s.modOuts f).plaz = s.plaz := rfl
@[simp] theorem modOuts_seqr (f : (List Out) → (List Out)) (s : State) : (s.modOuts f).seqr = s.seqr := rfl
@[simp] theorem modOuts_uane (f : (List Out) → (List Out)) (s : State) : (s.modOuts f).uane = s.uane := rfl
@[simp] theorem modOuts_wallTrim (f : (List Out) → (List Out)) (s : State) : (s.modOuts f).wallTrim = s.wallTrim := rfl
@[simp] theorem modOuts_wallFrac (f : (List Out) → (List Out)) (s : State) : (s.modOuts f).wallFrac = s.wallFrac := rfl
@[simp] theorem modOuts_coh (f : (List Out) → (List Out)) (s : State) : (s.modOuts f).coh = s.coh := rfl
@[simp] theorem modOuts_colr (f : (List Out) → (List Out)) (s : State) : (s.modOuts f).colr = s.colr := rfl
@[simp] theorem modOuts_plgn (f : (List Out) → (List Out)) (s : State) : (s.modOuts f).plgn = s.plgn := rfl
@[simp] theorem modOuts_arcd (f : (List Out) → (List Out)) (s : State) : (s.modOuts f).arcd = s.arcd := rfl
@[simp] theorem modOuts_loop (f : (List Out) → (List Out)) (s : State) : (s.modOuts f).loop = s.loop := rfl
@[simp] theorem modOuts_lamp (f : (List Out) → (List Out)) (s : State) : (s.modOuts f).lamp = s.lamp := rfl
@[simp] theorem modOuts_whel (f : (List Out) → (List Out)) (s : State) : (s.modOuts f).whel = s.whel := rfl
@[simp] theorem modOuts_therm (f : (List Out) → (List Out)) (s : State) : (s.modOuts f).therm = s.therm := rfl
@[simp] theorem modOuts_tap (f : (List Out) → (List Out)) (s : State) : (s.modOuts f).tap = s.tap := rfl

@[simp] theorem modDict_now (f : Dict → Dict) (s : State) : (s.modDict f).now = s.now := rfl
@[simp] theorem modDict_wallOff (f : Dict → Dict) (s : State) : (s.modDict f).wallOff = s.wallOff := rfl
@[simp] theorem modDict_wallRun (f : Dict → Dict) (s : State) : (s.modDict f).wallRun = s.wallRun := rfl
@[simp] theorem modDict_pending (f : Dict → Dict) (s : State) : (s.modDict f).pending = s.pending := rfl
@[simp] theorem modDict_freeCtr (f : Dict → Dict) (s : State) : (s.modDict f).freeCtr = s.freeCtr := rfl
@[simp] theorem modDict_outs (f : Dict → Dict) (s : State) : (s.modDict f).outs = s.outs := rfl
@[simp] theorem modDict_dict (f : Dict → Dict) (s : State) : (s.modDict f).dict = f s.dict := rfl
@[simp] theorem modDict_units (f : Dict → Dict) (s : State) : (s.modDict f).units = s.units := rfl
@[simp] theorem modDict_xrds (f : Dict → Dict) (s : State) : (s.modDict f).xrds = s.xrds := rfl
@[simp] theorem modDict_gysol (f : Dict → Dict) (s : State) : (s.modDict f).gysol = s.gysol := rfl
@[simp] theorem modDict_mews (f : Dict → Dict) (s : State) : (s.modDict f).mews = s.mews := rfl
@[simp] theorem modDict_clks (f : Dict → Dict) (s : State) : (s.modDict f).clks = s.clks := rfl
@[simp] theorem modDict_firm (f : Dict → Dict) (s : State) : (s.modDict f).firm = s.firm := rfl
@[simp] theorem modDict_ings (f : Dict → Dict) (s : State) : (s.modDict f).ings = s.ings := rfl
@[simp] theorem modDict_hbm (f : Dict → Dict) (s : State) : (s.modDict f).hbm = s.hbm := rfl
@[simp] theorem modDict_curg (f : Dict → Dict) (s : State) : (s.modDict f).curg = s.curg := rfl
@[simp] theorem modDict_plaz (f : Dict → Dict) (s : State) : (s.modDict f).plaz = s.plaz := rfl
@[simp] theorem modDict_seqr (f : Dict → Dict) (s : State) : (s.modDict f).seqr = s.seqr := rfl
@[simp] theorem modDict_uane (f : Dict → Dict) (s : State) : (s.modDict f).uane = s.uane := rfl
@[simp] theorem modDict_wallTrim (f : Dict → Dict) (s : State) : (s.modDict f).wallTrim = s.wallTrim := rfl
@[simp] theorem modDict_wallFrac (f : Dict → Dict) (s : State) : (s.modDict f).wallFrac = s.wallFrac := rfl
@[simp] theorem modDict_coh (f : Dict → Dict) (s : State) : (s.modDict f).coh = s.coh := rfl
@[simp] theorem modDict_colr (f : Dict → Dict) (s : State) : (s.modDict f).colr = s.colr := rfl
@[simp] theorem modDict_plgn (f : Dict → Dict) (s : State) : (s.modDict f).plgn = s.plgn := rfl
@[simp] theorem modDict_arcd (f : Dict → Dict) (s : State) : (s.modDict f).arcd = s.arcd := rfl
@[simp] theorem modDict_loop (f : Dict → Dict) (s : State) : (s.modDict f).loop = s.loop := rfl
@[simp] theorem modDict_lamp (f : Dict → Dict) (s : State) : (s.modDict f).lamp = s.lamp := rfl
@[simp] theorem modDict_whel (f : Dict → Dict) (s : State) : (s.modDict f).whel = s.whel := rfl
@[simp] theorem modDict_therm (f : Dict → Dict) (s : State) : (s.modDict f).therm = s.therm := rfl
@[simp] theorem modDict_tap (f : Dict → Dict) (s : State) : (s.modDict f).tap = s.tap := rfl

@[simp] theorem modUnits_now (f : (List (Nat × UnitRec)) → (List (Nat × UnitRec))) (s : State) : (s.modUnits f).now = s.now := rfl
@[simp] theorem modUnits_wallOff (f : (List (Nat × UnitRec)) → (List (Nat × UnitRec))) (s : State) : (s.modUnits f).wallOff = s.wallOff := rfl
@[simp] theorem modUnits_wallRun (f : (List (Nat × UnitRec)) → (List (Nat × UnitRec))) (s : State) : (s.modUnits f).wallRun = s.wallRun := rfl
@[simp] theorem modUnits_pending (f : (List (Nat × UnitRec)) → (List (Nat × UnitRec))) (s : State) : (s.modUnits f).pending = s.pending := rfl
@[simp] theorem modUnits_freeCtr (f : (List (Nat × UnitRec)) → (List (Nat × UnitRec))) (s : State) : (s.modUnits f).freeCtr = s.freeCtr := rfl
@[simp] theorem modUnits_outs (f : (List (Nat × UnitRec)) → (List (Nat × UnitRec))) (s : State) : (s.modUnits f).outs = s.outs := rfl
@[simp] theorem modUnits_dict (f : (List (Nat × UnitRec)) → (List (Nat × UnitRec))) (s : State) : (s.modUnits f).dict = s.dict := rfl
@[simp] theorem modUnits_units (f : (List (Nat × UnitRec)) → (List (Nat × UnitRec))) (s : State) : (s.modUnits f).units = f s.units := rfl
@[simp] theorem modUnits_xrds (f : (List (Nat × UnitRec)) → (List (Nat × UnitRec))) (s : State) : (s.modUnits f).xrds = s.xrds := rfl
@[simp] theorem modUnits_gysol (f : (List (Nat × UnitRec)) → (List (Nat × UnitRec))) (s : State) : (s.modUnits f).gysol = s.gysol := rfl
@[simp] theorem modUnits_mews (f : (List (Nat × UnitRec)) → (List (Nat × UnitRec))) (s : State) : (s.modUnits f).mews = s.mews := rfl
@[simp] theorem modUnits_clks (f : (List (Nat × UnitRec)) → (List (Nat × UnitRec))) (s : State) : (s.modUnits f).clks = s.clks := rfl
@[simp] theorem modUnits_firm (f : (List (Nat × UnitRec)) → (List (Nat × UnitRec))) (s : State) : (s.modUnits f).firm = s.firm := rfl
@[simp] theorem modUnits_ings (f : (List (Nat × UnitRec)) → (List (Nat × UnitRec))) (s : State) : (s.modUnits f).ings = s.ings := rfl
@[simp] theorem modUnits_hbm (f : (List (Nat × UnitRec)) → (List (Nat × UnitRec))) (s : State) : (s.modUnits f).hbm = s.hbm := rfl
@[simp] theorem modUnits_curg (f : (List (Nat × UnitRec)) → (List (Nat × UnitRec))) (s : State) : (s.modUnits f).curg = s.curg := rfl
@[simp] theorem modUnits_plaz (f : (List (Nat × UnitRec)) → (List (Nat × UnitRec))) (s : State) : (s.modUnits f).plaz = s.plaz := rfl
@[simp] theorem modUnits_seqr (f : (List (Nat × UnitRec)) → (List (Nat × UnitRec))) (s : State) : (s.modUnits f).seqr = s.seqr := rfl
@[simp] theorem modUnits_uane (f : (List (Nat × UnitRec)) → (List (Nat × UnitRec))) (s : State) : (s.modUnits f).uane = s.uane := rfl
@[simp] theorem modUnits_wallTrim (f : (List (Nat × UnitRec)) → (List (Nat × UnitRec))) (s : State) : (s.modUnits f).wallTrim = s.wallTrim := rfl
@[simp] theorem modUnits_wallFrac (f : (List (Nat × UnitRec)) → (List (Nat × UnitRec))) (s : State) : (s.modUnits f).wallFrac = s.wallFrac := rfl
@[simp] theorem modUnits_coh (f : (List (Nat × UnitRec)) → (List (Nat × UnitRec))) (s : State) : (s.modUnits f).coh = s.coh := rfl
@[simp] theorem modUnits_colr (f : (List (Nat × UnitRec)) → (List (Nat × UnitRec))) (s : State) : (s.modUnits f).colr = s.colr := rfl
@[simp] theorem modUnits_plgn (f : (List (Nat × UnitRec)) → (List (Nat × UnitRec))) (s : State) : (s.modUnits f).plgn = s.plgn := rfl
@[simp] theorem modUnits_arcd (f : (List (Nat × UnitRec)) → (List (Nat × UnitRec))) (s : State) : (s.modUnits f).arcd = s.arcd := rfl
@[simp] theorem modUnits_loop (f : (List (Nat × UnitRec)) → (List (Nat × UnitRec))) (s : State) : (s.modUnits f).loop = s.loop := rfl
@[simp] theorem modUnits_lamp (f : (List (Nat × UnitRec)) → (List (Nat × UnitRec))) (s : State) : (s.modUnits f).lamp = s.lamp := rfl
@[simp] theorem modUnits_whel (f : (List (Nat × UnitRec)) → (List (Nat × UnitRec))) (s : State) : (s.modUnits f).whel = s.whel := rfl
@[simp] theorem modUnits_therm (f : (List (Nat × UnitRec)) → (List (Nat × UnitRec))) (s : State) : (s.modUnits f).therm = s.therm := rfl
@[simp] theorem modUnits_tap (f : (List (Nat × UnitRec)) → (List (Nat × UnitRec))) (s : State) : (s.modUnits f).tap = s.tap := rfl

@[simp] theorem modXrds_now (f : Xrds → Xrds) (s : State) : (s.modXrds f).now = s.now := rfl
@[simp] theorem modXrds_wallOff (f : Xrds → Xrds) (s : State) : (s.modXrds f).wallOff = s.wallOff := rfl
@[simp] theorem modXrds_wallRun (f : Xrds → Xrds) (s : State) : (s.modXrds f).wallRun = s.wallRun := rfl
@[simp] theorem modXrds_pending (f : Xrds → Xrds) (s : State) : (s.modXrds f).pending = s.pending := rfl
@[simp] theorem modXrds_freeCtr (f : Xrds → Xrds) (s : State) : (s.modXrds f).freeCtr = s.freeCtr := rfl
@[simp] theorem modXrds_outs (f : Xrds → Xrds) (s : State) : (s.modXrds f).outs = s.outs := rfl
@[simp] theorem modXrds_dict (f : Xrds → Xrds) (s : State) : (s.modXrds f).dict = s.dict := rfl
@[simp] theorem modXrds_units (f : Xrds → Xrds) (s : State) : (s.modXrds f).units = s.units := rfl
@[simp] theorem modXrds_xrds (f : Xrds → Xrds) (s : State) : (s.modXrds f).xrds = f s.xrds := rfl
@[simp] theorem modXrds_gysol (f : Xrds → Xrds) (s : State) : (s.modXrds f).gysol = s.gysol := rfl
@[simp] theorem modXrds_mews (f : Xrds → Xrds) (s : State) : (s.modXrds f).mews = s.mews := rfl
@[simp] theorem modXrds_clks (f : Xrds → Xrds) (s : State) : (s.modXrds f).clks = s.clks := rfl
@[simp] theorem modXrds_firm (f : Xrds → Xrds) (s : State) : (s.modXrds f).firm = s.firm := rfl
@[simp] theorem modXrds_ings (f : Xrds → Xrds) (s : State) : (s.modXrds f).ings = s.ings := rfl
@[simp] theorem modXrds_hbm (f : Xrds → Xrds) (s : State) : (s.modXrds f).hbm = s.hbm := rfl
@[simp] theorem modXrds_curg (f : Xrds → Xrds) (s : State) : (s.modXrds f).curg = s.curg := rfl
@[simp] theorem modXrds_plaz (f : Xrds → Xrds) (s : State) : (s.modXrds f).plaz = s.plaz := rfl
@[simp] theorem modXrds_seqr (f : Xrds → Xrds) (s : State) : (s.modXrds f).seqr = s.seqr := rfl
@[simp] theorem modXrds_uane (f : Xrds → Xrds) (s : State) : (s.modXrds f).uane = s.uane := rfl
@[simp] theorem modXrds_wallTrim (f : Xrds → Xrds) (s : State) : (s.modXrds f).wallTrim = s.wallTrim := rfl
@[simp] theorem modXrds_wallFrac (f : Xrds → Xrds) (s : State) : (s.modXrds f).wallFrac = s.wallFrac := rfl
@[simp] theorem modXrds_coh (f : Xrds → Xrds) (s : State) : (s.modXrds f).coh = s.coh := rfl
@[simp] theorem modXrds_colr (f : Xrds → Xrds) (s : State) : (s.modXrds f).colr = s.colr := rfl
@[simp] theorem modXrds_plgn (f : Xrds → Xrds) (s : State) : (s.modXrds f).plgn = s.plgn := rfl
@[simp] theorem modXrds_arcd (f : Xrds → Xrds) (s : State) : (s.modXrds f).arcd = s.arcd := rfl
@[simp] theorem modXrds_loop (f : Xrds → Xrds) (s : State) : (s.modXrds f).loop = s.loop := rfl
@[simp] theorem modXrds_lamp (f : Xrds → Xrds) (s : State) : (s.modXrds f).lamp = s.lamp := rfl
@[simp] theorem modXrds_whel (f : Xrds → Xrds) (s : State) : (s.modXrds f).whel = s.whel := rfl
@[simp] theorem modXrds_therm (f : Xrds → Xrds) (s : State) : (s.modXrds f).therm = s.therm := rfl
@[simp] theorem modXrds_tap (f : Xrds → Xrds) (s : State) : (s.modXrds f).tap = s.tap := rfl

@[simp] theorem modGysol_now (f : Gysol → Gysol) (s : State) : (s.modGysol f).now = s.now := rfl
@[simp] theorem modGysol_wallOff (f : Gysol → Gysol) (s : State) : (s.modGysol f).wallOff = s.wallOff := rfl
@[simp] theorem modGysol_wallRun (f : Gysol → Gysol) (s : State) : (s.modGysol f).wallRun = s.wallRun := rfl
@[simp] theorem modGysol_pending (f : Gysol → Gysol) (s : State) : (s.modGysol f).pending = s.pending := rfl
@[simp] theorem modGysol_freeCtr (f : Gysol → Gysol) (s : State) : (s.modGysol f).freeCtr = s.freeCtr := rfl
@[simp] theorem modGysol_outs (f : Gysol → Gysol) (s : State) : (s.modGysol f).outs = s.outs := rfl
@[simp] theorem modGysol_dict (f : Gysol → Gysol) (s : State) : (s.modGysol f).dict = s.dict := rfl
@[simp] theorem modGysol_units (f : Gysol → Gysol) (s : State) : (s.modGysol f).units = s.units := rfl
@[simp] theorem modGysol_xrds (f : Gysol → Gysol) (s : State) : (s.modGysol f).xrds = s.xrds := rfl
@[simp] theorem modGysol_gysol (f : Gysol → Gysol) (s : State) : (s.modGysol f).gysol = f s.gysol := rfl
@[simp] theorem modGysol_mews (f : Gysol → Gysol) (s : State) : (s.modGysol f).mews = s.mews := rfl
@[simp] theorem modGysol_clks (f : Gysol → Gysol) (s : State) : (s.modGysol f).clks = s.clks := rfl
@[simp] theorem modGysol_firm (f : Gysol → Gysol) (s : State) : (s.modGysol f).firm = s.firm := rfl
@[simp] theorem modGysol_ings (f : Gysol → Gysol) (s : State) : (s.modGysol f).ings = s.ings := rfl
@[simp] theorem modGysol_hbm (f : Gysol → Gysol) (s : State) : (s.modGysol f).hbm = s.hbm := rfl
@[simp] theorem modGysol_curg (f : Gysol → Gysol) (s : State) : (s.modGysol f).curg = s.curg := rfl
@[simp] theorem modGysol_plaz (f : Gysol → Gysol) (s : State) : (s.modGysol f).plaz = s.plaz := rfl
@[simp] theorem modGysol_seqr (f : Gysol → Gysol) (s : State) : (s.modGysol f).seqr = s.seqr := rfl
@[simp] theorem modGysol_uane (f : Gysol → Gysol) (s : State) : (s.modGysol f).uane = s.uane := rfl
@[simp] theorem modGysol_wallTrim (f : Gysol → Gysol) (s : State) : (s.modGysol f).wallTrim = s.wallTrim := rfl
@[simp] theorem modGysol_wallFrac (f : Gysol → Gysol) (s : State) : (s.modGysol f).wallFrac = s.wallFrac := rfl
@[simp] theorem modGysol_coh (f : Gysol → Gysol) (s : State) : (s.modGysol f).coh = s.coh := rfl
@[simp] theorem modGysol_colr (f : Gysol → Gysol) (s : State) : (s.modGysol f).colr = s.colr := rfl
@[simp] theorem modGysol_plgn (f : Gysol → Gysol) (s : State) : (s.modGysol f).plgn = s.plgn := rfl
@[simp] theorem modGysol_arcd (f : Gysol → Gysol) (s : State) : (s.modGysol f).arcd = s.arcd := rfl
@[simp] theorem modGysol_loop (f : Gysol → Gysol) (s : State) : (s.modGysol f).loop = s.loop := rfl
@[simp] theorem modGysol_lamp (f : Gysol → Gysol) (s : State) : (s.modGysol f).lamp = s.lamp := rfl
@[simp] theorem modGysol_whel (f : Gysol → Gysol) (s : State) : (s.modGysol f).whel = s.whel := rfl
@[simp] theorem modGysol_therm (f : Gysol → Gysol) (s : State) : (s.modGysol f).therm = s.therm := rfl
@[simp] theorem modGysol_tap (f : Gysol → Gysol) (s : State) : (s.modGysol f).tap = s.tap := rfl

@[simp] theorem modMews_now (f : Mews → Mews) (s : State) : (s.modMews f).now = s.now := rfl
@[simp] theorem modMews_wallOff (f : Mews → Mews) (s : State) : (s.modMews f).wallOff = s.wallOff := rfl
@[simp] theorem modMews_wallRun (f : Mews → Mews) (s : State) : (s.modMews f).wallRun = s.wallRun := rfl
@[simp] theorem modMews_pending (f : Mews → Mews) (s : State) : (s.modMews f).pending = s.pending := rfl
@[simp] theorem modMews_freeCtr (f : Mews → Mews) (s : State) : (s.modMews f).freeCtr = s.freeCtr := rfl
@[simp] theorem modMews_outs (f : Mews → Mews) (s : State) : (s.modMews f).outs = s.outs := rfl
@[simp] theorem modMews_dict (f : Mews → Mews) (s : State) : (s.modMews f).dict = s.dict := rfl
@[simp] theorem modMews_units (f : Mews → Mews) (s : State) : (s.modMews f).units = s.units := rfl
@[simp] theorem modMews_xrds (f : Mews → Mews) (s : State) : (s.modMews f).xrds = s.xrds := rfl
@[simp] theorem modMews_gysol (f : Mews → Mews) (s : State) : (s.modMews f).gysol = s.gysol := rfl
@[simp] theorem modMews_mews (f : Mews → Mews) (s : State) : (s.modMews f).mews = f s.mews := rfl
@[simp] theorem modMews_clks (f : Mews → Mews) (s : State) : (s.modMews f).clks = s.clks := rfl
@[simp] theorem modMews_firm (f : Mews → Mews) (s : State) : (s.modMews f).firm = s.firm := rfl
@[simp] theorem modMews_ings (f : Mews → Mews) (s : State) : (s.modMews f).ings = s.ings := rfl
@[simp] theorem modMews_hbm (f : Mews → Mews) (s : State) : (s.modMews f).hbm = s.hbm := rfl
@[simp] theorem modMews_curg (f : Mews → Mews) (s : State) : (s.modMews f).curg = s.curg := rfl
@[simp] theorem modMews_plaz (f : Mews → Mews) (s : State) : (s.modMews f).plaz = s.plaz := rfl
@[simp] theorem modMews_seqr (f : Mews → Mews) (s : State) : (s.modMews f).seqr = s.seqr := rfl
@[simp] theorem modMews_uane (f : Mews → Mews) (s : State) : (s.modMews f).uane = s.uane := rfl
@[simp] theorem modMews_wallTrim (f : Mews → Mews) (s : State) : (s.modMews f).wallTrim = s.wallTrim := rfl
@[simp] theorem modMews_wallFrac (f : Mews → Mews) (s : State) : (s.modMews f).wallFrac = s.wallFrac := rfl
@[simp] theorem modMews_coh (f : Mews → Mews) (s : State) : (s.modMews f).coh = s.coh := rfl
@[simp] theorem modMews_colr (f : Mews → Mews) (s : State) : (s.modMews f).colr = s.colr := rfl
@[simp] theorem modMews_plgn (f : Mews → Mews) (s : State) : (s.modMews f).plgn = s.plgn := rfl
@[simp] theorem modMews_arcd (f : Mews → Mews) (s : State) : (s.modMews f).arcd = s.arcd := rfl
@[simp] theorem modMews_loop (f : Mews → Mews) (s : State) : (s.modMews f).loop = s.loop := rfl
@[simp] theorem modMews_lamp (f : Mews → Mews) (s : State) : (s.modMews f).lamp = s.lamp := rfl
@[simp] theorem modMews_whel (f : Mews → Mews) (s : State) : (s.modMews f).whel = s.whel := rfl
@[simp] theorem modMews_therm (f : Mews → Mews) (s : State) : (s.modMews f).therm = s.therm := rfl
@[simp] theorem modMews_tap (f : Mews → Mews) (s : State) : (s.modMews f).tap = s.tap := rfl

@[simp] theorem modClks_now (f : Clks → Clks) (s : State) : (s.modClks f).now = s.now := rfl
@[simp] theorem modClks_wallOff (f : Clks → Clks) (s : State) : (s.modClks f).wallOff = s.wallOff := rfl
@[simp] theorem modClks_wallRun (f : Clks → Clks) (s : State) : (s.modClks f).wallRun = s.wallRun := rfl
@[simp] theorem modClks_pending (f : Clks → Clks) (s : State) : (s.modClks f).pending = s.pending := rfl
@[simp] theorem modClks_freeCtr (f : Clks → Clks) (s : State) : (s.modClks f).freeCtr = s.freeCtr := rfl
@[simp] theorem modClks_outs (f : Clks → Clks) (s : State) : (s.modClks f).outs = s.outs := rfl
@[simp] theorem modClks_dict (f : Clks → Clks) (s : State) : (s.modClks f).dict = s.dict := rfl
@[simp] theorem modClks_units (f : Clks → Clks) (s : State) : (s.modClks f).units = s.units := rfl
@[simp] theorem modClks_xrds (f : Clks → Clks) (s : State) : (s.modClks f).xrds = s.xrds := rfl
@[simp] theorem modClks_gysol (f : Clks → Clks) (s : State) : (s.modClks f).gysol = s.gysol := rfl
@[simp] theorem modClks_mews (f : Clks → Clks) (s : State) : (s.modClks f).mews = s.mews := rfl
@[simp] theorem modClks_clks (f : Clks → Clks) (s : State) : (s.modClks f).clks = f s.clks := rfl
@[simp] theorem modClks_firm (f : Clks → Clks) (s : State) : (s.modClks f).firm = s.firm := rfl
@[simp] theorem modClks_ings (f : Clks → Clks) (s : State) : (s.modClks f).ings = s.ings := rfl
@[simp] theorem modClks_hbm (f : Clks → Clks) (s : State) : (s.modClks f).hbm = s.hbm := rfl
@[simp] theorem modClks_curg (f : Clks → Clks) (s : State) : (s.modClks f).curg = s.curg := rfl
@[simp] theorem modClks_plaz (f : Clks → Clks) (s : State) : (s.modClks f).plaz = s.plaz := rfl
@[simp] theorem modClks_seqr (f : Clks → Clks) (s : State) : (s.modClks f).seqr = s.seqr := rfl
@[simp] theorem modClks_uane (f : Clks → Clks) (s : State) : (s.modClks f).uane = s.uane := rfl
@[simp] theorem modClks_wallTrim (f : Clks → Clks) (s : State) : (s.modClks f).wallTrim = s.wallTrim := rfl
@[simp] theorem modClks_wallFrac (f : Clks → Clks) (s : State) : (s.modClks f).wallFrac = s.wallFrac := rfl
@[simp] theorem modClks_coh (f : Clks → Clks) (s : State) : (s.modClks f).coh = s.coh := rfl
@[simp] theorem modClks_colr (f : Clks → Clks) (s : State) : (s.modClks f).colr = s.colr := rfl
@[simp] theorem modClks_plgn (f : Clks → Clks) (s : State) : (s.modClks f).plgn = s.plgn := rfl
@[simp] theorem modClks_arcd (f : Clks → Clks) (s : State) : (s.modClks f).arcd = s.arcd := rfl
@[simp] theorem modClks_loop (f : Clks → Clks) (s : State) : (s.modClks f).loop = s.loop := rfl
@[simp] theorem modClks_lamp (f : Clks → Clks) (s : State) : (s.modClks f).lamp = s.lamp := rfl
@[simp] theorem modClks_whel (f : Clks → Clks) (s : State) : (s.modClks f).whel = s.whel := rfl
@[simp] theorem modClks_therm (f : Clks → Clks) (s : State) : (s.modClks f).therm = s.therm := rfl
@[simp] theorem modClks_tap (f : Clks → Clks) (s : State) : (s.modClks f).tap = s.tap := rfl

@[simp] theorem modFirm_now (f : Firm → Firm) (s : State) : (s.modFirm f).now = s.now := rfl
@[simp] theorem modFirm_wallOff (f : Firm → Firm) (s : State) : (s.modFirm f).wallOff = s.wallOff := rfl
@[simp] theorem modFirm_wallRun (f : Firm → Firm) (s : State) : (s.modFirm f).wallRun = s.wallRun := rfl
@[simp] theorem modFirm_pending (f : Firm → Firm) (s : State) : (s.modFirm f).pending = s.pending := rfl
@[simp] theorem modFirm_freeCtr (f : Firm → Firm) (s : State) : (s.modFirm f).freeCtr = s.freeCtr := rfl
@[simp] theorem modFirm_outs (f : Firm → Firm) (s : State) : (s.modFirm f).outs = s.outs := rfl
@[simp] theorem modFirm_dict (f : Firm → Firm) (s : State) : (s.modFirm f).dict = s.dict := rfl
@[simp] theorem modFirm_units (f : Firm → Firm) (s : State) : (s.modFirm f).units = s.units := rfl
@[simp] theorem modFirm_xrds (f : Firm → Firm) (s : State) : (s.modFirm f).xrds = s.xrds := rfl
@[simp] theorem modFirm_gysol (f : Firm → Firm) (s : State) : (s.modFirm f).gysol = s.gysol := rfl
@[simp] theorem modFirm_mews (f : Firm → Firm) (s : State) : (s.modFirm f).mews = s.mews := rfl
@[simp] theorem modFirm_clks (f : Firm → Firm) (s : State) : (s.modFirm f).clks = s.clks := rfl
@[simp] theorem modFirm_firm (f : Firm → Firm) (s : State) : (s.modFirm f).firm = f s.firm := rfl
@[simp] theorem modFirm_ings (f : Firm → Firm) (s : State) : (s.modFirm f).ings = s.ings := rfl
@[simp] theorem modFirm_hbm (f : Firm → Firm) (s : State) : (s.modFirm f).hbm = s.hbm := rfl
@[simp] theorem modFirm_curg (f : Firm → Firm) (s : State) : (s.modFirm f).curg = s.curg := rfl
@[simp] theorem modFirm_plaz (f : Firm → Firm) (s : State) : (s.modFirm f).plaz = s.plaz := rfl
@[simp] theorem modFirm_seqr (f : Firm → Firm) (s : State) : (s.modFirm f).seqr = s.seqr := rfl
@[simp] theorem modFirm_uane (f : Firm → Firm) (s : State) : (s.modFirm f).uane = s.uane := rfl
@[simp] theorem modFirm_wallTrim (f : Firm → Firm) (s : State) : (s.modFirm f).wallTrim = s.wallTrim := rfl
@[simp] theorem modFirm_wallFrac (f : Firm → Firm) (s : State) : (s.modFirm f).wallFrac = s.wallFrac := rfl
@[simp] theorem modFirm_coh (f : Firm → Firm) (s : State) : (s.modFirm f).coh = s.coh := rfl
@[simp] theorem modFirm_colr (f : Firm → Firm) (s : State) : (s.modFirm f).colr = s.colr := rfl
@[simp] theorem modFirm_plgn (f : Firm → Firm) (s : State) : (s.modFirm f).plgn = s.plgn := rfl
@[simp] theorem modFirm_arcd (f : Firm → Firm) (s : State) : (s.modFirm f).arcd = s.arcd := rfl
@[simp] theorem modFirm_loop (f : Firm → Firm) (s : State) : (s.modFirm f).loop = s.loop := rfl
@[simp] theorem modFirm_lamp (f : Firm → Firm) (s : State) : (s.modFirm f).lamp = s.lamp := rfl
@[simp] theorem modFirm_whel (f : Firm → Firm) (s : State) : (s.modFirm f).whel = s.whel := rfl
@[simp] theorem modFirm_therm (f : Firm → Firm) (s : State) : (s.modFirm f).therm = s.therm := rfl
@[simp] theorem modFirm_tap (f : Firm → Firm) (s : State) : (s.modFirm f).tap = s.tap := rfl

@[simp] theorem modIngs_now (f : Ings → Ings) (s : State) : (s.modIngs f).now = s.now := rfl
@[simp] theorem modIngs_wallOff (f : Ings → Ings) (s : State) : (s.modIngs f).wallOff = s.wallOff := rfl
@[simp] theorem modIngs_wallRun (f : Ings → Ings) (s : State) : (s.modIngs f).wallRun = s.wallRun := rfl
@[simp] theorem modIngs_pending (f : Ings → Ings) (s : State) : (s.modIngs f).pending = s.pending := rfl
@[simp] theorem modIngs_freeCtr (f : Ings → Ings) (s : State) : (s.modIngs f).freeCtr = s.freeCtr := rfl
@[simp] theorem modIngs_outs (f : Ings → Ings) (s : State) : (s.modIngs f).outs = s.outs := rfl
@[simp] theorem modIngs_dict (f : Ings → Ings) (s : State) : (s.modIngs f).dict = s.dict := rfl
@[simp] theorem modIngs_units (f : Ings → Ings) (s : State) : (s.modIngs f).units = s.units := rfl
@[simp] theorem modIngs_xrds (f : Ings → Ings) (s : State) : (s.modIngs f).xrds = s.xrds := rfl
@[simp] theorem modIngs_gysol (f : Ings → Ings) (s : State) : (s.modIngs f).gysol = s.gysol := rfl
@[simp] theorem modIngs_mews (f : Ings → Ings) (s : State) : (s.modIngs f).mews = s.mews := rfl
@[simp] theorem modIngs_clks (f : Ings → Ings) (s : State) : (s.modIngs f).clks = s.clks := rfl
@[simp] theorem modIngs_firm (f : Ings → Ings) (s : State) : (s.modIngs f).firm = s.firm := rfl
@[simp] theorem modIngs_ings (f : Ings → Ings) (s : State) : (s.modIngs f).ings = f s.ings := rfl
@[simp] theorem modIngs_hbm (f : Ings → Ings) (s : State) : (s.modIngs f).hbm = s.hbm := rfl
@[simp] theorem modIngs_curg (f : Ings → Ings) (s : State) : (s.modIngs f).curg = s.curg := rfl
@[simp] theorem modIngs_plaz (f : Ings → Ings) (s : State) : (s.modIngs f).plaz = s.plaz := rfl
@[simp] theorem modIngs_seqr (f : Ings → Ings) (s : State) : (s.modIngs f).seqr = s.seqr := rfl
@[simp] theorem modIngs_uane (f : Ings → Ings) (s : State) : (s.modIngs f).uane = s.uane := rfl
@[simp] theorem modIngs_wallTrim (f : Ings → Ings) (s : State) : (s.modIngs f).wallTrim = s.wallTrim := rfl
@[simp] theorem modIngs_wallFrac (f : Ings → Ings) (s : State) : (s.modIngs f).wallFrac = s.wallFrac := rfl
@[simp] theorem modIngs_coh (f : Ings → Ings) (s : State) : (s.modIngs f).coh = s.coh := rfl
@[simp] theorem modIngs_colr (f : Ings → Ings) (s : State) : (s.modIngs f).colr = s.colr := rfl
@[simp] theorem modIngs_plgn (f : Ings → Ings) (s : State) : (s.modIngs f).plgn = s.plgn := rfl
@[simp] theorem modIngs_arcd (f : Ings → Ings) (s : State) : (s.modIngs f).arcd = s.arcd := rfl
@[simp] theorem modIngs_loop (f : Ings → Ings) (s : State) : (s.modIngs f).loop = s.loop := rfl
@[simp] theorem modIngs_lamp (f : Ings → Ings) (s : State) : (s.modIngs f).lamp = s.lamp := rfl
@[simp] theorem modIngs_whel (f : Ings → Ings) (s : State) : (s.modIngs f).whel = s.whel := rfl
@[simp] theorem modIngs_therm (f : Ings → Ings) (s : State) : (s.modIngs f).therm = s.therm := rfl
@[simp] theorem modIngs_tap (f : Ings → Ings) (s : State) : (s.modIngs f).tap = s.tap := rfl

@[simp] theorem modHbm_now (f : Hbm → Hbm) (s : State) : (s.modHbm f).now = s.now := rfl
@[simp] theorem modHbm_wallOff (f : Hbm → Hbm) (s : State) : (s.modHbm f).wallOff = s.wallOff := rfl
@[simp] theorem modHbm_wallRun (f : Hbm → Hbm) (s : State) : (s.modHbm f).wallRun = s.wallRun := rfl
@[simp] theorem modHbm_pending (f : Hbm → Hbm) (s : State) : (s.modHbm f).pending = s.pending := rfl
@[simp] theorem modHbm_freeCtr (f : Hbm → Hbm) (s : State) : (s.modHbm f).freeCtr = s.freeCtr := rfl
@[simp] theorem modHbm_outs (f : Hbm → Hbm) (s : State) : (s.modHbm f).outs = s.outs := rfl
@[simp] theorem modHbm_dict (f : Hbm → Hbm) (s : State) : (s.modHbm f).dict = s.dict := rfl
@[simp] theorem modHbm_units (f : Hbm → Hbm) (s : State) : (s.modHbm f).units = s.units := rfl
@[simp] theorem modHbm_xrds (f : Hbm → Hbm) (s : State) : (s.modHbm f).xrds = s.xrds := rfl
@[simp] theorem modHbm_gysol (f : Hbm → Hbm) (s : State) : (s.modHbm f).gysol = s.gysol := rfl
@[simp] theorem modHbm_mews (f : Hbm → Hbm) (s : State) : (s.modHbm f).mews = s.mews := rfl
@[simp] theorem modHbm_clks (f : Hbm → Hbm) (s : State) : (s.modHbm f).clks = s.clks := rfl
@[simp] theorem modHbm_firm (f : Hbm → Hbm) (s : State) : (s.modHbm f).firm = s.firm := rfl
@[simp] theorem modHbm_ings (f : Hbm → Hbm) (s : State) : (s.modHbm f).ings = s.ings := rfl
@[simp] theorem modHbm_hbm (f : Hbm → Hbm) (s : State) : (s.modHbm f).hbm = f s.hbm := rfl
@[simp] theorem modHbm_curg (f : Hbm → Hbm) (s : State) : (s.modHbm f).curg = s.curg := rfl
@[simp] theorem modHbm_plaz (f : Hbm → Hbm) (s : State) : (s.modHbm f).plaz = s.plaz := rfl
@[simp] theorem modHbm_seqr (f : Hbm → Hbm) (s : State) : (s.modHbm f).seqr = s.seqr := rfl
@[simp] theorem modHbm_uane (f : Hbm → Hbm) (s : State) : (s.modHbm f).uane = s.uane := rfl
@[simp] theorem modHbm_wallTrim (f : Hbm → Hbm) (s : State) : (s.modHbm f).wallTrim = s.wallTrim := rfl
@[simp] theorem modHbm_wallFrac (f : Hbm → Hbm) (s : State) : (s.modHbm f).wallFrac = s.wallFrac := rfl
@[simp] theorem modHbm_coh (f : Hbm → Hbm) (s : State) : (s.modHbm f).coh = s.coh := rfl
@[simp] theorem modHbm_colr (f : Hbm → Hbm) (s : State) : (s.modHbm f).colr = s.colr := rfl
@[simp] theorem modHbm_plgn (f : Hbm → Hbm) (s : State) : (s.modHbm f).plgn = s.plgn := rfl
@[simp] theorem modHbm_arcd (f : Hbm → Hbm) (s : State) : (s.modHbm f).arcd = s.arcd := rfl
@[simp] theorem modHbm_loop (f : Hbm → Hbm) (s : State) : (s.modHbm f).loop = s.loop := rfl
@[simp] theorem modHbm_lamp (f : Hbm → Hbm) (s : State) : (s.modHbm f).lamp = s.lamp := rfl
@[simp] theorem modHbm_whel (f : Hbm → Hbm) (s : State) : (s.modHbm f).whel = s.whel := rfl
@[simp] theorem modHbm_therm (f : Hbm → Hbm) (s : State) : (s.modHbm f).therm = s.therm := rfl
@[simp] theorem modHbm_tap (f : Hbm → Hbm) (s : State) : (s.modHbm f).tap = s.tap := rfl

@[simp] theorem modCurg_now (f : Curg → Curg) (s : State) : (s.modCurg f).now = s.now := rfl
@[simp] theorem modCurg_wallOff (f : Curg → Curg) (s : State) : (s.modCurg f).wallOff = s.wallOff := rfl
@[simp] theorem modCurg_wallRun (f : Curg → Curg) (s : State) : (s.modCurg f).wallRun = s.wallRun := rfl
@[simp] theorem modCurg_pending (f : Curg → Curg) (s : State) : (s.modCurg f).pending = s.pending := rfl
@[simp] theorem modCurg_freeCtr (f : Curg → Curg) (s : State) : (s.modCurg f).freeCtr = s.freeCtr := rfl
@[simp] theorem modCurg_outs (f : Curg → Curg) (s : State) : (s.modCurg f).outs = s.outs := rfl
@[simp] theorem modCurg_dict (f : Curg → Curg) (s : State) : (s.modCurg f).dict = s.dict := rfl
@[simp] theorem modCurg_units (f : Curg → Curg) (s : State) : (s.modCurg f).units = s.units := rfl
@[simp] theorem modCurg_xrds (f : Curg → Curg) (s : State) : (s.modCurg f).xrds = s.xrds := rfl
@[simp] theorem modCurg_gysol (f : Curg → Curg) (s : State) : (s.modCurg f).gysol = s.gysol := rfl
@[simp] theorem modCurg_mews (f : Curg → Curg) (s : State) : (s.modCurg f).mews = s.mews := rfl
@[simp] theorem modCurg_clks (f : Curg → Curg) (s : State) : (s.modCurg f).clks = s.clks := rfl
@[simp] theorem modCurg_firm (f : Curg → Curg) (s : State) : (s.modCurg f).firm = s.firm := rfl
@[simp] theorem modCurg_ings (f : Curg → Curg) (s : State) : (s.modCurg f).ings = s.ings := rfl
@[simp] theorem modCurg_hbm (f : Curg → Curg) (s : State) : (s.modCurg f).hbm = s.hbm := rfl
@[simp] theorem modCurg_curg (f : Curg → Curg) (s : State) : (s.modCurg f).curg = f s.curg := rfl
@[simp] theorem modCurg_plaz (f : Curg → Curg) (s : State) : (s.modCurg f).plaz = s.plaz := rfl
@[simp] theorem modCurg_seqr (f : Curg → Curg) (s : State) : (s.modCurg f).seqr = s.seqr := rfl
@[simp] theorem modCurg_uane (f : Curg → Curg) (s : State) : (s.modCurg f).uane = s.uane := rfl
@[simp] theorem modCurg_wallTrim (f : Curg → Curg) (s : State) : (s.modCurg f).wallTrim = s.wallTrim := rfl
@[simp] theorem modCurg_wallFrac (f : Curg → Curg) (s : State) : (s.modCurg f).wallFrac = s.wallFrac := rfl
@[simp] theorem modCurg_coh (f : Curg → Curg) (s : State) : (s.modCurg f).coh = s.coh := rfl
@[simp] theorem modCurg_colr (f : Curg → Curg) (s : State) : (s.modCurg f).colr = s.colr := rfl
@[simp] theorem modCurg_plgn (f : Curg → Curg) (s : State) : (s.modCurg f).plgn = s.plgn := rfl
@[simp] theorem modCurg_arcd (f : Curg → Curg) (s : State) : (s.modCurg f).arcd = s.arcd := rfl
@[simp] theorem modCurg_loop (f : Curg → Curg) (s : State) : (s.modCurg f).loop = s.loop := rfl
@[simp] theorem modCurg_lamp (f : Curg → Curg) (s : State) : (s.modCurg f).lamp = s.lamp := rfl
@[simp] theorem modCurg_whel (f : Curg → Curg) (s : State) : (s.modCurg f).whel = s.whel := rfl
@[simp] theorem modCurg_therm (f : Curg → Curg) (s : State) : (s.modCurg f).therm = s.therm := rfl
@[simp] theorem modCurg_tap (f : Curg → Curg) (s : State) : (s.modCurg f).tap = s.tap := rfl

@[simp] theorem modPlaz_now (f : Plaz → Plaz) (s : State) : (s.modPlaz f).now = s.now := rfl
@[simp] theorem modPlaz_wallOff (f : Plaz → Plaz) (s : State) : (s.modPlaz f).wallOff = s.wallOff := rfl
@[simp] theorem modPlaz_wallRun (f : Plaz → Plaz) (s : State) : (s.modPlaz f).wallRun = s.wallRun := rfl
@[simp] theorem modPlaz_pending (f : Plaz → Plaz) (s : State) : (s.modPlaz f).pending = s.pending := rfl
@[simp] theorem modPlaz_freeCtr (f : Plaz → Plaz) (s : State) : (s.modPlaz f).freeCtr = s.freeCtr := rfl
@[simp] theorem modPlaz_outs (f : Plaz → Plaz) (s : State) : (s.modPlaz f).outs = s.outs := rfl
@[simp] theorem modPlaz_dict (f : Plaz → Plaz) (s : State) : (s.modPlaz f).dict = s.dict := rfl
@[simp] theorem modPlaz_units (f : Plaz → Plaz) (s : State) : (s.modPlaz f).units = s.units := rfl
@[simp] theorem modPlaz_xrds (f : Plaz → Plaz) (s : State) : (s.modPlaz f).xrds = s.xrds := rfl
@[simp] theorem modPlaz_gysol (f : Plaz → Plaz) (s : State) : (s.modPlaz f).gysol = s.gysol := rfl
@[simp] theorem modPlaz_mews (f : Plaz → Plaz) (s : State) : (s.modPlaz f).mews = s.mews := rfl
@[simp] theorem modPlaz_clks (f : Plaz → Plaz) (s : State) : (s.modPlaz f).clks = s.clks := rfl
@[simp] theorem modPlaz_firm (f : Plaz → Plaz) (s : State) : (s.modPlaz f).firm = s.firm := rfl
@[simp] theorem modPlaz_ings (f : Plaz → Plaz) (s : State) : (s.modPlaz f).ings = s.ings := rfl
@[simp] theorem modPlaz_hbm (f : Plaz → Plaz) (s : State) : (s.modPlaz f).hbm = s.hbm := rfl
@[simp] theorem modPlaz_curg (f : Plaz → Plaz) (s : State) : (s.modPlaz f).curg = s.curg := rfl
@[simp] theorem modPlaz_plaz (f : Plaz → Plaz) (s : State) : (s.modPlaz f).plaz = f s.plaz := rfl
@[simp] theorem modPlaz_seqr (f : Plaz → Plaz) (s : State) : (s.modPlaz f).seqr = s.seqr := rfl
@[simp] theorem modPlaz_uane (f : Plaz → Plaz) (s : State) : (s.modPlaz f).uane = s.uane := rfl
@[simp] theorem modPlaz_wallTrim (f : Plaz → Plaz) (s : State) : (s.modPlaz f).wallTrim = s.wallTrim := rfl
@[simp] theorem modPlaz_wallFrac (f : Plaz → Plaz) (s : State) : (s.modPlaz f).wallFrac = s.wallFrac := rfl
@[simp] theorem modPlaz_coh (f : Plaz → Plaz) (s : State) : (s.modPlaz f).coh = s.coh := rfl
@[simp] theorem modPlaz_colr (f : Plaz → Plaz) (s : State) : (s.modPlaz f).colr = s.colr := rfl
@[simp] theorem modPlaz_plgn (f : Plaz → Plaz) (s : State) : (s.modPlaz f).plgn = s.plgn := rfl
@[simp] theorem modPlaz_arcd (f : Plaz → Plaz) (s : State) : (s.modPlaz f).arcd = s.arcd := rfl
@[simp] theorem modPlaz_loop (f : Plaz → Plaz) (s : State) : (s.modPlaz f).loop = s.loop := rfl
@[simp] theorem modPlaz_lamp (f : Plaz → Plaz) (s : State) : (s.modPlaz f).lamp = s.lamp := rfl
@[simp] theorem modPlaz_whel (f : Plaz → Plaz) (s : State) : (s.modPlaz f).whel = s.whel := rfl
@[simp] theorem modPlaz_therm (f : Plaz → Plaz) (s : State) : (s.modPlaz f).therm = s.therm := rfl
@[simp] theorem modPlaz_tap (f : Plaz → Plaz) (s : State) : (s.modPlaz f).tap = s.tap := rfl

@[simp] theorem modSeqr_now (f : Seqr → Seqr) (s : State) : (s.modSeqr f).now = s.now := rfl
@[simp] theorem modSeqr_wallOff (f : Seqr → Seqr) (s : State) : (s.modSeqr f).wallOff = s.wallOff := rfl
@[simp] theorem modSeqr_wallRun (f : Seqr → Seqr) (s : State) : (s.modSeqr f).wallRun = s.wallRun := rfl
@[simp] theorem modSeqr_pending (f : Seqr → Seqr) (s : State) : (s.modSeqr f).pending = s.pending := rfl
@[simp] theorem modSeqr_freeCtr (f : Seqr → Seqr) (s : State) : (s.modSeqr f).freeCtr = s.freeCtr := rfl
@[simp] theorem modSeqr_outs (f : Seqr → Seqr) (s : State) : (s.modSeqr f).outs = s.outs := rfl
@[simp] theorem modSeqr_dict (f : Seqr → Seqr) (s : State) : (s.modSeqr f).dict = s.dict := rfl
@[simp] theorem modSeqr_units (f : Seqr → Seqr) (s : State) : (s.modSeqr f).units = s.units := rfl
@[simp] theorem modSeqr_xrds (f : Seqr → Seqr) (s : State) : (s.modSeqr f).xrds = s.xrds := rfl
@[simp] theorem modSeqr_gysol (f : Seqr → Seqr) (s : State) : (s.modSeqr f).gysol = s.gysol := rfl
@[simp] theorem modSeqr_mews (f : Seqr → Seqr) (s : State) : (s.modSeqr f).mews = s.mews := rfl
@[simp] theorem modSeqr_clks (f : Seqr → Seqr) (s : State) : (s.modSeqr f).clks = s.clks := rfl
@[simp] theorem modSeqr_firm (f : Seqr → Seqr) (s : State) : (s.modSeqr f).firm = s.firm := rfl
@[simp] theorem modSeqr_ings (f : Seqr → Seqr) (s : State) : (s.modSeqr f).ings = s.ings := rfl
@[simp] theorem modSeqr_hbm (f : Seqr → Seqr) (s : State) : (s.modSeqr f).hbm = s.hbm := rfl
@[simp] theorem modSeqr_curg (f : Seqr → Seqr) (s : State) : (s.modSeqr f).curg = s.curg := rfl
@[simp] theorem modSeqr_plaz (f : Seqr → Seqr) (s : State) : (s.modSeqr f).plaz = s.plaz := rfl
@[simp] theorem modSeqr_seqr (f : Seqr → Seqr) (s : State) : (s.modSeqr f).seqr = f s.seqr := rfl
@[simp] theorem modSeqr_uane (f : Seqr → Seqr) (s : State) : (s.modSeqr f).uane = s.uane := rfl
@[simp] theorem modSeqr_wallTrim (f : Seqr → Seqr) (s : State) : (s.modSeqr f).wallTrim = s.wallTrim := rfl
@[simp] theorem modSeqr_wallFrac (f : Seqr → Seqr) (s : State) : (s.modSeqr f).wallFrac = s.wallFrac := rfl
@[simp] theorem modSeqr_coh (f : Seqr → Seqr) (s : State) : (s.modSeqr f).coh = s.coh := rfl
@[simp] theorem modSeqr_colr (f : Seqr → Seqr) (s : State) : (s.modSeqr f).colr = s.colr := rfl
@[simp] theorem modSeqr_plgn (f : Seqr → Seqr) (s : State) : (s.modSeqr f).plgn = s.plgn := rfl
@[simp] theorem modSeqr_arcd (f : Seqr → Seqr) (s : State) : (s.modSeqr f).arcd = s.arcd := rfl
@[simp] theorem modSeqr_loop (f : Seqr → Seqr) (s : State) : (s.modSeqr f).loop = s.loop := rfl
@[simp] theorem modSeqr_lamp (f : Seqr → Seqr) (s : State) : (s.modSeqr f).lamp = s.lamp := rfl
@[simp] theorem modSeqr_whel (f : Seqr → Seqr) (s : State) : (s.modSeqr f).whel = s.whel := rfl
@[simp] theorem modSeqr_therm (f : Seqr → Seqr) (s : State) : (s.modSeqr f).therm = s.therm := rfl
@[simp] theorem modSeqr_tap (f : Seqr → Seqr) (s : State) : (s.modSeqr f).tap = s.tap := rfl

@[simp] theorem modUane_now (f : Uane → Uane) (s : State) : (s.modUane f).now = s.now := rfl
@[simp] theorem modUane_wallOff (f : Uane → Uane) (s : State) : (s.modUane f).wallOff = s.wallOff := rfl
@[simp] theorem modUane_wallRun (f : Uane → Uane) (s : State) : (s.modUane f).wallRun = s.wallRun := rfl
@[simp] theorem modUane_pending (f : Uane → Uane) (s : State) : (s.modUane f).pending = s.pending := rfl
@[simp] theorem modUane_freeCtr (f : Uane → Uane) (s : State) : (s.modUane f).freeCtr = s.freeCtr := rfl
@[simp] theorem modUane_outs (f : Uane → Uane) (s : State) : (s.modUane f).outs = s.outs := rfl
@[simp] theorem modUane_dict (f : Uane → Uane) (s : State) : (s.modUane f).dict = s.dict := rfl
@[simp] theorem modUane_units (f : Uane → Uane) (s : State) : (s.modUane f).units = s.units := rfl
@[simp] theorem modUane_xrds (f : Uane → Uane) (s : State) : (s.modUane f).xrds = s.xrds := rfl
@[simp] theorem modUane_gysol (f : Uane → Uane) (s : State) : (s.modUane f).gysol = s.gysol := rfl
@[simp] theorem modUane_mews (f : Uane → Uane) (s : State) : (s.modUane f).mews = s.mews := rfl
@[simp] theorem modUane_clks (f : Uane → Uane) (s : State) : (s.modUane f).clks = s.clks := rfl
@[simp] theorem modUane_firm (f : Uane → Uane) (s : State) : (s.modUane f).firm = s.firm := rfl
@[simp] theorem modUane_ings (f : Uane → Uane) (s : State) : (s.modUane f).ings = s.ings := rfl
@[simp] theorem modUane_hbm (f : Uane → Uane) (s : State) : (s.modUane f).hbm = s.hbm := rfl
@[simp] theorem modUane_curg (f : Uane → Uane) (s : State) : (s.modUane f).curg = s.curg := rfl
@[simp] theorem modUane_plaz (f : Uane → Uane) (s : State) : (s.modUane f).plaz = s.plaz := rfl
@[simp] theorem modUane_seqr (f : Uane → Uane) (s : State) : (s.modUane f).seqr = s.seqr := rfl
@[simp] theorem modUane_uane (f : Uane → Uane) (s : State) : (s.modUane f).uane = f s.uane := rfl
@[simp] theorem modUane_wallTrim (f : Uane → Uane) (s : State) : (s.modUane f).wallTrim = s.wallTrim := rfl
@[simp] theorem modUane_wallFrac (f : Uane → Uane) (s : State) : (s.modUane f).wallFrac = s.wallFrac := rfl
@[simp] theorem modUane_coh (f : Uane → Uane) (s : State) : (s.modUane f).coh = s.coh := rfl
@[simp] theorem modUane_colr (f : Uane → Uane) (s : State) : (s.modUane f).colr = s.colr := rfl
@[simp] theorem modUane_plgn (f : Uane → Uane) (s : State) : (s.modUane f).plgn = s.plgn := rfl
@[simp] theorem modUane_arcd (f : Uane → Uane) (s : State) : (s.modUane f).arcd = s.arcd := rfl
@[simp] theorem modUane_loop (f : Uane → Uane) (s : State) : (s.modUane f).loop = s.loop := rfl
@[simp] theorem modUane_lamp (f : Uane → Uane) (s : State) : (s.modUane f).lamp = s.lamp := rfl
@[simp] theorem modUane_whel (f : Uane → Uane) (s : State) : (s.modUane f).whel = s.whel := rfl
@[simp] theorem modUane_therm (f : Uane → Uane) (s : State) : (s.modUane f).therm = s.therm := rfl
@[simp] theorem modUane_tap (f : Uane → Uane) (s : State) : (s.modUane f).tap = s.tap := rfl

@[simp] theorem modWallTrim_now (f : Int → Int) (s : State) : (s.modWallTrim f).now = s.now := rfl
@[simp] theorem modWallTrim_wallOff (f : Int → Int) (s : State) : (s.modWallTrim f).wallOff = s.wallOff := rfl
@[simp] theorem modWallTrim_wallRun (f : Int → Int) (s : State) : (s.modWallTrim f).wallRun = s.wallRun := rfl
@[simp] theorem modWallTrim_pending (f : Int → Int) (s : State) : (s.modWallTrim f).pending = s.pending := rfl
@[simp] theorem modWallTrim_freeCtr (f : Int → Int) (s : State) : (s.modWallTrim f).freeCtr = s.freeCtr := rfl
@[simp] theorem modWallTrim_outs (f : Int → Int) (s : State) : (s.modWallTrim f).outs = s.outs := rfl
@[simp] theorem modWallTrim_dict (f : Int → Int) (s : State) : (s.modWallTrim f).dict = s.dict := rfl
@[simp] theorem modWallTrim_units (f : Int → Int) (s : State) : (s.modWallTrim f).units = s.units := rfl
@[simp] theorem modWallTrim_xrds (f : Int → Int) (s : State) : (s.modWallTrim f).xrds = s.xrds := rfl
@[simp] theorem modWallTrim_gysol (f : Int → Int) (s : State) : (s.modWallTrim f).gysol = s.gysol := rfl
@[simp] theorem modWallTrim_mews (f : Int → Int) (s : State) : (s.modWallTrim f).mews = s.mews := rfl
@[simp] theorem modWallTrim_clks (f : Int → Int) (s : State) : (s.modWallTrim f).clks = s.clks := rfl
@[simp] theorem modWallTrim_firm (f : Int → Int) (s : State) : (s.modWallTrim f).firm = s.firm := rfl
@[simp] theorem modWallTrim_ings (f : Int → Int) (s : State) : (s.modWallTrim f).ings = s.ings := rfl
@[simp] theorem modWallTrim_hbm (f : Int → Int) (s : State) : (s.modWallTrim f).hbm = s.hbm := rfl
@[simp] theorem modWallTrim_curg (f : Int → Int) (s : State) : (s.modWallTrim f).curg = s.curg := rfl
@[simp] theorem modWallTrim_plaz (f : Int → Int) (s : State) : (s.modWallTrim f).plaz = s.plaz := rfl
@[simp] theorem modWallTrim_seqr (f : Int → Int) (s : State) : (s.modWallTrim f).seqr = s.seqr := rfl
@[simp] theorem modWallTrim_uane (f : Int → Int) (s : State) : (s.modWallTrim f).uane = s.uane := rfl
@[simp] theorem modWallTrim_wallTrim (f : Int → Int) (s : State) : (s.modWallTrim f).wallTrim = f s.wallTrim := rfl
@[simp] theorem modWallTrim_wallFrac (f : Int → Int) (s : State) : (s.modWallTrim f).wallFrac = s.wallFrac := rfl
@[simp] theorem modWallTrim_coh (f : Int → Int) (s : State) : (s.modWallTrim f).coh = s.coh := rfl
@[simp] theorem modWallTrim_colr (f : Int → Int) (s : State) : (s.modWallTrim f).colr = s.colr := rfl
@[simp] theorem modWallTrim_plgn (f : Int → Int) (s : State) : (s.modWallTrim f).plgn = s.plgn := rfl
@[simp] theorem modWallTrim_arcd (f : Int → Int) (s : State) : (s.modWallTrim f).arcd = s.arcd := rfl
@[simp] theorem modWallTrim_loop (f : Int → Int) (s : State) : (s.modWallTrim f).loop = s.loop := rfl
@[simp] theorem modWallTrim_lamp (f : Int → Int) (s : State) : (s.modWallTrim f).lamp = s.lamp := rfl
@[simp] theorem modWallTrim_whel (f : Int → Int) (s : State) : (s.modWallTrim f).whel = s.whel := rfl
@[simp] theorem modWallTrim_therm (f : Int → Int) (s : State) : (s.modWallTrim f).therm = s.therm := rfl
@[simp] theorem modWallTrim_tap (f : Int → Int) (s : State) : (s.modWallTrim f).tap = s.tap := rfl

@[simp] theorem modWallFrac_now (f : Nat → Nat) (s : State) : (s.modWallFrac f).now = s.now := rfl
@[simp] theorem modWallFrac_wallOff (f : Nat → Nat) (s : State) : (s.modWallFrac f).wallOff = s.wallOff := rfl
@[simp] theorem modWallFrac_wallRun (f : Nat → Nat) (s : State) : (s.modWallFrac f).wallRun = s.wallRun := rfl
@[simp] theorem modWallFrac_pending (f : Nat → Nat) (s : State) : (s.modWallFrac f).pending = s.pending := rfl
@[simp] theorem modWallFrac_freeCtr (f : Nat → Nat) (s : State) : (s.modWallFrac f).freeCtr = s.freeCtr := rfl
@[simp] theorem modWallFrac_outs (f : Nat → Nat) (s : State) : (s.modWallFrac f).outs = s.outs := rfl
@[simp] theorem modWallFrac_dict (f : Nat → Nat) (s : State) : (s.modWallFrac f).dict = s.dict := rfl
@[simp] theorem modWallFrac_units (f : Nat → Nat) (s : State) : (s.modWallFrac f).units = s.units := rfl
@[simp] theorem modWallFrac_xrds (f : Nat → Nat) (s : State) : (s.modWallFrac f).xrds = s.xrds := rfl
@[simp] theorem modWallFrac_gysol (f : Nat → Nat) (s : State) : (s.modWallFrac f).gysol = s.gysol := rfl
@[simp] theorem modWallFrac_mews (f : Nat → Nat) (s : State) : (s.modWallFrac f).mews = s.mews := rfl
@[simp] theorem modWallFrac_clks (f : Nat → Nat) (s : State) : (s.modWallFrac f).clks = s.clks := rfl
@[simp] theorem modWallFrac_firm (f : Nat → Nat) (s : State) : (s.modWallFrac f).firm = s.firm := rfl
@[simp] theorem modWallFrac_ings (f : Nat → Nat) (s : State) : (s.modWallFrac f).ings = s.ings := rfl
@[simp] theorem modWallFrac_hbm (f : Nat → Nat) (s : State) : (s.modWallFrac f).hbm = s.hbm := rfl
@[simp] theorem modWallFrac_curg (f : Nat → Nat) (s : State) : (s.modWallFrac f).curg = s.curg := rfl
@[simp] theorem modWallFrac_plaz (f : Nat → Nat) (s : State) : (s.modWallFrac f).plaz = s.plaz := rfl
@[simp] theorem modWallFrac_seqr (f : Nat → Nat) (s : State) : (s.modWallFrac f).seqr = s.seqr := rfl
@[simp] theorem modWallFrac_uane (f : Nat → Nat) (s : State) : (s.modWallFrac f).uane = s.uane := rfl
@[simp] theorem modWallFrac_wallTrim (f : Nat → Nat) (s : State) : (s.modWallFrac f).wallTrim = s.wallTrim := rfl
@[simp] theorem modWallFrac_wallFrac (f : Nat → Nat) (s : State) : (s.modWallFrac f).wallFrac = f s.wallFrac := rfl
@[simp] theorem modWallFrac_coh (f : Nat → Nat) (s : State) : (s.modWallFrac f).coh = s.coh := rfl
@[simp] theorem modWallFrac_colr (f : Nat → Nat) (s : State) : (s.modWallFrac f).colr = s.colr := rfl
@[simp] theorem modWallFrac_plgn (f : Nat → Nat) (s : State) : (s.modWallFrac f).plgn = s.plgn := rfl
@[simp] theorem modWallFrac_arcd (f : Nat → Nat) (s : State) : (s.modWallFrac f).arcd = s.arcd := rfl
@[simp] theorem modWallFrac_loop (f : Nat → Nat) (s : State) : (s.modWallFrac f).loop = s.loop := rfl
@[simp] theorem modWallFrac_lamp (f : Nat → Nat) (s : State) : (s.modWallFrac f).lamp = s.lamp := rfl
@[simp] theorem modWallFrac_whel (f : Nat → Nat) (s : State) : (s.modWallFrac f).whel = s.whel := rfl
@[simp] theorem modWallFrac_therm (f : Nat → Nat) (s : State) : (s.modWallFrac f).therm = s.therm := rfl
@[simp] theorem modWallFrac_tap (f : Nat → Nat) (s : State) : (s.modWallFrac f).tap = s.tap := rfl

@[simp] theorem modCoh_now (f : Wall → Wall) (s : State) : (s.modCoh f).now = s.now := rfl
@[simp] theorem modCoh_wallOff (f : Wall → Wall) (s : State) : (s.modCoh f).wallOff = s.wallOff := rfl
@[simp] theorem modCoh_wallRun (f : Wall → Wall) (s : State) : (s.modCoh f).wallRun = s.wallRun := rfl
@[simp] theorem modCoh_pending (f : Wall → Wall) (s : State) : (s.modCoh f).pending = s.pending := rfl
@[simp] theorem modCoh_freeCtr (f : Wall → Wall) (s : State) : (s.modCoh f).freeCtr = s.freeCtr := rfl
@[simp] theorem modCoh_outs (f : Wall → Wall) (s : State) : (s.modCoh f).outs = s.outs := rfl
@[simp] theorem modCoh_dict (f : Wall → Wall) (s : State) : (s.modCoh f).dict = s.dict := rfl
@[simp] theorem modCoh_units (f : Wall → Wall) (s : State) : (s.modCoh f).units = s.units := rfl
@[simp] theorem modCoh_xrds (f : Wall → Wall) (s : State) : (s.modCoh f).xrds = s.xrds := rfl
@[simp] theorem modCoh_gysol (f : Wall → Wall) (s : State) : (s.modCoh f).gysol = s.gysol := rfl
@[simp] theorem modCoh_mews (f : Wall → Wall) (s : State) : (s.modCoh f).mews = s.mews := rfl
@[simp] theorem modCoh_clks (f : Wall → Wall) (s : State) : (s.modCoh f).clks = s.clks := rfl
@[simp] theorem modCoh_firm (f : Wall → Wall) (s : State) : (s.modCoh f).firm = s.firm := rfl
@[simp] theorem modCoh_ings (f : Wall → Wall) (s : State) : (s.modCoh f).ings = s.ings := rfl
@[simp] theorem modCoh_hbm (f : Wall → Wall) (s : State) : (s.modCoh f).hbm = s.hbm := rfl
@[simp] theorem modCoh_curg (f : Wall → Wall) (s : State) : (s.modCoh f).curg = s.curg := rfl
@[simp] theorem modCoh_plaz (f : Wall → Wall) (s : State) : (s.modCoh f).plaz = s.plaz := rfl
@[simp] theorem modCoh_seqr (f : Wall → Wall) (s : State) : (s.modCoh f).seqr = s.seqr := rfl
@[simp] theorem modCoh_uane (f : Wall → Wall) (s : State) : (s.modCoh f).uane = s.uane := rfl
@[simp] theorem modCoh_wallTrim (f : Wall → Wall) (s : State) : (s.modCoh f).wallTrim = s.wallTrim := rfl
@[simp] theorem modCoh_wallFrac (f : Wall → Wall) (s : State) : (s.modCoh f).wallFrac = s.wallFrac := rfl
@[simp] theorem modCoh_coh (f : Wall → Wall) (s : State) : (s.modCoh f).coh = f s.coh := rfl
@[simp] theorem modCoh_colr (f : Wall → Wall) (s : State) : (s.modCoh f).colr = s.colr := rfl
@[simp] theorem modCoh_plgn (f : Wall → Wall) (s : State) : (s.modCoh f).plgn = s.plgn := rfl
@[simp] theorem modCoh_arcd (f : Wall → Wall) (s : State) : (s.modCoh f).arcd = s.arcd := rfl
@[simp] theorem modCoh_loop (f : Wall → Wall) (s : State) : (s.modCoh f).loop = s.loop := rfl
@[simp] theorem modCoh_lamp (f : Wall → Wall) (s : State) : (s.modCoh f).lamp = s.lamp := rfl
@[simp] theorem modCoh_whel (f : Wall → Wall) (s : State) : (s.modCoh f).whel = s.whel := rfl
@[simp] theorem modCoh_therm (f : Wall → Wall) (s : State) : (s.modCoh f).therm = s.therm := rfl
@[simp] theorem modCoh_tap (f : Wall → Wall) (s : State) : (s.modCoh f).tap = s.tap := rfl

@[simp] theorem modColr_now (f : (List CGroup) → (List CGroup)) (s : State) : (s.modColr f).now = s.now := rfl
@[simp] theorem modColr_wallOff (f : (List CGroup) → (List CGroup)) (s : State) : (s.modColr f).wallOff = s.wallOff := rfl
@[simp] theorem modColr_wallRun (f : (List CGroup) → (List CGroup)) (s : State) : (s.modColr f).wallRun = s.wallRun := rfl
@[simp] theorem modColr_pending (f : (List CGroup) → (List CGroup)) (s : State) : (s.modColr f).pending = s.pending := rfl
@[simp] theorem modColr_freeCtr (f : (List CGroup) → (List CGroup)) (s : State) : (s.modColr f).freeCtr = s.freeCtr := rfl
@[simp] theorem modColr_outs (f : (List CGroup) → (List CGroup)) (s : State) : (s.modColr f).outs = s.outs := rfl
@[simp] theorem modColr_dict (f : (List CGroup) → (List CGroup)) (s : State) : (s.modColr f).dict = s.dict := rfl
@[simp] theorem modColr_units (f : (List CGroup) → (List CGroup)) (s : State) : (s.modColr f).units = s.units := rfl
@[simp] theorem modColr_xrds (f : (List CGroup) → (List CGroup)) (s : State) : (s.modColr f).xrds = s.xrds := rfl
@[simp] theorem modColr_gysol (f : (List CGroup) → (List CGroup)) (s : State) : (s.modColr f).gysol = s.gysol := rfl
@[simp] theorem modColr_mews (f : (List CGroup) → (List CGroup)) (s : State) : (s.modColr f).mews = s.mews := rfl
@[simp] theorem modColr_clks (f : (List CGroup) → (List CGroup)) (s : State) : (s.modColr f).clks = s.clks := rfl
@[simp] theorem modColr_firm (f : (List CGroup) → (List CGroup)) (s : State) : (s.modColr f).firm = s.firm := rfl
@[simp] theorem modColr_ings (f : (List CGroup) → (List CGroup)) (s : State) : (s.modColr f).ings = s.ings := rfl
@[simp] theorem modColr_hbm (f : (List CGroup) → (List CGroup)) (s : State) : (s.modColr f).hbm = s.hbm := rfl
@[simp] theorem modColr_curg (f : (List CGroup) → (List CGroup)) (s : State) : (s.modColr f).curg = s.curg := rfl
@[simp] theorem modColr_plaz (f : (List CGroup) → (List CGroup)) (s : State) : (s.modColr f).plaz = s.plaz := rfl
@[simp] theorem modColr_seqr (f : (List CGroup) → (List CGroup)) (s : State) : (s.modColr f).seqr = s.seqr := rfl
@[simp] theorem modColr_uane (f : (List CGroup) → (List CGroup)) (s : State) : (s.modColr f).uane = s.uane := rfl
@[simp] theorem modColr_wallTrim (f : (List CGroup) → (List CGroup)) (s : State) : (s.modColr f).wallTrim = s.wallTrim := rfl
@[simp] theorem modColr_wallFrac (f : (List CGroup) → (List CGroup)) (s : State) : (s.modColr f).wallFrac = s.wallFrac := rfl
@[simp] theorem modColr_coh (f : (List CGroup) → (List CGroup)) (s : State) : (s.modColr f).coh = s.coh := rfl
@[simp] theorem modColr_colr (f : (List CGroup) → (List CGroup)) (s : State) : (s.modColr f).colr = f s.colr := rfl
@[simp] theorem modColr_plgn (f : (List CGroup) → (List CGroup)) (s : State) : (s.modColr f).plgn = s.plgn := rfl
@[simp] theorem modColr_arcd (f : (List CGroup) → (List CGroup)) (s : State) : (s.modColr f).arcd = s.arcd := rfl
@[simp] theorem modColr_loop (f : (List CGroup) → (List CGroup)) (s : State) : (s.modColr f).loop = s.loop := rfl
@[simp] theorem modColr_lamp (f : (List CGroup) → (List CGroup)) (s : State) : (s.modColr f).lamp = s.lamp := rfl
@[simp] theorem modColr_whel (f : (List CGroup) → (List CGroup)) (s : State) : (s.modColr f).whel = s.whel := rfl
@[simp] theorem modColr_therm (f : (List CGroup) → (List CGroup)) (s : State) : (s.modColr f).therm = s.therm := rfl
@[simp] theorem modColr_tap (f : (List CGroup) → (List CGroup)) (s : State) : (s.modColr f).tap = s.tap := rfl

@[simp] theorem modPlgn_now (f : Plgn → Plgn) (s : State) : (s.modPlgn f).now = s.now := rfl
@[simp] theorem modPlgn_wallOff (f : Plgn → Plgn) (s : State) : (s.modPlgn f).wallOff = s.wallOff := rfl
@[simp] theorem modPlgn_wallRun (f : Plgn → Plgn) (s : State) : (s.modPlgn f).wallRun = s.wallRun := rfl
@[simp] theorem modPlgn_pending (f : Plgn → Plgn) (s : State) : (s.modPlgn f).pending = s.pending := rfl
@[simp] theorem modPlgn_freeCtr (f : Plgn → Plgn) (s : State) : (s.modPlgn f).freeCtr = s.freeCtr := rfl
@[simp] theorem modPlgn_outs (f : Plgn → Plgn) (s : State) : (s.modPlgn f).outs = s.outs := rfl
@[simp] theorem modPlgn_dict (f : Plgn → Plgn) (s : State) : (s.modPlgn f).dict = s.dict := rfl
@[simp] theorem modPlgn_units (f : Plgn → Plgn) (s : State) : (s.modPlgn f).units = s.units := rfl
@[simp] theorem modPlgn_xrds (f : Plgn → Plgn) (s : State) : (s.modPlgn f).xrds = s.xrds := rfl
@[simp] theorem modPlgn_gysol (f : Plgn → Plgn) (s : State) : (s.modPlgn f).gysol = s.gysol := rfl
@[simp] theorem modPlgn_mews (f : Plgn → Plgn) (s : State) : (s.modPlgn f).mews = s.mews := rfl
@[simp] theorem modPlgn_clks (f : Plgn → Plgn) (s : State) : (s.modPlgn f).clks = s.clks := rfl
@[simp] theorem modPlgn_firm (f : Plgn → Plgn) (s : State) : (s.modPlgn f).firm = s.firm := rfl
@[simp] theorem modPlgn_ings (f : Plgn → Plgn) (s : State) : (s.modPlgn f).ings = s.ings := rfl
@[simp] theorem modPlgn_hbm (f : Plgn → Plgn) (s : State) : (s.modPlgn f).hbm = s.hbm := rfl
@[simp] theorem modPlgn_curg (f : Plgn → Plgn) (s : State) : (s.modPlgn f).curg = s.curg := rfl
@[simp] theorem modPlgn_plaz (f : Plgn → Plgn) (s : State) : (s.modPlgn f).plaz = s.plaz := rfl
@[simp] theorem modPlgn_seqr (f : Plgn → Plgn) (s : State) : (s.modPlgn f).seqr = s.seqr := rfl
@[simp] theorem modPlgn_uane (f : Plgn → Plgn) (s : State) : (s.modPlgn f).uane = s.uane := rfl
@[simp] theorem modPlgn_wallTrim (f : Plgn → Plgn) (s : State) : (s.modPlgn f).wallTrim = s.wallTrim := rfl
@[simp] theorem modPlgn_wallFrac (f : Plgn → Plgn) (s : State) : (s.modPlgn f).wallFrac = s.wallFrac := rfl
@[simp] theorem modPlgn_coh (f : Plgn → Plgn) (s : State) : (s.modPlgn f).coh = s.coh := rfl
@[simp] theorem modPlgn_colr (f : Plgn → Plgn) (s : State) : (s.modPlgn f).colr = s.colr := rfl
@[simp] theorem modPlgn_plgn (f : Plgn → Plgn) (s : State) : (s.modPlgn f).plgn = f s.plgn := rfl
@[simp] theorem modPlgn_arcd (f : Plgn → Plgn) (s : State) : (s.modPlgn f).arcd = s.arcd := rfl
@[simp] theorem modPlgn_loop (f : Plgn → Plgn) (s : State) : (s.modPlgn f).loop = s.loop := rfl
@[simp] theorem modPlgn_lamp (f : Plgn → Plgn) (s : State) : (s.modPlgn f).lamp = s.lamp := rfl
@[simp] theorem modPlgn_whel (f : Plgn → Plgn) (s : State) : (s.modPlgn f).whel = s.whel := rfl
@[simp] theorem modPlgn_therm (f : Plgn → Plgn) (s : State) : (s.modPlgn f).therm = s.therm := rfl
@[simp] theorem modPlgn_tap (f : Plgn → Plgn) (s : State) : (s.modPlgn f).tap = s.tap := rfl

@[simp] theorem modArcd_now (f : Arcd → Arcd) (s : State) : (s.modArcd f).now = s.now := rfl
@[simp] theorem modArcd_wallOff (f : Arcd → Arcd) (s : State) : (s.modArcd f).wallOff = s.wallOff := rfl
@[simp] theorem modArcd_wallRun (f : Arcd → Arcd) (s : State) : (s.modArcd f).wallRun = s.wallRun := rfl
@[simp] theorem modArcd_pending (f : Arcd → Arcd) (s : State) : (s.modArcd f).pending = s.pending := rfl
@[simp] theorem modArcd_freeCtr (f : Arcd → Arcd) (s : State) : (s.modArcd f).freeCtr = s.freeCtr := rfl
@[simp] theorem modArcd_outs (f : Arcd → Arcd) (s : State) : (s.modArcd f).outs = s.outs := rfl
@[simp] theorem modArcd_dict (f : Arcd → Arcd) (s : State) : (s.modArcd f).dict = s.dict := rfl
@[simp] theorem modArcd_units (f : Arcd → Arcd) (s : State) : (s.modArcd f).units = s.units := rfl
@[simp] theorem modArcd_xrds (f : Arcd → Arcd) (s : State) : (s.modArcd f).xrds = s.xrds := rfl
@[simp] theorem modArcd_gysol (f : Arcd → Arcd) (s : State) : (s.modArcd f).gysol = s.gysol := rfl
@[simp] theorem modArcd_mews (f : Arcd → Arcd) (s : State) : (s.modArcd f).mews = s.mews := rfl
@[simp] theorem modArcd_clks (f : Arcd → Arcd) (s : State) : (s.modArcd f).clks = s.clks := rfl
@[simp] theorem modArcd_firm (f : Arcd → Arcd) (s : State) : (s.modArcd f).firm = s.firm := rfl
@[simp] theorem modArcd_ings (f : Arcd → Arcd) (s : State) : (s.modArcd f).ings = s.ings := rfl
@[simp] theorem modArcd_hbm (f : Arcd → Arcd) (s : State) : (s.modArcd f).hbm = s.hbm := rfl
@[simp] theorem modArcd_curg (f : Arcd → Arcd) (s : State) : (s.modArcd f).curg = s.curg := rfl
@[simp] theorem modArcd_plaz (f : Arcd → Arcd) (s : State) : (s.modArcd f).plaz = s.plaz := rfl
@[simp] theorem modArcd_seqr (f : Arcd → Arcd) (s : State) : (s.modArcd f).seqr = s.seqr := rfl
@[simp] theorem modArcd_uane (f : Arcd → Arcd) (s : State) : (s.modArcd f).uane = s.uane := rfl
@[simp] theorem modArcd_wallTrim (f : Arcd → Arcd) (s : State) : (s.modArcd f).wallTrim = s.wallTrim := rfl
@[simp] theorem modArcd_wallFrac (f : Arcd → Arcd) (s : State) : (s.modArcd f).wallFrac = s.wallFrac := rfl
@[simp] theorem modArcd_coh (f : Arcd → Arcd) (s : State) : (s.modArcd f).coh = s.coh := rfl
@[simp] theorem modArcd_colr (f : Arcd → Arcd) (s : State) : (s.modArcd f).colr = s.colr := rfl
@[simp] theorem modArcd_plgn (f : Arcd → Arcd) (s : State) : (s.modArcd f).plgn = s.plgn := rfl
@[simp] theorem modArcd_arcd (f : Arcd → Arcd) (s : State) : (s.modArcd f).arcd = f s.arcd := rfl
@[simp] theorem modArcd_loop (f : Arcd → Arcd) (s : State) : (s.modArcd f).loop = s.loop := rfl
@[simp] theorem modArcd_lamp (f : Arcd → Arcd) (s : State) : (s.modArcd f).lamp = s.lamp := rfl
@[simp] theorem modArcd_whel (f : Arcd → Arcd) (s : State) : (s.modArcd f).whel = s.whel := rfl
@[simp] theorem modArcd_therm (f : Arcd → Arcd) (s : State) : (s.modArcd f).therm = s.therm := rfl
@[simp] theorem modArcd_tap (f : Arcd → Arcd) (s : State) : (s.modArcd f).tap = s.tap := rfl

@[simp] theorem modLoop_now (f : Loop → Loop) (s : State) : (s.modLoop f).now = s.now := rfl
@[simp] theorem modLoop_wallOff (f : Loop → Loop) (s : State) : (s.modLoop f).wallOff = s.wallOff := rfl
@[simp] theorem modLoop_wallRun (f : Loop → Loop) (s : State) : (s.modLoop f).wallRun = s.wallRun := rfl
@[simp] theorem modLoop_pending (f : Loop → Loop) (s : State) : (s.modLoop f).pending = s.pending := rfl
@[simp] theorem modLoop_freeCtr (f : Loop → Loop) (s : State) : (s.modLoop f).freeCtr = s.freeCtr := rfl
@[simp] theorem modLoop_outs (f : Loop → Loop) (s : State) : (s.modLoop f).outs = s.outs := rfl
@[simp] theorem modLoop_dict (f : Loop → Loop) (s : State) : (s.modLoop f).dict = s.dict := rfl
@[simp] theorem modLoop_units (f : Loop → Loop) (s : State) : (s.modLoop f).units = s.units := rfl
@[simp] theorem modLoop_xrds (f : Loop → Loop) (s : State) : (s.modLoop f).xrds = s.xrds := rfl
@[simp] theorem modLoop_gysol (f : Loop → Loop) (s : State) : (s.modLoop f).gysol = s.gysol := rfl
@[simp] theorem modLoop_mews (f : Loop → Loop) (s : State) : (s.modLoop f).mews = s.mews := rfl
@[simp] theorem modLoop_clks (f : Loop → Loop) (s : State) : (s.modLoop f).clks = s.clks := rfl
@[simp] theorem modLoop_firm (f : Loop → Loop) (s : State) : (s.modLoop f).firm = s.firm := rfl
@[simp] theorem modLoop_ings (f : Loop → Loop) (s : State) : (s.modLoop f).ings = s.ings := rfl
@[simp] theorem modLoop_hbm (f : Loop → Loop) (s : State) : (s.modLoop f).hbm = s.hbm := rfl
@[simp] theorem modLoop_curg (f : Loop → Loop) (s : State) : (s.modLoop f).curg = s.curg := rfl
@[simp] theorem modLoop_plaz (f : Loop → Loop) (s : State) : (s.modLoop f).plaz = s.plaz := rfl
@[simp] theorem modLoop_seqr (f : Loop → Loop) (s : State) : (s.modLoop f).seqr = s.seqr := rfl
@[simp] theorem modLoop_uane (f : Loop → Loop) (s : State) : (s.modLoop f).uane = s.uane := rfl
@[simp] theorem modLoop_wallTrim (f : Loop → Loop) (s : State) : (s.modLoop f).wallTrim = s.wallTrim := rfl
@[simp] theorem modLoop_wallFrac (f : Loop → Loop) (s : State) : (s.modLoop f).wallFrac = s.wallFrac := rfl
@[simp] theorem modLoop_coh (f : Loop → Loop) (s : State) : (s.modLoop f).coh = s.coh := rfl
@[simp] theorem modLoop_colr (f : Loop → Loop) (s : State) : (s.modLoop f).colr = s.colr := rfl
@[simp] theorem modLoop_plgn (f : Loop → Loop) (s : State) : (s.modLoop f).plgn = s.plgn := rfl
@[simp] theorem modLoop_arcd (f : Loop → Loop) (s : State) : (s.modLoop f).arcd = s.arcd := rfl
@[simp] theorem modLoop_loop (f : Loop → Loop) (s : State) : (s.modLoop f).loop = f s.loop := rfl
@[simp] theorem modLoop_lamp (f : Loop → Loop) (s : State) : (s.modLoop f).lamp = s.lamp := rfl
@[simp] theorem modLoop_whel (f : Loop → Loop) (s : State) : (s.modLoop f).whel = s.whel := rfl
@[simp] theorem modLoop_therm (f : Loop → Loop) (s : State) : (s.modLoop f).therm = s.therm := rfl
@[simp] theorem modLoop_tap (f : Loop → Loop) (s : State) : (s.modLoop f).tap = s.tap := rfl

@[simp] theorem modLamp_now (f : Lamp → Lamp) (s : State) : (s.modLamp f).now = s.now := rfl
@[simp] theorem modLamp_wallOff (f : Lamp → Lamp) (s : State) : (s.modLamp f).wallOff = s.wallOff := rfl
@[simp] theorem modLamp_wallRun (f : Lamp → Lamp) (s : State) : (s.modLamp f).wallRun = s.wallRun := rfl
@[simp] theorem modLamp_pending (f : Lamp → Lamp) (s : State) : (s.modLamp f).pending = s.pending := rfl
@[simp] theorem modLamp_freeCtr (f : Lamp → Lamp) (s : State) : (s.modLamp f).freeCtr = s.freeCtr := rfl
@[simp] theorem modLamp_outs (f : Lamp → Lamp) (s : State) : (s.modLamp f).outs = s.outs := rfl
@[simp] theorem modLamp_dict (f : Lamp → Lamp) (s : State) : (s.modLamp f).dict = s.dict := rfl
@[simp] theorem modLamp_units (f : Lamp → Lamp) (s : State) : (s.modLamp f).units = s.units := rfl
@[simp] theorem modLamp_xrds (f : Lamp → Lamp) (s : State) : (s.modLamp f).xrds = s.xrds := rfl
@[simp] theorem modLamp_gysol (f : Lamp → Lamp) (s : State) : (s.modLamp f).gysol = s.gysol := rfl
@[simp] theorem modLamp_mews (f : Lamp → Lamp) (s : State) : (s.modLamp f).mews = s.mews := rfl
@[simp] theorem modLamp_clks (f : Lamp → Lamp) (s : State) : (s.modLamp f).clks = s.clks := rfl
@[simp] theorem modLamp_firm (f : Lamp → Lamp) (s : State) : (s.modLamp f).firm = s.firm := rfl
@[simp] theorem modLamp_ings (f : Lamp → Lamp) (s : State) : (s.modLamp f).ings = s.ings := rfl
@[simp] theorem modLamp_hbm (f : Lamp → Lamp) (s : State) : (s.modLamp f).hbm = s.hbm := rfl
@[simp] theorem modLamp_curg (f : Lamp → Lamp) (s : State) : (s.modLamp f).curg = s.curg := rfl
@[simp] theorem modLamp_plaz (f : Lamp → Lamp) (s : State) : (s.modLamp f).plaz = s.plaz := rfl
@[simp] theorem modLamp_seqr (f : Lamp → Lamp) (s : State) : (s.modLamp f).seqr = s.seqr := rfl
@[simp] theorem modLamp_uane (f : Lamp → Lamp) (s : State) : (s.modLamp f).uane = s.uane := rfl
@[simp] theorem modLamp_wallTrim (f : Lamp → Lamp) (s : State) : (s.modLamp f).wallTrim = s.wallTrim := rfl
@[simp] theorem modLamp_wallFrac (f : Lamp → Lamp) (s : State) : (s.modLamp f).wallFrac = s.wallFrac := rfl
@[simp] theorem modLamp_coh (f : Lamp → Lamp) (s : State) : (s.modLamp f).coh = s.coh := rfl
@[simp] theorem modLamp_colr (f : Lamp → Lamp) (s : State) : (s.modLamp f).colr = s.colr := rfl
@[simp] theorem modLamp_plgn (f : Lamp → Lamp) (s : State) : (s.modLamp f).plgn = s.plgn := rfl
@[simp] theorem modLamp_arcd (f : Lamp → Lamp) (s : State) : (s.modLamp f).arcd = s.arcd := rfl
@[simp] theorem modLamp_loop (f : Lamp → Lamp) (s : State) : (s.modLamp f).loop = s.loop := rfl
@[simp] theorem modLamp_lamp (f : Lamp → Lamp) (s : State) : (s.modLamp f).lamp = f s.lamp := rfl
@[simp] theorem modLamp_whel (f : Lamp → Lamp) (s : State) : (s.modLamp f).whel = s.whel := rfl
@[simp] theorem modLamp_therm (f : Lamp → Lamp) (s : State) : (s.modLamp f).therm = s.therm := rfl
@[simp] theorem modLamp_tap (f : Lamp → Lamp) (s : State) : (s.modLamp f).tap = s.tap := rfl

@[simp] theorem modWhel_now (f : (List Wheel) → (List Wheel)) (s : State) : (s.modWhel f).now = s.now := rfl
@[simp] theorem modWhel_wallOff (f : (List Wheel) → (List Wheel)) (s : State) : (s.modWhel f).wallOff = s.wallOff := rfl
@[simp] theorem modWhel_wallRun (f : (List Wheel) → (List Wheel)) (s : State) : (s.modWhel f).wallRun = s.wallRun := rfl
@[simp] theorem modWhel_pending (f : (List Wheel) → (List Wheel)) (s : State) : (s.modWhel f).pending = s.pending := rfl
@[simp] theorem modWhel_freeCtr (f : (List Wheel) → (List Wheel)) (s : State) : (s.modWhel f).freeCtr = s.freeCtr := rfl
@[simp] theorem modWhel_outs (f : (List Wheel) → (List Wheel)) (s : State) : (s.modWhel f).outs = s.outs := rfl
@[simp] theorem modWhel_dict (f : (List Wheel) → (List Wheel)) (s : State) : (s.modWhel f).dict = s.dict := rfl
@[simp] theorem modWhel_units (f : (List Wheel) → (List Wheel)) (s : State) : (s.modWhel f).units = s.units := rfl
@[simp] theorem modWhel_xrds (f : (List Wheel) → (List Wheel)) (s : State) : (s.modWhel f).xrds = s.xrds := rfl
@[simp] theorem modWhel_gysol (f : (List Wheel) → (List Wheel)) (s : State) : (s.modWhel f).gysol = s.gysol := rfl
@[simp] theorem modWhel_mews (f : (List Wheel) → (List Wheel)) (s : State) : (s.modWhel f).mews = s.mews := rfl
@[simp] theorem modWhel_clks (f : (List Wheel) → (List Wheel)) (s : State) : (s.modWhel f).clks = s.clks := rfl
@[simp] theorem modWhel_firm (f : (List Wheel) → (List Wheel)) (s : State) : (s.modWhel f).firm = s.firm := rfl
@[simp] theorem modWhel_ings (f : (List Wheel) → (List Wheel)) (s : State) : (s.modWhel f).ings = s.ings := rfl
@[simp] theorem modWhel_hbm (f : (List Wheel) → (List Wheel)) (s : State) : (s.modWhel f).hbm = s.hbm := rfl
@[simp] theorem modWhel_curg (f : (List Wheel) → (List Wheel)) (s : State) : (s.modWhel f).curg = s.curg := rfl
@[simp] theorem modWhel_plaz (f : (List Wheel) → (List Wheel)) (s : State) : (s.modWhel f).plaz = s.plaz := rfl
@[simp] theorem modWhel_seqr (f : (List Wheel) → (List Wheel)) (s : State) : (s.modWhel f).seqr = s.seqr := rfl
@[simp] theorem modWhel_uane (f : (List Wheel) → (List Wheel)) (s : State) : (s.modWhel f).uane = s.uane := rfl
@[simp] theorem modWhel_wallTrim (f : (List Wheel) → (List Wheel)) (s : State) : (s.modWhel f).wallTrim = s.wallTrim := rfl
@[simp] theorem modWhel_wallFrac (f : (List Wheel) → (List Wheel)) (s : State) : (s.modWhel f).wallFrac = s.wallFrac := rfl
@[simp] theorem modWhel_coh (f : (List Wheel) → (List Wheel)) (s : State) : (s.modWhel f).coh = s.coh := rfl
@[simp] theorem modWhel_colr (f : (List Wheel) → (List Wheel)) (s : State) : (s.modWhel f).colr = s.colr := rfl
@[simp] theorem modWhel_plgn (f : (List Wheel) → (List Wheel)) (s : State) : (s.modWhel f).plgn = s.plgn := rfl
@[simp] theorem modWhel_arcd (f : (List Wheel) → (List Wheel)) (s : State) : (s.modWhel f).arcd = s.arcd := rfl
@[simp] theorem modWhel_loop (f : (List Wheel) → (List Wheel)) (s : State) : (s.modWhel f).loop = s.loop := rfl
@[simp] theorem modWhel_lamp (f : (List Wheel) → (List Wheel)) (s : State) : (s.modWhel f).lamp = s.lamp := rfl
@[simp] theorem modWhel_whel (f : (List Wheel) → (List Wheel)) (s : State) : (s.modWhel f).whel = f s.whel := rfl
@[simp] theorem modWhel_therm (f : (List Wheel) → (List Wheel)) (s : State) : (s.modWhel f).therm = s.therm := rfl
@[simp] theorem modWhel_tap (f : (List Wheel) → (List Wheel)) (s : State) : (s.modWhel f).tap = s.tap := rfl

@[simp] theorem modTherm_now (f : Therm → Therm) (s : State) : (s.modTherm f).now = s.now := rfl
@[simp] theorem modTherm_wallOff (f : Therm → Therm) (s : State) : (s.modTherm f).wallOff = s.wallOff := rfl
@[simp] theorem modTherm_wallRun (f : Therm → Therm) (s : State) : (s.modTherm f).wallRun = s.wallRun := rfl
@[simp] theorem modTherm_pending (f : Therm → Therm) (s : State) : (s.modTherm f).pending = s.pending := rfl
@[simp] theorem modTherm_freeCtr (f : Therm → Therm) (s : State) : (s.modTherm f).freeCtr = s.freeCtr := rfl
@[simp] theorem modTherm_outs (f : Therm → Therm) (s : State) : (s.modTherm f).outs = s.outs := rfl
@[simp] theorem modTherm_dict (f : Therm → Therm) (s : State) : (s.modTherm f).dict = s.dict := rfl
@[simp] theorem modTherm_units (f : Therm → Therm) (s : State) : (s.modTherm f).units = s.units := rfl
@[simp] theorem modTherm_xrds (f : Therm → Therm) (s : State) : (s.modTherm f).xrds = s.xrds := rfl
@[simp] theorem modTherm_gysol (f : Therm → Therm) (s : State) : (s.modTherm f).gysol = s.gysol := rfl
@[simp] theorem modTherm_mews (f : Therm → Therm) (s : State) : (s.modTherm f).mews = s.mews := rfl
@[simp] theorem modTherm_clks (f : Therm → Therm) (s : State) : (s.modTherm f).clks = s.clks := rfl
@[simp] theorem modTherm_firm (f : Therm → Therm) (s : State) : (s.modTherm f).firm = s.firm := rfl
@[simp] theorem modTherm_ings (f : Therm → Therm) (s : State) : (s.modTherm f).ings = s.ings := rfl
@[simp] theorem modTherm_hbm (f : Therm → Therm) (s : State) : (s.modTherm f).hbm = s.hbm := rfl
@[simp] theorem modTherm_curg (f : Therm → Therm) (s : State) : (s.modTherm f).curg = s.curg := rfl
@[simp] theorem modTherm_plaz (f : Therm → Therm) (s : State) : (s.modTherm f).plaz = s.plaz := rfl
@[simp] theorem modTherm_seqr (f : Therm → Therm) (s : State) : (s.modTherm f).seqr = s.seqr := rfl
@[simp] theorem modTherm_uane (f : Therm → Therm) (s : State) : (s.modTherm f).uane = s.uane := rfl
@[simp] theorem modTherm_wallTrim (f : Therm → Therm) (s : State) : (s.modTherm f).wallTrim = s.wallTrim := rfl
@[simp] theorem modTherm_wallFrac (f : Therm → Therm) (s : State) : (s.modTherm f).wallFrac = s.wallFrac := rfl
@[simp] theorem modTherm_coh (f : Therm → Therm) (s : State) : (s.modTherm f).coh = s.coh := rfl
@[simp] theorem modTherm_colr (f : Therm → Therm) (s : State) : (s.modTherm f).colr = s.colr := rfl
@[simp] theorem modTherm_plgn (f : Therm → Therm) (s : State) : (s.modTherm f).plgn = s.plgn := rfl
@[simp] theorem modTherm_arcd (f : Therm → Therm) (s : State) : (s.modTherm f).arcd = s.arcd := rfl
@[simp] theorem modTherm_loop (f : Therm → Therm) (s : State) : (s.modTherm f).loop = s.loop := rfl
@[simp] theorem modTherm_lamp (f : Therm → Therm) (s : State) : (s.modTherm f).lamp = s.lamp := rfl
@[simp] theorem modTherm_whel (f : Therm → Therm) (s : State) : (s.modTherm f).whel = s.whel := rfl
@[simp] theorem modTherm_therm (f : Therm → Therm) (s : State) : (s.modTherm f).therm = f s.therm := rfl
@[simp] theorem modTherm_tap (f : Therm → Therm) (s : State) : (s.modTherm f).tap = s.tap := rfl

@[simp] theorem modTap_now (f : Tap → Tap) (s : State) : (s.modTap f).now = s.now := rfl
@[simp] theorem modTap_wallOff (f : Tap → Tap) (s : State) : (s.modTap f).wallOff = s.wallOff := rfl
@[simp] theorem modTap_wallRun (f : Tap → Tap) (s : State) : (s.modTap f).wallRun = s.wallRun := rfl
@[simp] theorem modTap_pending (f : Tap → Tap) (s : State) : (s.modTap f).pending = s.pending := rfl
@[simp] theorem modTap_freeCtr (f : Tap → Tap) (s : State) : (s.modTap f).freeCtr = s.freeCtr := rfl
@[simp] theorem modTap_outs (f : Tap → Tap) (s : State) : (s.modTap f).outs = s.outs := rfl
@[simp] theorem modTap_dict (f : Tap → Tap) (s : State) : (s.modTap f).dict = s.dict := rfl
@[simp] theorem modTap_units (f : Tap → Tap) (s : State) : (s.modTap f).units = s.units := rfl
@[simp] theorem modTap_xrds (f : Tap → Tap) (s : State) : (s.modTap f).xrds = s.xrds := rfl
@[simp] theorem modTap_gysol (f : Tap → Tap) (s : State) : (s.modTap f).gysol = s.gysol := rfl
@[simp] theorem modTap_mews (f : Tap → Tap) (s : State) : (s.modTap f).mews = s.mews := rfl
@[simp] theorem modTap_clks (f : Tap → Tap) (s : State) : (s.modTap f).clks = s.clks := rfl
@[simp] theorem modTap_firm (f : Tap → Tap) (s : State) : (s.modTap f).firm = s.firm := rfl
@[simp] theorem modTap_ings (f : Tap → Tap) (s : State) : (s.modTap f).ings = s.ings := rfl
@[simp] theorem modTap_hbm (f : Tap → Tap) (s : State) : (s.modTap f).hbm = s.hbm := rfl
@[simp] theorem modTap_curg (f : Tap → Tap) (s : State) : (s.modTap f).curg = s.curg := rfl
@[simp] theorem modTap_plaz (f : Tap → Tap) (s : State) : (s.modTap f).plaz = s.plaz := rfl
@[simp] theorem modTap_seqr (f : Tap → Tap) (s : State) : (s.modTap f).seqr = s.seqr := rfl
@[simp] theorem modTap_uane (f : Tap → Tap) (s : State) : (s.modTap f).uane = s.uane := rfl
@[simp] theorem modTap_wallTrim (f : Tap → Tap) (s : State) : (s.modTap f).wallTrim = s.wallTrim := rfl
@[simp] theorem modTap_wallFrac (f : Tap → Tap) (s : State) : (s.modTap f).wallFrac = s.wallFrac := rfl
@[simp] theorem modTap_coh (f : Tap → Tap) (s : State) : (s.modTap f).coh = s.coh := rfl
@[simp] theorem modTap_colr (f : Tap → Tap) (s : State) : (s.modTap f).colr = s.colr := rfl
@[simp] theorem modTap_plgn (f : Tap → Tap) (s : State) : (s.modTap f).plgn = s.plgn := rfl
@[simp] theorem modTap_arcd (f : Tap → Tap) (s : State) : (s.modTap f).arcd = s.arcd := rfl
@[simp] theorem modTap_loop (f : Tap → Tap) (s : State) : (s.modTap f).loop = s.loop := rfl
@[simp] theorem modTap_lamp (f : Tap → Tap) (s : State) : (s.modTap f).lamp = s.lamp := rfl
@[simp] theorem modTap_whel (f : Tap → Tap) (s : State) : (s.modTap f).whel = s.whel := rfl
@[simp] theorem modTap_therm (f : Tap → Tap) (s : State) : (s.modTap f).therm = s.therm := rfl
@[simp] theorem modTap_tap (f : Tap → Tap) (s : State) : (s.modTap f).tap = f s.tap := rfl

end Sys2Proof.Machine
end

