-- ==== Sys2Proof/Laws/Kept.lean ====
section
/-! SUPPORT. The bounds that every operation of the model stays within: composition, and the updates of one field. -/

namespace Sys2Proof.Machine

theorem Kept.refl (s : State) : Kept s s := ⟨rfl, le_refl _, List.prefix_refl _, id⟩

theorem Kept.trans {r s t : State} (h : Kept r s) (k : Kept s t) : Kept r t :=
  ⟨k.queue.trans h.queue, le_trans h.clock k.clock, h.sent.trans k.sent, fun o => k.ok (h.ok o)⟩

theorem Kept.foldl {α : Type} {f : State → α → State} (h : ∀ s x, Kept s (f s x)) (l : List α) (s : State) :
    Kept s (l.foldl f s) := by
  induction l generalizing s with
  | nil => exact Kept.refl s
  | cons a l ih => exact (h s a).trans (ih (f s a))

theorem Kept.foldlFst {α β : Type} {f : State × β → α → State × β} (h : ∀ p x, Kept p.1 (f p x).1) (l : List α)
    (p : State × β) : Kept p.1 (l.foldl f p).1 := by
  induction l generalizing p with
  | nil => exact Kept.refl p.1
  | cons a l ih => exact (h p a).trans (ih (f p a))

theorem Kept.foldlPair {α β : Type} {f : State × β → α → State × β} (h : ∀ p x, Kept p.1 (f p x).1) (l : List α)
    (s : State) (b : β) : Kept s (l.foldl f (s, b)).1 := Kept.foldlFst h l (s, b)

theorem Kept.foldlSnd {α β : Type} {f : β × State → α → β × State} (h : ∀ p x, Kept p.2 (f p x).2) (l : List α)
    (p : β × State) : Kept p.2 (l.foldl f p).2 := by
  induction l generalizing p with
  | nil => exact Kept.refl p.2
  | cons a l ih => exact (h p a).trans (ih (f p a))

theorem Kept.ofFst {β : Type} {p : State × β} {s t : State} {b : β} (h : Kept s p.1) (e : p = (t, b)) : Kept s t := by
  subst e; exact h

theorem Kept.ofSnd {β : Type} {p : β × State} {s t : State} {b : β} (h : Kept s p.2) (e : p = (b, t)) : Kept s t := by
  subst e; exact h

theorem Kept.ite {c : Prop} [Decidable c] {s a b : State} (h : c → Kept s a) (k : ¬ c → Kept s b) :
    Kept s (if c then a else b) := by
  split
  · exact h ‹_›
  · exact k ‹_›

theorem Kept.iteFst {β : Type} {c : Prop} [Decidable c] {s : State} {a b : State × β} (h : c → Kept s a.1)
    (k : ¬ c → Kept s b.1) : Kept s (if c then a else b).1 := by
  split
  · exact h ‹_›
  · exact k ‹_›

theorem Kept.iteSnd {β : Type} {c : Prop} [Decidable c] {s : State} {a b : β × State} (h : c → Kept s a.2)
    (k : ¬ c → Kept s b.2) : Kept s (if c then a else b).2 := by
  split
  · exact h ‹_›
  · exact k ‹_›

theorem Kept.getD {s : State} {o : Option State} (h : ∀ r, o = some r → Kept s r) : Kept s (o.getD s) := by
  cases o with
  | none => exact Kept.refl s
  | some r => exact h r rfl

theorem KeepsGoing.ite {c : Prop} [Decidable c] {s : State} {a b : Host.Outcome State Fault Refusal}
    (h : c → KeepsGoing s a) (k : ¬ c → KeepsGoing s b) : KeepsGoing s (if c then a else b) := by
  split
  · exact h ‹_›
  · exact k ‹_›

theorem Kept.optSome {s t : State} (h : Kept s t) : ∀ r, some t = some r → Kept s r := by
  rintro r ⟨⟩
  exact h

theorem Kept.optNone {s : State} : ∀ r, none = some r → Kept s r := by
  rintro r ⟨⟩

theorem Kept.optIte {c : Prop} [Decidable c] {s : State} {a b : Option State} (h : c → ∀ r, a = some r → Kept s r)
    (k : ¬ c → ∀ r, b = some r → Kept s r) : ∀ r, (if c then a else b) = some r → Kept s r := by
  split
  · exact h ‹_›
  · exact k ‹_›

theorem KeepsGoing.trans {r s : State} {o : Host.Outcome State Fault Refusal} (h : Kept r s) (k : KeepsGoing s o) :
    KeepsGoing r o := by
  obtain ⟨t, e, k⟩ := k
  exact ⟨t, e, h.trans k⟩

theorem KeepsGoing.next {s t : State} (h : Kept s t) : KeepsGoing s (.next t) := ⟨t, rfl, h⟩

/-- A change that leaves the sessions and the queue alone. -/
theorem Gysol.ok_same {g h : Gysol} (a : h.sessions = g.sessions) (b : h.queue = g.queue) (o : g.Ok) : h.Ok := by
  unfold Gysol.Ok
  rw [a, b]
  exact o

/-! ## Updates of one field -/

theorem kept_modWallOff (f : Int → Int) (s : State) : Kept s (s.modWallOff f) :=
  ⟨rfl, le_refl _, List.prefix_refl _, fun o => ⟨o.hbm, o.dict, o.xrds, o.gysol⟩⟩

theorem kept_modWallRun (f : Bool → Bool) (s : State) : Kept s (s.modWallRun f) :=
  ⟨rfl, le_refl _, List.prefix_refl _, fun o => ⟨o.hbm, o.dict, o.xrds, o.gysol⟩⟩

theorem kept_modFreeCtr (f : Nat → Nat) (s : State) : Kept s (s.modFreeCtr f) :=
  ⟨rfl, le_refl _, List.prefix_refl _, fun o => ⟨o.hbm, o.dict, o.xrds, o.gysol⟩⟩

theorem kept_modDict {f : Dict → Dict} (h : ∀ x, x.Ok → (f x).Ok) (s : State) : Kept s (s.modDict f) :=
  ⟨rfl, le_refl _, List.prefix_refl _, fun o => ⟨o.hbm, h _ o.dict, o.xrds, o.gysol⟩⟩

theorem kept_modUnits (f : (List (Nat × UnitRec)) → (List (Nat × UnitRec))) (s : State) : Kept s (s.modUnits f) :=
  ⟨rfl, le_refl _, List.prefix_refl _, fun o => ⟨o.hbm, o.dict, o.xrds, o.gysol⟩⟩

theorem kept_modXrds {f : Xrds → Xrds} (h : ∀ x, x.Ok → (f x).Ok) (s : State) : Kept s (s.modXrds f) :=
  ⟨rfl, le_refl _, List.prefix_refl _, fun o => ⟨o.hbm, o.dict, h _ o.xrds, o.gysol⟩⟩

theorem kept_modGysol {f : Gysol → Gysol} (h : ∀ x, x.Ok → (f x).Ok) (s : State) : Kept s (s.modGysol f) :=
  ⟨rfl, le_refl _, List.prefix_refl _, fun o => ⟨o.hbm, o.dict, o.xrds, h _ o.gysol⟩⟩

theorem kept_modMews (f : Mews → Mews) (s : State) : Kept s (s.modMews f) :=
  ⟨rfl, le_refl _, List.prefix_refl _, fun o => ⟨o.hbm, o.dict, o.xrds, o.gysol⟩⟩

theorem kept_modClks (f : Clks → Clks) (s : State) : Kept s (s.modClks f) :=
  ⟨rfl, le_refl _, List.prefix_refl _, fun o => ⟨o.hbm, o.dict, o.xrds, o.gysol⟩⟩

theorem kept_modFirm (f : Firm → Firm) (s : State) : Kept s (s.modFirm f) :=
  ⟨rfl, le_refl _, List.prefix_refl _, fun o => ⟨o.hbm, o.dict, o.xrds, o.gysol⟩⟩

theorem kept_modIngs (f : Ings → Ings) (s : State) : Kept s (s.modIngs f) :=
  ⟨rfl, le_refl _, List.prefix_refl _, fun o => ⟨o.hbm, o.dict, o.xrds, o.gysol⟩⟩

theorem kept_modHbm {f : Hbm → Hbm} (h : ∀ x, x.Ok → (f x).Ok) (s : State) : Kept s (s.modHbm f) :=
  ⟨rfl, le_refl _, List.prefix_refl _, fun o => ⟨h _ o.hbm, o.dict, o.xrds, o.gysol⟩⟩

theorem kept_modCurg (f : Curg → Curg) (s : State) : Kept s (s.modCurg f) :=
  ⟨rfl, le_refl _, List.prefix_refl _, fun o => ⟨o.hbm, o.dict, o.xrds, o.gysol⟩⟩

theorem kept_modPlaz (f : Plaz → Plaz) (s : State) : Kept s (s.modPlaz f) :=
  ⟨rfl, le_refl _, List.prefix_refl _, fun o => ⟨o.hbm, o.dict, o.xrds, o.gysol⟩⟩

theorem kept_modSeqr (f : Seqr → Seqr) (s : State) : Kept s (s.modSeqr f) :=
  ⟨rfl, le_refl _, List.prefix_refl _, fun o => ⟨o.hbm, o.dict, o.xrds, o.gysol⟩⟩

theorem kept_modUane (f : Uane → Uane) (s : State) : Kept s (s.modUane f) :=
  ⟨rfl, le_refl _, List.prefix_refl _, fun o => ⟨o.hbm, o.dict, o.xrds, o.gysol⟩⟩

theorem kept_modWallTrim (f : Int → Int) (s : State) : Kept s (s.modWallTrim f) :=
  ⟨rfl, le_refl _, List.prefix_refl _, fun o => ⟨o.hbm, o.dict, o.xrds, o.gysol⟩⟩

theorem kept_modWallFrac (f : Nat → Nat) (s : State) : Kept s (s.modWallFrac f) :=
  ⟨rfl, le_refl _, List.prefix_refl _, fun o => ⟨o.hbm, o.dict, o.xrds, o.gysol⟩⟩

theorem kept_modCoh (f : Wall → Wall) (s : State) : Kept s (s.modCoh f) :=
  ⟨rfl, le_refl _, List.prefix_refl _, fun o => ⟨o.hbm, o.dict, o.xrds, o.gysol⟩⟩

theorem kept_modColr (f : (List CGroup) → (List CGroup)) (s : State) : Kept s (s.modColr f) :=
  ⟨rfl, le_refl _, List.prefix_refl _, fun o => ⟨o.hbm, o.dict, o.xrds, o.gysol⟩⟩

theorem kept_modPlgn (f : Plgn → Plgn) (s : State) : Kept s (s.modPlgn f) :=
  ⟨rfl, le_refl _, List.prefix_refl _, fun o => ⟨o.hbm, o.dict, o.xrds, o.gysol⟩⟩

theorem kept_modArcd (f : Arcd → Arcd) (s : State) : Kept s (s.modArcd f) :=
  ⟨rfl, le_refl _, List.prefix_refl _, fun o => ⟨o.hbm, o.dict, o.xrds, o.gysol⟩⟩

theorem kept_modLoop (f : Loop → Loop) (s : State) : Kept s (s.modLoop f) :=
  ⟨rfl, le_refl _, List.prefix_refl _, fun o => ⟨o.hbm, o.dict, o.xrds, o.gysol⟩⟩

theorem kept_modLamp (f : Lamp → Lamp) (s : State) : Kept s (s.modLamp f) :=
  ⟨rfl, le_refl _, List.prefix_refl _, fun o => ⟨o.hbm, o.dict, o.xrds, o.gysol⟩⟩

theorem kept_modWhel (f : (List Wheel) → (List Wheel)) (s : State) : Kept s (s.modWhel f) :=
  ⟨rfl, le_refl _, List.prefix_refl _, fun o => ⟨o.hbm, o.dict, o.xrds, o.gysol⟩⟩

theorem kept_modTherm (f : Therm → Therm) (s : State) : Kept s (s.modTherm f) :=
  ⟨rfl, le_refl _, List.prefix_refl _, fun o => ⟨o.hbm, o.dict, o.xrds, o.gysol⟩⟩

theorem kept_modTap (f : Tap → Tap) (s : State) : Kept s (s.modTap f) :=
  ⟨rfl, le_refl _, List.prefix_refl _, fun o => ⟨o.hbm, o.dict, o.xrds, o.gysol⟩⟩

theorem kept_emits (os : List Out) (s : State) : Kept s (s.emits os) :=
  ⟨rfl, le_refl _, List.prefix_append _ _, fun o => ⟨o.hbm, o.dict, o.xrds, o.gysol⟩⟩

theorem kept_emit (x : Out) (s : State) : Kept s (s.emit x) := kept_emits [x] s

end Sys2Proof.Machine
end

