-- ==== Sys2Proof/Laws/KeptCore.lean ====
section
/-! SUPPORT. Every operation stays within the bounds of Safety.lean: events, units, frame memory, ingest and overlays. -/

namespace Sys2Proof.Machine

/-! ## Machine/Ops.lean -/

theorem Xrds.ok_drain (fast : Bool) (dt : Nat) {x : Xrds} (h : x.Ok) : (x.drain fast dt).Ok := by
  refine ⟨?_, ?_⟩
  · simp only [Xrds.drain, logPut, List.length_drop]
    omega
  · simp only [Xrds.drain, List.length_drop]
    have := h.2
    omega

theorem Xrds.ok_record (o : Occ) {x : Xrds} (h : x.Ok) : (x.record o).Ok := by
  unfold Xrds.record
  dsimp only
  split
  · rename_i c
    refine ⟨h.1, ?_⟩
    simp only [List.length_append, List.length_singleton]
    simp only [Bool.or_eq_true, Bool.and_eq_true, decide_eq_true_eq] at c
    omega
  · exact h

theorem Gysol.ok_push (now : Nat) (r : EvRec) {g : Gysol} (h : g.Ok) : (g.push now r).Ok :=
  ⟨by simpa only [Gysol.push, List.length_map] using h.1, h.2⟩

theorem Dict.ok_set (obj sub : Nat) (v : Val) {d : Dict} (h : d.Ok) : (d.set obj sub v).Ok :=
  ⟨mapRising_set _ _ _ _ h.1, h.2⟩

theorem kept_captureTask (os : List Occ) (acc : State × List Occ × List Nat) (i : Nat) :
    Kept acc.1 (State.captureTask os acc i).1 := by
  unfold State.captureTask
  dsimp only
  split <;> exact kept_modXrds (by intro _ h; exact h) _

theorem kept_advance (t : Nat) (s : State) : Kept s (State.advance t s) := by
  refine ⟨rfl, Nat.le_add_right _ _, List.prefix_refl _, fun o => ⟨o.hbm, o.dict, ?_, o.gysol⟩⟩
  exact Xrds.ok_drain _ _ o.xrds

theorem kept_setVal (obj : Nat) (sub : Nat) (v : Val) (s : State) : Kept s (State.setVal obj sub v s) := by
  exact kept_modDict (fun _ h => Dict.ok_set _ _ _ h) _

theorem kept_setNum (obj : Nat) (sub : Nat) (n : Nat) (s : State) : Kept s (State.setNum obj sub n s) := by
  unfold State.setNum
  repeat' (first
    | with_reducible exact Kept.refl _ | with_reducible apply Kept.trans _ (kept_setVal ..))

theorem kept_drawn (s : State) : Kept s (State.drawn s) := by
  unfold State.drawn
  repeat' (first
    | with_reducible exact Kept.refl _ | with_reducible apply Kept.trans _ (kept_modFreeCtr ..))

theorem kept_captureRecord (s : State) (o : Occ) : Kept s (State.captureRecord s o) := by
  unfold State.captureRecord
  split
  · exact Kept.trans (kept_modGysol (fun _ h => Gysol.ok_push _ _ h) _) (kept_modXrds (fun _ h => Xrds.ok_record _ h) _)
  · exact Kept.refl _

theorem kept_countOn (i : Nat) (add : Nat) (s : State) : Kept s (State.countOn i add s).1 := by
  unfold State.countOn
  repeat' (first
    | with_reducible exact Kept.refl _ | with_reducible refine Kept.trans ?_ (kept_modXrds ?_ _) | exact (fun _ h => h))

theorem kept_captureCycle (os : List Occ) (s : State) : Kept s (State.captureCycle os s).1 := by
  have h : Kept s ((upTo 38).foldl (State.captureTask os) (os.foldl State.captureRecord s, [], [])).1 :=
    Kept.trans (Kept.foldl kept_captureRecord os s)
      (Kept.foldlFst (kept_captureTask os) (upTo 38) (os.foldl State.captureRecord s, [], []))
  unfold State.captureCycle
  dsimp only
  refine Kept.trans h (Kept.foldlPair (fun p x => ?_) (upTo 64) _ _)
  split
  · exact Kept.refl _
  · exact kept_countOn _ _ _

theorem kept_captureFor (n : Nat) (os : List Occ) (s : State) : Kept s (State.captureFor n os s) := by
  induction n generalizing os s with
  | zero => exact Kept.refl _
  | succ n ih =>
    cases os with
    | nil => exact Kept.refl _
    | cons o os =>
      unfold State.captureFor
      exact Kept.trans (kept_captureCycle _ _) (ih _ _)

theorem kept_raiseAll (os : List Occ) (s : State) : Kept s (State.raiseAll os s) := by
  unfold State.raiseAll
  repeat' (first
    | with_reducible exact Kept.refl _ | with_reducible apply Kept.trans _ (kept_captureFor ..))

theorem kept_raise (code : Nat) (inst : Nat) (data : Nat) (s : State) : Kept s (State.raise code inst data s) := by
  unfold State.raise
  repeat' (first
    | with_reducible exact Kept.refl _ | with_reducible apply Kept.trans _ (kept_raiseAll ..))

theorem kept_raiseAt (time : Nat) (code : Nat) (inst : Nat) (data : Nat) (s : State) : Kept s (State.raiseAt time code inst data s) := by
  unfold State.raiseAt
  repeat' (first
    | with_reducible exact Kept.refl _ | with_reducible apply Kept.trans _ (kept_raiseAll ..))

theorem kept_raiseLimited (rcd : Bool) (code : Nat) (inst : Nat) (data : Nat) (s : State) : Kept s (State.raiseLimited rcd code inst data s) := by
  unfold State.raiseLimited
  repeat' (first
    | with_reducible exact Kept.refl _ | with_reducible apply Kept.trans _ (kept_raiseAll ..))

theorem kept_takeLeaseOf (n : Nat) (s : State) : Kept s (State.takeLeaseOf n s) := by
  unfold State.takeLeaseOf
  repeat' (first
    | with_reducible exact Kept.refl _ | with_reducible apply Kept.trans _ (kept_modFirm ..))

theorem kept_dropLease (n : Nat) (s : State) : Kept s (State.dropLease n s) := by
  unfold State.dropLease
  repeat' (first
    | with_reducible exact Kept.refl _ | with_reducible apply Kept.trans _ (kept_modFirm ..))

/-! ## Machine/Units.lean -/

theorem kept_modUnit (w : Nat) (f : UnitRec → UnitRec) (s : State) : Kept s (State.modUnit w f s) := by
  unfold State.modUnit
  repeat' (first
    | with_reducible exact Kept.refl _ | with_reducible apply Kept.trans _ (kept_modUnits ..))

theorem kept_setObs (w : Nat) (v : Nat) (s : State) : Kept s (State.setObs w v s) := by
  unfold State.setObs
  repeat' (first
    | with_reducible exact Kept.refl _ | with_reducible refine Kept.ite (fun _ => ?_) (fun _ => ?_)
    | with_reducible apply Kept.trans _ (kept_modUnit ..))

theorem kept_setCmd (w : Nat) (v : Nat) (s : State) : Kept s (State.setCmd w v s) := by
  unfold State.setCmd
  repeat' (first
    | with_reducible exact Kept.refl _ | with_reducible apply Kept.trans _ (kept_modUnit ..))

theorem kept_disagreeExpiry (w : Nat) (period : Nat) (s : State) : Kept s (State.disagreeExpiry w period s) := by
  unfold State.disagreeExpiry
  repeat' (first
    | with_reducible exact Kept.refl _ | with_reducible refine Kept.ite (fun _ => ?_) (fun _ => ?_)
    | with_reducible apply Kept.trans _ (kept_modUnit ..))

theorem kept_forceDisagree (w : Nat) (s : State) : Kept s (State.forceDisagree w s) := by
  unfold State.forceDisagree
  repeat' (first
    | with_reducible exact Kept.refl _ | with_reducible refine Kept.ite (fun _ => ?_) (fun _ => ?_)
    | with_reducible apply Kept.trans _ (kept_modUnit ..))

theorem kept_recommand (old s : State) : Kept s (State.recommand old s) := by
  unfold State.recommand
  exact kept_modUnits _ _

theorem kept_disagreeEvent (w : Nat) (s : State) : Kept s (State.disagreeEvent w s) := by
  unfold State.disagreeEvent
  repeat' (first
    | with_reducible exact Kept.refl _ | with_reducible refine Kept.ite (fun _ => ?_) (fun _ => ?_)
    | with_reducible apply Kept.trans _ (kept_raise ..) | with_reducible apply Kept.trans _ (kept_modUnit ..))

theorem kept_holdCmd (w : Nat) (v : Nat) (s : State) : Kept s (State.holdCmd w v s) := by
  unfold State.holdCmd
  repeat' (first
    | with_reducible exact Kept.refl _ | with_reducible apply Kept.trans _ (kept_modUnit ..))

/-! ## Machine/Hbm.lean -/

theorem Hbm.ok_of {h k : Hbm} (a : k.words = h.words) (b : k.raw = h.raw) (o : h.Ok) : k.Ok := by
  unfold Hbm.Ok
  rw [a, b]
  exact o

theorem Hbm.ok_foldl {α : Type} {f : Hbm → α → Hbm} (k : ∀ h x, h.Ok → (f h x).Ok) (l : List α) {h : Hbm}
    (o : h.Ok) : (l.foldl f h).Ok := by
  induction l generalizing h with
  | nil => exact o
  | cons a l ih => exact ih (k h a o)

theorem Hbm.ok_wrote (w : Nat) (v : MemWord) {h : Hbm} (o : h.Ok) : (h.wrote w v).Ok := o

theorem Hbm.ok_putRaw (w : Nat) (v : MemWord) {h : Hbm} (o : h.Ok) : (h.putRaw w v).Ok := by
  unfold Hbm.putRaw
  dsimp only
  split
  · exact o
  · exact ⟨o.1, mapRising_set _ _ _ _ o.2.1, mapSet_listed _ _ _ _ o.2.2⟩

theorem Hbm.ok_putWord (k : Nat) (w : MemWord) {h : Hbm} (o : h.Ok) : (h.putWord k w).Ok := by
  have p : ∀ h' : Hbm, h'.Ok → { h' with words := mapSet 0 h'.words k w }.Ok := fun h' o =>
    ⟨⟨mapRising_set _ _ _ _ o.1.1, mapSet_listed _ _ _ _ o.1.2⟩, o.2⟩
  unfold Hbm.putWord
  dsimp only
  split
  · exact p h o
  · split
    · exact o
    · exact p _ (Hbm.ok_wrote _ w o)

theorem Hbm.ok_putAt (w : Nat) (v : MemWord) {h : Hbm} (o : h.Ok) : (h.putAt w v).Ok := by
  unfold Hbm.putAt
  split
  · exact Hbm.ok_putWord _ _ o
  · exact Hbm.ok_putRaw _ _ o

theorem Hbm.ok_putPixel (owner buf epoch i px : Nat) {h : Hbm} (o : h.Ok) : (h.putPixel owner buf epoch i px).Ok := by
  unfold Hbm.putPixel
  exact Hbm.ok_putWord _ _ o

theorem Hbm.ok_putPixels (owner buf epoch i : Nat) (ps : List Nat) {h : Hbm} (o : h.Ok) :
    (h.putPixels owner buf epoch i ps).Ok := by
  induction ps generalizing i h with
  | nil => unfold Hbm.putPixels; exact o
  | cons p ps ih => unfold Hbm.putPixels; exact ih (i + 1) (Hbm.ok_putPixel owner buf epoch i p o)

theorem Hbm.ok_words (p : Nat × MemWord → Bool) {h : Hbm} (o : h.Ok) : { h with words := h.words.filter p }.Ok :=
  ⟨⟨mapRising_filter _ _ o.1.1, fun e m => o.1.2 e (List.mem_filter.1 m).1⟩, o.2⟩

theorem Hbm.ok_wiped (a b : Nat) {h : Hbm} (o : h.Ok) : (h.wiped a b).Ok := o

theorem Hbm.ok_zeroBuf (owner buf : Nat) {h : Hbm} (o : h.Ok) : (h.zeroBuf owner buf).Ok := by
  unfold Hbm.zeroBuf
  refine Hbm.ok_words _ ?_
  split
  · exact Hbm.ok_wiped _ _ o
  · exact o

theorem Hbm.ok_zeroOwner (owner : Nat) {h : Hbm} (o : h.Ok) : (h.zeroOwner owner).Ok := by
  unfold Hbm.zeroOwner
  refine Hbm.ok_words _ ?_
  split
  · exact Hbm.ok_wiped _ _ o
  · exact o

theorem Hbm.ok_unshadow (i : Nat) (x : Shadow) {h : Hbm} (o : h.Ok) : (h.unshadow i x).Ok := by
  unfold Hbm.unshadow
  refine Hbm.ok_foldl (fun h c k => ?_) _ (h := { h with shadows := setAt h.shadows i none }) o
  dsimp only
  split
  · exact Hbm.ok_of rfl rfl (Hbm.ok_putAt _ _ k)
  · exact Hbm.ok_putAt _ _ k

theorem Hbm.ok_fitted (quick : Bool) (fits : List (Nat × LaneFit)) {h : Hbm} (o : h.Ok) : (h.fitted quick fits).Ok := by
  unfold Hbm.fitted
  refine Hbm.ok_foldl (fun _ _ k => ?_) _ o
  exact k

theorem Hbm.ok_serve (n i : Nat) {h : Hbm} (o : h.Ok) : (h.serve n i).Ok := by
  unfold Hbm.serve
  dsimp only
  split
  · exact o
  · split
    · exact Hbm.ok_putAt _ _ (Hbm.ok_of rfl rfl o)
    · exact o

theorem Hbm.ok_enter (now : Nat) (r : HbmRequest) {h : Hbm} (o : h.Ok) : (h.enter now r).Ok := by
  unfold Hbm.enter
  split
  · exact o
  · refine Hbm.ok_foldl (fun h x k => ?_) _ o
    dsimp only
    split
    · exact k
    · unfold Hbm.overrule
      split <;> exact k

theorem kept_hbmLevels (n : Nat) (level : Nat) (levelW : Nat) (s : State) : Kept s (State.hbmLevels n level levelW s) := by
  unfold State.hbmLevels
  repeat' (first
    | with_reducible exact Kept.refl _ | with_reducible refine Kept.ite (fun _ => ?_) (fun _ => ?_)
    | with_reducible refine Kept.trans ?_ (kept_modHbm ?_ _) | with_reducible apply Kept.trans _ (kept_raise ..)
    | exact (fun _ h => h))

theorem kept_shadowRow (r : HRow) (s : State) : Kept s (State.shadowRow r s) := by
  unfold State.shadowRow
  repeat' (first
    | with_reducible exact Kept.refl _ | with_reducible refine Kept.ite (fun _ => ?_) (fun _ => ?_)
    | with_reducible refine Kept.trans ?_ (kept_modHbm ?_ _) | with_reducible apply Kept.trans _ (kept_raise ..)
    | exact (fun _ h => h) | split)

theorem kept_hbmCorrected (a : Nat) (s : State) : Kept s (State.hbmCorrected a s) := by
  unfold State.hbmCorrected
  repeat' (first
    | with_reducible exact Kept.refl _ | with_reducible refine Kept.ite (fun _ => ?_) (fun _ => ?_)
    | with_reducible refine Kept.trans ?_ (kept_modHbm ?_ _) | with_reducible apply Kept.trans _ (kept_raise ..)
    | with_reducible apply Kept.trans _ (kept_shadowRow ..) | exact (fun _ h => h))

theorem kept_hbmUncorrectable (a : Nat) (s : State) : Kept s (State.hbmUncorrectable a s) := by
  unfold State.hbmUncorrectable
  repeat' (first
    | with_reducible exact Kept.refl _ | with_reducible refine Kept.trans ?_ (kept_modHbm ?_ _)
    | with_reducible apply Kept.trans _ (kept_shadowRow ..) | with_reducible apply Kept.trans _ (kept_raiseLimited ..)
    | exact (fun _ h => h))

theorem kept_hbmSeverity (a : Nat) (sev : Nat) (s : State) : Kept s (State.hbmSeverity a sev s) := by
  unfold State.hbmSeverity
  repeat' (first
    | with_reducible exact Kept.refl _ | with_reducible refine Kept.ite (fun _ => ?_) (fun _ => ?_)
    | with_reducible apply Kept.trans _ (kept_hbmCorrected ..) | with_reducible apply Kept.trans _ (kept_hbmUncorrectable ..)
    | split)

theorem kept_fuseShadow (s : State) (i : Nat) : Kept s (State.fuseShadow s i) := by
  unfold State.fuseShadow
  split
  · exact Kept.refl _
  · refine Kept.ite (fun _ => Kept.trans (kept_modHbm (fun h o => ?_) _) (kept_raise ..)) (fun _ => kept_raise ..)
    exact Hbm.ok_of rfl rfl (Hbm.ok_unshadow i _ o)

theorem kept_hbmSelfRefresh (approved : HRow → Bool) (s : State) : Kept s (State.hbmSelfRefresh approved s) := by
  unfold State.hbmSelfRefresh
  repeat' (first
    | with_reducible exact Kept.refl _ | with_reducible refine Kept.ite (fun _ => ?_) (fun _ => ?_)
    | with_reducible apply Kept.trans _ (kept_raise ..) | with_reducible refine Kept.trans ?_ (kept_modHbm ?_ _)
    | with_reducible apply Kept.trans _ (kept_fuseShadow ..) | with_reducible refine Kept.trans ?_ (Kept.foldl ?_ _ _)
    | exact (fun _ h => h) | intro _)

theorem kept_hbmExitRefresh (s : State) : Kept s (State.hbmExitRefresh s) := by
  unfold State.hbmExitRefresh
  repeat' (first
    | with_reducible exact Kept.refl _ | with_reducible refine Kept.ite (fun _ => ?_) (fun _ => ?_)
    | with_reducible apply Kept.trans _ (kept_raise ..) | with_reducible apply Kept.trans _ (kept_takeLeaseOf ..)
    | with_reducible refine Kept.trans ?_ (kept_modHbm ?_ _) | exact (fun _ h => h))

theorem kept_hbmRetrain (ch : Nat) (s : State) : Kept s (State.hbmRetrain ch s) := by
  unfold State.hbmRetrain
  repeat' (first
    | with_reducible exact Kept.refl _ | with_reducible refine Kept.ite (fun _ => ?_) (fun _ => ?_)
    | with_reducible refine Kept.trans ?_ (kept_modHbm ?_ _) | exact (fun _ h => h))

theorem kept_hbmReplay (ch : Nat) (pc : Nat) (kind : Nat) (n : Nat) (onReplay : Bool) (s : State) : Kept s (State.hbmReplay ch pc kind n onReplay s) := by
  unfold State.hbmReplay
  repeat' (first
    | with_reducible exact Kept.refl _ | with_reducible refine Kept.ite (fun _ => ?_) (fun _ => ?_)
    | with_reducible apply Kept.trans _ (kept_raiseLimited ..) | with_reducible refine Kept.trans ?_ (kept_modHbm ?_ _)
    | with_reducible apply Kept.trans _ (kept_hbmRetrain ..) | exact (fun _ h => h))

theorem kept_hbmTimeout (port : Nat) (ch : Nat) (s : State) : Kept s (State.hbmTimeout port ch s) := by
  unfold State.hbmTimeout
  repeat' (first
    | with_reducible exact Kept.refl _ | with_reducible refine Kept.ite (fun _ => ?_) (fun _ => ?_)
    | with_reducible apply Kept.trans _ (kept_raise ..) | with_reducible refine Kept.trans ?_ (kept_modHbm ?_ _)
    | with_reducible apply Kept.trans _ (kept_hbmRetrain ..) | exact (fun _ h => h))

theorem kept_hbmRetrainDone (ch : Nat) (step : Nat) (ok : Bool) (s : State) : Kept s (State.hbmRetrainDone ch step ok s) := by
  unfold State.hbmRetrainDone
  repeat' (first
    | with_reducible exact Kept.refl _ | with_reducible refine Kept.ite (fun _ => ?_) (fun _ => ?_)
    | with_reducible refine Kept.trans ?_ (kept_modHbm ?_ _) | with_reducible apply Kept.trans _ (kept_raise ..)
    | exact (fun _ h => h))

theorem kept_hbmLaneRepair (s : State) (r : Nat × Nat × Nat) : Kept s (State.hbmLaneRepair s r) := by
  unfold State.hbmLaneRepair
  repeat' (first
    | with_reducible exact Kept.refl _ | with_reducible apply Kept.trans _ (kept_raise ..)
    | with_reducible refine Kept.trans ?_ (kept_modHbm ?_ _) | exact (fun _ h => h))

theorem kept_hbmTrainingDone (ok : Bool) (ch : Nat) (step : Nat) (repairs : List (Nat × Nat × Nat)) (fits : List (Nat × LaneFit)) (s : State) : Kept s (State.hbmTrainingDone ok ch step repairs fits s) := by
  unfold State.hbmTrainingDone
  refine Kept.ite (fun _ => Kept.refl _) (fun _ => ?_)
  extract_lets s1 st
  have k : Kept s s1 := Kept.foldl kept_hbmLaneRepair _ _
  clear_value s1
  refine Kept.ite (fun _ => ?_) (fun _ => Kept.ite (fun _ => ?_) (fun _ => ?_))
  · refine Kept.trans (Kept.trans k (kept_modHbm (fun h o => ?_) _)) (kept_dropLease _ _)
    exact Hbm.ok_of rfl rfl (Hbm.ok_fitted (h.training = 2) fits o)
  · refine Kept.trans k (kept_modHbm (fun h o => ?_) _)
    exact o
  · refine Kept.trans (Kept.trans (Kept.trans k (kept_modHbm (fun h o => ?_) _)) (kept_dropLease _ _)) (kept_raise ..)
    exact o

theorem kept_hbmTrain (kind : Nat) (s : State) : Kept s (State.hbmTrain kind s) := by
  unfold State.hbmTrain
  repeat' (first
    | with_reducible exact Kept.refl _ | with_reducible apply Kept.trans _ (kept_takeLeaseOf ..)
    | with_reducible refine Kept.trans ?_ (kept_modHbm ?_ _) | exact (fun _ h => h))

theorem kept_hbmTurn (p : Nat) (pass : Bool) (s : State) : Kept s (State.hbmTurn p pass s) := by
  unfold State.hbmTurn
  split
  · refine kept_modHbm (fun h o => ?_) _
    exact o
  · refine kept_modHbm (fun h o => ?_) _
    exact o
  · exact kept_modHbm (fun h o => Hbm.ok_serve _ _ o) _
  · exact Kept.refl _
  · exact Kept.refl _
  · exact Kept.refl _

theorem kept_creditGrow (s : State) : Kept s (State.creditGrow s) := by
  unfold State.creditGrow
  repeat' (first
    | with_reducible exact Kept.refl _ | with_reducible refine Kept.trans ?_ (kept_modHbm ?_ _) | exact (fun _ h => h))

theorem kept_portLevels (s : State) : Kept s (State.portLevels s) := by
  unfold State.portLevels
  repeat' (first
    | with_reducible exact Kept.refl _ | with_reducible refine Kept.ite (fun _ => ?_) (fun _ => ?_)
    | with_reducible apply Kept.trans _ (kept_hbmLevels ..) | with_reducible refine Kept.trans ?_ (Kept.foldl ?_ _ _) | intro _)

theorem kept_hbmTraffic (io : HbmTraffic) (s : State) : Kept s (State.hbmTraffic io s) := by
  unfold State.hbmTraffic
  extract_lets s1 s2
  have k1 : Kept s s1 :=
    Kept.trans (kept_creditGrow s) (kept_modHbm (fun _ o => Hbm.ok_foldl (fun _ _ k => Hbm.ok_enter _ _ k) _ o) _)
  have k2 : Kept s1 s2 := Kept.foldl (fun _ _ => kept_hbmTurn ..) _ _
  refine Kept.trans (Kept.trans k1 k2) (kept_modHbm (fun _ o => Hbm.ok_foldl (fun _ _ k => ?_) _ o) _)
  split <;> exact k

theorem kept_execHbmTrainingDone (t : Nat) (ok : Bool) (chan : Nat) (step : Nat) (repairs : List (Nat × Nat × Nat)) (fits : List (Nat × LaneFit)) (s : State) : KeepsGoing s (execHbmTrainingDone t ok chan step repairs fits s) := by
  unfold execHbmTrainingDone
  repeat' (first
    | with_reducible exact Kept.refl _ | with_reducible apply KeepsGoing.next
    | with_reducible apply Kept.trans _ (kept_hbmTrainingDone ..) | with_reducible apply Kept.trans _ (kept_advance ..))

theorem kept_execRowShadowCopyDone (t : Nat) (shadow : Nat) (s : State) : KeepsGoing s (execRowShadowCopyDone t shadow s) := by
  unfold execRowShadowCopyDone
  repeat' (first
    | with_reducible exact Kept.refl _ | with_reducible refine KeepsGoing.ite (fun _ => ?_) (fun _ => ?_)
    | with_reducible apply KeepsGoing.next | with_reducible apply Kept.trans _ (kept_advance ..)
    | with_reducible apply Kept.trans _ (kept_raise ..) | with_reducible refine Kept.trans ?_ (kept_modHbm ?_ _)
    | exact (fun _ h => h) | dsimp only | split)

theorem kept_execHbmcParityReplay (t : Nat) (chan : Nat) (pc : Nat) (kind : Nat) (replayed : Nat) (onReplay : Bool) (s : State) : KeepsGoing s (execHbmcParityReplay t chan pc kind replayed onReplay s) := by
  unfold execHbmcParityReplay
  repeat' (first
    | with_reducible exact Kept.refl _ | with_reducible apply KeepsGoing.next
    | with_reducible apply Kept.trans _ (kept_hbmReplay ..) | with_reducible apply Kept.trans _ (kept_advance ..))

theorem kept_execHbmRetrainDone (t : Nat) (chan : Nat) (step : Nat) (ok : Bool) (s : State) : KeepsGoing s (execHbmRetrainDone t chan step ok s) := by
  unfold execHbmRetrainDone
  repeat' (first
    | with_reducible exact Kept.refl _ | with_reducible apply KeepsGoing.next
    | with_reducible apply Kept.trans _ (kept_hbmRetrainDone ..) | with_reducible apply Kept.trans _ (kept_advance ..))

theorem kept_execHbmScrubPass (t : Nat) (severity : Nat) (s : State) : KeepsGoing s (execHbmScrubPass t severity s) := by
  unfold execHbmScrubPass
  repeat' (first
    | with_reducible exact Kept.refl _ | with_reducible refine KeepsGoing.ite (fun _ => ?_) (fun _ => ?_)
    | with_reducible apply KeepsGoing.next | with_reducible apply Kept.trans _ (kept_advance ..)
    | with_reducible refine Kept.trans ?_ (kept_modHbm ?_ _) | with_reducible apply Kept.trans _ (kept_hbmSeverity ..)
    | exact (fun _ h => h))

theorem kept_execHbmDriftTrack (t : Nat) (chan : Nat) (look : DriftLook) (s : State) : KeepsGoing s (execHbmDriftTrack t chan look s) := by
  unfold execHbmDriftTrack
  repeat' (first
    | with_reducible exact Kept.refl _ | with_reducible refine KeepsGoing.ite (fun _ => ?_) (fun _ => ?_)
    | with_reducible apply KeepsGoing.next | with_reducible apply Kept.trans _ (kept_advance ..)
    | with_reducible refine Kept.trans ?_ (kept_modHbm ?_ _) | exact (fun _ h => h))

theorem kept_execHbmRefresh (t : Nat) (pseudo : Nat) (postpone : Bool) (s : State) : KeepsGoing s (execHbmRefresh t pseudo postpone s) := by
  unfold execHbmRefresh
  repeat' (first
    | with_reducible exact Kept.refl _ | with_reducible apply KeepsGoing.next
    | with_reducible apply Kept.trans _ (kept_advance ..) | with_reducible refine Kept.trans ?_ (kept_modHbm ?_ _)
    | exact (fun _ h => h))

theorem kept_execHbmStackTempRead (t : Nat) (stack : Nat) (temp : Int) (s : State) : KeepsGoing s (execHbmStackTempRead t stack temp s) := by
  unfold execHbmStackTempRead
  repeat' (first
    | with_reducible exact Kept.refl _ | with_reducible refine Kept.ite (fun _ => ?_) (fun _ => ?_)
    | with_reducible apply KeepsGoing.next | with_reducible apply Kept.trans _ (kept_advance ..)
    | with_reducible refine Kept.trans ?_ (kept_modHbm ?_ _) | with_reducible apply Kept.trans _ (kept_raise ..)
    | exact (fun _ h => h))

theorem kept_execHbmRowTrackerExpiry (t : Nat) (stack : Nat) (entry : Nat) (s : State) : KeepsGoing s (execHbmRowTrackerExpiry t stack entry s) := by
  unfold execHbmRowTrackerExpiry
  repeat' (first
    | with_reducible exact Kept.refl _ | with_reducible apply KeepsGoing.next
    | with_reducible apply Kept.trans _ (kept_advance ..) | with_reducible refine Kept.trans ?_ (kept_modHbm ?_ _)
    | exact (fun _ h => h))

/-! ## Machine/Ingest.lean -/

theorem Hbm.ok_zeroSlots (owner buf epoch i : Nat) {h : Hbm} (o : h.Ok) : (h.zeroSlots owner buf epoch i).Ok := by
  unfold Hbm.zeroSlots
  split
  · exact o
  · exact Hbm.ok_putPixels _ _ _ _ _ o

theorem kept_modPort (n : Nat) (f : DpPort → DpPort) (s : State) : Kept s (State.modPort n f s) := by
  unfold State.modPort
  repeat' (first
    | with_reducible exact Kept.refl _ | with_reducible apply Kept.trans _ (kept_modIngs ..))

theorem kept_modLayer (n : Nat) (f : VLayer → VLayer) (s : State) : Kept s (State.modLayer n f s) := by
  unfold State.modLayer
  repeat' (first
    | with_reducible exact Kept.refl _ | with_reducible apply Kept.trans _ (kept_modIngs ..))

theorem kept_takeNext (n : Nat) (s : State) : Kept s (State.takeNext n s) := by
  unfold State.takeNext
  repeat' (first
    | with_reducible exact Kept.refl _ | with_reducible apply Kept.trans _ (kept_modLayer ..))

theorem kept_leaveStatic (n : Nat) (s : State) : Kept s (State.leaveStatic n s) := by
  unfold State.leaveStatic
  repeat' (first
    | with_reducible exact Kept.refl _ | with_reducible refine Kept.ite (fun _ => ?_) (fun _ => ?_)
    | with_reducible apply Kept.trans _ (kept_raise ..) | with_reducible apply Kept.trans _ (kept_modLayer ..))

theorem kept_discardWriting (s : State) (n : Nat) : Kept s (State.discardWriting s n) := by
  unfold State.discardWriting
  repeat' (first
    | with_reducible exact Kept.refl _ | with_reducible apply Kept.trans _ (kept_modLayer ..) | split)

theorem kept_discardFinishing (s : State) (n : Nat) : Kept s (State.discardFinishing s n) := by
  unfold State.discardFinishing
  repeat' (first
    | with_reducible exact Kept.refl _ | with_reducible apply Kept.trans _ (kept_modLayer ..))

theorem kept_discardBoth (s : State) (n : Nat) : Kept s (State.discardBoth s n) := by
  unfold State.discardBoth
  repeat' (first
    | with_reducible exact Kept.refl _ | with_reducible apply Kept.trans _ (kept_discardFinishing ..)
    | with_reducible apply Kept.trans _ (kept_discardWriting ..))

theorem kept_dropFrame (cause : Nat) (n : Nat) (s : State) : Kept s (State.dropFrame cause n s) := by
  unfold State.dropFrame
  repeat' (first
    | with_reducible exact Kept.refl _ | with_reducible apply Kept.trans _ (kept_raise ..)
    | with_reducible apply Kept.trans _ (kept_modLayer ..))

theorem kept_discardLayer (n : Nat) (s : State) : Kept s (State.discardLayer n s) := by
  unfold State.discardLayer
  refine Kept.trans (kept_modLayer ..) (kept_modHbm (fun _ h => ?_) _)
  exact Hbm.ok_zeroOwner _ h

theorem kept_abortPort (port : Nat) (s : State) : Kept s (State.abortPort port s) := by
  unfold State.abortPort
  repeat' (first
    | with_reducible exact Kept.refl _ | with_reducible apply Kept.trans _ (kept_discardBoth ..)
    | with_reducible apply Kept.trans _ (kept_leaveStatic ..) | with_reducible apply Kept.trans _ (kept_modPort ..)
    | with_reducible refine Kept.trans ?_ (Kept.foldl ?_ _ _) | intro _)

theorem kept_assertHpd (port : Nat) (s : State) : Kept s (State.assertHpd port s) := by
  unfold State.assertHpd
  repeat' (first
    | with_reducible exact Kept.refl _ | with_reducible apply Kept.trans _ (kept_emit ..)
    | with_reducible apply Kept.trans _ (kept_setObs ..) | with_reducible apply Kept.trans _ (kept_modPort ..))

theorem kept_dropHpd (port : Nat) (back : Option Nat) (s : State) : Kept s (State.dropHpd port back s) := by
  unfold State.dropHpd
  repeat' (first
    | with_reducible exact Kept.refl _ | with_reducible refine Kept.ite (fun _ => ?_) (fun _ => ?_)
    | with_reducible apply Kept.trans _ (kept_emit ..) | with_reducible apply Kept.trans _ (kept_setObs ..)
    | with_reducible apply Kept.trans _ (kept_modPort ..) | with_reducible apply Kept.trans _ (kept_abortPort ..)
    | with_reducible apply Kept.trans _ (kept_raise ..))

theorem kept_updateHpd (s : State) (port : Nat) : Kept s (State.updateHpd s port) := by
  unfold State.updateHpd
  repeat' (first
    | with_reducible exact Kept.refl _ | with_reducible refine Kept.ite (fun _ => ?_) (fun _ => ?_)
    | with_reducible apply Kept.trans _ (kept_assertHpd ..) | with_reducible apply Kept.trans _ (kept_dropHpd ..))

theorem kept_checkFormat (port : Nat) (f : DpFormat) (s : State) : Kept s (State.checkFormat port f s) := by
  unfold State.checkFormat
  repeat' (first
    | with_reducible exact Kept.refl _ | with_reducible refine Kept.ite (fun _ => ?_) (fun _ => ?_)
    | with_reducible apply Kept.trans _ (kept_modPort ..) | with_reducible apply Kept.trans _ (kept_setObs ..)
    | with_reducible apply Kept.trans _ (kept_raise ..))

theorem kept_trainFails (port : Nat) (s : State) : Kept s (State.trainFails port s) := by
  unfold State.trainFails
  repeat' (first
    | with_reducible exact Kept.refl _ | with_reducible refine Kept.ite (fun _ => ?_) (fun _ => ?_)
    | with_reducible apply Kept.trans _ (kept_modPort ..))

theorem kept_linkUp (port : Nat) (rate : Nat) (lanes : Nat) (f : DpFormat) (s : State) : Kept s (State.linkUp port rate lanes f s) := by
  unfold State.linkUp
  repeat' (first
    | with_reducible exact Kept.refl _ | with_reducible refine Kept.ite (fun _ => ?_) (fun _ => ?_)
    | with_reducible apply Kept.trans _ (kept_trainFails ..) | with_reducible apply Kept.trans _ (kept_checkFormat ..)
    | with_reducible apply Kept.trans _ (kept_raise ..) | with_reducible apply Kept.trans _ (kept_modPort ..)
    | with_reducible apply Kept.trans _ (kept_abortPort ..))

theorem kept_lockLost (port : Nat) (s : State) : Kept s (State.lockLost port s) := by
  unfold State.lockLost
  repeat' (first
    | with_reducible exact Kept.refl _ | with_reducible refine Kept.ite (fun _ => ?_) (fun _ => ?_)
    | with_reducible apply Kept.trans _ (kept_emit ..) | with_reducible apply Kept.trans _ (kept_raise ..)
    | with_reducible apply Kept.trans _ (kept_setObs ..) | with_reducible apply Kept.trans _ (kept_modPort ..)
    | with_reducible apply Kept.trans _ (kept_abortPort ..))

theorem kept_retrainTimeout (port : Nat) (s : State) : Kept s (State.retrainTimeout port s) := by
  unfold State.retrainTimeout
  repeat' (first
    | with_reducible exact Kept.refl _ | with_reducible refine Kept.ite (fun _ => ?_) (fun _ => ?_)
    | with_reducible apply Kept.trans _ (kept_dropHpd ..) | split)

theorem kept_sdpError (port : Nat) (reason : Nat) (s : State) : Kept s (State.sdpError port reason s) := by
  unfold State.sdpError
  repeat' (first
    | with_reducible exact Kept.refl _ | with_reducible apply Kept.trans _ (kept_raise ..)
    | with_reducible apply Kept.trans _ (kept_modPort ..))

theorem kept_currencySdp (port : Nat) (b : Bytes) (s : State) : Kept s (State.currencySdp port b s) := by
  unfold State.currencySdp
  repeat' (first
    | with_reducible exact Kept.refl _ | with_reducible refine Kept.ite (fun _ => ?_) (fun _ => ?_)
    | with_reducible apply Kept.trans _ (kept_sdpError ..) | with_reducible apply Kept.trans _ (kept_modPort ..) | dsimp only
    | split)

theorem kept_setAside (s : State) (n : Nat) : Kept s (State.setAside s n) := by
  unfold State.setAside
  repeat' (first
    | with_reducible exact Kept.refl _ | with_reducible refine Kept.ite (fun _ => ?_) (fun _ => ?_)
    | with_reducible apply Kept.trans _ (kept_modLayer ..) | with_reducible apply Kept.trans _ (kept_discardWriting ..) | split)

theorem kept_frameBuffer (n : Nat) (s : State) : Kept s (State.frameBuffer n s) := by
  unfold State.frameBuffer
  repeat' (first
    | with_reducible exact Kept.refl _ | with_reducible refine Kept.ite (fun _ => ?_) (fun _ => ?_)
    | with_reducible apply Kept.trans _ (kept_takeNext ..))

theorem kept_layerFrameStart (port : Nat) (d : Option Sdp) (arrival : Nat) (s : State) (n : Nat) : Kept s (State.layerFrameStart port d arrival s n) := by
  unfold State.layerFrameStart
  repeat' (first
    | with_reducible exact Kept.refl _ | with_reducible refine Kept.ite (fun _ => ?_) (fun _ => ?_)
    | with_reducible apply Kept.trans _ (kept_frameBuffer ..) | with_reducible apply Kept.trans _ (kept_dropFrame ..)
    | with_reducible apply Kept.trans _ (kept_modLayer ..) | with_reducible apply Kept.trans _ (kept_raise ..) | dsimp only
    | split)

theorem kept_frameStart (port : Nat) (s : State) : Kept s (State.frameStart port s) := by
  unfold State.frameStart
  repeat' (first
    | with_reducible exact Kept.refl _ | with_reducible refine Kept.ite (fun _ => ?_) (fun _ => ?_)
    | with_reducible apply Kept.trans _ (kept_setAside ..) | with_reducible apply Kept.trans _ (kept_modPort ..)
    | with_reducible apply Kept.trans _ (kept_layerFrameStart ..) | with_reducible refine Kept.trans ?_ (Kept.foldl ?_ _ _)
    | intro _)

theorem kept_layerLine (row : Nat) (pxs : List Nat) (s : State) (n : Nat) : Kept s (State.layerLine row pxs s n) := by
  unfold State.layerLine
  repeat' (first
    | with_reducible exact Kept.refl _ | with_reducible refine Kept.ite (fun _ => ?_) (fun _ => ?_)
    | with_reducible apply Kept.trans _ (kept_modLayer ..) | with_reducible apply Kept.trans _ (kept_leaveStatic ..)
    | with_reducible refine Kept.trans ?_ (kept_modHbm ?_ _) | with_reducible exact (fun _ h => Hbm.ok_putPixels _ _ _ _ _ h)
    | dsimp only | split)

theorem kept_imageLine (port : Nat) (row : Nat) (f : DpFormat) (ls : LineSamples) (other : List Nat × List Nat) (s : State) : Kept s (State.imageLine port row f ls other s) := by
  unfold State.imageLine
  repeat' (first
    | with_reducible exact Kept.refl _ | with_reducible apply Kept.trans _ (kept_layerLine ..)
    | with_reducible refine Kept.trans ?_ (Kept.foldl ?_ _ _) | intro _)

theorem kept_heldLine (port : Nat) (f : DpFormat) (below : List Nat × List Nat) (s : State) : Kept s (State.heldLine port f below s) := by
  unfold State.heldLine
  repeat' (first
    | with_reducible exact Kept.refl _ | with_reducible apply Kept.trans _ (kept_imageLine ..)
    | with_reducible apply Kept.trans _ (kept_modPort ..) | split)

theorem kept_pairLine (port : Nat) (row : Nat) (f : DpFormat) (ls : LineSamples) (s : State) : Kept s (State.pairLine port row f ls s) := by
  unfold State.pairLine
  repeat' (first
    | with_reducible exact Kept.refl _ | with_reducible refine Kept.ite (fun _ => ?_) (fun _ => ?_)
    | with_reducible apply Kept.trans _ (kept_imageLine ..) | with_reducible apply Kept.trans _ (kept_modPort ..)
    | with_reducible apply Kept.trans _ (kept_heldLine ..))

theorem kept_lineReceived (port : Nat) (ls : LineSamples) (s : State) : Kept s (State.lineReceived port ls s) := by
  unfold State.lineReceived
  repeat' (first
    | with_reducible exact Kept.refl _ | with_reducible refine Kept.ite (fun _ => ?_) (fun _ => ?_)
    | with_reducible apply Kept.trans _ (kept_modPort ..) | with_reducible apply Kept.trans _ (kept_dropFrame ..)
    | with_reducible apply Kept.trans _ (kept_discardWriting ..) | with_reducible apply Kept.trans _ (kept_pairLine ..)
    | with_reducible apply Kept.trans _ (kept_imageLine ..) | with_reducible refine Kept.trans ?_ (Kept.foldl ?_ _ _) | intro _
    | dsimp only | split)

theorem kept_lineAccepted (n : Nat) (y : Nat) (s : State) : Kept s (State.lineAccepted n y s) := by
  unfold State.lineAccepted
  repeat' (first
    | with_reducible exact Kept.refl _ | with_reducible apply Kept.trans _ (kept_modLayer ..))

theorem kept_zeroTail (n : Nat) (s : State) : Kept s (State.zeroTail n s) := by
  unfold State.zeroTail
  repeat' (first
    | with_reducible exact Kept.refl _ | with_reducible refine Kept.trans ?_ (kept_modHbm ?_ _)
    | with_reducible exact (fun _ h => Hbm.ok_zeroSlots _ _ _ _ h) | dsimp only | split)

theorem kept_layerFrameEnd (lines : Nat) (height : Nat) (s : State) (n : Nat) : Kept s (State.layerFrameEnd lines height s n) := by
  unfold State.layerFrameEnd
  repeat' (first
    | with_reducible exact Kept.refl _ | with_reducible refine Kept.ite (fun _ => ?_) (fun _ => ?_)
    | with_reducible apply Kept.trans _ (kept_raise ..) | with_reducible apply Kept.trans _ (kept_modLayer ..)
    | with_reducible apply Kept.trans _ (kept_leaveStatic ..) | with_reducible apply Kept.trans _ (kept_discardWriting ..)
    | with_reducible apply Kept.trans _ (kept_zeroTail ..))

theorem kept_frameEnd (port : Nat) (s : State) : Kept s (State.frameEnd port s) := by
  unfold State.frameEnd
  repeat' (first
    | with_reducible exact Kept.refl _ | with_reducible refine Kept.ite (fun _ => ?_) (fun _ => ?_)
    | with_reducible apply Kept.trans _ (kept_heldLine ..) | with_reducible apply Kept.trans _ (kept_modPort ..)
    | with_reducible apply Kept.trans _ (kept_layerFrameEnd ..) | with_reducible refine Kept.trans ?_ (Kept.foldl ?_ _ _)
    | intro _ | dsimp only | split)

theorem kept_staticCopyDone (n : Nat) (ok : Bool) (s : State) : Kept s (State.staticCopyDone n ok s) := by
  unfold State.staticCopyDone
  repeat' (first
    | with_reducible exact Kept.refl _ | with_reducible refine Kept.ite (fun _ => ?_) (fun _ => ?_)
    | with_reducible apply Kept.trans _ (kept_dropFrame ..) | with_reducible apply Kept.trans _ (kept_discardFinishing ..)
    | with_reducible apply Kept.trans _ (kept_discardWriting ..) | with_reducible refine Kept.trans ?_ (kept_modHbm ?_ _)
    | with_reducible apply Kept.trans _ (kept_modLayer ..)
    | with_reducible exact (fun _ h => Hbm.ok_foldl (fun _ _ => Hbm.ok_putPixels _ _ _ _ _) _ h) | dsimp only | split)

theorem kept_ingestComplete (n : Nat) (s : State) : Kept s (State.ingestComplete n s) := by
  unfold State.ingestComplete
  repeat' (first
    | with_reducible exact Kept.refl _ | with_reducible refine Kept.ite (fun _ => ?_) (fun _ => ?_)
    | with_reducible apply Kept.trans _ (kept_modLayer ..) | with_reducible apply Kept.trans _ (kept_raise ..) | dsimp only
    | split)

theorem kept_takeAfter (n : Nat) (s : State) : Kept s (State.takeAfter n s) := by
  unfold State.takeAfter
  repeat' (first
    | with_reducible exact Kept.refl _ | with_reducible refine Kept.ite (fun _ => ?_) (fun _ => ?_)
    | with_reducible apply Kept.trans _ (kept_takeNext ..))

theorem kept_execIngsLinkUp (t : Nat) (port : Nat) (rate : Nat) (lanes : Nat) (fmt : DpFormat) (s : State) : KeepsGoing s (execIngsLinkUp t port rate lanes fmt s) := by
  unfold execIngsLinkUp
  repeat' (first
    | with_reducible exact Kept.refl _ | with_reducible apply KeepsGoing.next
    | with_reducible apply Kept.trans _ (kept_linkUp ..) | with_reducible apply Kept.trans _ (kept_advance ..))

theorem kept_execDpSymbolLockLost (t : Nat) (port : Nat) (s : State) : KeepsGoing s (execDpSymbolLockLost t port s) := by
  unfold execDpSymbolLockLost
  repeat' (first
    | with_reducible exact Kept.refl _ | with_reducible apply KeepsGoing.next
    | with_reducible apply Kept.trans _ (kept_lockLost ..) | with_reducible apply Kept.trans _ (kept_advance ..))

theorem kept_execDpRetrainTimeout (t : Nat) (port : Nat) (s : State) : KeepsGoing s (execDpRetrainTimeout t port s) := by
  unfold execDpRetrainTimeout
  repeat' (first
    | with_reducible exact Kept.refl _ | with_reducible apply KeepsGoing.next
    | with_reducible apply Kept.trans _ (kept_retrainTimeout ..) | with_reducible apply Kept.trans _ (kept_advance ..))

theorem kept_execIngsFormatChange (t : Nat) (port : Nat) (fmt : DpFormat) (s : State) : KeepsGoing s (execIngsFormatChange t port fmt s) := by
  unfold execIngsFormatChange
  repeat' (first
    | with_reducible exact Kept.refl _ | with_reducible apply KeepsGoing.next
    | with_reducible apply Kept.trans _ (kept_checkFormat ..) | with_reducible apply Kept.trans _ (kept_raise ..)
    | with_reducible apply Kept.trans _ (kept_abortPort ..) | with_reducible apply Kept.trans _ (kept_advance ..))

theorem kept_execCurrencySdp (t : Nat) (port : Nat) (packet : Bytes) (s : State) : KeepsGoing s (execCurrencySdp t port packet s) := by
  unfold execCurrencySdp
  repeat' (first
    | with_reducible exact Kept.refl _ | with_reducible apply KeepsGoing.next
    | with_reducible apply Kept.trans _ (kept_currencySdp ..) | with_reducible apply Kept.trans _ (kept_advance ..))

theorem kept_execDpFrameStart (t : Nat) (port : Nat) (s : State) : KeepsGoing s (execDpFrameStart t port s) := by
  unfold execDpFrameStart
  repeat' (first
    | with_reducible exact Kept.refl _ | with_reducible apply KeepsGoing.next
    | with_reducible apply Kept.trans _ (kept_frameStart ..) | with_reducible apply Kept.trans _ (kept_advance ..))

theorem kept_execDpLineReceived (t : Nat) (port : Nat) (samples : LineSamples) (s : State) : KeepsGoing s (execDpLineReceived t port samples s) := by
  unfold execDpLineReceived
  repeat' (first
    | with_reducible exact Kept.refl _ | with_reducible apply KeepsGoing.next
    | with_reducible apply Kept.trans _ (kept_lineReceived ..) | with_reducible apply Kept.trans _ (kept_advance ..))

theorem kept_execLineWriteAccepted (t : Nat) (layer : Nat) (line : Nat) (s : State) : KeepsGoing s (execLineWriteAccepted t layer line s) := by
  unfold execLineWriteAccepted
  repeat' (first
    | with_reducible exact Kept.refl _ | with_reducible apply KeepsGoing.next
    | with_reducible apply Kept.trans _ (kept_lineAccepted ..) | with_reducible apply Kept.trans _ (kept_advance ..))

theorem kept_execDpFrameEnd (t : Nat) (port : Nat) (s : State) : KeepsGoing s (execDpFrameEnd t port s) := by
  unfold execDpFrameEnd
  repeat' (first
    | with_reducible exact Kept.refl _ | with_reducible apply KeepsGoing.next
    | with_reducible apply Kept.trans _ (kept_frameEnd ..) | with_reducible apply Kept.trans _ (kept_advance ..))

theorem kept_execStaticCopyComplete (t : Nat) (layer : Nat) (ok : Bool) (s : State) : KeepsGoing s (execStaticCopyComplete t layer ok s) := by
  unfold execStaticCopyComplete
  repeat' (first
    | with_reducible exact Kept.refl _ | with_reducible apply KeepsGoing.next
    | with_reducible apply Kept.trans _ (kept_staticCopyDone ..) | with_reducible apply Kept.trans _ (kept_advance ..))

theorem kept_execDpLinkTrainingFail (t : Nat) (port : Nat) (rate : Nat) (lanes : Nat) (s : State) : KeepsGoing s (execDpLinkTrainingFail t port rate lanes s) := by
  unfold execDpLinkTrainingFail
  repeat' (first
    | with_reducible exact Kept.refl _ | with_reducible refine Kept.ite (fun _ => ?_) (fun _ => ?_)
    | with_reducible apply KeepsGoing.next | with_reducible apply Kept.trans _ (kept_advance ..)
    | with_reducible apply Kept.trans _ (kept_trainFails ..))

theorem kept_execHpdReassert (t : Nat) (port : Nat) (s : State) : KeepsGoing s (execHpdReassert t port s) := by
  unfold execHpdReassert
  repeat' (first
    | with_reducible exact Kept.refl _ | with_reducible refine Kept.ite (fun _ => ?_) (fun _ => ?_)
    | with_reducible apply KeepsGoing.next | with_reducible apply Kept.trans _ (kept_advance ..)
    | with_reducible apply Kept.trans _ (kept_assertHpd ..) | with_reducible apply Kept.trans _ (kept_modPort ..) | dsimp only
    | split)

/-! ## Machine/Plaza.lean -/

theorem kept_modGfx (n : Nat) (f : GLayer → GLayer) (s : State) : Kept s (State.modGfx n f s) := by
  unfold State.modGfx
  repeat' (first
    | with_reducible exact Kept.refl _ | with_reducible apply Kept.trans _ (kept_modPlaz ..))

theorem kept_modNewest (n : Nat) (f : Version → Version) (s : State) : Kept s (State.modNewest n f s) := by
  unfold State.modNewest
  repeat' (first
    | with_reducible exact Kept.refl _ | with_reducible refine Kept.ite (fun _ => ?_) (fun _ => ?_)
    | with_reducible apply Kept.trans _ (kept_modLayer ..) | with_reducible apply Kept.trans _ (kept_modGfx ..))

theorem kept_reportSpace (s : State) (n : Nat) : Kept s (State.reportSpace s n) := by
  unfold State.reportSpace
  repeat' (first
    | with_reducible exact Kept.refl _ | with_reducible refine Kept.ite (fun _ => ?_) (fun _ => ?_)
    | with_reducible apply Kept.trans _ (kept_raise ..) | with_reducible apply Kept.trans _ (kept_modPlaz ..)
    | with_reducible refine Kept.trans ?_ (Kept.foldl ?_ _ _) | intro _)

theorem kept_gfxStart (g : Nat) (s : State) : Kept s (State.gfxStart g s) := by
  unfold State.gfxStart
  repeat' (first
    | with_reducible exact Kept.refl _ | with_reducible apply Kept.trans _ (kept_modGfx ..)
    | with_reducible refine Kept.trans ?_ (kept_modHbm ?_ _) | with_reducible exact (fun _ h => Hbm.ok_zeroBuf _ _ h)
    | dsimp only | split)

theorem kept_gfxHeader (g : Nat) (h : Bytes) (s : State) : Kept s (State.gfxHeader g h s) := by
  unfold State.gfxHeader
  repeat' (first
    | with_reducible exact Kept.refl _ | with_reducible refine Kept.ite (fun _ => ?_) (fun _ => ?_)
    | with_reducible apply Kept.trans _ (kept_gfxStart ..))

theorem kept_gfxAccept (g : Nat) (b : Bytes) (s : State) : Kept s (State.gfxAccept g b s) := by
  unfold State.gfxAccept
  repeat' (first
    | with_reducible exact Kept.refl _ | with_reducible apply Kept.trans _ (kept_modGfx ..)
    | with_reducible refine Kept.trans ?_ (kept_modHbm ?_ _) | with_reducible exact (fun _ h => Hbm.ok_putPixels _ _ _ _ _ h)
    | dsimp only | split)

theorem kept_gfxCapture (g : Nat) (s : State) : Kept s (State.gfxCapture g s).2 := by
  unfold State.gfxCapture
  repeat' (first
    | with_reducible exact Kept.refl _ | with_reducible refine Kept.iteSnd (fun _ => ?_) (fun _ => ?_)
    | with_reducible apply Kept.trans _ (kept_setNum ..) | with_reducible apply Kept.trans _ (kept_raise ..))

theorem kept_gfxPublish (g : Nat) (value : Nat) (s : State) : Kept s (State.gfxPublish g value s) := by
  unfold State.gfxPublish
  repeat' (first
    | with_reducible exact Kept.refl _ | with_reducible refine Kept.ite (fun _ => ?_) (fun _ => ?_)
    | with_reducible apply Kept.trans _ (kept_gfxCapture ..) | with_reducible apply Kept.trans _ (kept_raise ..)
    | with_reducible apply Kept.trans _ (kept_modGfx ..) | with_reducible apply Kept.trans _ (kept_gfxStart ..)
    | with_reducible refine Kept.trans ?_ (kept_modHbm ?_ _) | with_reducible exact (fun _ h => Hbm.ok_putPixels _ _ _ _ _ h)
    | dsimp only | split)

theorem kept_gfxDiscard (g : Nat) (s : State) : Kept s (State.gfxDiscard g s) := by
  unfold State.gfxDiscard
  repeat' (first
    | with_reducible exact Kept.refl _ | with_reducible refine Kept.trans ?_ (kept_modHbm ?_ _)
    | with_reducible apply Kept.trans _ (kept_modGfx ..) | with_reducible exact (fun _ h => Hbm.ok_zeroOwner _ h))

end Sys2Proof.Machine
end

