-- ==== Sys2Proof/Laws/KeptFrame.lean ====
section
/-! SUPPORT. Every operation stays within the bounds of Safety.lean: timing, the fabric ports, arbitration, the wall, colour and the plane engine. -/

namespace Sys2Proof.Machine

/-! ## Machine/Seqr.lean -/

theorem kept_freeOrigin (s : State) : Kept s (State.freeOrigin s) := by
  unfold State.freeOrigin
  repeat' (first
    | with_reducible exact Kept.refl _ | with_reducible apply Kept.trans _ (kept_modSeqr ..))

theorem kept_stepEvent (d : Int) (s : State) : Kept s (State.stepEvent d s) := by
  unfold State.stepEvent
  repeat' (first
    | with_reducible exact Kept.refl _ | with_reducible refine Kept.ite (fun _ => ?_) (fun _ => ?_)
    | with_reducible apply Kept.trans _ (kept_raise ..))

theorem kept_stepWall (d : Int) (s : State) : Kept s (State.stepWall d s) := by
  unfold State.stepWall
  repeat' (first
    | with_reducible exact Kept.refl _ | with_reducible apply Kept.trans _ (kept_stepEvent ..)
    | with_reducible apply Kept.trans _ (kept_modWallOff ..))

theorem kept_clearBlocks (ports : List Nat) (s : State) : Kept s (State.clearBlocks ports s) := by
  unfold State.clearBlocks
  repeat' (first
    | with_reducible exact Kept.refl _ | with_reducible apply Kept.trans _ (kept_modPlgn ..))

theorem kept_startRephase (cause : Nat) (s : State) : Kept s (State.startRephase cause s) := by
  unfold State.startRephase
  repeat' (first
    | with_reducible exact Kept.refl _ | with_reducible refine Kept.ite (fun _ => ?_) (fun _ => ?_)
    | with_reducible apply Kept.trans _ (kept_raise ..) | with_reducible apply Kept.trans _ (kept_modSeqr ..)
    | with_reducible apply Kept.trans _ (kept_clearBlocks ..) | with_reducible apply Kept.trans _ (kept_emits ..))

theorem kept_correctPhase (d : Int) (s : State) : Kept s (State.correctPhase d s) := by
  unfold State.correctPhase
  repeat' (first
    | with_reducible exact Kept.refl _ | with_reducible refine Kept.ite (fun _ => ?_) (fun _ => ?_)
    | with_reducible apply Kept.trans _ (kept_modSeqr ..) | with_reducible apply Kept.trans _ (kept_modWallOff ..)
    | with_reducible apply Kept.trans _ (kept_startRephase ..) | with_reducible apply Kept.trans _ (kept_stepWall ..))

theorem kept_wheelFrame (n : Nat) (s : State) : Kept s (State.wheelFrame n s) := by
  unfold State.wheelFrame
  repeat' (first
    | with_reducible exact Kept.refl _ | with_reducible apply Kept.trans _ (kept_modSeqr ..))

theorem kept_setPhase (n : Nat) (v : Bool) (s : State) : Kept s (State.setPhase n v s) := by
  unfold State.setPhase
  repeat' (first
    | with_reducible exact Kept.refl _ | with_reducible refine Kept.ite (fun _ => ?_) (fun _ => ?_)
    | with_reducible apply Kept.trans _ (kept_raise ..) | with_reducible apply Kept.trans _ (kept_modSeqr ..))

theorem kept_losePhase (n : Nat) (s : State) : Kept s (State.losePhase n s) := by
  unfold State.losePhase
  repeat' (first
    | with_reducible exact Kept.refl _ | with_reducible apply Kept.trans _ (kept_modSeqr ..)
    | with_reducible apply Kept.trans _ (kept_setPhase ..))

theorem kept_judgePhase (n : Nat) (locked : Bool) (s : State) : Kept s (State.judgePhase n locked s) := by
  unfold State.judgePhase
  repeat' (first
    | with_reducible exact Kept.refl _ | with_reducible refine Kept.ite (fun _ => ?_) (fun _ => ?_)
    | with_reducible apply Kept.trans _ (kept_losePhase ..) | with_reducible apply Kept.trans _ (kept_setPhase ..))

theorem kept_setFsync (v : Nat) (s : State) : Kept s (State.setFsync v s) := by
  unfold State.setFsync
  repeat' (first
    | with_reducible exact Kept.refl _ | with_reducible refine Kept.ite (fun _ => ?_) (fun _ => ?_)
    | with_reducible apply Kept.trans _ (kept_modSeqr ..) | with_reducible apply Kept.trans _ (kept_raise ..)
    | with_reducible apply Kept.trans _ (kept_drawn ..))

theorem kept_rebase (s : State) : Kept s (State.rebase s) := by
  unfold State.rebase
  repeat' (first
    | with_reducible exact Kept.refl _ | with_reducible apply Kept.trans _ (kept_modSeqr ..))

theorem kept_fsyncMissing (s : State) : Kept s (State.fsyncMissing s) := by
  unfold State.fsyncMissing
  repeat' (first
    | with_reducible exact Kept.refl _ | with_reducible refine Kept.ite (fun _ => ?_) (fun _ => ?_)
    | with_reducible apply Kept.trans _ (kept_modSeqr ..) | with_reducible apply Kept.trans _ (kept_setFsync ..))

theorem kept_fsyncAlign (f : Nat) (width : Nat) (s : State) : Kept s (State.fsyncAlign f width s) := by
  unfold State.fsyncAlign
  repeat' (first
    | with_reducible exact Kept.refl _ | with_reducible refine Kept.ite (fun _ => ?_) (fun _ => ?_)
    | with_reducible apply Kept.trans _ (kept_raise ..) | with_reducible apply Kept.trans _ (kept_modSeqr ..))

theorem kept_fsyncTrack (e : Nat) (width : Nat) (s : State) : Kept s (State.fsyncTrack e width s) := by
  unfold State.fsyncTrack
  repeat' (first
    | with_reducible exact Kept.refl _ | with_reducible refine Kept.ite (fun _ => ?_) (fun _ => ?_)
    | with_reducible apply Kept.trans _ (kept_modSeqr ..) | with_reducible apply Kept.trans _ (kept_rebase ..)
    | with_reducible apply Kept.trans _ (kept_setFsync ..) | with_reducible apply Kept.trans _ (kept_startRephase ..)
    | with_reducible apply Kept.trans _ (kept_fsyncAlign ..))

theorem kept_fsyncEdge (e : Nat) (width : Nat) (s : State) : Kept s (State.fsyncEdge e width s) := by
  unfold State.fsyncEdge
  repeat' (first
    | with_reducible exact Kept.refl _ | with_reducible refine Kept.ite (fun _ => ?_) (fun _ => ?_)
    | with_reducible apply Kept.trans _ (kept_fsyncTrack ..) | with_reducible apply Kept.trans _ (kept_modSeqr ..)
    | with_reducible apply Kept.trans _ (kept_fsyncMissing ..))

theorem kept_fsyncLost (s : State) : Kept s (State.fsyncLost s) := by
  unfold State.fsyncLost
  repeat' (first
    | with_reducible exact Kept.refl _ | with_reducible refine Kept.ite (fun _ => ?_) (fun _ => ?_)
    | with_reducible apply Kept.trans _ (kept_modSeqr ..) | with_reducible apply Kept.trans _ (kept_setFsync ..))

theorem kept_fsyncPulse (f : Nat) (s : State) : Kept s (State.fsyncPulse f s) := by
  unfold State.fsyncPulse
  repeat' (first
    | with_reducible exact Kept.refl _ | with_reducible refine Kept.ite (fun _ => ?_) (fun _ => ?_)
    | with_reducible apply Kept.trans _ (kept_emit ..))

/-! ## Machine/Uane.lean -/

theorem kept_modUport (n : Nat) (f : UPort → UPort) (s : State) : Kept s (State.modUport n f s) := by
  unfold State.modUport
  repeat' (first
    | with_reducible exact Kept.refl _ | with_reducible apply Kept.trans _ (kept_modUane ..))

theorem kept_setUaneLane (n : Nat) (phys : Nat) (mode : Nat) (lane : Nat) (s : State) : Kept s (State.setUaneLane n phys mode lane s) := by
  unfold State.setUaneLane
  repeat' (first
    | with_reducible exact Kept.refl _ | with_reducible apply Kept.trans _ (kept_emit ..)
    | with_reducible apply Kept.trans _ (kept_modUport ..))

theorem kept_uaneFlush (s : State) : Kept s (State.uaneFlush s) := by
  unfold State.uaneFlush
  repeat' (first
    | with_reducible exact Kept.refl _ | with_reducible apply Kept.trans _ (kept_emits ..)
    | with_reducible apply Kept.trans _ (kept_modUport ..) | with_reducible refine Kept.trans ?_ (Kept.foldl ?_ _ _) | intro _)

theorem kept_uaneOut (port : Nat) (cls : Nat) (unicast : Bool) (b : Bytes) (s : State) : Kept s (State.uaneOut port cls unicast b s) := by
  unfold State.uaneOut
  repeat' (first
    | with_reducible exact Kept.refl _ | with_reducible refine Kept.ite (fun _ => ?_) (fun _ => ?_)
    | with_reducible apply Kept.trans _ (kept_uaneFlush ..) | with_reducible apply Kept.trans _ (kept_emit ..)
    | with_reducible apply Kept.trans _ (kept_modUport ..))

theorem kept_uaneRoute (b : Bytes) (s : State) : Kept s (State.uaneRoute b s) := by
  unfold State.uaneRoute
  repeat' (first
    | with_reducible exact Kept.refl _ | with_reducible refine Kept.ite (fun _ => ?_) (fun _ => ?_)
    | with_reducible apply Kept.trans _ (kept_uaneOut ..) | dsimp only | split)

theorem kept_uaneFlood (except_ : Option Nat) (b : Bytes) (s : State) : Kept s (State.uaneFlood except_ b s) := by
  unfold State.uaneFlood
  repeat' (first
    | with_reducible exact Kept.refl _ | with_reducible refine Kept.ite (fun _ => ?_) (fun _ => ?_)
    | with_reducible apply Kept.trans _ (kept_uaneOut ..) | with_reducible refine Kept.trans ?_ (Kept.foldl ?_ _ _) | intro _)

theorem kept_uaneSend (typ : Nat) (dst : Nat) (port : Nat) (spec : Bytes) (payload : Bytes) (s : State) : Kept s (State.uaneSend typ dst port spec payload s) := by
  unfold State.uaneSend
  repeat' (first
    | with_reducible exact Kept.refl _ | with_reducible refine Kept.ite (fun _ => ?_) (fun _ => ?_)
    | with_reducible apply Kept.trans _ (kept_modUane ..) | with_reducible apply Kept.trans _ (kept_uaneOut ..)
    | with_reducible apply Kept.trans _ (kept_uaneFlood ..) | with_reducible apply Kept.trans _ (kept_uaneRoute ..))

theorem kept_seeBroadcast (src : Nat) (typ : Nat) (seq : Nat) (s : State) : Kept s (State.seeBroadcast src typ seq s).2 := by
  unfold State.seeBroadcast
  repeat' (first
    | with_reducible exact Kept.refl _ | with_reducible refine Kept.iteSnd (fun _ => ?_) (fun _ => ?_)
    | with_reducible apply Kept.trans _ (kept_modUane ..))

theorem kept_setUane (n : Nat) (v : Nat) (s : State) : Kept s (State.setUane n v s) := by
  unfold State.setUane
  repeat' (first
    | with_reducible exact Kept.refl _ | with_reducible apply Kept.trans _ (kept_setObs ..))

theorem kept_setTimeState (v : Nat) (s : State) : Kept s (State.setTimeState v s) := by
  unfold State.setTimeState
  repeat' (first
    | with_reducible exact Kept.refl _ | with_reducible refine Kept.ite (fun _ => ?_) (fun _ => ?_)
    | with_reducible apply Kept.trans _ (kept_raise ..) | with_reducible apply Kept.trans _ (kept_modUane ..))

theorem kept_updateWrap (s : State) : Kept s (State.updateWrap s) := by
  unfold State.updateWrap
  repeat' (first
    | with_reducible exact Kept.refl _ | with_reducible refine Kept.ite (fun _ => ?_) (fun _ => ?_)
    | with_reducible apply Kept.trans _ (kept_raise ..) | with_reducible apply Kept.trans _ (kept_setUane ..)
    | with_reducible refine Kept.trans ?_ (Kept.foldl ?_ _ _) | intro _)

theorem kept_moveQueue (n : Nat) (s : State) : Kept s (State.moveQueue n s) := by
  unfold State.moveQueue
  repeat' (first
    | with_reducible exact Kept.refl _ | with_reducible refine Kept.ite (fun _ => ?_) (fun _ => ?_)
    | with_reducible apply Kept.trans _ (kept_modUport ..) | with_reducible apply Kept.trans _ (kept_uaneOut ..)
    | with_reducible refine Kept.trans ?_ (Kept.foldl ?_ _ _) | intro _)

theorem kept_uaneDown (n : Nat) (cause : Nat) (s : State) : Kept s (State.uaneDown n cause s) := by
  unfold State.uaneDown
  repeat' (first
    | with_reducible exact Kept.refl _ | with_reducible refine Kept.ite (fun _ => ?_) (fun _ => ?_)
    | with_reducible apply Kept.trans _ (kept_raise ..) | with_reducible apply Kept.trans _ (kept_modUport ..)
    | with_reducible apply Kept.trans _ (kept_setUane ..) | with_reducible apply Kept.trans _ (kept_moveQueue ..)
    | with_reducible apply Kept.trans _ (kept_updateWrap ..) | with_reducible apply Kept.trans _ (kept_setTimeState ..)
    | with_reducible apply Kept.trans _ (kept_modUane ..))

theorem kept_uaneUp (n : Nat) (s : State) : Kept s (State.uaneUp n s) := by
  unfold State.uaneUp
  repeat' (first
    | with_reducible exact Kept.refl _ | with_reducible apply Kept.trans _ (kept_updateWrap ..)
    | with_reducible apply Kept.trans _ (kept_raise ..) | with_reducible apply Kept.trans _ (kept_setUane ..))

theorem kept_uaneTrain (n : Nat) (s : State) : Kept s (State.uaneTrain n s) := by
  unfold State.uaneTrain
  repeat' (first
    | with_reducible exact Kept.refl _ | with_reducible refine Kept.ite (fun _ => ?_) (fun _ => ?_)
    | with_reducible apply Kept.trans _ (kept_setUaneLane ..) | with_reducible apply Kept.trans _ (kept_modUport ..)
    | with_reducible apply Kept.trans _ (kept_setUane ..) | with_reducible refine Kept.trans ?_ (Kept.foldl ?_ _ _) | intro _)

theorem kept_uaneRetrain (n : Nat) (s : State) : Kept s (State.uaneRetrain n s) := by
  unfold State.uaneRetrain
  repeat' (first
    | with_reducible exact Kept.refl _ | with_reducible refine Kept.ite (fun _ => ?_) (fun _ => ?_)
    | with_reducible apply Kept.trans _ (kept_uaneTrain ..))

theorem kept_uaneLocked (n : Nat) (s : State) : Kept s (State.uaneLocked n s) := by
  unfold State.uaneLocked
  repeat' (first
    | with_reducible exact Kept.refl _ | with_reducible apply Kept.trans _ (kept_setUaneLane ..)
    | with_reducible apply Kept.trans _ (kept_modUport ..) | with_reducible refine Kept.trans ?_ (Kept.foldl ?_ _ _) | intro _)

theorem kept_uaneSwapStart (n : Nat) (logical : Nat) (cause : Nat) (s : State) : Kept s (State.uaneSwapStart n logical cause s) := by
  unfold State.uaneSwapStart
  repeat' (first
    | with_reducible exact Kept.refl _ | with_reducible refine Kept.ite (fun _ => ?_) (fun _ => ?_)
    | with_reducible apply Kept.trans _ (kept_setUaneLane ..) | with_reducible apply Kept.trans _ (kept_modUport ..))

theorem kept_uaneSwapSent (n : Nat) (s : State) : Kept s (State.uaneSwapSent n s) := by
  unfold State.uaneSwapSent
  repeat' (first
    | with_reducible exact Kept.refl _ | with_reducible refine Kept.ite (fun _ => ?_) (fun _ => ?_)
    | with_reducible apply Kept.trans _ (kept_raise ..) | with_reducible apply Kept.trans _ (kept_setUaneLane ..)
    | with_reducible apply Kept.trans _ (kept_modUport ..) | dsimp only | split)

theorem kept_uaneSwapTaken (n : Nat) (s : State) : Kept s (State.uaneSwapTaken n s) := by
  unfold State.uaneSwapTaken
  repeat' (first
    | with_reducible exact Kept.refl _ | with_reducible apply Kept.trans _ (kept_modUport ..) | split)

theorem kept_updateMaster (s : State) : Kept s (State.updateMaster s) := by
  unfold State.updateMaster
  repeat' (first
    | with_reducible exact Kept.refl _ | with_reducible refine Kept.ite (fun _ => ?_) (fun _ => ?_)
    | with_reducible apply Kept.trans _ (kept_setTimeState ..) | with_reducible apply Kept.trans _ (kept_modUane ..)
    | dsimp only | split)

theorem kept_setPtp (v : Nat) (s : State) : Kept s (State.setPtp v s) := by
  unfold State.setPtp
  repeat' (first
    | with_reducible exact Kept.refl _ | with_reducible refine Kept.ite (fun _ => ?_) (fun _ => ?_)
    | with_reducible apply Kept.trans _ (kept_updateMaster ..) | with_reducible apply Kept.trans _ (kept_raise ..)
    | with_reducible apply Kept.trans _ (kept_modUane ..))

theorem kept_ptpMode (s : State) : Kept s (State.ptpMode s) := by
  unfold State.ptpMode
  repeat' (first
    | with_reducible exact Kept.refl _ | with_reducible apply Kept.trans _ (kept_setPtp ..)
    | with_reducible apply Kept.trans _ (kept_modUane ..))

theorem kept_recompute (s : State) : Kept s (State.recompute s) := by
  unfold State.recompute
  repeat' (first
    | with_reducible exact Kept.refl _ | with_reducible apply Kept.trans _ (kept_modUane ..)
    | with_reducible apply Kept.trans _ (kept_updateMaster ..) | with_reducible apply Kept.trans _ (kept_raise ..))

theorem kept_applyTopology (s : State) : Kept s (State.applyTopology s) := by
  unfold State.applyTopology
  repeat' (first
    | with_reducible exact Kept.refl _ | with_reducible refine Kept.ite (fun _ => ?_) (fun _ => ?_)
    | with_reducible apply Kept.trans _ (kept_uaneTrain ..) | with_reducible apply Kept.trans _ (kept_uaneDown ..)
    | with_reducible apply Kept.trans _ (kept_drawn ..) | with_reducible apply Kept.trans _ (kept_updateWrap ..)
    | with_reducible apply Kept.trans _ (kept_recompute ..) | with_reducible apply Kept.trans _ (kept_updateMaster ..)
    | with_reducible refine Kept.trans ?_ (Kept.foldl ?_ _ _) | intro _)

theorem kept_takeTopo (src : Nat) (p : Bytes) (s : State) : Kept s (State.takeTopo src p s) := by
  unfold State.takeTopo
  repeat' (first
    | with_reducible exact Kept.refl _ | with_reducible refine Kept.ite (fun _ => ?_) (fun _ => ?_)
    | with_reducible apply Kept.trans _ (kept_modUane ..) | with_reducible apply Kept.trans _ (kept_raise ..)
    | with_reducible apply Kept.trans _ (kept_recompute ..) | with_reducible apply Kept.trans _ (kept_updateMaster ..))

/-! ## Machine/Curg.lean -/

theorem kept_modCLayer (n : Nat) (f : CLayer → CLayer) (s : State) : Kept s (State.modCLayer n f s) := by
  unfold State.modCLayer
  repeat' (first
    | with_reducible exact Kept.refl _ | with_reducible apply Kept.trans _ (kept_modCurg ..))

theorem kept_hbFill (n : Nat) (s : State) : Kept s (State.hbFill n s) := by
  unfold State.hbFill
  repeat' (first
    | with_reducible exact Kept.refl _ | with_reducible refine Kept.ite (fun _ => ?_) (fun _ => ?_)
    | with_reducible apply Kept.trans _ (kept_modNewest ..) | dsimp only | split)

theorem kept_findRuns (s : State) (n : Nat) : Kept s (State.findRuns s n) := by
  unfold State.findRuns
  repeat' (first
    | with_reducible exact Kept.refl _ | with_reducible refine Kept.ite (fun _ => ?_) (fun _ => ?_)
    | with_reducible apply Kept.trans _ (kept_modCLayer ..) | with_reducible apply Kept.trans _ (kept_raise ..))

theorem kept_curgDecide (f : Nat) (s : State) : Kept s (State.curgDecide f s) := by
  unfold State.curgDecide
  repeat' (first
    | with_reducible exact Kept.refl _ | with_reducible apply Kept.trans _ (kept_modCurg ..)
    | with_reducible apply Kept.trans _ (kept_findRuns ..) | with_reducible apply Kept.trans _ (kept_raiseAll ..)
    | with_reducible refine Kept.trans ?_ (Kept.foldl ?_ _ _) | intro _)

theorem kept_observeLayers (f : Nat) (shows : Bool) (s : State) : Kept s (State.observeLayers f shows s) := by
  unfold State.observeLayers
  repeat' (first
    | with_reducible exact Kept.refl _ | with_reducible apply Kept.trans _ (kept_modUnits ..))

theorem kept_sigCompare (r : Nat) (ok : Bool) (s : State) : Kept s (State.sigCompare r ok s) := by
  unfold State.sigCompare
  repeat' (first
    | with_reducible exact Kept.refl _ | with_reducible refine Kept.ite (fun _ => ?_) (fun _ => ?_)
    | with_reducible apply Kept.trans _ (kept_modCurg ..) | with_reducible apply Kept.trans _ (kept_raise ..))

theorem kept_sigFinal (r : Nat) (f : Nat) (value : Nat) (carried : Bool) (s : State) : Kept s (State.sigFinal r f value carried s) := by
  unfold State.sigFinal
  repeat' (first
    | with_reducible exact Kept.refl _ | with_reducible refine Kept.ite (fun _ => ?_) (fun _ => ?_)
    | with_reducible apply Kept.trans _ (kept_modCurg ..) | with_reducible apply Kept.trans _ (kept_modPlaz ..)
    | with_reducible apply Kept.trans _ (kept_sigCompare ..))

theorem kept_sigMissing (f : Nat) (s : State) : Kept s (State.sigMissing f s) := by
  unfold State.sigMissing
  repeat' (first
    | with_reducible exact Kept.refl _ | with_reducible refine Kept.ite (fun _ => ?_) (fun _ => ?_)
    | with_reducible apply Kept.trans _ (kept_sigCompare ..) | with_reducible refine Kept.trans ?_ (Kept.foldl ?_ _ _)
    | intro _)

theorem kept_sigHatch (s : State) : Kept s (State.sigHatch s) := by
  unfold State.sigHatch
  repeat' (first
    | with_reducible exact Kept.refl _ | with_reducible apply Kept.trans _ (kept_modCurg ..)
    | with_reducible refine Kept.trans ?_ (Kept.foldl ?_ _ _) | intro _)

theorem kept_sigReset (r : Nat) (s : State) : Kept s (State.sigReset r s) := by
  unfold State.sigReset
  repeat' (first
    | with_reducible exact Kept.refl _ | with_reducible apply Kept.trans _ (kept_modCurg ..))

theorem kept_noteReport (n : Nat) (s : State) : Kept s (State.noteReport n s) := by
  unfold State.noteReport
  repeat' (first
    | with_reducible exact Kept.refl _ | with_reducible apply Kept.trans _ (kept_modCLayer ..))

theorem kept_takeAgreement (b : Bytes) (s : State) : Kept s (State.takeAgreement b s) := by
  unfold State.takeAgreement
  repeat' (first
    | with_reducible exact Kept.refl _ | with_reducible refine Kept.ite (fun _ => ?_) (fun _ => ?_)
    | with_reducible apply Kept.trans _ (kept_modCLayer ..) | with_reducible apply Kept.trans _ (kept_modCurg ..) | dsimp only
    | split)

/-! ## Machine/Wall.lean -/

theorem kept_sendLease (s : State) : Kept s (State.sendLease s) := by
  unfold State.sendLease
  repeat' (first
    | with_reducible exact Kept.refl _ | with_reducible refine Kept.ite (fun _ => ?_) (fun _ => ?_)
    | with_reducible apply Kept.trans _ (kept_uaneSend ..))

theorem kept_takeRole (s : State) : Kept s (State.takeRole s) := by
  unfold State.takeRole
  repeat' (first
    | with_reducible exact Kept.refl _ | with_reducible apply Kept.trans _ (kept_sendLease ..)
    | with_reducible apply Kept.trans _ (kept_raise ..) | with_reducible apply Kept.trans _ (kept_modCoh ..))

theorem kept_leaseBoundary (s : State) : Kept s (State.leaseBoundary s) := by
  unfold State.leaseBoundary
  repeat' (first
    | with_reducible exact Kept.refl _ | with_reducible refine Kept.ite (fun _ => ?_) (fun _ => ?_)
    | with_reducible apply Kept.trans _ (kept_sendLease ..) | with_reducible apply Kept.trans _ (kept_modCoh ..))

theorem kept_checkTable (crc : Nat) (s : State) : Kept s (State.checkTable crc s) := by
  unfold State.checkTable
  repeat' (first
    | with_reducible exact Kept.refl _ | with_reducible refine Kept.ite (fun _ => ?_) (fun _ => ?_)
    | with_reducible apply Kept.trans _ (kept_raise ..) | with_reducible apply Kept.trans _ (kept_modCurg ..))

theorem kept_adoptOrigin (holder : Nat) (rate : Nat) (t0 : Nat) (f0 : Nat) (s : State) : Kept s (State.adoptOrigin holder rate t0 f0 s) := by
  unfold State.adoptOrigin
  repeat' (first
    | with_reducible exact Kept.refl _ | with_reducible refine Kept.ite (fun _ => ?_) (fun _ => ?_)
    | with_reducible apply Kept.trans _ (kept_raise ..) | with_reducible apply Kept.trans _ (kept_modCoh ..)
    | with_reducible apply Kept.trans _ (kept_startRephase ..) | with_reducible apply Kept.trans _ (kept_modSeqr ..))

theorem kept_takeReport (b : Bytes) (s : State) : Kept s (State.takeReport b s) := by
  unfold State.takeReport
  repeat' (first
    | with_reducible exact Kept.refl _ | with_reducible apply Kept.trans _ (kept_modCoh ..))

theorem kept_sendReport (s : State) (n : Nat) : Kept s (State.sendReport s n) := by
  unfold State.sendReport
  repeat' (first
    | with_reducible exact Kept.refl _ | with_reducible refine Kept.ite (fun _ => ?_) (fun _ => ?_)
    | with_reducible apply Kept.trans _ (kept_noteReport ..) | with_reducible apply Kept.trans _ (kept_takeReport ..)
    | with_reducible apply Kept.trans _ (kept_uaneSend ..))

theorem kept_sendReports (s : State) : Kept s (State.sendReports s) := by
  unfold State.sendReports
  repeat' (first
    | with_reducible exact Kept.refl _ | with_reducible apply Kept.trans _ (kept_sendReport ..)
    | with_reducible refine Kept.trans ?_ (Kept.foldl ?_ _ _) | intro _)

theorem kept_takeLease (b : Bytes) (s : State) : Kept s (State.takeLease b s) := by
  unfold State.takeLease
  repeat' (first
    | with_reducible exact Kept.refl _ | with_reducible refine Kept.ite (fun _ => ?_) (fun _ => ?_)
    | with_reducible apply Kept.trans _ (kept_modCoh ..) | with_reducible apply Kept.trans _ (kept_checkTable ..)
    | with_reducible apply Kept.trans _ (kept_adoptOrigin ..) | with_reducible apply Kept.trans _ (kept_raise ..)
    | with_reducible apply Kept.trans _ (kept_sendReports ..))

theorem kept_noteExcluded (w : Nat) (f : Nat) (s : State) : Kept s (State.noteExcluded w f s) := by
  unfold State.noteExcluded
  repeat' (first
    | with_reducible exact Kept.refl _ | with_reducible apply Kept.trans _ (kept_modCoh ..)
    | with_reducible apply Kept.trans _ (kept_raise ..) | with_reducible refine Kept.trans ?_ (Kept.foldl ?_ _ _) | intro _)

theorem kept_issueAgreements (f : Nat) (s : State) : Kept s (State.issueAgreements f s) := by
  unfold State.issueAgreements
  repeat' (first
    | with_reducible exact Kept.refl _ | with_reducible apply Kept.trans _ (kept_noteExcluded ..)
    | with_reducible apply Kept.trans _ (kept_takeAgreement ..) | with_reducible apply Kept.trans _ (kept_uaneSend ..)
    | with_reducible apply Kept.trans _ (kept_modCoh ..) | with_reducible refine Kept.trans ?_ (Kept.foldl ?_ _ _) | intro _)

theorem kept_repeatAgreements (f : Nat) (s : State) : Kept s (State.repeatAgreements f s) := by
  unfold State.repeatAgreements
  repeat' (first
    | with_reducible exact Kept.refl _ | with_reducible refine Kept.ite (fun _ => ?_) (fun _ => ?_)
    | with_reducible apply Kept.trans _ (kept_uaneSend ..) | with_reducible apply Kept.trans _ (kept_modCoh ..)
    | with_reducible refine Kept.trans ?_ (Kept.foldl ?_ _ _) | intro _)

theorem kept_takeLuma (node : Nat) (b : Bytes) (s : State) : Kept s (State.takeLuma node b s) := by
  unfold State.takeLuma
  repeat' (first
    | with_reducible exact Kept.refl _ | with_reducible apply Kept.trans _ (kept_modCoh ..))

theorem kept_takeSet (b : Bytes) (s : State) : Kept s (State.takeSet b s) := by
  unfold State.takeSet
  repeat' (first
    | with_reducible exact Kept.refl _ | with_reducible refine Kept.ite (fun _ => ?_) (fun _ => ?_)
    | with_reducible apply Kept.trans _ (kept_modCoh ..))

theorem kept_sendSet (target : Nat) (rate : Nat) (s : State) : Kept s (State.sendSet target rate s) := by
  unfold State.sendSet
  repeat' (first
    | with_reducible exact Kept.refl _ | with_reducible apply Kept.trans _ (kept_takeSet ..)
    | with_reducible apply Kept.trans _ (kept_uaneSend ..) | with_reducible apply Kept.trans _ (kept_modCoh ..))

theorem kept_wallTarget (s : State) : Kept s (State.wallTarget s) := by
  unfold State.wallTarget
  repeat' (first
    | with_reducible exact Kept.refl _ | with_reducible refine Kept.ite (fun _ => ?_) (fun _ => ?_)
    | with_reducible apply Kept.trans _ (kept_modCoh ..) | with_reducible apply Kept.trans _ (kept_sendSet ..) | dsimp only
    | split)

theorem kept_applySet (s : State) : Kept s (State.applySet s) := by
  unfold State.applySet
  repeat' (first
    | with_reducible exact Kept.refl _ | with_reducible apply Kept.trans _ (kept_raise ..)
    | with_reducible apply Kept.trans _ (kept_setNum ..) | with_reducible apply Kept.trans _ (kept_modCoh ..)
    | with_reducible refine Kept.trans ?_ (Kept.foldl ?_ _ _) | intro _)

/-! ## Machine/Colr.lean -/

theorem kept_modCGroup (g : Nat) (f : CGroup → CGroup) (s : State) : Kept s (State.modCGroup g f s) := by
  unfold State.modCGroup
  repeat' (first
    | with_reducible exact Kept.refl _ | with_reducible apply Kept.trans _ (kept_modColr ..))

theorem kept_colrDecide (f : Nat) (s : State) (g : Nat) : Kept s (State.colrDecide f s g) := by
  unfold State.colrDecide
  repeat' (first
    | with_reducible exact Kept.refl _ | with_reducible refine Kept.ite (fun _ => ?_) (fun _ => ?_)
    | with_reducible apply Kept.trans _ (kept_modCGroup ..) | with_reducible apply Kept.trans _ (kept_raise ..) | dsimp only
    | split)

theorem kept_clipReport (g : Nat) (count : Nat) (s : State) : Kept s (State.clipReport g count s) := by
  unfold State.clipReport
  repeat' (first
    | with_reducible exact Kept.refl _ | with_reducible refine Kept.ite (fun _ => ?_) (fun _ => ?_)
    | with_reducible apply Kept.trans _ (kept_modCGroup ..) | with_reducible apply Kept.trans _ (kept_raise ..))

/-! ## Machine/Plgn.lean -/

theorem kept_modPlGroup (g : Nat) (f : PlGroup → PlGroup) (s : State) : Kept s (State.modPlGroup g f s) := by
  unfold State.modPlGroup
  repeat' (first
    | with_reducible exact Kept.refl _ | with_reducible apply Kept.trans _ (kept_modPlgn ..))

theorem kept_modPlArray (ap : Nat) (f : PlArray → PlArray) (s : State) : Kept s (State.modPlArray ap f s) := by
  unfold State.modPlArray
  repeat' (first
    | with_reducible exact Kept.refl _ | with_reducible apply Kept.trans _ (kept_modPlgn ..))

theorem kept_setPlan (g : Nat) (p : Option Plan) (s : State) : Kept s (State.setPlan g p s) := by
  unfold State.setPlan
  repeat' (first
    | with_reducible exact Kept.refl _ | with_reducible refine Kept.ite (fun _ => ?_) (fun _ => ?_)
    | with_reducible apply Kept.trans _ (kept_modPlGroup ..) | with_reducible apply Kept.trans _ (kept_raise ..) | dsimp only
    | split)

theorem kept_fallback (g : Nat) (f : Nat) (cause : Nat) (s : State) : Kept s (State.fallback g f cause s) := by
  unfold State.fallback
  repeat' (first
    | with_reducible exact Kept.refl _ | with_reducible apply Kept.trans _ (kept_modPlGroup ..) | split)

theorem kept_deliver (g : Nat) (f : Nat) (found : List (List SchedEpoch)) (us : Nat) (s : State) : Kept s (State.deliver g f found us s) := by
  unfold State.deliver
  repeat' (first
    | with_reducible exact Kept.refl _ | with_reducible refine Kept.ite (fun _ => ?_) (fun _ => ?_)
    | with_reducible apply Kept.trans _ (kept_modPlGroup ..) | with_reducible apply Kept.trans _ (kept_fallback ..)
    | dsimp only | split)

theorem kept_compilerLease (s : State) : Kept s (State.compilerLease s) := by
  unfold State.compilerLease
  repeat' (first
    | with_reducible exact Kept.refl _ | with_reducible refine Kept.ite (fun _ => ?_) (fun _ => ?_)
    | with_reducible apply Kept.trans _ (kept_takeLeaseOf ..) | with_reducible apply Kept.trans _ (kept_dropLease ..))

theorem kept_runsSched (g : Nat) (h : Sched) (s : State) : Kept s (State.runsSched g h s) := by
  unfold State.runsSched
  repeat' (first
    | with_reducible exact Kept.refl _ | with_reducible refine Kept.ite (fun _ => ?_) (fun _ => ?_)
    | with_reducible apply Kept.trans _ (kept_modPlGroup ..) | with_reducible apply Kept.trans _ (kept_raise ..))

theorem kept_setDropped (g : Nat) (d : Nat) (s : State) : Kept s (State.setDropped g d s) := by
  unfold State.setDropped
  repeat' (first
    | with_reducible exact Kept.refl _ | with_reducible refine Kept.ite (fun _ => ?_) (fun _ => ?_)
    | with_reducible apply Kept.trans _ (kept_raise ..) | with_reducible apply Kept.trans _ (kept_modPlGroup ..))

end Sys2Proof.Machine
end

