-- ==== Sys2Proof/Laws/KeptLight.lean ====
section
/-! SUPPORT. Every operation stays within the bounds of Safety.lean: array ports, lamps, light loops, drivers and wheels. -/

namespace Sys2Proof.Machine

/-! ## Machine/Arcd.lean -/

theorem kept_modAport (n : Nat) (f : APort → APort) (s : State) : Kept s (State.modAport n f s) := by
  unfold State.modAport
  repeat' (first
    | with_reducible exact Kept.refl _ | with_reducible apply Kept.trans _ (kept_modArcd ..))

theorem kept_alaunch (ap : Nat) (from_ : Nat) (block : Bool) (mk : Nat → Nat → Bytes) (s : State) : Kept s (State.alaunch ap from_ block mk s) := by
  unfold State.alaunch
  repeat' (first
    | with_reducible exact Kept.refl _ | with_reducible apply Kept.trans _ (kept_emit ..)
    | with_reducible apply Kept.trans _ (kept_modAport ..))

theorem kept_acontrol (ap : Nat) (cmds : List Bytes) (s : State) : Kept s (State.acontrol ap cmds s) := by
  unfold State.acontrol
  repeat' (first
    | with_reducible exact Kept.refl _ | with_reducible apply Kept.trans _ (kept_alaunch ..))

theorem kept_setLane (ap : Nat) (phys : Nat) (mode : Nat) (lane : Nat) (s : State) : Kept s (State.setLane ap phys mode lane s) := by
  unfold State.setLane
  repeat' (first
    | with_reducible exact Kept.refl _ | with_reducible apply Kept.trans _ (kept_emit ..)
    | with_reducible apply Kept.trans _ (kept_modAport ..))

theorem kept_akeep (ap : Nat) (s : State) : Kept s (State.akeep ap s) := by
  unfold State.akeep
  repeat' (first
    | with_reducible exact Kept.refl _ | with_reducible apply Kept.trans _ (kept_acontrol ..)
    | with_reducible apply Kept.trans _ (kept_modAport ..))

theorem kept_setArray (ap : Nat) (v : Nat) (s : State) : Kept s (State.setArray ap v s) := by
  unfold State.setArray
  repeat' (first
    | with_reducible exact Kept.refl _ | with_reducible refine Kept.ite (fun _ => ?_) (fun _ => ?_)
    | with_reducible apply Kept.trans _ (kept_raise ..) | with_reducible apply Kept.trans _ (kept_setObs ..))

theorem kept_ablank (ap : Nat) (cause : Nat) (s : State) : Kept s (State.ablank ap cause s) := by
  unfold State.ablank
  repeat' (first
    | with_reducible exact Kept.refl _ | with_reducible refine Kept.ite (fun _ => ?_) (fun _ => ?_)
    | with_reducible apply Kept.trans _ (kept_raise ..) | with_reducible apply Kept.trans _ (kept_modAport ..))

theorem kept_apark (ap : Nat) (cause : Nat) (s : State) : Kept s (State.apark ap cause s) := by
  unfold State.apark
  repeat' (first
    | with_reducible exact Kept.refl _ | with_reducible refine Kept.ite (fun _ => ?_) (fun _ => ?_)
    | with_reducible apply Kept.trans _ (kept_modAport ..) | with_reducible apply Kept.trans _ (kept_acontrol ..)
    | with_reducible apply Kept.trans _ (kept_raise ..) | with_reducible apply Kept.trans _ (kept_setArray ..))

theorem kept_adrive (s : State) (ap : Nat) : Kept s (State.adrive s ap) := by
  unfold State.adrive
  repeat' (first
    | with_reducible exact Kept.refl _ | with_reducible refine Kept.ite (fun _ => ?_) (fun _ => ?_)
    | with_reducible apply Kept.trans _ (kept_acontrol ..))

theorem kept_driveArray (f : Nat) (s : State) (ap : Nat) : Kept s (State.driveArray f s ap) := by
  unfold State.driveArray
  repeat' (first
    | with_reducible exact Kept.refl _ | with_reducible refine Kept.ite (fun _ => ?_) (fun _ => ?_)
    | with_reducible apply Kept.trans _ (kept_adrive ..) | split)

theorem kept_atrain (ap : Nat) (s : State) : Kept s (State.atrain ap s) := by
  unfold State.atrain
  repeat' (first
    | with_reducible exact Kept.refl _ | with_reducible refine Kept.ite (fun _ => ?_) (fun _ => ?_)
    | with_reducible apply Kept.trans _ (kept_drawn ..) | with_reducible apply Kept.trans _ (kept_modAport ..)
    | with_reducible apply Kept.trans _ (kept_setArray ..) | with_reducible apply Kept.trans _ (kept_setLane ..)
    | with_reducible refine Kept.trans ?_ (Kept.foldl ?_ _ _) | intro _)

theorem kept_aretrain (ap : Nat) (cause : Nat) (s : State) : Kept s (State.aretrain ap cause s) := by
  unfold State.aretrain
  repeat' (first
    | with_reducible exact Kept.refl _ | with_reducible refine Kept.ite (fun _ => ?_) (fun _ => ?_)
    | with_reducible apply Kept.trans _ (kept_atrain ..) | with_reducible apply Kept.trans _ (kept_apark ..))

theorem kept_atrainSteps (ap : Nat) (n : Nat) (short : Bool) (s : State) : Kept s (State.atrainSteps ap n short s) := by
  unfold State.atrainSteps
  repeat' (first
    | with_reducible exact Kept.refl _ | with_reducible refine Kept.ite (fun _ => ?_) (fun _ => ?_)
    | with_reducible apply Kept.trans _ (kept_acontrol ..) | with_reducible apply Kept.trans _ (kept_setLane ..)
    | with_reducible apply Kept.trans _ (kept_alaunch ..) | with_reducible refine Kept.trans ?_ (Kept.foldl ?_ _ _) | intro _)

theorem kept_areturnTrain (ap : Nat) (s : State) : Kept s (State.areturnTrain ap s) := by
  unfold State.areturnTrain
  repeat' (first
    | with_reducible exact Kept.refl _ | with_reducible apply Kept.trans _ (kept_modAport ..)
    | with_reducible apply Kept.trans _ (kept_atrain ..))

theorem kept_atrainEnd (ap : Nat) (step : Nat) (regs : List Nat) (roundTrip : Nat) (turnaround : Nat) (s : State) : Kept s (State.atrainEnd ap step regs roundTrip turnaround s) := by
  unfold State.atrainEnd
  repeat' (first
    | with_reducible exact Kept.refl _ | with_reducible refine Kept.ite (fun _ => ?_) (fun _ => ?_)
    | with_reducible apply Kept.trans _ (kept_modAport ..) | with_reducible apply Kept.trans _ (kept_atrainSteps ..)
    | with_reducible apply Kept.trans _ (kept_raise ..) | with_reducible apply Kept.trans _ (kept_setArray ..)
    | with_reducible apply Kept.trans _ (kept_modSeqr ..) | with_reducible apply Kept.trans _ (kept_setPlan ..)
    | with_reducible apply Kept.trans _ (kept_driveArray ..))

theorem kept_zeroBlock (ap : Nat) (b : Nat) (start : Int) (tblk : Nat) (s : State) : Kept s (State.zeroBlock ap b start tblk s) := by
  unfold State.zeroBlock
  repeat' (first
    | with_reducible exact Kept.refl _ | with_reducible apply Kept.trans _ (kept_modPlArray ..)
    | with_reducible apply Kept.trans _ (kept_acontrol ..))

theorem kept_loadWindow (ap : Nat) (slot : Nat) (b : Nat) (next : Bool) (inRing : Bool) (s : State) : Kept s (State.loadWindow ap slot b next inRing s) := by
  unfold State.loadWindow
  repeat' (first
    | with_reducible exact Kept.refl _ | with_reducible refine Kept.ite (fun _ => ?_) (fun _ => ?_)
    | with_reducible apply Kept.trans _ (kept_zeroBlock ..) | with_reducible apply Kept.trans _ (kept_modPlGroup ..)
    | with_reducible apply Kept.trans _ (kept_modAport ..) | with_reducible apply Kept.trans _ (kept_raise ..)
    | with_reducible apply Kept.trans _ (kept_modPlArray ..) | with_reducible apply Kept.trans _ (kept_alaunch ..) | dsimp only
    | split)

theorem kept_epochClear (g : Nat) (e : Nat) (b : Nat) (s : State) : Kept s (State.epochClear g e b s) := by
  unfold State.epochClear
  repeat' (first
    | with_reducible exact Kept.refl _ | with_reducible refine Kept.ite (fun _ => ?_) (fun _ => ?_)
    | with_reducible apply Kept.trans _ (kept_modPlArray ..) | with_reducible apply Kept.trans _ (kept_acontrol ..)
    | with_reducible refine Kept.trans ?_ (Kept.foldl ?_ _ _) | intro _ | dsimp only | split)

theorem kept_globalReset (g : Nat) (e : Nat) (s : State) : Kept s (State.globalReset g e s) := by
  unfold State.globalReset
  repeat' (first
    | with_reducible exact Kept.refl _ | with_reducible refine Kept.ite (fun _ => ?_) (fun _ => ?_)
    | with_reducible apply Kept.trans _ (kept_modAport ..) | with_reducible apply Kept.trans _ (kept_modPlArray ..)
    | with_reducible apply Kept.trans _ (kept_acontrol ..) | with_reducible refine Kept.trans ?_ (Kept.foldl ?_ _ _) | intro _
    | dsimp only | split)

theorem kept_slotReset (g : Nat) (slot : Nat) (b : Nat) (s : State) : Kept s (State.slotReset g slot b s) := by
  unfold State.slotReset
  repeat' (first
    | with_reducible exact Kept.refl _ | with_reducible refine Kept.ite (fun _ => ?_) (fun _ => ?_)
    | with_reducible apply Kept.trans _ (kept_modPlArray ..) | with_reducible apply Kept.trans _ (kept_modPlGroup ..)
    | with_reducible refine Kept.trans ?_ (Kept.foldl ?_ _ _) | intro _ | dsimp only | split)

theorem kept_areturn (ap : Nat) (typ : Nat) (b : Bytes) (k : State → State) (s : State) (hk : ∀ s, Kept s (k s)) : Kept s (State.areturn ap typ b k s) := by
  unfold State.areturn
  repeat' (first
    | with_reducible exact Kept.refl _ | with_reducible refine Kept.ite (fun _ => ?_) (fun _ => ?_)
    | with_reducible apply Kept.trans _ (kept_modAport ..) | with_reducible refine Kept.trans ?_ (hk _))

theorem kept_areport (ap : Nat) (st : Nat) (s : State) : Kept s (State.areport ap st s) := by
  unfold State.areport
  repeat' (first
    | with_reducible exact Kept.refl _ | with_reducible refine Kept.ite (fun _ => ?_) (fun _ => ?_)
    | with_reducible apply Kept.trans _ (kept_setArray ..) | with_reducible apply Kept.trans _ (kept_apark ..))

theorem kept_aack (ap : Nat) (b : Bytes) (s : State) : Kept s (State.aack ap b s) := by
  unfold State.aack
  repeat' (first
    | with_reducible exact Kept.refl _ | with_reducible refine Kept.ite (fun _ => ?_) (fun _ => ?_)
    | with_reducible apply Kept.trans _ (kept_modAport ..) | with_reducible apply Kept.trans _ (kept_areport ..)
    | with_reducible apply Kept.trans _ (kept_ablank ..))

theorem kept_aswapStart (ap : Nat) (logical : Nat) (cause : Nat) (s : State) : Kept s (State.aswapStart ap logical cause s) := by
  unfold State.aswapStart
  repeat' (first
    | with_reducible exact Kept.refl _ | with_reducible refine Kept.ite (fun _ => ?_) (fun _ => ?_)
    | with_reducible apply Kept.trans _ (kept_setLane ..) | with_reducible apply Kept.trans _ (kept_modAport ..))

theorem kept_astatus (ap : Nat) (b : Bytes) (s : State) : Kept s (State.astatus ap b s) := by
  unfold State.astatus
  repeat' (first
    | with_reducible exact Kept.refl _ | with_reducible refine Kept.ite (fun _ => ?_) (fun _ => ?_)
    | with_reducible apply Kept.trans _ (kept_modAport ..) | with_reducible apply Kept.trans _ (kept_areport ..)
    | with_reducible apply Kept.trans _ (kept_ablank ..) | with_reducible apply Kept.trans _ (kept_aretrain ..)
    | with_reducible apply Kept.trans _ (kept_aswapStart ..) | dsimp only | split)

theorem kept_afault (ap : Nat) (b : Bytes) (s : State) : Kept s (State.afault ap b s) := by
  unfold State.afault
  repeat' (first
    | with_reducible exact Kept.refl _ | with_reducible apply Kept.trans _ (kept_apark ..)
    | with_reducible apply Kept.trans _ (kept_raise ..))

theorem kept_aregData (ap : Nat) (b : Bytes) (s : State) : Kept s (State.aregData ap b s) := by
  unfold State.aregData
  repeat' (first
    | with_reducible exact Kept.refl _ | with_reducible apply Kept.trans _ (kept_dropLease ..)
    | with_reducible apply Kept.trans _ (kept_modAport ..))

theorem kept_alane (ap : Nat) (b : Bytes) (s : State) : Kept s (State.alane ap b s).1 := by
  unfold State.alane
  repeat' (first
    | with_reducible exact Kept.refl _ | with_reducible refine Kept.iteFst (fun _ => ?_) (fun _ => ?_)
    | with_reducible apply Kept.trans _ (kept_modAport ..) | with_reducible apply Kept.trans _ (kept_raise ..))

theorem kept_aswapSend (ap : Nat) (n : Nat) (s : State) : Kept s (State.aswapSend ap n s) := by
  unfold State.aswapSend
  repeat' (first
    | with_reducible exact Kept.refl _ | with_reducible refine Kept.ite (fun _ => ?_) (fun _ => ?_)
    | with_reducible apply Kept.trans _ (kept_acontrol ..) | with_reducible apply Kept.trans _ (kept_modAport ..) | split)

theorem kept_aswapMove (ap : Nat) (s : State) : Kept s (State.aswapMove ap s) := by
  unfold State.aswapMove
  repeat' (first
    | with_reducible exact Kept.refl _ | with_reducible refine Kept.ite (fun _ => ?_) (fun _ => ?_)
    | with_reducible apply Kept.trans _ (kept_setLane ..) | with_reducible apply Kept.trans _ (kept_modAport ..) | dsimp only
    | split)

theorem kept_aswapEnd (ap : Nat) (s : State) : Kept s (State.aswapEnd ap s) := by
  unfold State.aswapEnd
  repeat' (first
    | with_reducible exact Kept.refl _ | with_reducible refine Kept.ite (fun _ => ?_) (fun _ => ?_)
    | with_reducible apply Kept.trans _ (kept_raise ..) | with_reducible apply Kept.trans _ (kept_setLane ..)
    | with_reducible apply Kept.trans _ (kept_modAport ..) | dsimp only | split)

theorem kept_aackTimeout (ap : Nat) (s : State) : Kept s (State.aackTimeout ap s) := by
  unfold State.aackTimeout
  repeat' (first
    | with_reducible exact Kept.refl _ | with_reducible refine Kept.ite (fun _ => ?_) (fun _ => ?_)
    | with_reducible apply Kept.trans _ (kept_raiseLimited ..) | with_reducible apply Kept.trans _ (kept_modAport ..))

theorem kept_asilent (ap : Nat) (s : State) : Kept s (State.asilent ap s) := by
  unfold State.asilent
  repeat' (first
    | with_reducible exact Kept.refl _ | with_reducible refine Kept.ite (fun _ => ?_) (fun _ => ?_)
    | with_reducible apply Kept.trans _ (kept_aretrain ..) | with_reducible apply Kept.trans _ (kept_raise ..)
    | with_reducible apply Kept.trans _ (kept_modAport ..) | dsimp only | split)

theorem kept_execAck (t : Nat) (ap : Nat) (msg : Bytes) (s : State) : KeepsGoing s (execAck t ap msg s) := by
  unfold execAck
  repeat' (first
    | with_reducible exact Kept.refl _ | with_reducible apply KeepsGoing.next
    | with_reducible refine Kept.trans ?_ (kept_areturn _ _ _ _ _ ?_) | with_reducible apply Kept.trans _ (kept_aack ..)
    | with_reducible apply Kept.trans _ (kept_advance ..) | intro _)

theorem kept_execStatus (t : Nat) (ap : Nat) (msg : Bytes) (s : State) : KeepsGoing s (execStatus t ap msg s) := by
  unfold execStatus
  repeat' (first
    | with_reducible exact Kept.refl _ | with_reducible apply KeepsGoing.next
    | with_reducible refine Kept.trans ?_ (kept_areturn _ _ _ _ _ ?_) | with_reducible apply Kept.trans _ (kept_astatus ..)
    | with_reducible apply Kept.trans _ (kept_advance ..) | intro _)

theorem kept_execRegData (t : Nat) (ap : Nat) (msg : Bytes) (s : State) : KeepsGoing s (execRegData t ap msg s) := by
  unfold execRegData
  repeat' (first
    | with_reducible exact Kept.refl _ | with_reducible apply KeepsGoing.next
    | with_reducible refine Kept.trans ?_ (kept_areturn _ _ _ _ _ ?_) | with_reducible apply Kept.trans _ (kept_aregData ..)
    | with_reducible apply Kept.trans _ (kept_advance ..) | intro _)

theorem kept_execEcho (t : Nat) (ap : Nat) (msg : Bytes) (s : State) : KeepsGoing s (execEcho t ap msg s) := by
  exact KeepsGoing.next (Kept.trans (kept_advance ..) (kept_areturn _ _ _ _ _ Kept.refl))

theorem kept_execFault (t : Nat) (ap : Nat) (msg : Bytes) (s : State) : KeepsGoing s (execFault t ap msg s) := by
  unfold execFault
  repeat' (first
    | with_reducible exact Kept.refl _ | with_reducible apply KeepsGoing.next
    | with_reducible refine Kept.trans ?_ (kept_areturn _ _ _ _ _ ?_) | with_reducible apply Kept.trans _ (kept_afault ..)
    | with_reducible apply Kept.trans _ (kept_advance ..) | intro _)

theorem kept_execLaneSwapSend (t : Nat) (ap : Nat) (codeword : Nat) (s : State) : KeepsGoing s (execLaneSwapSend t ap codeword s) := by
  unfold execLaneSwapSend
  repeat' (first
    | with_reducible exact Kept.refl _ | with_reducible apply KeepsGoing.next
    | with_reducible apply Kept.trans _ (kept_aswapSend ..) | with_reducible apply Kept.trans _ (kept_advance ..))

theorem kept_execLaneSwapCodeword (t : Nat) (ap : Nat) (s : State) : KeepsGoing s (execLaneSwapCodeword t ap s) := by
  unfold execLaneSwapCodeword
  repeat' (first
    | with_reducible exact Kept.refl _ | with_reducible apply KeepsGoing.next
    | with_reducible apply Kept.trans _ (kept_aswapMove ..) | with_reducible apply Kept.trans _ (kept_advance ..))

theorem kept_execArcdAckTimeout (t : Nat) (ap : Nat) (s : State) : KeepsGoing s (execArcdAckTimeout t ap s) := by
  unfold execArcdAckTimeout
  repeat' (first
    | with_reducible exact Kept.refl _ | with_reducible apply KeepsGoing.next
    | with_reducible apply Kept.trans _ (kept_aackTimeout ..) | with_reducible apply Kept.trans _ (kept_advance ..))

theorem kept_execArcdReturnSilent (t : Nat) (ap : Nat) (s : State) : KeepsGoing s (execArcdReturnSilent t ap s) := by
  unfold execArcdReturnSilent
  repeat' (first
    | with_reducible exact Kept.refl _ | with_reducible apply KeepsGoing.next
    | with_reducible apply Kept.trans _ (kept_asilent ..) | with_reducible apply Kept.trans _ (kept_advance ..))

theorem kept_execKeepaliveSend (t : Nat) (ap : Nat) (s : State) : KeepsGoing s (execKeepaliveSend t ap s) := by
  unfold execKeepaliveSend
  repeat' (first
    | with_reducible exact Kept.refl _ | with_reducible refine Kept.ite (fun _ => ?_) (fun _ => ?_)
    | with_reducible apply KeepsGoing.next | with_reducible apply Kept.trans _ (kept_advance ..)
    | with_reducible apply Kept.trans _ (kept_akeep ..))

theorem kept_execArrayTraining (t : Nat) (ap : Nat) (s : State) : KeepsGoing s (execArrayTraining t ap s) := by
  unfold execArrayTraining
  repeat' (first
    | with_reducible exact Kept.refl _ | with_reducible refine Kept.ite (fun _ => ?_) (fun _ => ?_)
    | with_reducible apply KeepsGoing.next | with_reducible apply Kept.trans _ (kept_advance ..)
    | with_reducible apply Kept.trans _ (kept_atrain ..))

theorem kept_execBlockLoadWindow (t : Nat) (ap : Nat) (slot : Nat) (block : Nat) (next : Bool) (inRing : Bool) (s : State) : KeepsGoing s (execBlockLoadWindow t ap slot block next inRing s) := by
  unfold execBlockLoadWindow
  repeat' (first
    | with_reducible exact Kept.refl _ | with_reducible apply KeepsGoing.next
    | with_reducible apply Kept.trans _ (kept_loadWindow ..) | with_reducible apply Kept.trans _ (kept_advance ..))

theorem kept_execEpochClear (t : Nat) (group : Nat) (epoch : Nat) (block : Nat) (s : State) : KeepsGoing s (execEpochClear t group epoch block s) := by
  unfold execEpochClear
  repeat' (first
    | with_reducible exact Kept.refl _ | with_reducible apply KeepsGoing.next
    | with_reducible apply Kept.trans _ (kept_epochClear ..) | with_reducible apply Kept.trans _ (kept_advance ..))

theorem kept_execGlobalReset (t : Nat) (group : Nat) (epoch : Nat) (s : State) : KeepsGoing s (execGlobalReset t group epoch s) := by
  unfold execGlobalReset
  repeat' (first
    | with_reducible exact Kept.refl _ | with_reducible apply KeepsGoing.next
    | with_reducible apply Kept.trans _ (kept_globalReset ..) | with_reducible apply Kept.trans _ (kept_advance ..))

theorem kept_execSlotReset (t : Nat) (group : Nat) (slot : Nat) (block : Nat) (s : State) : KeepsGoing s (execSlotReset t group slot block s) := by
  unfold execSlotReset
  repeat' (first
    | with_reducible exact Kept.refl _ | with_reducible apply KeepsGoing.next
    | with_reducible apply Kept.trans _ (kept_slotReset ..) | with_reducible apply Kept.trans _ (kept_advance ..))

theorem kept_execScheduleDelivery (t : Nat) (group : Nat) (found : List (List SchedEpoch)) (us : Nat) (s : State) : KeepsGoing s (execScheduleDelivery t group found us s) := by
  unfold execScheduleDelivery
  repeat' (first
    | with_reducible exact Kept.refl _ | with_reducible refine Kept.ite (fun _ => ?_) (fun _ => ?_)
    | with_reducible apply KeepsGoing.next | with_reducible apply Kept.trans _ (kept_advance ..)
    | with_reducible apply Kept.trans _ (kept_compilerLease ..) | with_reducible apply Kept.trans _ (kept_deliver ..))

theorem kept_compileExpires (g : Nat) (s : State) : Kept s (State.compileExpires g s) := by
  unfold State.compileExpires
  repeat' (first
    | with_reducible exact Kept.refl _ | with_reducible refine Kept.ite (fun _ => ?_) (fun _ => ?_)
    | with_reducible apply Kept.trans _ (kept_fallback ..))

theorem kept_execCompileDeadline (t : Nat) (group : Nat) (s : State) : KeepsGoing s (execCompileDeadline t group s) := by
  unfold execCompileDeadline
  repeat' (first
    | with_reducible exact Kept.refl _ | with_reducible apply KeepsGoing.next
    | with_reducible apply Kept.trans _ (kept_compilerLease ..) | with_reducible apply Kept.trans _ (kept_compileExpires ..)
    | with_reducible apply Kept.trans _ (kept_advance ..))

theorem kept_planesLate (late : List (Nat × Nat × Nat)) (s : State) : Kept s (State.planesLate late s) := by
  unfold State.planesLate
  repeat' (first
    | with_reducible exact Kept.refl _ | with_reducible refine Kept.ite (fun _ => ?_) (fun _ => ?_)
    | with_reducible apply Kept.trans _ (kept_modPlArray ..) | with_reducible apply Kept.trans _ (kept_raise ..)
    | with_reducible apply Kept.trans _ (kept_modPlgn ..) | with_reducible refine Kept.trans ?_ (Kept.foldl ?_ _ _) | intro _
    | dsimp only | split)

theorem kept_execPlgnPlaneLate (t : Nat) (late : List (Nat × Nat × Nat)) (s : State) : KeepsGoing s (execPlgnPlaneLate t late s) := by
  unfold execPlgnPlaneLate
  repeat' (first
    | with_reducible exact Kept.refl _ | with_reducible apply KeepsGoing.next
    | with_reducible apply Kept.trans _ (kept_planesLate ..) | with_reducible apply Kept.trans _ (kept_advance ..))

/-! ## Machine/Lamp.lean -/

theorem kept_modChain (n : Nat) (f : Chain → Chain) (s : State) : Kept s (State.modChain n f s) := by
  unfold State.modChain
  repeat' (first
    | with_reducible exact Kept.refl _ | with_reducible apply Kept.trans _ (kept_modLamp ..))

theorem kept_modDriver (n : Nat) (f : LDriver → LDriver) (s : State) : Kept s (State.modDriver n f s) := by
  unfold State.modDriver
  repeat' (first
    | with_reducible exact Kept.refl _ | with_reducible apply Kept.trans _ (kept_modLamp ..))

theorem kept_lampSend (n : Nat) (ty : Nat) (addr : Nat) (body : Bytes) (s0 : State) : Kept s0 (State.lampSend n ty addr body s0) := by
  unfold State.lampSend
  repeat' (first
    | with_reducible exact Kept.refl _ | with_reducible refine Kept.ite (fun _ => ?_) (fun _ => ?_)
    | with_reducible apply Kept.trans _ (kept_modChain ..) | with_reducible apply Kept.trans _ (kept_takeLeaseOf ..)
    | with_reducible apply Kept.trans _ (kept_emit ..))

theorem kept_driveKill (s : State) : Kept s (State.driveKill s) := by
  unfold State.driveKill
  repeat' (first
    | with_reducible exact Kept.refl _ | with_reducible refine Kept.ite (fun _ => ?_) (fun _ => ?_)
    | with_reducible apply Kept.trans _ (kept_emits ..))

theorem kept_setLatch (causes : Nat) (s : State) : Kept s (State.setLatch causes s) := by
  unfold State.setLatch
  repeat' (first
    | with_reducible exact Kept.refl _ | with_reducible apply Kept.trans _ (kept_emits ..)
    | with_reducible apply Kept.trans _ (kept_driveKill ..) | with_reducible apply Kept.trans _ (kept_modLamp ..))

theorem kept_intlkLevel (b : Bool) (high : Bool) (s : State) : Kept s (State.intlkLevel b high s) := by
  unfold State.intlkLevel
  repeat' (first
    | with_reducible exact Kept.refl _ | with_reducible apply Kept.trans _ (kept_modLamp ..))

theorem kept_fastMean (c : Nat) (n : Nat) (w : Int × Bool) (s : State) : Kept s (State.fastMean c n w s).1 := by
  unfold State.fastMean
  repeat' (first
    | with_reducible exact Kept.refl _ | with_reducible refine Kept.iteFst (fun _ => ?_) (fun _ => ?_)
    | with_reducible apply Kept.trans _ (kept_modLamp ..) | with_reducible apply Kept.trans _ (kept_raiseLimited ..))

theorem kept_fastWindow (c : Nat) (w : Int × Bool) (s : State) : Kept s (State.fastWindow c w s).1 := by
  unfold State.fastWindow
  repeat' (first
    | with_reducible exact Kept.refl _ | with_reducible apply Kept.trans _ (kept_fastMean ..)
    | refine Kept.trans ?_ (Kept.ofFst (kept_fastMean ..) (by assumption))
    | with_reducible apply Kept.trans _ (kept_modLamp ..) | split)

theorem kept_learnOffset (c : Nat) (sum : Int) (s : State) : Kept s (State.learnOffset c sum s) := by
  unfold State.learnOffset
  repeat' (first
    | with_reducible exact Kept.refl _ | with_reducible apply Kept.trans _ (kept_modLamp ..))

theorem kept_slowConvert (code : Nat) (vio : Nat) (s : State) : Kept s (State.slowConvert code vio s) := by
  unfold State.slowConvert
  repeat' (first
    | with_reducible exact Kept.refl _ | with_reducible apply Kept.trans _ (kept_modLamp ..))

theorem kept_sensorJudge (c : Nat) (s : State) : Kept s (State.sensorJudge c s) := by
  unfold State.sensorJudge
  repeat' (first
    | with_reducible exact Kept.refl _ | with_reducible refine Kept.ite (fun _ => ?_) (fun _ => ?_)
    | with_reducible apply Kept.trans _ (kept_raise ..) | with_reducible apply Kept.trans _ (kept_modLamp ..))

theorem kept_railJudge (c : Nat) (s : State) : Kept s (State.railJudge c s) := by
  unfold State.railJudge
  repeat' (first
    | with_reducible exact Kept.refl _ | with_reducible refine Kept.ite (fun _ => ?_) (fun _ => ?_)
    | with_reducible apply Kept.trans _ (kept_raise ..) | with_reducible apply Kept.trans _ (kept_modLamp ..))

theorem kept_setChain (n : Nat) (v : Nat) (s : State) : Kept s (State.setChain n v s) := by
  unfold State.setChain
  repeat' (first
    | with_reducible exact Kept.refl _ | with_reducible apply Kept.trans _ (kept_driveKill ..)
    | with_reducible apply Kept.trans _ (kept_modChain ..))

theorem kept_startEnum (n : Nat) (s : State) : Kept s (State.startEnum n s) := by
  unfold State.startEnum
  repeat' (first
    | with_reducible exact Kept.refl _ | with_reducible apply Kept.trans _ (kept_setChain ..)
    | with_reducible apply Kept.trans _ (kept_modChain ..))

theorem kept_setDriver (n : Nat) (v : Nat) (s : State) : Kept s (State.setDriver n v s) := by
  unfold State.setDriver
  repeat' (first
    | with_reducible exact Kept.refl _ | with_reducible apply Kept.trans _ (kept_setObs ..))

theorem kept_keepRegs (n : Nat) (r : List Nat) (s : State) : Kept s (State.keepRegs n r s) := by
  unfold State.keepRegs
  repeat' (first
    | with_reducible exact Kept.refl _ | with_reducible apply Kept.trans _ (kept_modDriver ..))

theorem kept_readRegs (n : Nat) (k : Nat) (s : State) : Kept s (State.readRegs n k s) := by
  unfold State.readRegs
  repeat' (first
    | with_reducible exact Kept.refl _ | with_reducible apply Kept.trans _ (kept_lampSend ..)
    | with_reducible refine Kept.trans ?_ (Kept.foldl ?_ _ _) | intro _)

theorem kept_writeRegs (n : Nat) (k : Nat) (lead : Nat) (s : State) : Kept s (State.writeRegs n k lead s) := by
  unfold State.writeRegs
  repeat' (first
    | with_reducible exact Kept.refl _ | with_reducible apply Kept.trans _ (kept_lampSend ..)
    | with_reducible refine Kept.trans ?_ (Kept.foldl ?_ _ _) | intro _)

theorem kept_enumerate (n : Nat) (count : Nat) (regs : List (List Nat)) (loop : Nat) (s : State) : Kept s (State.enumerate n count regs loop s) := by
  unfold State.enumerate
  repeat' (first
    | with_reducible exact Kept.refl _ | with_reducible refine Kept.ite (fun _ => ?_) (fun _ => ?_)
    | with_reducible apply Kept.trans _ (kept_startEnum ..) | with_reducible apply Kept.trans _ (kept_modChain ..)
    | with_reducible apply Kept.trans _ (kept_lampSend ..) | with_reducible apply Kept.trans _ (kept_raise ..)
    | with_reducible apply Kept.trans _ (kept_setChain ..) | with_reducible apply Kept.trans _ (kept_keepRegs ..)
    | with_reducible apply Kept.trans _ (kept_readRegs ..) | with_reducible apply Kept.trans _ (kept_writeRegs ..)
    | with_reducible apply Kept.trans _ (kept_modDriver ..) | with_reducible apply Kept.trans _ (kept_setDriver ..)
    | with_reducible apply Kept.trans _ (kept_modLamp ..) | with_reducible refine Kept.trans ?_ (Kept.foldl ?_ _ _) | intro _)

theorem kept_chainDown (n : Nat) (cause : Nat) (s : State) : Kept s (State.chainDown n cause s) := by
  unfold State.chainDown
  repeat' (first
    | with_reducible exact Kept.refl _ | with_reducible refine Kept.ite (fun _ => ?_) (fun _ => ?_)
    | with_reducible apply Kept.trans _ (kept_setDriver ..) | with_reducible apply Kept.trans _ (kept_modChain ..)
    | with_reducible apply Kept.trans _ (kept_raise ..) | with_reducible apply Kept.trans _ (kept_emit ..)
    | with_reducible apply Kept.trans _ (kept_setChain ..) | with_reducible refine Kept.trans ?_ (Kept.foldl ?_ _ _) | intro _)

/-! ## Machine/Loop.lean -/

theorem kept_modBand (b : Nat) (f : LBand → LBand) (s : State) : Kept s (State.modBand b f s) := by
  unfold State.modBand
  repeat' (first
    | with_reducible exact Kept.refl _ | with_reducible apply Kept.trans _ (kept_modLoop ..))

theorem kept_modString (k : Nat) (f : LString → LString) (s : State) : Kept s (State.modString k f s) := by
  unfold State.modString
  repeat' (first
    | with_reducible exact Kept.refl _ | with_reducible apply Kept.trans _ (kept_modLoop ..))

theorem kept_modStrings (ks : List Nat) (f : LString → LString) (s : State) : Kept s (State.modStrings ks f s) := by
  unfold State.modStrings
  repeat' (first
    | with_reducible exact Kept.refl _ | with_reducible apply Kept.trans _ (kept_modString ..)
    | with_reducible refine Kept.trans ?_ (Kept.foldl ?_ _ _) | intro _)

theorem kept_setStringObs (k : Nat) (v : Nat) (s : State) : Kept s (State.setStringObs k v s) := by
  unfold State.setStringObs
  repeat' (first
    | with_reducible exact Kept.refl _ | with_reducible refine Kept.ite (fun _ => ?_) (fun _ => ?_)
    | with_reducible apply Kept.trans _ (kept_raise ..) | with_reducible apply Kept.trans _ (kept_setObs ..))

theorem kept_followStrings (b : Nat) (s : State) : Kept s (State.followStrings b s) := by
  unfold State.followStrings
  repeat' (first
    | with_reducible exact Kept.refl _ | with_reducible apply Kept.trans _ (kept_setStringObs ..)
    | with_reducible refine Kept.trans ?_ (Kept.foldl ?_ _ _) | intro _)

theorem kept_judgeDead (s : State) : Kept s (State.judgeDead s) := by
  unfold State.judgeDead
  repeat' (first
    | with_reducible exact Kept.refl _ | with_reducible apply Kept.trans _ (kept_modLoop ..))

theorem kept_setBand (b : Nat) (v : Nat) (s : State) : Kept s (State.setBand b v s) := by
  unfold State.setBand
  repeat' (first
    | with_reducible exact Kept.refl _ | with_reducible refine Kept.ite (fun _ => ?_) (fun _ => ?_)
    | with_reducible apply Kept.trans _ (kept_judgeDead ..) | with_reducible apply Kept.trans _ (kept_followStrings ..)
    | with_reducible apply Kept.trans _ (kept_raise ..) | with_reducible apply Kept.trans _ (kept_modBand ..)
    | with_reducible apply Kept.trans _ (kept_setObs ..))

theorem kept_zeroBand (b : Nat) (s : State) : Kept s (State.zeroBand b s) := by
  unfold State.zeroBand
  repeat' (first
    | with_reducible exact Kept.refl _ | with_reducible apply Kept.trans _ (kept_modBand ..)
    | with_reducible apply Kept.trans _ (kept_modStrings ..))

theorem kept_killBand (b : Nat) (s : State) : Kept s (State.killBand b s) := by
  unfold State.killBand
  repeat' (first
    | with_reducible exact Kept.refl _ | with_reducible apply Kept.trans _ (kept_modBand ..)
    | with_reducible apply Kept.trans _ (kept_modStrings ..) | with_reducible apply Kept.trans _ (kept_setBand ..))

theorem kept_reviveBand (b : Nat) (s : State) : Kept s (State.reviveBand b s) := by
  unfold State.reviveBand
  repeat' (first
    | with_reducible exact Kept.refl _ | with_reducible refine Kept.ite (fun _ => ?_) (fun _ => ?_)
    | with_reducible apply Kept.trans _ (kept_modBand ..) | with_reducible apply Kept.trans _ (kept_setBand ..)
    | with_reducible apply Kept.trans _ (kept_zeroBand ..))

theorem kept_derate (b : Nat) (s : State) : Kept s (State.derate b s) := by
  unfold State.derate
  repeat' (first
    | with_reducible exact Kept.refl _ | with_reducible apply Kept.trans _ (kept_setBand ..)
    | with_reducible apply Kept.trans _ (kept_modBand ..))

theorem kept_enterHold (b : Nat) (flag : Nat) (s : State) : Kept s (State.enterHold b flag s) := by
  unfold State.enterHold
  repeat' (first
    | with_reducible exact Kept.refl _ | with_reducible refine Kept.ite (fun _ => ?_) (fun _ => ?_)
    | with_reducible apply Kept.trans _ (kept_modBand ..) | with_reducible apply Kept.trans _ (kept_derate ..)
    | with_reducible apply Kept.trans _ (kept_setBand ..))

theorem kept_bandTempJudge (b : Nat) (s : State) : Kept s (State.bandTempJudge b s) := by
  unfold State.bandTempJudge
  repeat' (first
    | with_reducible exact Kept.refl _ | with_reducible refine Kept.ite (fun _ => ?_) (fun _ => ?_)
    | with_reducible apply Kept.trans _ (kept_raise ..) | with_reducible apply Kept.trans _ (kept_modBand ..)
    | with_reducible apply Kept.trans _ (kept_derate ..) | with_reducible apply Kept.trans _ (kept_setBand ..))

theorem kept_bandCommand (b : Nat) (v : Nat) (s : State) : Kept s (State.bandCommand b v s) := by
  unfold State.bandCommand
  repeat' (first
    | with_reducible exact Kept.refl _ | with_reducible refine Kept.ite (fun _ => ?_) (fun _ => ?_)
    | with_reducible apply Kept.trans _ (kept_killBand ..) | with_reducible apply Kept.trans _ (kept_reviveBand ..)
    | with_reducible apply Kept.trans _ (kept_modBand ..) | with_reducible apply Kept.trans _ (kept_setBand ..))

theorem kept_stick (b : Nat) (flags : Nat) (s : State) : Kept s (State.stick b flags s) := by
  unfold State.stick
  repeat' (first
    | with_reducible exact Kept.refl _ | with_reducible refine Kept.ite (fun _ => ?_) (fun _ => ?_)
    | with_reducible apply Kept.trans _ (kept_raise ..) | with_reducible apply Kept.trans _ (kept_modBand ..))

theorem kept_envEvent (inst : Nat) (obj : Nat) (old : Nat) (new : Nat) (s : State) : Kept s (State.envEvent inst obj old new s) := by
  unfold State.envEvent
  repeat' (first
    | with_reducible exact Kept.refl _ | with_reducible refine Kept.ite (fun _ => ?_) (fun _ => ?_)
    | with_reducible apply Kept.trans _ (kept_raise ..))

theorem kept_pinBand (b : Nat) (vs : List Int) (s : State) : Kept s (State.pinBand b vs s) := by
  unfold State.pinBand
  repeat' (first
    | with_reducible exact Kept.refl _ | with_reducible apply Kept.trans _ (kept_envEvent ..)
    | with_reducible apply Kept.trans _ (kept_modBand ..))

theorem kept_openBand (b : Nat) (ff : Int) (rp : Int) (s : State) : Kept s (State.openBand b ff rp s) := by
  unfold State.openBand
  repeat' (first
    | with_reducible exact Kept.refl _ | with_reducible apply Kept.trans _ (kept_pinBand ..)
    | with_reducible apply Kept.trans _ (kept_modString ..) | with_reducible refine Kept.trans ?_ (Kept.foldl ?_ _ _) | intro _)

theorem kept_closedBand (b : Nat) (ff : Int) (rp : Int) (eg : Int) (dy : Int) (s : State) : Kept s (State.closedBand b ff rp eg dy s) := by
  unfold State.closedBand
  repeat' (first
    | with_reducible exact Kept.refl _ | with_reducible apply Kept.trans _ (kept_pinBand ..)
    | with_reducible apply Kept.trans _ (kept_modString ..) | with_reducible refine Kept.trans ?_ (Kept.foldl ?_ _ _) | intro _)

theorem kept_validTick (b : Nat) (j : Nat) (i : Nat) (y : Int) (s : State) : Kept s (State.validTick b j i y s) := by
  unfold State.validTick
  repeat' (first
    | with_reducible exact Kept.refl _ | with_reducible refine Kept.ite (fun _ => ?_) (fun _ => ?_)
    | with_reducible apply Kept.trans _ (kept_modBand ..) | with_reducible apply Kept.trans _ (kept_stick ..)
    | with_reducible apply Kept.trans _ (kept_closedBand ..) | with_reducible apply Kept.trans _ (kept_openBand ..))

theorem kept_invalidTick (b : Nat) (s : State) : Kept s (State.invalidTick b s) := by
  unfold State.invalidTick
  repeat' (first
    | with_reducible exact Kept.refl _ | with_reducible apply Kept.trans _ (kept_modBand ..))

theorem kept_shiftStrings (i : Nat) (old : List (Nat × Int)) (s : State) : Kept s (State.shiftStrings i old s) := by
  unfold State.shiftStrings
  repeat' (first
    | with_reducible exact Kept.refl _ | with_reducible refine Kept.ite (fun _ => ?_) (fun _ => ?_)
    | with_reducible apply Kept.trans _ (kept_modLoop ..) | with_reducible apply Kept.trans _ (kept_modString ..)
    | with_reducible refine Kept.trans ?_ (Kept.foldl ?_ _ _) | intro _)

theorem kept_pilotTick (b : Nat) (i : Nat) (s : State) : Kept s (State.pilotTick b i s) := by
  unfold State.pilotTick
  repeat' (first
    | with_reducible exact Kept.refl _ | with_reducible refine Kept.ite (fun _ => ?_) (fun _ => ?_)
    | with_reducible apply Kept.trans _ (kept_modString ..) | with_reducible apply Kept.trans _ (kept_modBand ..)
    | with_reducible refine Kept.trans ?_ (Kept.foldl ?_ _ _) | intro _)

theorem kept_learnEta (b : Nat) (k : Nat) (num : Int) (den : Nat) (s : State) : Kept s (State.learnEta b k num den s) := by
  unfold State.learnEta
  repeat' (first
    | with_reducible exact Kept.refl _ | with_reducible refine Kept.ite (fun _ => ?_) (fun _ => ?_)
    | with_reducible apply Kept.trans _ (kept_modString ..))

theorem kept_pilotEnd (b : Nat) (s : State) : Kept s (State.pilotEnd b s) := by
  unfold State.pilotEnd
  repeat' (first
    | with_reducible exact Kept.refl _ | with_reducible refine Kept.ite (fun _ => ?_) (fun _ => ?_)
    | with_reducible apply Kept.trans _ (kept_modBand ..) | with_reducible apply Kept.trans _ (kept_learnEta ..)
    | with_reducible apply Kept.trans _ (kept_modStrings ..) | with_reducible refine Kept.trans ?_ (Kept.foldl ?_ _ _)
    | intro _)

theorem kept_pipBand (b : Nat) (d : Option Int) (p : Option Int) (probe : Bool) (s : State) : Kept s (State.pipBand b d p probe s) := by
  unfold State.pipBand
  repeat' (first
    | with_reducible exact Kept.refl _ | with_reducible refine Kept.ite (fun _ => ?_) (fun _ => ?_)
    | with_reducible apply Kept.trans _ (kept_modBand ..) | dsimp only | split)

theorem kept_frameCal (b : Nat) (s : State) : Kept s (State.frameCal b s) := by
  unfold State.frameCal
  repeat' (first
    | with_reducible exact Kept.refl _ | with_reducible refine Kept.ite (fun _ => ?_) (fun _ => ?_)
    | with_reducible apply Kept.trans _ (kept_modBand ..) | with_reducible apply Kept.trans _ (kept_raise ..)
    | with_reducible apply Kept.trans _ (kept_learnEta ..) | dsimp only | split)

theorem kept_latchEstimate (f : Nat) (s : State) : Kept s (State.latchEstimate f s) := by
  unfold State.latchEstimate
  repeat' (first
    | with_reducible exact Kept.refl _ | with_reducible apply Kept.trans _ (kept_modLoop ..)
    | with_reducible apply Kept.trans _ (kept_modBand ..) | with_reducible apply Kept.trans _ (kept_modCGroup ..)
    | with_reducible refine Kept.trans ?_ (Kept.foldl ?_ _ _) | intro _ | split)

theorem kept_moveWallTarget (s : State) : Kept s (State.moveWallTarget s) := by
  unfold State.moveWallTarget
  repeat' (first
    | with_reducible exact Kept.refl _ | with_reducible apply Kept.trans _ (kept_envEvent ..)
    | with_reducible apply Kept.trans _ (kept_modLoop ..))

theorem kept_moveBandEnv (b : Nat) (s : State) : Kept s (State.moveBandEnv b s) := by
  unfold State.moveBandEnv
  repeat' (first
    | with_reducible exact Kept.refl _ | with_reducible apply Kept.trans _ (kept_envEvent ..)
    | with_reducible apply Kept.trans _ (kept_modBand ..))

theorem kept_bandFrame (b : Nat) (s : State) : Kept s (State.bandFrame b s) := by
  unfold State.bandFrame
  repeat' (first
    | with_reducible exact Kept.refl _ | with_reducible apply Kept.trans _ (kept_stick ..)
    | with_reducible apply Kept.trans _ (kept_modBand ..) | dsimp only | split)

theorem kept_takeEstimate (f : Nat) (s : State) : Kept s (State.takeEstimate f s) := by
  unfold State.takeEstimate
  repeat' (first
    | with_reducible exact Kept.refl _ | with_reducible apply Kept.trans _ (kept_modBand ..)
    | with_reducible apply Kept.trans _ (kept_modString ..) | with_reducible apply Kept.trans _ (kept_modLoop ..)
    | with_reducible refine Kept.trans ?_ (Kept.foldl ?_ _ _) | intro _ | dsimp only | split)

theorem kept_judgeHeadroom (s : State) : Kept s (State.judgeHeadroom s) := by
  unfold State.judgeHeadroom
  repeat' (first
    | with_reducible exact Kept.refl _ | with_reducible refine Kept.ite (fun _ => ?_) (fun _ => ?_)
    | with_reducible apply Kept.trans _ (kept_modLoop ..) | with_reducible apply Kept.trans _ (kept_raise ..) | dsimp only
    | split)

theorem kept_loopBoundary (f : Nat) (s : State) : Kept s (State.loopBoundary f s) := by
  unfold State.loopBoundary
  repeat' (first
    | with_reducible exact Kept.refl _ | with_reducible apply Kept.trans _ (kept_moveBandEnv ..)
    | with_reducible apply Kept.trans _ (kept_frameCal ..) | with_reducible apply Kept.trans _ (kept_takeEstimate ..)
    | with_reducible apply Kept.trans _ (kept_moveWallTarget ..) | with_reducible apply Kept.trans _ (kept_bandFrame ..)
    | with_reducible apply Kept.trans _ (kept_modBand ..) | with_reducible apply Kept.trans _ (kept_judgeHeadroom ..)
    | with_reducible apply Kept.trans _ (kept_modLoop ..) | with_reducible refine Kept.trans ?_ (Kept.foldl ?_ _ _) | intro _)

theorem kept_warmBands (s : State) : Kept s (State.warmBands s) := by
  unfold State.warmBands
  repeat' (first
    | with_reducible exact Kept.refl _ | with_reducible refine Kept.ite (fun _ => ?_) (fun _ => ?_)
    | with_reducible apply Kept.trans _ (kept_modBand ..) | with_reducible apply Kept.trans _ (kept_followStrings ..)
    | with_reducible apply Kept.trans _ (kept_setBand ..) | with_reducible apply Kept.trans _ (kept_setCmd ..)
    | with_reducible apply Kept.trans _ (kept_zeroBand ..) | with_reducible apply Kept.trans _ (kept_modLoop ..)
    | with_reducible refine Kept.trans ?_ (Kept.foldl ?_ _ _) | intro _)

theorem kept_warmEnd (b : Nat) (s : State) : Kept s (State.warmEnd b s) := by
  unfold State.warmEnd
  repeat' (first
    | with_reducible exact Kept.refl _ | with_reducible refine Kept.ite (fun _ => ?_) (fun _ => ?_)
    | with_reducible apply Kept.trans _ (kept_modBand ..) | split)

theorem kept_preload (b : Nat) (s : State) : Kept s (State.preload b s) := by
  unfold State.preload
  repeat' (first
    | with_reducible exact Kept.refl _ | with_reducible apply Kept.trans _ (kept_modString ..)
    | with_reducible refine Kept.trans ?_ (Kept.foldl ?_ _ _) | intro _)

theorem kept_closeBand (b : Nat) (s : State) : Kept s (State.closeBand b s) := by
  unfold State.closeBand
  repeat' (first
    | with_reducible exact Kept.refl _ | with_reducible refine Kept.ite (fun _ => ?_) (fun _ => ?_)
    | with_reducible apply Kept.trans _ (kept_modBand ..) | with_reducible apply Kept.trans _ (kept_setBand ..)
    | with_reducible apply Kept.trans _ (kept_preload ..))

theorem kept_modTrace (n : Nat) (f : LTrace → LTrace) (s : State) : Kept s (State.modTrace n f s) := by
  unfold State.modTrace
  repeat' (first
    | with_reducible exact Kept.refl _ | with_reducible apply Kept.trans _ (kept_modLoop ..))

theorem kept_traceArm (n : Nat) (s : State) : Kept s (State.traceArm n s) := by
  unfold State.traceArm
  repeat' (first
    | with_reducible exact Kept.refl _ | with_reducible apply Kept.trans _ (kept_modTrace ..))

theorem kept_padEntries (n : Nat) (want : Nat) (s : State) : Kept s (State.padEntries n want s) := by
  unfold State.padEntries
  repeat' (first
    | with_reducible exact Kept.refl _ | with_reducible refine Kept.ite (fun _ => ?_) (fun _ => ?_)
    | with_reducible apply Kept.trans _ (kept_modTrace ..) | with_reducible apply Kept.trans _ (kept_modFreeCtr ..))

theorem kept_traceTrigger (n : Nat) (s : State) : Kept s (State.traceTrigger n s) := by
  unfold State.traceTrigger
  repeat' (first
    | with_reducible exact Kept.refl _ | with_reducible refine Kept.ite (fun _ => ?_) (fun _ => ?_)
    | with_reducible apply Kept.trans _ (kept_modTrace ..) | with_reducible apply Kept.trans _ (kept_padEntries ..))

theorem kept_traceTick (n : Nat) (s : State) : Kept s (State.traceTick n s) := by
  unfold State.traceTick
  repeat' (first
    | with_reducible exact Kept.refl _ | with_reducible refine Kept.ite (fun _ => ?_) (fun _ => ?_)
    | with_reducible apply Kept.trans _ (kept_modTrace ..))

theorem kept_traceDone (n : Nat) (s : State) : Kept s (State.traceDone n s) := by
  unfold State.traceDone
  repeat' (first
    | with_reducible exact Kept.refl _ | with_reducible refine Kept.ite (fun _ => ?_) (fun _ => ?_)
    | with_reducible apply Kept.trans _ (kept_raise ..) | with_reducible apply Kept.trans _ (kept_modTrace ..))

/-! ## Machine/Drive.lean -/

theorem kept_modSweepBand (b : Nat) (f : SBand → SBand) (s : State) : Kept s (State.modSweepBand b f s) := by
  unfold State.modSweepBand
  repeat' (first
    | with_reducible exact Kept.refl _ | with_reducible apply Kept.trans _ (kept_modCoh ..))

theorem kept_meansBy {f : Nat → Int × Bool → State → State × Option Int} (h : ∀ c w t, Kept t (f c w t).1)
    (sums : List (Int × Bool)) (s : State) : Kept s (State.meansBy f sums s).1 := by
  unfold State.meansBy
  refine Kept.foldlPair (fun p c => ?_) _ _ _
  split
  · exact Kept.refl _
  · exact h _ _ _

theorem kept_learnOffsets (sums : List (Int × Bool)) (s : State) : Kept s (State.learnOffsets sums s) := by
  unfold State.learnOffsets
  repeat' (first
    | with_reducible exact Kept.refl _ | with_reducible refine Kept.ite (fun _ => ?_) (fun _ => ?_)
    | with_reducible apply Kept.trans _ (kept_learnOffset ..) | with_reducible refine Kept.trans ?_ (Kept.foldl ?_ _ _)
    | intro _ | split)

theorem kept_bandTick (i : Nat) (means : List (Option Int)) (s : State) (b : Nat) : Kept s (State.bandTick i means s b) := by
  unfold State.bandTick
  repeat' (first
    | with_reducible exact Kept.refl _ | with_reducible refine Kept.ite (fun _ => ?_) (fun _ => ?_)
    | with_reducible apply Kept.trans _ (kept_invalidTick ..) | with_reducible apply Kept.trans _ (kept_modBand ..)
    | with_reducible apply Kept.trans _ (kept_validTick ..) | with_reducible apply Kept.trans _ (kept_modSweepBand ..)
    | dsimp only | split)

theorem kept_loopTick (sums : List (Int × Bool)) (s : State) : Kept s (State.loopTick sums s) := by
  unfold State.loopTick
  repeat' (first
    | with_reducible exact Kept.refl _ | with_reducible refine Kept.ite (fun _ => ?_) (fun _ => ?_)
    | with_reducible apply Kept.trans _ (kept_meansBy ..) | with_reducible apply Kept.trans _ (kept_fastWindow ..)
    | with_reducible apply Kept.trans _ (kept_learnOffsets ..) | with_reducible apply Kept.trans _ (kept_modLoop ..)
    | with_reducible apply Kept.trans _ (kept_shiftStrings ..) | with_reducible apply Kept.trans _ (kept_bandTick ..)
    | with_reducible apply Kept.trans _ (kept_pilotTick ..) | with_reducible apply Kept.trans _ (kept_traceTick ..)
    | with_reducible refine Kept.trans ?_ (Kept.foldl ?_ _ _) | intro _)

theorem kept_pipWindow (g : Nat) (sums : List (Int × Bool)) (s : State) : Kept s (State.pipWindow g sums s) := by
  unfold State.pipWindow
  repeat' (first
    | with_reducible exact Kept.refl _ | with_reducible refine Kept.ite (fun _ => ?_) (fun _ => ?_)
    | with_reducible apply Kept.trans _ (kept_meansBy ..) | with_reducible apply Kept.trans _ (kept_fastMean ..)
    | with_reducible apply Kept.trans _ (kept_pipBand ..) | with_reducible apply Kept.trans _ (kept_modSweepBand ..)
    | with_reducible apply Kept.trans _ (kept_modLoop ..) | with_reducible refine Kept.trans ?_ (Kept.foldl ?_ _ _) | intro _
    | dsimp only | split)

theorem kept_sendSet' (n : Nat) (bands : Nat) (ahead : Nat) (bank : Nat) (at_ : Nat) (s : State) : Kept s (State.sendSet' n bands ahead bank at_ s) := by
  unfold State.sendSet'
  repeat' (first
    | with_reducible exact Kept.refl _ | with_reducible refine Kept.ite (fun _ => ?_) (fun _ => ?_)
    | with_reducible apply Kept.trans _ (kept_modChain ..) | with_reducible apply Kept.trans _ (kept_lampSend ..))

theorem kept_applyLive (n : Nat) (bands : Nat) (s : State) : Kept s (State.applyLive n bands s).1 := by
  unfold State.applyLive
  repeat' (first
    | with_reducible exact Kept.refl _ | with_reducible refine Kept.iteFst (fun _ => ?_) (fun _ => ?_)
    | with_reducible apply Kept.trans _ (kept_modChain ..) | with_reducible apply Kept.trans _ (kept_emit ..)
    | with_reducible apply Kept.trans _ (kept_raise ..) | with_reducible apply Kept.trans _ (kept_modLamp ..)
    | with_reducible refine Kept.trans ?_ (Kept.foldl ?_ _ _) | intro _ | dsimp only | split)

theorem kept_applyGate (n : Nat) (bands : Nat) (s : State) : Kept s (State.applyGate n bands s) := by
  unfold State.applyGate
  repeat' (first
    | with_reducible exact Kept.refl _ | with_reducible refine Kept.ite (fun _ => ?_) (fun _ => ?_)
    | with_reducible apply Kept.trans _ (kept_modChain ..) | with_reducible apply Kept.trans _ (kept_emit ..))

theorem kept_launch (bands : Nat) (s : State) : Kept s (State.launch bands s) := by
  unfold State.launch
  repeat' (first
    | with_reducible exact Kept.refl _ | with_reducible refine Kept.ite (fun _ => ?_) (fun _ => ?_)
    | with_reducible apply Kept.trans _ (kept_applyLive ..) | with_reducible apply Kept.trans _ (kept_applyGate ..)
    | with_reducible apply Kept.trans _ (kept_modBand ..) | with_reducible refine Kept.trans ?_ (Kept.foldl ?_ _ _) | intro _)

theorem kept_followAll (s : State) : Kept s (State.followAll s) := by
  unfold State.followAll
  repeat' (first
    | with_reducible exact Kept.refl _ | with_reducible apply Kept.trans _ (kept_judgeDead ..)
    | with_reducible apply Kept.trans _ (kept_followStrings ..) | with_reducible refine Kept.trans ?_ (Kept.foldl ?_ _ _)
    | intro _)

theorem kept_resume (d : Nat) (s : State) : Kept s (State.resume d s) := by
  unfold State.resume
  repeat' (first
    | with_reducible exact Kept.refl _ | with_reducible apply Kept.trans _ (kept_setDriver ..)
    | with_reducible apply Kept.trans _ (kept_lampSend ..))

theorem kept_takeSlot (d : Nat) (v : Nat) (s : State) : Kept s (State.takeSlot d v s) := by
  unfold State.takeSlot
  repeat' (first
    | with_reducible exact Kept.refl _ | with_reducible refine Kept.ite (fun _ => ?_) (fun _ => ?_)
    | with_reducible apply Kept.trans _ (kept_modDriver ..) | with_reducible apply Kept.trans _ (kept_raise ..)
    | with_reducible apply Kept.trans _ (kept_setDriver ..) | with_reducible apply Kept.trans _ (kept_resume ..))

theorem kept_takeLampFrame (n : Nat) (b : Bytes) (s : State) : Kept s (State.takeLampFrame n b s) := by
  unfold State.takeLampFrame
  repeat' (first
    | with_reducible exact Kept.refl _ | with_reducible refine Kept.ite (fun _ => ?_) (fun _ => ?_)
    | with_reducible apply Kept.trans _ (kept_modChain ..) | with_reducible apply Kept.trans _ (kept_dropLease ..)
    | with_reducible apply Kept.trans _ (kept_modDriver ..) | with_reducible apply Kept.trans _ (kept_resume ..)
    | with_reducible apply Kept.trans _ (kept_takeSlot ..) | with_reducible apply Kept.trans _ (kept_followAll ..)
    | with_reducible refine Kept.trans ?_ (Kept.foldl ?_ _ _) | intro _ | split)

theorem kept_lampReturn (n : Nat) (b : Bytes) (s : State) : Kept s (State.lampReturn n b s) := by
  unfold State.lampReturn
  repeat' (first
    | with_reducible exact Kept.refl _ | with_reducible refine Kept.ite (fun _ => ?_) (fun _ => ?_)
    | with_reducible apply Kept.trans _ (kept_takeLampFrame ..) | with_reducible apply Kept.trans _ (kept_raiseLimited ..)
    | with_reducible apply Kept.trans _ (kept_modChain ..))

theorem kept_execBandEstimateLatch (t : Nat) (s : State) : KeepsGoing s (execBandEstimateLatch t s) := by
  unfold execBandEstimateLatch
  repeat' (first
    | with_reducible exact Kept.refl _ | with_reducible refine KeepsGoing.ite (fun _ => ?_) (fun _ => ?_)
    | with_reducible apply KeepsGoing.next | with_reducible apply Kept.trans _ (kept_advance ..)
    | with_reducible apply Kept.trans _ (kept_latchEstimate ..))

theorem kept_execPipWindow (t : Nat) (group : Nat) (sums : List (Int × Bool)) (s : State) : KeepsGoing s (execPipWindow t group sums s) := by
  unfold execPipWindow
  repeat' (first
    | with_reducible exact Kept.refl _ | with_reducible apply KeepsGoing.next
    | with_reducible apply Kept.trans _ (kept_pipWindow ..) | with_reducible apply Kept.trans _ (kept_advance ..))

theorem kept_execLoopTick (t : Nat) (sums : List (Int × Bool)) (s : State) : KeepsGoing s (execLoopTick t sums s) := by
  unfold execLoopTick
  repeat' (first
    | with_reducible exact Kept.refl _ | with_reducible apply KeepsGoing.next
    | with_reducible apply Kept.trans _ (kept_loopTick ..) | with_reducible apply Kept.trans _ (kept_advance ..))

theorem kept_execLoopFeedbackLost (t : Nat) (band : Nat) (s : State) : KeepsGoing s (execLoopFeedbackLost t band s) := by
  unfold execLoopFeedbackLost
  repeat' (first
    | with_reducible exact Kept.refl _ | with_reducible refine KeepsGoing.ite (fun _ => ?_) (fun _ => ?_)
    | with_reducible apply KeepsGoing.next | with_reducible apply Kept.trans _ (kept_advance ..)
    | with_reducible apply Kept.trans _ (kept_enterHold ..) | with_reducible apply Kept.trans _ (kept_raise ..))

theorem kept_execLoopImplausible (t : Nat) (band : Nat) (s : State) : KeepsGoing s (execLoopImplausible t band s) := by
  unfold execLoopImplausible
  repeat' (first
    | with_reducible exact Kept.refl _ | with_reducible refine Kept.ite (fun _ => ?_) (fun _ => ?_)
    | with_reducible refine KeepsGoing.ite (fun _ => ?_) (fun _ => ?_) | with_reducible apply KeepsGoing.next
    | with_reducible apply Kept.trans _ (kept_advance ..) | with_reducible apply Kept.trans _ (kept_raise ..)
    | with_reducible apply Kept.trans _ (kept_enterHold ..) | with_reducible apply Kept.trans _ (kept_modBand ..))

theorem kept_execBandFrozen (t : Nat) (band : Nat) (s : State) : KeepsGoing s (execBandFrozen t band s) := by
  unfold execBandFrozen
  repeat' (first
    | with_reducible exact Kept.refl _ | with_reducible refine Kept.ite (fun _ => ?_) (fun _ => ?_)
    | with_reducible refine KeepsGoing.ite (fun _ => ?_) (fun _ => ?_) | with_reducible apply KeepsGoing.next
    | with_reducible apply Kept.trans _ (kept_advance ..) | with_reducible apply Kept.trans _ (kept_raise ..)
    | with_reducible apply Kept.trans _ (kept_enterHold ..) | with_reducible apply Kept.trans _ (kept_modBand ..))

theorem kept_execBandClose (t : Nat) (band : Nat) (s : State) : KeepsGoing s (execBandClose t band s) := by
  unfold execBandClose
  repeat' (first
    | with_reducible exact Kept.refl _ | with_reducible apply KeepsGoing.next
    | with_reducible apply Kept.trans _ (kept_closeBand ..) | with_reducible apply Kept.trans _ (kept_advance ..))

theorem kept_execWarmRampComplete (t : Nat) (band : Nat) (s : State) : KeepsGoing s (execWarmRampComplete t band s) := by
  unfold execWarmRampComplete
  repeat' (first
    | with_reducible exact Kept.refl _ | with_reducible apply KeepsGoing.next
    | with_reducible apply Kept.trans _ (kept_warmEnd ..) | with_reducible apply Kept.trans _ (kept_advance ..))

theorem kept_execCalFreeze (t : Nat) (band : Nat) (s : State) : KeepsGoing s (execCalFreeze t band s) := by
  unfold execCalFreeze
  repeat' (first
    | with_reducible exact Kept.refl _ | with_reducible refine KeepsGoing.ite (fun _ => ?_) (fun _ => ?_)
    | with_reducible apply KeepsGoing.next | with_reducible apply Kept.trans _ (kept_advance ..)
    | with_reducible apply Kept.trans _ (kept_raise ..) | with_reducible apply Kept.trans _ (kept_modBand ..))

theorem kept_execPilotRunEnd (t : Nat) (band : Nat) (s : State) : KeepsGoing s (execPilotRunEnd t band s) := by
  unfold execPilotRunEnd
  repeat' (first
    | with_reducible exact Kept.refl _ | with_reducible apply KeepsGoing.next
    | with_reducible apply Kept.trans _ (kept_pilotEnd ..) | with_reducible apply Kept.trans _ (kept_advance ..))

theorem kept_execTraceTrigger (t : Nat) (buffer : Nat) (s : State) : KeepsGoing s (execTraceTrigger t buffer s) := by
  unfold execTraceTrigger
  repeat' (first
    | with_reducible exact Kept.refl _ | with_reducible refine KeepsGoing.ite (fun _ => ?_) (fun _ => ?_)
    | with_reducible apply KeepsGoing.next | with_reducible apply Kept.trans _ (kept_advance ..)
    | with_reducible apply Kept.trans _ (kept_traceTrigger ..))

theorem kept_execLoopTraceDone (t : Nat) (buffer : Nat) (s : State) : KeepsGoing s (execLoopTraceDone t buffer s) := by
  unfold execLoopTraceDone
  repeat' (first
    | with_reducible exact Kept.refl _ | with_reducible apply KeepsGoing.next
    | with_reducible apply Kept.trans _ (kept_traceDone ..) | with_reducible apply Kept.trans _ (kept_advance ..))

theorem kept_execApplyLaunch (t : Nat) (bands : Nat) (s : State) : KeepsGoing s (execApplyLaunch t bands s) := by
  unfold execApplyLaunch
  repeat' (first
    | with_reducible exact Kept.refl _ | with_reducible apply KeepsGoing.next
    | with_reducible apply Kept.trans _ (kept_launch ..) | with_reducible apply Kept.trans _ (kept_advance ..))

theorem kept_execSetSend (t : Nat) (chain : Nat) (bands : Nat) (ahead : Nat) (bank : Nat) (at_ : Nat) (s : State) : KeepsGoing s (execSetSend t chain bands ahead bank at_ s) := by
  unfold execSetSend
  repeat' (first
    | with_reducible exact Kept.refl _ | with_reducible apply KeepsGoing.next
    | with_reducible apply Kept.trans _ (kept_sendSet' ..) | with_reducible apply Kept.trans _ (kept_advance ..))

theorem kept_execStatusFrameSend (t : Nat) (chain : Nat) (s : State) : KeepsGoing s (execStatusFrameSend t chain s) := by
  unfold execStatusFrameSend
  repeat' (first
    | with_reducible exact Kept.refl _ | with_reducible refine KeepsGoing.ite (fun _ => ?_) (fun _ => ?_)
    | with_reducible apply KeepsGoing.next | with_reducible apply Kept.trans _ (kept_advance ..)
    | with_reducible apply Kept.trans _ (kept_lampSend ..))

theorem kept_execLampFrameReturn (t : Nat) (chain : Nat) (frame : Bytes) (s : State) : KeepsGoing s (execLampFrameReturn t chain frame s) := by
  unfold execLampFrameReturn
  repeat' (first
    | with_reducible exact Kept.refl _ | with_reducible apply KeepsGoing.next
    | with_reducible apply Kept.trans _ (kept_lampReturn ..) | with_reducible apply Kept.trans _ (kept_advance ..))

theorem kept_execLampDriverLost (t : Nat) (driver : Nat) (s : State) : KeepsGoing s (execLampDriverLost t driver s) := by
  unfold execLampDriverLost
  repeat' (first
    | with_reducible exact Kept.refl _ | with_reducible refine KeepsGoing.ite (fun _ => ?_) (fun _ => ?_)
    | with_reducible apply KeepsGoing.next | with_reducible apply Kept.trans _ (kept_advance ..)
    | with_reducible apply Kept.trans _ (kept_followAll ..) | with_reducible apply Kept.trans _ (kept_raise ..)
    | with_reducible apply Kept.trans _ (kept_setDriver ..))

theorem kept_execLampChainDown (t : Nat) (chain : Nat) (cause : Nat) (s : State) : KeepsGoing s (execLampChainDown t chain cause s) := by
  unfold execLampChainDown
  repeat' (first
    | with_reducible exact Kept.refl _ | with_reducible refine KeepsGoing.ite (fun _ => ?_) (fun _ => ?_)
    | with_reducible apply KeepsGoing.next | with_reducible apply Kept.trans _ (kept_advance ..)
    | with_reducible apply Kept.trans _ (kept_followAll ..) | with_reducible apply Kept.trans _ (kept_chainDown ..))

theorem kept_execChainEnumerate (t : Nat) (chain : Nat) (count : Nat) (regs : List (List Nat)) (loop : Nat) (s : State) : KeepsGoing s (execChainEnumerate t chain count regs loop s) := by
  unfold execChainEnumerate
  repeat' (first
    | with_reducible exact Kept.refl _ | with_reducible refine KeepsGoing.ite (fun _ => ?_) (fun _ => ?_)
    | with_reducible apply KeepsGoing.next | with_reducible apply Kept.trans _ (kept_advance ..)
    | with_reducible apply Kept.trans _ (kept_followAll ..) | with_reducible apply Kept.trans _ (kept_enumerate ..))

theorem kept_execLampIntlkDiscrepancy (t : Nat) (s : State) : KeepsGoing s (execLampIntlkDiscrepancy t s) := by
  unfold execLampIntlkDiscrepancy
  repeat' (first
    | with_reducible exact Kept.refl _ | with_reducible refine KeepsGoing.ite (fun _ => ?_) (fun _ => ?_)
    | with_reducible apply KeepsGoing.next | with_reducible apply Kept.trans _ (kept_advance ..)
    | with_reducible apply Kept.trans _ (kept_raise ..) | with_reducible apply Kept.trans _ (kept_modLamp ..) | dsimp only
    | split)

theorem kept_execLampSensorLost (t : Nat) (channel : Nat) (s : State) : KeepsGoing s (execLampSensorLost t channel s) := by
  unfold execLampSensorLost
  repeat' (first
    | with_reducible exact Kept.refl _ | with_reducible apply KeepsGoing.next
    | with_reducible apply Kept.trans _ (kept_bandTempJudge ..) | with_reducible apply Kept.trans _ (kept_sensorJudge ..)
    | with_reducible apply Kept.trans _ (kept_advance ..) | with_reducible refine Kept.trans ?_ (Kept.foldl ?_ _ _) | intro _)

theorem kept_execLampRail (t : Nat) (channel : Nat) (s : State) : KeepsGoing s (execLampRail t channel s) := by
  unfold execLampRail
  repeat' (first
    | with_reducible exact Kept.refl _ | with_reducible apply KeepsGoing.next
    | with_reducible apply Kept.trans _ (kept_railJudge ..) | with_reducible apply Kept.trans _ (kept_advance ..))

theorem kept_execInterlockClose (t : Nat) (input : Nat) (s : State) : KeepsGoing s (execInterlockClose t input s) := by
  unfold execInterlockClose
  repeat' (first
    | with_reducible exact Kept.refl _ | with_reducible refine KeepsGoing.ite (fun _ => ?_) (fun _ => ?_)
    | with_reducible apply KeepsGoing.next | with_reducible apply Kept.trans _ (kept_advance ..)
    | with_reducible apply Kept.trans _ (kept_raise ..) | with_reducible apply Kept.trans _ (kept_intlkLevel ..))

/-! ## Machine/Whel.lean -/

theorem kept_modWheel (n : Nat) (f : Wheel → Wheel) (s : State) : Kept s (State.modWheel n f s) := by
  unfold State.modWheel
  repeat' (first
    | with_reducible exact Kept.refl _ | with_reducible apply Kept.trans _ (kept_modWhel ..))

theorem kept_bridgeTo (n : Nat) (m : BridgeMode) (k : Nat) (after : Nat) (s : State) : Kept s (State.bridgeTo n m k after s) := by
  unfold State.bridgeTo
  repeat' (first
    | with_reducible exact Kept.refl _ | with_reducible apply Kept.trans _ (kept_emits ..)
    | with_reducible apply Kept.trans _ (kept_modWheel ..))

theorem kept_gates (n : Nat) (on : Bool) (s : State) : Kept s (State.gates n on s) := by
  unfold State.gates
  repeat' (first
    | with_reducible exact Kept.refl _ | with_reducible apply Kept.trans _ (kept_bridgeTo ..))

theorem kept_cutGates (n : Nat) (v : Bool) (s : State) : Kept s (State.cutGates n v s) := by
  unfold State.cutGates
  repeat' (first
    | with_reducible exact Kept.refl _ | with_reducible refine Kept.ite (fun _ => ?_) (fun _ => ?_)
    | with_reducible apply Kept.trans _ (kept_emits ..) | with_reducible apply Kept.trans _ (kept_modWheel ..))

theorem kept_setDuty (n : Nat) (duty : Int) (s : State) : Kept s (State.setDuty n duty s) := by
  unfold State.setDuty
  repeat' (first
    | with_reducible exact Kept.refl _ | with_reducible apply Kept.trans _ (kept_emit ..)
    | with_reducible apply Kept.trans _ (kept_modWheel ..))

theorem kept_unlockWheel (n : Nat) (s : State) : Kept s (State.unlockWheel n s) := by
  unfold State.unlockWheel
  repeat' (first
    | with_reducible exact Kept.refl _ | with_reducible apply Kept.trans _ (kept_losePhase ..)
    | with_reducible apply Kept.trans _ (kept_modLoop ..))

theorem kept_setWheel (n : Nat) (v : Nat) (s : State) : Kept s (State.setWheel n v s) := by
  unfold State.setWheel
  repeat' (first
    | with_reducible exact Kept.refl _ | with_reducible refine Kept.ite (fun _ => ?_) (fun _ => ?_)
    | with_reducible apply Kept.trans _ (kept_raise ..) | with_reducible apply Kept.trans _ (kept_setObs ..)
    | with_reducible apply Kept.trans _ (kept_unlockWheel ..))

theorem kept_wheelFault (n : Nat) (cause : Nat) (s : State) : Kept s (State.wheelFault n cause s) := by
  unfold State.wheelFault
  repeat' (first
    | with_reducible exact Kept.refl _ | with_reducible refine Kept.ite (fun _ => ?_) (fun _ => ?_)
    | with_reducible apply Kept.trans _ (kept_modWheel ..) | with_reducible apply Kept.trans _ (kept_gates ..)
    | with_reducible apply Kept.trans _ (kept_setWheel ..) | with_reducible apply Kept.trans _ (kept_raise ..))

theorem kept_listen (n : Nat) (s : State) : Kept s (State.listen n s) := by
  unfold State.listen
  repeat' (first
    | with_reducible exact Kept.refl _ | with_reducible apply Kept.trans _ (kept_setWheel ..)
    | with_reducible apply Kept.trans _ (kept_modWheel ..) | with_reducible apply Kept.trans _ (kept_gates ..))

theorem kept_brake (n : Nat) (align : Bool) (s : State) : Kept s (State.brake n align s) := by
  unfold State.brake
  repeat' (first
    | with_reducible exact Kept.refl _ | with_reducible apply Kept.trans _ (kept_setWheel ..)
    | with_reducible apply Kept.trans _ (kept_modWheel ..) | with_reducible apply Kept.trans _ (kept_bridgeTo ..))

theorem kept_align (n : Nat) (s : State) : Kept s (State.align n s) := by
  unfold State.align
  repeat' (first
    | with_reducible exact Kept.refl _ | with_reducible apply Kept.trans _ (kept_setWheel ..)
    | with_reducible apply Kept.trans _ (kept_modWheel ..) | with_reducible apply Kept.trans _ (kept_bridgeTo ..))

theorem kept_rampSpeed (n : Nat) (s : State) : Kept s (State.rampSpeed n s) := by
  unfold State.rampSpeed
  repeat' (first
    | with_reducible exact Kept.refl _ | with_reducible apply Kept.trans _ (kept_modWheel ..))

theorem kept_rampClosed (n : Nat) (s : State) : Kept s (State.rampClosed n s) := by
  unfold State.rampClosed
  repeat' (first
    | with_reducible exact Kept.refl _ | with_reducible apply Kept.trans _ (kept_setWheel ..)
    | with_reducible apply Kept.trans _ (kept_modWheel ..) | with_reducible apply Kept.trans _ (kept_rampSpeed ..)
    | with_reducible apply Kept.trans _ (kept_setDuty ..) | with_reducible apply Kept.trans _ (kept_gates ..))

theorem kept_startDecide (n : Nat) (speed : Int) (s : State) : Kept s (State.startDecide n speed s) := by
  unfold State.startDecide
  repeat' (first
    | with_reducible exact Kept.refl _ | with_reducible refine Kept.ite (fun _ => ?_) (fun _ => ?_)
    | with_reducible apply Kept.trans _ (kept_rampClosed ..) | with_reducible apply Kept.trans _ (kept_align ..)
    | with_reducible apply Kept.trans _ (kept_brake ..) | with_reducible apply Kept.trans _ (kept_setWheel ..)
    | with_reducible apply Kept.trans _ (kept_modWheel ..) | with_reducible apply Kept.trans _ (kept_gates ..))

theorem kept_wheelRun (n : Nat) (s : State) : Kept s (State.wheelRun n s) := by
  unfold State.wheelRun
  repeat' (first
    | with_reducible exact Kept.refl _ | with_reducible refine Kept.ite (fun _ => ?_) (fun _ => ?_)
    | with_reducible apply Kept.trans _ (kept_modWheel ..) | with_reducible apply Kept.trans _ (kept_listen ..)
    | with_reducible apply Kept.trans _ (kept_startDecide ..) | dsimp only | split)

theorem kept_wheelStop (n : Nat) (s : State) : Kept s (State.wheelStop n s) := by
  unfold State.wheelStop
  repeat' (first
    | with_reducible exact Kept.refl _ | with_reducible refine Kept.ite (fun _ => ?_) (fun _ => ?_)
    | with_reducible apply Kept.trans _ (kept_modWheel ..) | with_reducible apply Kept.trans _ (kept_brake ..)
    | with_reducible apply Kept.trans _ (kept_setWheel ..) | with_reducible apply Kept.trans _ (kept_gates ..) | dsimp only
    | split)

theorem kept_wheelSafe (n : Nat) (s : State) : Kept s (State.wheelSafe n s) := by
  unfold State.wheelSafe
  repeat' (first
    | with_reducible exact Kept.refl _ | with_reducible apply Kept.trans _ (kept_setCmd ..)
    | with_reducible apply Kept.trans _ (kept_modWheel ..) | with_reducible apply Kept.trans _ (kept_gates ..)
    | with_reducible apply Kept.trans _ (kept_setWheel ..) | dsimp only | split)

theorem kept_startFail (n : Nat) (cause : Nat) (s : State) : Kept s (State.startFail n cause s) := by
  unfold State.startFail
  repeat' (first
    | with_reducible exact Kept.refl _ | with_reducible refine Kept.ite (fun _ => ?_) (fun _ => ?_)
    | with_reducible apply Kept.trans _ (kept_raise ..) | with_reducible apply Kept.trans _ (kept_modWheel ..)
    | with_reducible apply Kept.trans _ (kept_gates ..) | with_reducible apply Kept.trans _ (kept_wheelFault ..)
    | with_reducible apply Kept.trans _ (kept_listen ..))

theorem kept_commutate (n : Nat) (tc : Nat) (back : Bool) (s : State) : Kept s (State.commutate n tc back s) := by
  unfold State.commutate
  repeat' (first
    | with_reducible exact Kept.refl _ | with_reducible apply Kept.trans _ (kept_bridgeTo ..))

theorem kept_crossing (n : Nat) (tc : Nat) (late : Int) (back : Bool) (s : State) : Kept s (State.crossing n tc late back s) := by
  unfold State.crossing
  repeat' (first
    | with_reducible exact Kept.refl _ | with_reducible refine Kept.ite (fun _ => ?_) (fun _ => ?_)
    | with_reducible apply Kept.trans _ (kept_modWheel ..) | with_reducible apply Kept.trans _ (kept_wheelFault ..)
    | with_reducible apply Kept.trans _ (kept_align ..) | with_reducible apply Kept.trans _ (kept_commutate ..)
    | with_reducible apply Kept.trans _ (kept_setDuty ..))

theorem kept_forceStep (n : Nat) (s : State) : Kept s (State.forceStep n s) := by
  unfold State.forceStep
  repeat' (first
    | with_reducible exact Kept.refl _ | with_reducible refine Kept.ite (fun _ => ?_) (fun _ => ?_)
    | with_reducible apply Kept.trans _ (kept_bridgeTo ..))

theorem kept_pwmSample (n : Nat) (uv : Nat) (s0 : State) : Kept s0 (State.pwmSample n uv s0) := by
  unfold State.pwmSample
  repeat' (first
    | with_reducible exact Kept.refl _ | with_reducible refine Kept.ite (fun _ => ?_) (fun _ => ?_)
    | with_reducible apply Kept.trans _ (kept_forceStep ..) | with_reducible apply Kept.trans _ (kept_cutGates ..)
    | with_reducible apply Kept.trans _ (kept_modWheel ..) | with_reducible apply Kept.trans _ (kept_wheelFault ..))

theorem kept_indexEdge (n : Nat) (period : Nat) (width : Nat) (s : State) : Kept s (State.indexEdge n period width s) := by
  unfold State.indexEdge
  repeat' (first
    | with_reducible exact Kept.refl _ | with_reducible refine Kept.ite (fun _ => ?_) (fun _ => ?_)
    | with_reducible apply Kept.trans _ (kept_modWheel ..) | with_reducible apply Kept.trans _ (kept_raise ..)
    | with_reducible apply Kept.trans _ (kept_rampClosed ..))

theorem kept_loseRotor (n : Nat) (cause : Nat) (s : State) : Kept s (State.loseRotor n cause s) := by
  unfold State.loseRotor
  repeat' (first
    | with_reducible exact Kept.refl _ | with_reducible refine Kept.ite (fun _ => ?_) (fun _ => ?_)
    | with_reducible apply Kept.trans _ (kept_raise ..) | with_reducible apply Kept.trans _ (kept_modWheel ..)
    | with_reducible apply Kept.trans _ (kept_gates ..) | with_reducible apply Kept.trans _ (kept_setWheel ..))

theorem kept_busJudge (c : Nat) (n : Nat) (s : State) : Kept s (State.busJudge c n s) := by
  unfold State.busJudge
  repeat' (first
    | with_reducible exact Kept.refl _ | with_reducible refine Kept.ite (fun _ => ?_) (fun _ => ?_)
    | with_reducible apply Kept.trans _ (kept_raise ..) | with_reducible apply Kept.trans _ (kept_modWheel ..)
    | with_reducible apply Kept.trans _ (kept_bridgeTo ..))

theorem kept_wheelBoundary (n : Nat) (s : State) : Kept s (State.wheelBoundary n s) := by
  unfold State.wheelBoundary
  repeat' (first
    | with_reducible exact Kept.refl _ | with_reducible refine Kept.ite (fun _ => ?_) (fun _ => ?_)
    | with_reducible apply Kept.trans _ (kept_modWheel ..) | with_reducible apply Kept.trans _ (kept_setWheel ..)
    | with_reducible apply Kept.trans _ (kept_rampSpeed ..) | with_reducible apply Kept.trans _ (kept_wheelFrame ..))

theorem kept_liftWheel (n : Nat) (s : State) : Kept s (State.liftWheel n s) := by
  unfold State.liftWheel
  repeat' (first
    | with_reducible exact Kept.refl _ | with_reducible refine Kept.ite (fun _ => ?_) (fun _ => ?_)
    | with_reducible apply Kept.trans _ (kept_modLoop ..))

theorem kept_execWheelRun (t : Nat) (wheel : Nat) (s : State) : KeepsGoing s (execWheelRun t wheel s) := by
  unfold execWheelRun
  repeat' (first
    | with_reducible exact Kept.refl _ | with_reducible refine KeepsGoing.ite (fun _ => ?_) (fun _ => ?_)
    | with_reducible apply KeepsGoing.next | with_reducible apply Kept.trans _ (kept_advance ..)
    | with_reducible apply Kept.trans _ (kept_wheelRun ..))

theorem kept_execWheelStop (t : Nat) (wheel : Nat) (s : State) : KeepsGoing s (execWheelStop t wheel s) := by
  unfold execWheelStop
  repeat' (first
    | with_reducible exact Kept.refl _ | with_reducible refine KeepsGoing.ite (fun _ => ?_) (fun _ => ?_)
    | with_reducible apply KeepsGoing.next | with_reducible apply Kept.trans _ (kept_advance ..)
    | with_reducible apply Kept.trans _ (kept_wheelStop ..))

theorem kept_execWhelCatch (t : Nat) (wheel : Nat) (amp : Int) (s : State) : KeepsGoing s (execWhelCatch t wheel amp s) := by
  unfold execWhelCatch
  repeat' (first
    | with_reducible exact Kept.refl _ | with_reducible refine KeepsGoing.ite (fun _ => ?_) (fun _ => ?_)
    | with_reducible apply KeepsGoing.next | with_reducible apply Kept.trans _ (kept_advance ..)
    | with_reducible apply Kept.trans _ (kept_raise ..) | with_reducible apply Kept.trans _ (kept_modWheel ..)
    | with_reducible apply Kept.trans _ (kept_startDecide ..) | dsimp only | split)

theorem kept_execAlignEnd (t : Nat) (wheel : Nat) (s : State) : KeepsGoing s (execAlignEnd t wheel s) := by
  unfold execAlignEnd
  repeat' (first
    | with_reducible exact Kept.refl _ | with_reducible refine KeepsGoing.ite (fun _ => ?_) (fun _ => ?_)
    | with_reducible apply KeepsGoing.next | with_reducible apply Kept.trans _ (kept_advance ..)
    | with_reducible apply Kept.trans _ (kept_setWheel ..) | with_reducible apply Kept.trans _ (kept_bridgeTo ..)
    | with_reducible apply Kept.trans _ (kept_modWheel ..))

theorem kept_execOpenLoopHandover (t : Nat) (wheel : Nat) (s : State) : KeepsGoing s (execOpenLoopHandover t wheel s) := by
  unfold execOpenLoopHandover
  repeat' (first
    | with_reducible exact Kept.refl _ | with_reducible refine KeepsGoing.ite (fun _ => ?_) (fun _ => ?_)
    | with_reducible apply KeepsGoing.next | with_reducible apply Kept.trans _ (kept_advance ..)
    | with_reducible apply Kept.trans _ (kept_rampSpeed ..) | with_reducible apply Kept.trans _ (kept_modWheel ..))

theorem kept_execWhelStartFail (t : Nat) (wheel : Nat) (s : State) : KeepsGoing s (execWhelStartFail t wheel s) := by
  unfold execWhelStartFail
  repeat' (first
    | with_reducible exact Kept.refl _ | with_reducible refine KeepsGoing.ite (fun _ => ?_) (fun _ => ?_)
    | with_reducible apply KeepsGoing.next | with_reducible apply Kept.trans _ (kept_advance ..)
    | with_reducible apply Kept.trans _ (kept_startFail ..))

theorem kept_execWheelLocked (t : Nat) (wheel : Nat) (s : State) : KeepsGoing s (execWheelLocked t wheel s) := by
  unfold execWheelLocked
  repeat' (first
    | with_reducible exact Kept.refl _ | with_reducible refine KeepsGoing.ite (fun _ => ?_) (fun _ => ?_)
    | with_reducible apply KeepsGoing.next | with_reducible apply Kept.trans _ (kept_advance ..)
    | with_reducible apply Kept.trans _ (kept_setWheel ..) | with_reducible apply Kept.trans _ (kept_modWheel ..))

theorem kept_execZeroCrossing (t : Nat) (wheel : Nat) (period : Nat) (late : Int) (backward : Bool) (s : State) : KeepsGoing s (execZeroCrossing t wheel period late backward s) := by
  unfold execZeroCrossing
  repeat' (first
    | with_reducible exact Kept.refl _ | with_reducible apply KeepsGoing.next
    | with_reducible apply Kept.trans _ (kept_crossing ..) | with_reducible apply Kept.trans _ (kept_advance ..))

theorem kept_execPwmPeriodSample (t : Nat) (wheel : Nat) (micro : Nat) (s : State) : KeepsGoing s (execPwmPeriodSample t wheel micro s) := by
  unfold execPwmPeriodSample
  repeat' (first
    | with_reducible exact Kept.refl _ | with_reducible apply KeepsGoing.next
    | with_reducible apply Kept.trans _ (kept_pwmSample ..) | with_reducible apply Kept.trans _ (kept_advance ..))

theorem kept_execWheelFaultInput (t : Nat) (wheel : Nat) (low : Bool) (s : State) : KeepsGoing s (execWheelFaultInput t wheel low s) := by
  unfold execWheelFaultInput
  repeat' (first
    | with_reducible exact Kept.refl _ | with_reducible refine Kept.ite (fun _ => ?_) (fun _ => ?_)
    | with_reducible apply KeepsGoing.next | with_reducible apply Kept.trans _ (kept_modWheel ..)
    | with_reducible apply Kept.trans _ (kept_advance ..) | with_reducible apply Kept.trans _ (kept_wheelFault ..))

theorem kept_execIndexEdge (t : Nat) (wheel : Nat) (period : Nat) (width : Nat) (s : State) : KeepsGoing s (execIndexEdge t wheel period width s) := by
  unfold execIndexEdge
  repeat' (first
    | with_reducible exact Kept.refl _ | with_reducible apply KeepsGoing.next
    | with_reducible apply Kept.trans _ (kept_indexEdge ..) | with_reducible apply Kept.trans _ (kept_advance ..))

theorem kept_execIndexMissing (t : Nat) (wheel : Nat) (s : State) : KeepsGoing s (execIndexMissing t wheel s) := by
  unfold execIndexMissing
  repeat' (first
    | with_reducible exact Kept.refl _ | with_reducible refine KeepsGoing.ite (fun _ => ?_) (fun _ => ?_)
    | with_reducible apply KeepsGoing.next | with_reducible apply Kept.trans _ (kept_advance ..)
    | with_reducible apply Kept.trans _ (kept_raise ..) | with_reducible apply Kept.trans _ (kept_modWheel ..) | dsimp only
    | split)

theorem kept_execWhelLockLost (t : Nat) (wheel : Nat) (cause : Nat) (s : State) : KeepsGoing s (execWhelLockLost t wheel cause s) := by
  unfold execWhelLockLost
  repeat' (first
    | with_reducible exact Kept.refl _ | with_reducible refine KeepsGoing.ite (fun _ => ?_) (fun _ => ?_)
    | with_reducible apply KeepsGoing.next | with_reducible apply Kept.trans _ (kept_advance ..)
    | with_reducible apply Kept.trans _ (kept_loseRotor ..))

theorem kept_execWheelRecoveryTimeout (t : Nat) (wheel : Nat) (s : State) : KeepsGoing s (execWheelRecoveryTimeout t wheel s) := by
  unfold execWheelRecoveryTimeout
  repeat' (first
    | with_reducible exact Kept.refl _ | with_reducible refine KeepsGoing.ite (fun _ => ?_) (fun _ => ?_)
    | with_reducible apply KeepsGoing.next | with_reducible apply Kept.trans _ (kept_advance ..)
    | with_reducible apply Kept.trans _ (kept_startFail ..) | dsimp only | split)

theorem kept_execWheelStandstill (t : Nat) (wheel : Nat) (s : State) : KeepsGoing s (execWheelStandstill t wheel s) := by
  unfold execWheelStandstill
  repeat' (first
    | with_reducible exact Kept.refl _ | with_reducible refine KeepsGoing.ite (fun _ => ?_) (fun _ => ?_)
    | with_reducible apply KeepsGoing.next | with_reducible apply Kept.trans _ (kept_advance ..)
    | with_reducible apply Kept.trans _ (kept_modWheel ..) | with_reducible apply Kept.trans _ (kept_align ..)
    | with_reducible apply Kept.trans _ (kept_setWheel ..) | with_reducible apply Kept.trans _ (kept_gates ..))

theorem kept_execWheelCoastTimeout (t : Nat) (wheel : Nat) (s : State) : KeepsGoing s (execWheelCoastTimeout t wheel s) := by
  unfold execWheelCoastTimeout
  repeat' (first
    | with_reducible exact Kept.refl _ | with_reducible refine KeepsGoing.ite (fun _ => ?_) (fun _ => ?_)
    | with_reducible apply KeepsGoing.next | with_reducible apply Kept.trans _ (kept_advance ..)
    | with_reducible apply Kept.trans _ (kept_brake ..))

theorem kept_execWheelMarkPass (t : Nat) (wheel : Nat) (s : State) : KeepsGoing s (execWheelMarkPass t wheel s) := by
  unfold execWheelMarkPass
  repeat' (first
    | with_reducible exact Kept.refl _ | with_reducible refine KeepsGoing.ite (fun _ => ?_) (fun _ => ?_)
    | with_reducible apply KeepsGoing.next | with_reducible apply Kept.trans _ (kept_advance ..)
    | with_reducible apply Kept.trans _ (kept_modSeqr ..))

theorem kept_execSeqrWheelPhase (t : Nat) (wheel : Nat) (s : State) : KeepsGoing s (execSeqrWheelPhase t wheel s) := by
  unfold execSeqrWheelPhase
  repeat' (first
    | with_reducible exact Kept.refl _ | with_reducible refine KeepsGoing.ite (fun _ => ?_) (fun _ => ?_)
    | with_reducible apply KeepsGoing.next | with_reducible apply Kept.trans _ (kept_advance ..)
    | with_reducible apply Kept.trans _ (kept_judgePhase ..))

theorem kept_execFsyncEdge (t : Nat) (width : Nat) (s : State) : KeepsGoing s (execFsyncEdge t width s) := by
  unfold execFsyncEdge
  repeat' (first
    | with_reducible exact Kept.refl _ | with_reducible refine KeepsGoing.ite (fun _ => ?_) (fun _ => ?_)
    | with_reducible apply KeepsGoing.next | with_reducible apply Kept.trans _ (kept_advance ..)
    | with_reducible apply Kept.trans _ (kept_fsyncEdge ..) | with_reducible apply Kept.trans _ (kept_emit ..))

theorem kept_execFsyncEdgeMissing (t : Nat) (s : State) : KeepsGoing s (execFsyncEdgeMissing t s) := by
  unfold execFsyncEdgeMissing
  repeat' (first
    | with_reducible exact Kept.refl _ | with_reducible refine KeepsGoing.ite (fun _ => ?_) (fun _ => ?_)
    | with_reducible apply KeepsGoing.next | with_reducible apply Kept.trans _ (kept_advance ..)
    | with_reducible apply Kept.trans _ (kept_fsyncMissing ..))

theorem kept_execFsyncLost (t : Nat) (s : State) : KeepsGoing s (execFsyncLost t s) := by
  unfold execFsyncLost
  repeat' (first
    | with_reducible exact Kept.refl _ | with_reducible refine KeepsGoing.ite (fun _ => ?_) (fun _ => ?_)
    | with_reducible apply KeepsGoing.next | with_reducible apply Kept.trans _ (kept_advance ..)
    | with_reducible apply Kept.trans _ (kept_fsyncLost ..))

end Sys2Proof.Machine
end

