-- ==== Sys2Proof/Laws/KeptDevice.lean ====
section
/-! SUPPORT. Every operation stays within the bounds of Safety.lean: health, clocks, device states, commits, profiles and BOOT. -/

namespace Sys2Proof.Machine

/-! ## Machine/Wear.lean -/

theorem kept_dieConvert (ts : List Int) (s : State) : Kept s (State.dieConvert ts s) := by
  unfold State.dieConvert
  repeat' (first
    | with_reducible exact Kept.refl _ | with_reducible apply Kept.trans _ (kept_modTherm ..))

theorem kept_excludeJudge (i : Nat) (s : State) : Kept s (State.excludeJudge i s) := by
  unfold State.excludeJudge
  repeat' (first
    | with_reducible exact Kept.refl _ | with_reducible apply Kept.trans _ (kept_modTherm ..))

theorem kept_throttleEntry (s : State) : Kept s (State.throttleEntry s) := by
  unfold State.throttleEntry
  repeat' (first
    | with_reducible exact Kept.refl _ | with_reducible apply Kept.trans _ (kept_modTherm ..))

theorem kept_setDieLevel (l : Nat) (v : Bool) (inst : Nat) (temp : Int) (s : State) : Kept s (State.setDieLevel l v inst temp s) := by
  unfold State.setDieLevel
  repeat' (first
    | with_reducible exact Kept.refl _ | with_reducible refine Kept.ite (fun _ => ?_) (fun _ => ?_)
    | with_reducible apply Kept.trans _ (kept_raise ..) | with_reducible apply Kept.trans _ (kept_modTherm ..)
    | with_reducible apply Kept.trans _ (kept_throttleEntry ..))

theorem kept_dieJudge (l : Nat) (s : State) : Kept s (State.dieJudge l s) := by
  unfold State.dieJudge
  repeat' (first
    | with_reducible exact Kept.refl _ | with_reducible refine Kept.ite (fun _ => ?_) (fun _ => ?_)
    | with_reducible apply Kept.trans _ (kept_setDieLevel ..) | with_reducible refine Kept.trans ?_ (Kept.foldl ?_ _ _)
    | intro _ | split)

theorem kept_throttleStep (s : State) : Kept s (State.throttleStep s) := by
  unfold State.throttleStep
  repeat' (first
    | with_reducible exact Kept.refl _ | with_reducible refine Kept.ite (fun _ => ?_) (fun _ => ?_)
    | with_reducible apply Kept.trans _ (kept_modTherm ..) | split)

theorem kept_throttleBoundary (s : State) : Kept s (State.throttleBoundary s) := by
  unfold State.throttleBoundary
  repeat' (first
    | with_reducible exact Kept.refl _ | with_reducible apply Kept.trans _ (kept_setDropped ..)
    | with_reducible apply Kept.trans _ (kept_modTherm ..) | with_reducible refine Kept.trans ?_ (Kept.foldl ?_ _ _) | intro _)

theorem kept_modLampLevel (c : Nat) (f : LampLevel → LampLevel) (s : State) : Kept s (State.modLampLevel c f s) := by
  unfold State.modLampLevel
  repeat' (first
    | with_reducible exact Kept.refl _ | with_reducible apply Kept.trans _ (kept_modTherm ..))

theorem kept_lampCounts (c : Nat) (s : State) : Kept s (State.lampCounts c s) := by
  unfold State.lampCounts
  repeat' (first
    | with_reducible exact Kept.refl _ | with_reducible refine Kept.ite (fun _ => ?_) (fun _ => ?_)
    | with_reducible apply Kept.trans _ (kept_modLampLevel ..))

theorem kept_lampCapStart (c : Nat) (s : State) : Kept s (State.lampCapStart c s) := by
  unfold State.lampCapStart
  repeat' (first
    | with_reducible exact Kept.refl _ | with_reducible apply Kept.trans _ (kept_modLampLevel ..))

theorem kept_setLampLevel (c : Nat) (l : Nat) (v : Bool) (s : State) : Kept s (State.setLampLevel c l v s) := by
  unfold State.setLampLevel
  repeat' (first
    | with_reducible exact Kept.refl _ | with_reducible refine Kept.ite (fun _ => ?_) (fun _ => ?_)
    | with_reducible apply Kept.trans _ (kept_raise ..) | with_reducible apply Kept.trans _ (kept_modLampLevel ..)
    | with_reducible apply Kept.trans _ (kept_lampCapStart ..))

theorem kept_lampJudge (c : Nat) (s : State) (l : Nat) : Kept s (State.lampJudge c s l) := by
  unfold State.lampJudge
  repeat' (first
    | with_reducible exact Kept.refl _ | with_reducible refine Kept.ite (fun _ => ?_) (fun _ => ?_)
    | with_reducible apply Kept.trans _ (kept_setLampLevel ..) | with_reducible refine Kept.trans ?_ (Kept.foldl ?_ _ _)
    | intro _)

theorem kept_lampStep (c : Nat) (s : State) : Kept s (State.lampStep c s) := by
  unfold State.lampStep
  repeat' (first
    | with_reducible exact Kept.refl _ | with_reducible refine Kept.ite (fun _ => ?_) (fun _ => ?_)
    | with_reducible apply Kept.trans _ (kept_modLampLevel ..))

theorem kept_swapUndo (w : Nat × Nat × Nat × Nat) (s : State) : Kept s (State.swapUndo w s) := by
  unfold State.swapUndo
  repeat' (first
    | with_reducible exact Kept.refl _ | with_reducible refine Kept.ite (fun _ => ?_) (fun _ => ?_)
    | with_reducible apply Kept.trans _ (kept_modString ..) | with_reducible apply Kept.trans _ (kept_modClks ..)
    | with_reducible apply Kept.trans _ (kept_modAport ..))

theorem kept_swapFail (area : Nat) (res : Nat) (s : State) : Kept s (State.swapFail area res s) := by
  unfold State.swapFail
  repeat' (first
    | with_reducible exact Kept.refl _ | with_reducible apply Kept.trans _ (kept_raise ..)
    | with_reducible apply Kept.trans _ (kept_dropLease ..) | with_reducible apply Kept.trans _ (kept_modTherm ..))

theorem kept_swapDone (area : Nat) (res : Nat) (s : State) : Kept s (State.swapDone area res s) := by
  unfold State.swapDone
  repeat' (first
    | with_reducible exact Kept.refl _ | with_reducible apply Kept.trans _ (kept_raise ..)
    | with_reducible apply Kept.trans _ (kept_dropLease ..) | with_reducible apply Kept.trans _ (kept_modTherm ..))

theorem kept_swapBegin (area : Nat) (res : Nat) (spare : Nat) (s : State) : Kept s (State.swapBegin area res spare s) := by
  unfold State.swapBegin
  repeat' (first
    | with_reducible exact Kept.refl _ | with_reducible refine Kept.ite (fun _ => ?_) (fun _ => ?_)
    | with_reducible apply Kept.trans _ (kept_modClks ..) | with_reducible apply Kept.trans _ (kept_aswapStart ..)
    | with_reducible apply Kept.trans _ (kept_uaneSwapStart ..) | dsimp only | split)

theorem kept_swapStart (s : State) (q : Nat × Nat) : Kept s (State.swapStart s q) := by
  unfold State.swapStart
  repeat' (first
    | with_reducible exact Kept.refl _ | with_reducible refine Kept.ite (fun _ => ?_) (fun _ => ?_)
    | with_reducible apply Kept.trans _ (kept_modTherm ..) | with_reducible apply Kept.trans _ (kept_swapFail ..)
    | with_reducible apply Kept.trans _ (kept_swapBegin ..) | with_reducible apply Kept.trans _ (kept_takeLeaseOf ..)
    | dsimp only | split)

theorem kept_pumpSwaps (s : State) : Kept s (State.pumpSwaps s) := by
  unfold State.pumpSwaps
  repeat' (first
    | with_reducible exact Kept.refl _ | with_reducible apply Kept.trans _ (kept_swapStart ..)
    | with_reducible refine Kept.trans ?_ (Kept.foldl ?_ _ _) | intro _)

theorem kept_queueSwap (area : Nat) (res : Nat) (s : State) : Kept s (State.queueSwap area res s) := by
  unfold State.queueSwap
  repeat' (first
    | with_reducible exact Kept.refl _ | with_reducible refine Kept.ite (fun _ => ?_) (fun _ => ?_)
    | with_reducible apply Kept.trans _ (kept_pumpSwaps ..) | with_reducible apply Kept.trans _ (kept_modTherm ..))

theorem kept_pend (area : Nat) (res : Nat) (s : State) : Kept s (State.pend area res s) := by
  unfold State.pend
  repeat' (first
    | with_reducible exact Kept.refl _ | with_reducible refine Kept.ite (fun _ => ?_) (fun _ => ?_)
    | with_reducible apply Kept.trans _ (kept_raise ..) | with_reducible apply Kept.trans _ (kept_modTherm ..))

theorem kept_refill (s : State) : Kept s (State.refill s) := by
  unfold State.refill
  repeat' (first
    | with_reducible exact Kept.refl _ | with_reducible refine Kept.ite (fun _ => ?_) (fun _ => ?_)
    | with_reducible apply Kept.trans _ (kept_pend ..) | with_reducible apply Kept.trans _ (kept_modTherm ..) | split)

theorem kept_spareLost (area : Nat) (res : Nat) (s : State) : Kept s (State.spareLost area res s) := by
  unfold State.spareLost
  repeat' (first
    | with_reducible exact Kept.refl _ | with_reducible apply Kept.trans _ (kept_pumpSwaps ..)
    | with_reducible apply Kept.trans _ (kept_swapFail ..) | with_reducible apply Kept.trans _ (kept_swapUndo ..) | split)

theorem kept_wearOut (area : Nat) (res : Nat) (st : Nat) (val : Nat) (s : State) : Kept s (State.wearOut area res st val s) := by
  unfold State.wearOut
  repeat' (first
    | with_reducible exact Kept.refl _ | with_reducible refine Kept.ite (fun _ => ?_) (fun _ => ?_)
    | with_reducible apply Kept.trans _ (kept_raise ..) | with_reducible apply Kept.trans _ (kept_modTherm ..)
    | with_reducible apply Kept.trans _ (kept_spareLost ..) | with_reducible apply Kept.trans _ (kept_refill ..)
    | with_reducible apply Kept.trans _ (kept_queueSwap ..) | with_reducible apply Kept.trans _ (kept_pend ..))

theorem kept_wearClear (area : Nat) (res : Nat) (s : State) : Kept s (State.wearClear area res s) := by
  unfold State.wearClear
  repeat' (first
    | with_reducible exact Kept.refl _ | with_reducible apply Kept.trans _ (kept_modTherm ..))

theorem kept_spareDecide (word : Nat) (s : State) : ∀ r, (State.spareDecide word s) = some r → Kept s r := by
  unfold State.spareDecide
  repeat' (first
    | with_reducible exact Kept.refl _ | with_reducible refine Kept.optSome ?_ | with_reducible exact Kept.optNone
    | with_reducible refine Kept.optIte (fun _ => ?_) (fun _ => ?_)
    | with_reducible refine Kept.ite (fun _ => ?_) (fun _ => ?_) | with_reducible apply Kept.trans _ (kept_modTherm ..)
    | with_reducible apply Kept.trans _ (kept_queueSwap ..) | with_reducible apply Kept.trans _ (kept_refill ..))

theorem kept_sparePolicy (v : Nat) (s : State) : Kept s (State.sparePolicy v s) := by
  unfold State.sparePolicy
  repeat' (first
    | with_reducible exact Kept.refl _ | with_reducible refine Kept.ite (fun _ => ?_) (fun _ => ?_)
    | with_reducible apply Kept.trans _ (kept_setNum ..) | with_reducible apply Kept.trans _ (kept_queueSwap ..)
    | with_reducible apply Kept.trans _ (kept_modTherm ..) | with_reducible refine Kept.trans ?_ (Kept.foldl ?_ _ _) | intro _)

theorem kept_selfRefresh (s : State) : Kept s (State.selfRefresh s) := by
  unfold State.selfRefresh
  repeat' (first
    | with_reducible exact Kept.refl _ | with_reducible refine Kept.ite (fun _ => ?_) (fun _ => ?_)
    | with_reducible apply Kept.trans _ (kept_hbmSelfRefresh ..) | with_reducible apply Kept.trans _ (kept_modTherm ..)
    | with_reducible apply Kept.trans _ (kept_swapDone ..) | with_reducible refine Kept.trans ?_ (Kept.foldl ?_ _ _) | intro _)

theorem kept_swapsBackOf (areas : Nat → Bool) (s : State) : Kept s (State.swapsBackOf areas s) := by
  unfold State.swapsBackOf
  repeat' (first
    | with_reducible exact Kept.refl _ | with_reducible refine Kept.ite (fun _ => ?_) (fun _ => ?_)
    | with_reducible apply Kept.trans _ (kept_modTherm ..) | with_reducible apply Kept.trans _ (kept_dropLease ..)
    | with_reducible apply Kept.trans _ (kept_swapUndo ..) | with_reducible refine Kept.trans ?_ (Kept.foldl ?_ _ _) | intro _)

theorem kept_swapsBack (s : State) : Kept s (State.swapsBack s) := by
  unfold State.swapsBack
  repeat' (first
    | with_reducible exact Kept.refl _ | with_reducible apply Kept.trans _ (kept_swapsBackOf ..))

theorem kept_rampBoundary (s : State) : Kept s (State.rampBoundary s) := by
  unfold State.rampBoundary
  repeat' (first
    | with_reducible exact Kept.refl _ | with_reducible refine Kept.ite (fun _ => ?_) (fun _ => ?_)
    | with_reducible apply Kept.trans _ (kept_takeLeaseOf ..) | with_reducible apply Kept.trans _ (kept_modTherm ..)
    | with_reducible apply Kept.trans _ (kept_modString ..) | dsimp only | split)

theorem kept_rampEnd (s : State) : Kept s (State.rampEnd s) := by
  unfold State.rampEnd
  repeat' (first
    | with_reducible exact Kept.refl _ | with_reducible apply Kept.trans _ (kept_modString ..)
    | with_reducible apply Kept.trans _ (kept_pumpSwaps ..) | with_reducible apply Kept.trans _ (kept_swapDone ..)
    | with_reducible apply Kept.trans _ (kept_setNum ..) | dsimp only | split)

theorem kept_engineBoundary (s : State) : Kept s (State.engineBoundary s) := by
  unfold State.engineBoundary
  repeat' (first
    | with_reducible exact Kept.refl _ | with_reducible apply Kept.trans _ (kept_pumpSwaps ..)
    | with_reducible apply Kept.trans _ (kept_swapDone ..) | with_reducible apply Kept.trans _ (kept_modPlgn ..) | split)

theorem kept_engineCheck (mismatch : Bool) (s : State) : Kept s (State.engineCheck mismatch s) := by
  unfold State.engineCheck
  repeat' (first
    | with_reducible exact Kept.refl _ | with_reducible refine Kept.ite (fun _ => ?_) (fun _ => ?_)
    | with_reducible apply Kept.trans _ (kept_modTherm ..) | with_reducible apply Kept.trans _ (kept_wearOut ..) | dsimp only
    | split)

theorem kept_execMewsThermalWarn (t : Nat) (s : State) : KeepsGoing s (execMewsThermalWarn t s) := by
  unfold execMewsThermalWarn
  repeat' (first
    | with_reducible exact Kept.refl _ | with_reducible apply KeepsGoing.next
    | with_reducible apply Kept.trans _ (kept_dieJudge ..) | with_reducible apply Kept.trans _ (kept_advance ..))

theorem kept_execMewsThermalThrottle (t : Nat) (s : State) : KeepsGoing s (execMewsThermalThrottle t s) := by
  unfold execMewsThermalThrottle
  repeat' (first
    | with_reducible exact Kept.refl _ | with_reducible apply KeepsGoing.next
    | with_reducible apply Kept.trans _ (kept_dieJudge ..) | with_reducible apply Kept.trans _ (kept_advance ..))

theorem kept_execThrottleInterval (t : Nat) (s : State) : KeepsGoing s (execThrottleInterval t s) := by
  unfold execThrottleInterval
  repeat' (first
    | with_reducible exact Kept.refl _ | with_reducible refine KeepsGoing.ite (fun _ => ?_) (fun _ => ?_)
    | with_reducible apply KeepsGoing.next | with_reducible apply Kept.trans _ (kept_advance ..)
    | with_reducible apply Kept.trans _ (kept_throttleStep ..))

theorem kept_execLampThrottleInterval (t : Nat) (s : State) : KeepsGoing s (execLampThrottleInterval t s) := by
  unfold execLampThrottleInterval
  repeat' (first
    | with_reducible exact Kept.refl _ | with_reducible apply KeepsGoing.next
    | with_reducible apply Kept.trans _ (kept_lampStep ..) | with_reducible apply Kept.trans _ (kept_advance ..)
    | with_reducible refine Kept.trans ?_ (Kept.foldl ?_ _ _) | intro _)

theorem kept_execSlowConversion (t : Nat) (code : Nat) (vio : Nat) (s : State) : KeepsGoing s (execSlowConversion t code vio s) := by
  unfold execSlowConversion
  repeat' (first
    | with_reducible exact Kept.refl _ | with_reducible apply KeepsGoing.next
    | with_reducible apply Kept.trans _ (kept_advance ..) | with_reducible apply Kept.trans _ (kept_busJudge ..)
    | with_reducible apply Kept.trans _ (kept_lampCounts ..) | with_reducible apply Kept.trans _ (kept_slowConvert ..))

theorem kept_execMewsWear (t : Nat) (area : Nat) (resource : Nat) (state : Nat) (value : Nat) (s : State) : KeepsGoing s (execMewsWear t area resource state value s) := by
  unfold execMewsWear
  repeat' (first
    | with_reducible exact Kept.refl _ | with_reducible refine KeepsGoing.ite (fun _ => ?_) (fun _ => ?_)
    | with_reducible apply KeepsGoing.next | with_reducible apply Kept.trans _ (kept_advance ..)
    | with_reducible apply Kept.trans _ (kept_modTherm ..) | with_reducible apply Kept.trans _ (kept_wearOut ..))

theorem kept_execLane (t : Nat) (ap : Nat) (msg : Bytes) (s : State) : KeepsGoing s (execLane t ap msg s) := by
  unfold execLane
  repeat' (first
    | with_reducible exact Kept.refl _ | with_reducible apply KeepsGoing.next
    | with_reducible refine Kept.trans ?_ (kept_areturn _ _ _ _ _ ?_) | with_reducible apply Kept.trans _ (kept_alane ..)
    | with_reducible apply Kept.trans _ (kept_wearOut ..) | with_reducible apply Kept.trans _ (kept_advance ..) | intro _
    | dsimp only | split)

theorem kept_execArcdLaneSpared (t : Nat) (ap : Nat) (s : State) : KeepsGoing s (execArcdLaneSpared t ap s) := by
  unfold execArcdLaneSpared
  repeat' (first
    | with_reducible exact Kept.refl _ | with_reducible refine KeepsGoing.ite (fun _ => ?_) (fun _ => ?_)
    | with_reducible apply KeepsGoing.next | with_reducible apply Kept.trans _ (kept_advance ..)
    | with_reducible apply Kept.trans _ (kept_aswapEnd ..) | with_reducible apply Kept.trans _ (kept_pumpSwaps ..)
    | with_reducible apply Kept.trans _ (kept_swapDone ..) | dsimp only | split)

theorem kept_execBankSwapMirrored (t : Nat) (s : State) : KeepsGoing s (execBankSwapMirrored t s) := by
  unfold execBankSwapMirrored
  repeat' (first
    | with_reducible exact Kept.refl _ | with_reducible apply KeepsGoing.next
    | with_reducible apply Kept.trans _ (kept_advance ..) | with_reducible apply Kept.trans _ (kept_pumpSwaps ..)
    | with_reducible apply Kept.trans _ (kept_swapDone ..) | with_reducible apply Kept.trans _ (kept_raise ..)
    | with_reducible apply Kept.trans _ (kept_modArcd ..) | dsimp only | split)

theorem kept_execStringRampEnd (t : Nat) (s : State) : KeepsGoing s (execStringRampEnd t s) := by
  unfold execStringRampEnd
  repeat' (first
    | with_reducible exact Kept.refl _ | with_reducible apply KeepsGoing.next
    | with_reducible apply Kept.trans _ (kept_rampEnd ..) | with_reducible apply Kept.trans _ (kept_advance ..))

theorem kept_execSpareRejectRecheck (t : Nat) (area : Nat) (resource : Nat) (s : State) : KeepsGoing s (execSpareRejectRecheck t area resource s) := by
  unfold execSpareRejectRecheck
  repeat' (first
    | with_reducible exact Kept.refl _ | with_reducible refine Kept.ite (fun _ => ?_) (fun _ => ?_)
    | with_reducible apply KeepsGoing.next | with_reducible apply Kept.trans _ (kept_advance ..)
    | with_reducible apply Kept.trans _ (kept_modTherm ..) | with_reducible apply Kept.trans _ (kept_wearOut ..) | dsimp only
    | split)

theorem kept_sensorExcluded (i : Nat) (s : State) : Kept s (State.sensorExcluded i s) := by
  unfold State.sensorExcluded
  repeat' (first
    | with_reducible exact Kept.refl _ | with_reducible apply Kept.trans _ (kept_excludeJudge ..))

theorem kept_execRcTrimUpdate (t : Nat) (error : Int) (s : State) : KeepsGoing s (execRcTrimUpdate t error s) := by
  unfold execRcTrimUpdate
  repeat' (first
    | with_reducible exact Kept.refl _ | with_reducible refine KeepsGoing.ite (fun _ => ?_) (fun _ => ?_)
    | with_reducible apply KeepsGoing.next | with_reducible apply Kept.trans _ (kept_advance ..)
    | with_reducible apply Kept.trans _ (kept_modMews ..))

theorem kept_execCrystalCheck (t : Nat) (cycles : Nat) (s : State) : KeepsGoing s (execCrystalCheck t cycles s) := by
  unfold execCrystalCheck
  repeat' (first
    | with_reducible exact Kept.refl _ | with_reducible apply KeepsGoing.next
    | with_reducible apply Kept.trans _ (kept_advance ..) | with_reducible apply Kept.trans _ (kept_modMews ..))

theorem kept_execCrystalEdgeTimeout (t : Nat) (s : State) : KeepsGoing s (execCrystalEdgeTimeout t s) := by
  unfold execCrystalEdgeTimeout
  repeat' (first
    | with_reducible exact Kept.refl _ | with_reducible apply KeepsGoing.next
    | with_reducible apply Kept.trans _ (kept_modMews ..) | with_reducible apply Kept.trans _ (kept_advance ..))

/-! ## Machine/Clks.lean -/

theorem kept_modPll (n : Nat) (f : Pll → Pll) (s : State) : Kept s (State.modPll n f s) := by
  unfold State.modPll
  repeat' (first
    | with_reducible exact Kept.refl _ | with_reducible apply Kept.trans _ (kept_modClks ..))

theorem kept_pllSearch (n : Nat) (s : State) : Kept s (State.pllSearch n s) := by
  unfold State.pllSearch
  repeat' (first
    | with_reducible exact Kept.refl _ | with_reducible apply Kept.trans _ (kept_modPll ..))

theorem kept_startTarget (target : Nat) (s : State) : Kept s (State.startTarget target s) := by
  unfold State.startTarget
  repeat' (first
    | with_reducible exact Kept.refl _ | with_reducible refine Kept.ite (fun _ => ?_) (fun _ => ?_)
    | with_reducible apply Kept.trans _ (kept_pllSearch ..) | split)

theorem kept_stopTarget (target : Nat) (s : State) : Kept s (State.stopTarget target s) := by
  unfold State.stopTarget
  repeat' (first
    | with_reducible exact Kept.refl _ | with_reducible refine Kept.ite (fun _ => ?_) (fun _ => ?_)
    | with_reducible apply Kept.trans _ (kept_modPll ..) | split)

theorem kept_pllLocked (n : Nat) (band : Nat) (err : Int) (s : State) : Kept s (State.pllLocked n band err s) := by
  unfold State.pllLocked
  repeat' (first
    | with_reducible exact Kept.refl _ | with_reducible refine Kept.ite (fun _ => ?_) (fun _ => ?_)
    | with_reducible apply Kept.trans _ (kept_raise ..) | with_reducible apply Kept.trans _ (kept_modPll ..)
    | with_reducible apply Kept.trans _ (kept_setVal ..) | with_reducible apply Kept.trans _ (kept_wearClear ..))

theorem kept_pllCoast (n : Nat) (s : State) : Kept s (State.pllCoast n s) := by
  unfold State.pllCoast
  repeat' (first
    | with_reducible exact Kept.refl _ | with_reducible apply Kept.trans _ (kept_modPll ..))

theorem kept_pllFail (n : Nat) (s : State) : Kept s (State.pllFail n s) := by
  unfold State.pllFail
  repeat' (first
    | with_reducible exact Kept.refl _ | with_reducible apply Kept.trans _ (kept_wearOut ..)
    | with_reducible apply Kept.trans _ (kept_modPll ..))

theorem kept_pllSwapsBack (s : State) : Kept s (State.pllSwapsBack s) := by
  unfold State.pllSwapsBack
  repeat' (first
    | with_reducible exact Kept.refl _ | with_reducible apply Kept.trans _ (kept_swapsBackOf ..))

theorem kept_pllSwitch (s : State) : Kept s (State.pllSwitch s) := by
  unfold State.pllSwitch
  repeat' (first
    | with_reducible exact Kept.refl _ | with_reducible refine Kept.ite (fun _ => ?_) (fun _ => ?_)
    | with_reducible apply Kept.trans _ (kept_modPll ..) | with_reducible apply Kept.trans _ (kept_pumpSwaps ..)
    | with_reducible apply Kept.trans _ (kept_swapDone ..) | with_reducible apply Kept.trans _ (kept_raise ..) | dsimp only
    | split)

theorem kept_execClksBandMiss (t : Nat) (pll : Nat) (s : State) : KeepsGoing s (execClksBandMiss t pll s) := by
  unfold execClksBandMiss
  repeat' (first
    | with_reducible exact Kept.refl _ | with_reducible refine KeepsGoing.ite (fun _ => ?_) (fun _ => ?_)
    | with_reducible apply KeepsGoing.next | with_reducible apply Kept.trans _ (kept_advance ..)
    | with_reducible apply Kept.trans _ (kept_raise ..) | with_reducible apply Kept.trans _ (kept_modPll ..))

theorem kept_execSynthesiserSearchFailed (t : Nat) (pll : Nat) (s : State) : KeepsGoing s (execSynthesiserSearchFailed t pll s) := by
  unfold execSynthesiserSearchFailed
  repeat' (first
    | with_reducible exact Kept.refl _ | with_reducible refine Kept.ite (fun _ => ?_) (fun _ => ?_)
    | with_reducible refine KeepsGoing.ite (fun _ => ?_) (fun _ => ?_) | with_reducible apply KeepsGoing.next
    | with_reducible apply Kept.trans _ (kept_advance ..) | with_reducible apply Kept.trans _ (kept_modPll ..)
    | with_reducible apply Kept.trans _ (kept_pllFail ..))

theorem kept_execClksLockLost (t : Nat) (pll : Nat) (err : Int) (s : State) : KeepsGoing s (execClksLockLost t pll err s) := by
  unfold execClksLockLost
  repeat' (first
    | with_reducible exact Kept.refl _ | with_reducible refine KeepsGoing.ite (fun _ => ?_) (fun _ => ?_)
    | with_reducible apply KeepsGoing.next | with_reducible apply Kept.trans _ (kept_advance ..)
    | with_reducible apply Kept.trans _ (kept_raise ..) | with_reducible apply Kept.trans _ (kept_modPll ..)
    | with_reducible apply Kept.trans _ (kept_pllCoast ..))

theorem kept_execClksHoldoverLimit (t : Nat) (pll : Nat) (s : State) : KeepsGoing s (execClksHoldoverLimit t pll s) := by
  unfold execClksHoldoverLimit
  repeat' (first
    | with_reducible exact Kept.refl _ | with_reducible refine Kept.ite (fun _ => ?_) (fun _ => ?_)
    | with_reducible refine KeepsGoing.ite (fun _ => ?_) (fun _ => ?_) | with_reducible apply KeepsGoing.next
    | with_reducible apply Kept.trans _ (kept_advance ..) | with_reducible apply Kept.trans _ (kept_raise ..)
    | with_reducible apply Kept.trans _ (kept_modPll ..) | with_reducible apply Kept.trans _ (kept_pllFail ..) | dsimp only
    | split)

theorem kept_execClksRefLost (t : Nat) (s : State) : KeepsGoing s (execClksRefLost t s) := by
  unfold execClksRefLost
  repeat' (first
    | with_reducible exact Kept.refl _ | with_reducible refine Kept.ite (fun _ => ?_) (fun _ => ?_)
    | with_reducible refine KeepsGoing.ite (fun _ => ?_) (fun _ => ?_) | with_reducible apply KeepsGoing.next
    | with_reducible apply Kept.trans _ (kept_advance ..) | with_reducible apply Kept.trans _ (kept_pllSwapsBack ..)
    | with_reducible apply Kept.trans _ (kept_modClks ..) | with_reducible apply Kept.trans _ (kept_pllCoast ..)
    | with_reducible apply Kept.trans _ (kept_raise ..) | with_reducible refine Kept.trans ?_ (Kept.foldl ?_ _ _) | intro _)

theorem kept_refGood (s : State) : Kept s (State.refGood s) := by
  unfold State.refGood
  repeat' (first
    | with_reducible exact Kept.refl _ | with_reducible refine Kept.ite (fun _ => ?_) (fun _ => ?_)
    | with_reducible apply Kept.trans _ (kept_pumpSwaps ..) | with_reducible apply Kept.trans _ (kept_modClks ..))

theorem kept_execDomainGate (t : Nat) (domain : Nat) (idle : Bool) (s : State) : KeepsGoing s (execDomainGate t domain idle s) := by
  unfold execDomainGate
  repeat' (first
    | with_reducible exact Kept.refl _ | with_reducible refine KeepsGoing.ite (fun _ => ?_) (fun _ => ?_)
    | with_reducible apply KeepsGoing.next | with_reducible apply Kept.trans _ (kept_advance ..)
    | with_reducible apply Kept.trans _ (kept_modClks ..))

theorem kept_execClksSpared (t : Nat) (s : State) : KeepsGoing s (execClksSpared t s) := by
  unfold execClksSpared
  repeat' (first
    | with_reducible exact Kept.refl _ | with_reducible apply KeepsGoing.next
    | with_reducible apply Kept.trans _ (kept_pllSwitch ..) | with_reducible apply Kept.trans _ (kept_advance ..))

/-! ## Machine/Device.lean -/

theorem kept_setDev (d : DevState) (s : State) : Kept s (State.setDev d s) := by
  unfold State.setDev
  repeat' (first
    | with_reducible exact Kept.refl _ | with_reducible refine Kept.ite (fun _ => ?_) (fun _ => ?_)
    | with_reducible apply Kept.trans _ (kept_driveKill ..) | with_reducible apply Kept.trans _ (kept_recommand ..)
    | with_reducible apply Kept.trans _ (kept_updateHpd ..) | with_reducible apply Kept.trans _ (kept_raise ..)
    | with_reducible refine Kept.trans ?_ (Kept.foldl ?_ _ _) | intro _)

theorem kept_parkDark (ap : Nat) (s : State) : Kept s (State.parkDark ap s) := by
  unfold State.parkDark
  repeat' (first
    | with_reducible exact Kept.refl _ | with_reducible refine Kept.ite (fun _ => ?_) (fun _ => ?_)
    | with_reducible apply Kept.trans _ (kept_raise ..) | with_reducible apply Kept.trans _ (kept_setArray ..)
    | with_reducible apply Kept.trans _ (kept_modAport ..) | with_reducible apply Kept.trans _ (kept_apark ..))

theorem kept_darkBands (s : State) : Kept s (State.darkBands s) := by
  unfold State.darkBands
  repeat' (first
    | with_reducible exact Kept.refl _ | with_reducible refine Kept.ite (fun _ => ?_) (fun _ => ?_)
    | with_reducible apply Kept.trans _ (kept_killBand ..) | with_reducible apply Kept.trans _ (kept_modBand ..)
    | with_reducible apply Kept.trans _ (kept_modStrings ..) | with_reducible apply Kept.trans _ (kept_setBand ..)
    | with_reducible refine Kept.trans ?_ (Kept.foldl ?_ _ _) | intro _)

theorem kept_goDark (s : State) : Kept s (State.goDark s) := by
  unfold State.goDark
  repeat' (first
    | with_reducible exact Kept.refl _ | with_reducible apply Kept.trans _ (kept_parkDark ..)
    | with_reducible apply Kept.trans _ (kept_swapsBack ..) | with_reducible apply Kept.trans _ (kept_stopTarget ..)
    | with_reducible apply Kept.trans _ (kept_selfRefresh ..) | with_reducible apply Kept.trans _ (kept_darkBands ..)
    | with_reducible apply Kept.trans _ (kept_modPlgn ..) | with_reducible apply Kept.trans _ (kept_clearBlocks ..)
    | with_reducible apply Kept.trans _ (kept_observeLayers ..) | with_reducible apply Kept.trans _ (kept_modMews ..)
    | with_reducible apply Kept.trans _ (kept_modCurg ..) | with_reducible apply Kept.trans _ (kept_compilerLease ..)
    | with_reducible refine Kept.trans ?_ (Kept.foldl ?_ _ _) | intro _)

theorem kept_enterStandby (s : State) : Kept s (State.enterStandby s) := by
  unfold State.enterStandby
  repeat' (first
    | with_reducible exact Kept.refl _ | with_reducible refine Kept.ite (fun _ => ?_) (fun _ => ?_)
    | with_reducible apply Kept.trans _ (kept_setDev ..) | with_reducible apply Kept.trans _ (kept_setCmd ..)
    | with_reducible apply Kept.trans _ (kept_wheelStop ..) | with_reducible apply Kept.trans _ (kept_goDark ..)
    | with_reducible refine Kept.trans ?_ (Kept.foldl ?_ _ _) | intro _)

theorem kept_enterSafe (cause : Nat) (s : State) : Kept s (State.enterSafe cause s) := by
  unfold State.enterSafe
  repeat' (first
    | with_reducible exact Kept.refl _ | with_reducible refine Kept.ite (fun _ => ?_) (fun _ => ?_)
    | with_reducible apply Kept.trans _ (kept_modMews ..) | with_reducible apply Kept.trans _ (kept_setDev ..)
    | with_reducible apply Kept.trans _ (kept_freeOrigin ..) | with_reducible apply Kept.trans _ (kept_wheelSafe ..)
    | with_reducible apply Kept.trans _ (kept_goDark ..) | with_reducible refine Kept.trans ?_ (Kept.foldl ?_ _ _) | intro _)

theorem kept_killPath (b : Nat) (s : State) : Kept s (State.killPath b s) := by
  unfold State.killPath
  repeat' (first
    | with_reducible exact Kept.refl _ | with_reducible refine Kept.ite (fun _ => ?_) (fun _ => ?_)
    | with_reducible apply Kept.trans _ (kept_setLatch ..) | with_reducible apply Kept.trans _ (kept_raise ..)
    | with_reducible apply Kept.trans _ (kept_killBand ..) | with_reducible refine Kept.trans ?_ (Kept.foldl ?_ _ _) | intro _)

theorem kept_releaseKill (s : State) : Kept s (State.releaseKill s) := by
  unfold State.releaseKill
  repeat' (first
    | with_reducible exact Kept.refl _ | with_reducible refine Kept.ite (fun _ => ?_) (fun _ => ?_)
    | with_reducible apply Kept.trans _ (kept_raise ..) | with_reducible apply Kept.trans _ (kept_driveKill ..)
    | with_reducible apply Kept.trans _ (kept_modLamp ..) | with_reducible apply Kept.trans _ (kept_reviveBand ..)
    | with_reducible refine Kept.trans ?_ (Kept.foldl ?_ _ _) | intro _)

theorem kept_warmArray (s : State) (ap : Nat) : Kept s (State.warmArray s ap) := by
  unfold State.warmArray
  repeat' (first
    | with_reducible exact Kept.refl _ | with_reducible refine Kept.ite (fun _ => ?_) (fun _ => ?_)
    | with_reducible apply Kept.trans _ (kept_atrain ..) | with_reducible apply Kept.trans _ (kept_areturnTrain ..) | split)

theorem kept_enterWarming (s : State) : Kept s (State.enterWarming s) := by
  unfold State.enterWarming
  repeat' (first
    | with_reducible exact Kept.refl _ | with_reducible refine Kept.ite (fun _ => ?_) (fun _ => ?_)
    | with_reducible apply Kept.trans _ (kept_setDev ..) | with_reducible apply Kept.trans _ (kept_modMews ..)
    | with_reducible apply Kept.trans _ (kept_startTarget ..) | with_reducible apply Kept.trans _ (kept_hbmExitRefresh ..)
    | with_reducible apply Kept.trans _ (kept_warmArray ..) | with_reducible apply Kept.trans _ (kept_startEnum ..)
    | with_reducible apply Kept.trans _ (kept_wheelRun ..) | with_reducible apply Kept.trans _ (kept_setCmd ..)
    | with_reducible apply Kept.trans _ (kept_warmBands ..) | with_reducible refine Kept.trans ?_ (Kept.foldl ?_ _ _) | intro _)

theorem kept_stateRequest (v : Nat) (mews : State → State) (s : State) (hmews : ∀ s, Kept s (mews s)) : ∀ r, (State.stateRequest v mews s) = some r → Kept s r := by
  unfold State.stateRequest
  repeat' (first
    | with_reducible exact Kept.refl _ | with_reducible refine Kept.optSome ?_ | with_reducible exact Kept.optNone
    | with_reducible refine Kept.optIte (fun _ => ?_) (fun _ => ?_) | with_reducible apply Kept.trans _ (kept_modMews ..)
    | with_reducible apply Kept.trans _ (kept_enterStandby ..) | with_reducible apply Kept.trans _ (kept_releaseKill ..)
    | with_reducible apply Kept.trans _ (kept_enterWarming ..) | with_reducible apply Kept.trans _ (kept_enterSafe ..)
    | with_reducible refine Kept.trans ?_ (hmews _) | split)

theorem kept_judgeService (s : State) : Kept s (State.judgeService s) := by
  unfold State.judgeService
  repeat' (first
    | with_reducible exact Kept.refl _ | with_reducible refine Kept.ite (fun _ => ?_) (fun _ => ?_)
    | with_reducible apply Kept.trans _ (kept_modMews ..) | with_reducible apply Kept.trans _ (kept_pumpSwaps ..)
    | with_reducible apply Kept.trans _ (kept_setDev ..) | with_reducible apply Kept.trans _ (kept_enterSafe ..) | dsimp only
    | split)

theorem kept_rampDownBoundary (s : State) : Kept s (State.rampDownBoundary s) := by
  unfold State.rampDownBoundary
  repeat' (first
    | with_reducible exact Kept.refl _ | with_reducible refine Kept.ite (fun _ => ?_) (fun _ => ?_)
    | with_reducible apply Kept.trans _ (kept_enterStandby ..) | with_reducible apply Kept.trans _ (kept_modMews ..) | split)

theorem kept_execLampInterlock (t : Nat) (input : Nat) (s : State) : KeepsGoing s (execLampInterlock t input s) := by
  unfold execLampInterlock
  repeat' (first
    | with_reducible exact Kept.refl _ | with_reducible refine KeepsGoing.ite (fun _ => ?_) (fun _ => ?_)
    | with_reducible apply KeepsGoing.next | with_reducible apply Kept.trans _ (kept_advance ..)
    | with_reducible apply Kept.trans _ (kept_modLamp ..) | with_reducible apply Kept.trans _ (kept_intlkLevel ..)
    | with_reducible apply Kept.trans _ (kept_enterSafe ..) | with_reducible apply Kept.trans _ (kept_killPath ..)
    | with_reducible apply Kept.trans _ (kept_raise ..))

theorem kept_execMewsThermalShutdown (t : Nat) (s : State) : KeepsGoing s (execMewsThermalShutdown t s) := by
  unfold execMewsThermalShutdown
  repeat' (first
    | with_reducible exact Kept.refl _ | with_reducible refine KeepsGoing.ite (fun _ => ?_) (fun _ => ?_)
    | with_reducible apply KeepsGoing.next | with_reducible apply Kept.trans _ (kept_advance ..)
    | with_reducible apply Kept.trans _ (kept_dieJudge ..) | with_reducible apply Kept.trans _ (kept_enterSafe ..)
    | with_reducible apply Kept.trans _ (kept_killPath ..))

theorem kept_execDieSensorExcluded (t : Nat) (sensor : Nat) (s : State) : KeepsGoing s (execDieSensorExcluded t sensor s) := by
  unfold execDieSensorExcluded
  repeat' (first
    | with_reducible exact Kept.refl _ | with_reducible refine Kept.ite (fun _ => ?_) (fun _ => ?_)
    | with_reducible refine KeepsGoing.ite (fun _ => ?_) (fun _ => ?_) | with_reducible apply KeepsGoing.next
    | with_reducible apply Kept.trans _ (kept_advance ..) | with_reducible apply Kept.trans _ (kept_sensorExcluded ..)
    | with_reducible apply Kept.trans _ (kept_throttleEntry ..) | with_reducible apply Kept.trans _ (kept_enterSafe ..)
    | with_reducible apply Kept.trans _ (kept_killPath ..))

theorem kept_execLampBoardLevel (t : Nat) (channel : Nat) (s : State) : KeepsGoing s (execLampBoardLevel t channel s) := by
  unfold execLampBoardLevel
  repeat' (first
    | with_reducible exact Kept.refl _ | with_reducible refine KeepsGoing.ite (fun _ => ?_) (fun _ => ?_)
    | with_reducible apply KeepsGoing.next | with_reducible apply Kept.trans _ (kept_advance ..)
    | with_reducible apply Kept.trans _ (kept_lampJudge ..) | with_reducible apply Kept.trans _ (kept_enterSafe ..)
    | with_reducible apply Kept.trans _ (kept_killPath ..) | with_reducible apply Kept.trans _ (kept_modMews ..)
    | with_reducible refine Kept.trans ?_ (Kept.foldl ?_ _ _) | intro _)

theorem kept_execArrayTrainingDone (t : Nat) (ap : Nat) (step : Nat) (regs : List Nat) (roundTrip : Nat) (turnaround : Nat) (s : State) : KeepsGoing s (execArrayTrainingDone t ap step regs roundTrip turnaround s) := by
  unfold execArrayTrainingDone
  repeat' (first
    | with_reducible exact Kept.refl _ | with_reducible refine KeepsGoing.ite (fun _ => ?_) (fun _ => ?_)
    | with_reducible apply KeepsGoing.next | with_reducible apply Kept.trans _ (kept_advance ..)
    | with_reducible apply Kept.trans _ (kept_atrainEnd ..) | with_reducible apply Kept.trans _ (kept_wearClear ..)
    | with_reducible apply Kept.trans _ (kept_modAport ..) | with_reducible refine Kept.trans ?_ (Kept.foldl ?_ _ _) | intro _)

/-! ## Machine/Commit.lean -/

theorem Canon.foldl_set {f : Nat → Nat} (l m : List (Nat × MemWord)) (o : Canon 0 m) :
    Canon 0 (l.foldl (fun m e => mapSet 0 m (f e.1) e.2) m) := by
  induction l generalizing m with
  | nil => exact o
  | cons a l ih => exact ih _ ⟨mapRising_set _ _ _ _ o.1, mapSet_listed _ _ _ _ o.2⟩

theorem kept_sealShadow (s : State) : Kept s (State.sealShadow s) := by
  unfold State.sealShadow
  repeat' (first
    | with_reducible exact Kept.refl _ | with_reducible apply Kept.trans _ (kept_modSeqr ..)
    | with_reducible refine Kept.trans ?_ (kept_modDict ?_ _) | exact (fun _ h => h))

theorem kept_emptyShadow (s : State) : Kept s (State.emptyShadow s) := by
  refine Kept.trans (s := s.modDict _) (kept_modDict (fun _ h => ?_) _) (kept_modSeqr _ _)
  exact ⟨h.1, rfl⟩

theorem kept_dropOrphan (s : State) : Kept s (State.dropOrphan s) := by
  unfold State.dropOrphan
  repeat' (first
    | with_reducible exact Kept.refl _ | with_reducible refine Kept.ite (fun _ => ?_) (fun _ => ?_)
    | with_reducible apply Kept.trans _ (kept_raise ..) | with_reducible apply Kept.trans _ (kept_emptyShadow ..))

theorem kept_refuseCommit (reason : Nat) (obj : Nat) (s : State) : Kept s (State.refuseCommit reason obj s) := by
  unfold State.refuseCommit
  repeat' (first
    | with_reducible exact Kept.refl _ | with_reducible apply Kept.trans _ (kept_dropOrphan ..)
    | with_reducible apply Kept.trans _ (kept_raise ..) | with_reducible apply Kept.trans _ (kept_modSeqr ..)
    | with_reducible refine Kept.trans ?_ (kept_modDict ?_ _) | exact (fun _ h => h))

theorem kept_pendCommit (c : Nat) (wall : Bool) (s : State) : Kept s (State.pendCommit c wall s) := by
  unfold State.pendCommit
  repeat' (first
    | with_reducible exact Kept.refl _ | with_reducible refine Kept.ite (fun _ => ?_) (fun _ => ?_)
    | with_reducible apply Kept.trans _ (kept_modSeqr ..) | with_reducible apply Kept.trans _ (kept_raise ..))

theorem kept_endLocalValidation (s : State) : Kept s (State.endLocalValidation s) := by
  unfold State.endLocalValidation
  repeat' (first
    | with_reducible exact Kept.refl _ | with_reducible refine Kept.ite (fun _ => ?_) (fun _ => ?_)
    | with_reducible apply Kept.trans _ (kept_refuseCommit ..) | with_reducible apply Kept.trans _ (kept_pendCommit ..)
    | dsimp only | split)

theorem kept_stageStart (obj : Nat) (sub : Nat) (len : Nat) (s : State) : Kept s (State.stageStart obj sub len s) := by
  unfold State.stageStart
  repeat' (first
    | with_reducible exact Kept.refl _ | with_reducible apply Kept.trans _ (kept_modSeqr ..))

theorem kept_stageBoundary (s : State) : Kept s (State.stageBoundary s) := by
  unfold State.stageBoundary
  repeat' (first
    | with_reducible exact Kept.refl _ | with_reducible apply Kept.trans _ (kept_modSeqr ..))

theorem kept_stageVerified (s : State) : Kept s (State.stageVerified s) := by
  unfold State.stageVerified
  repeat' (first
    | with_reducible exact Kept.refl _ | with_reducible refine Kept.ite (fun _ => ?_) (fun _ => ?_)
    | with_reducible apply Kept.trans _ (kept_raise ..) | with_reducible apply Kept.trans _ (kept_modSeqr ..))

theorem kept_allocate (s : State) : Kept s (State.allocate s) := by
  unfold State.allocate
  extract_lets want old kept stay
  split
  rename_i rs s1 e
  have k : Kept s s1 := by
    refine Kept.ofSnd (Kept.foldlSnd (fun p q => ?_) want ([], s)) e
    split
    · exact Kept.refl _
    · exact kept_drawn p.2
  extract_lets placed packed
  refine Kept.trans k (kept_modHbm (fun h o => ?_) _)
  dsimp only
  split
  · exact o
  · exact ⟨o.1, Canon.foldl_set _ _ ⟨rfl, by simp⟩⟩

theorem kept_fsyncMode (s : State) : Kept s (State.fsyncMode s) := by
  unfold State.fsyncMode
  repeat' (first
    | with_reducible exact Kept.refl _ | with_reducible refine Kept.ite (fun _ => ?_) (fun _ => ?_)
    | with_reducible apply Kept.trans _ (kept_setFsync ..) | with_reducible apply Kept.trans _ (kept_modSeqr ..)
    | with_reducible apply Kept.trans _ (kept_rebase ..))

theorem kept_applyArrays (old : View) (s : State) : Kept s (State.applyArrays old s) := by
  unfold State.applyArrays
  repeat' (first
    | with_reducible exact Kept.refl _ | with_reducible refine Kept.ite (fun _ => ?_) (fun _ => ?_)
    | with_reducible apply Kept.trans _ (kept_setCmd ..) | with_reducible apply Kept.trans _ (kept_setArray ..)
    | with_reducible apply Kept.trans _ (kept_apark ..) | with_reducible apply Kept.trans _ (kept_atrain ..)
    | with_reducible apply Kept.trans _ (kept_acontrol ..) | with_reducible refine Kept.trans ?_ (Kept.foldl ?_ _ _) | intro _)

theorem kept_applyValues (c : Nat) (s : State) : Kept s (State.applyValues c s) := by
  unfold State.applyValues
  repeat' (first
    | with_reducible exact Kept.refl _ | with_reducible refine Kept.ite (fun _ => ?_) (fun _ => ?_)
    | with_reducible apply Kept.trans _ (kept_recommand ..) | with_reducible apply Kept.trans _ (kept_applyTopology ..)
    | with_reducible apply Kept.trans _ (kept_ptpMode ..) | with_reducible apply Kept.trans _ (kept_raise ..)
    | with_reducible refine Kept.trans ?_ (Kept.foldl ?_ _ _) | intro _)

theorem kept_commitDone (first : Nat) (s : State) : Kept s (State.commitDone first s) := by
  unfold State.commitDone
  repeat' (first
    | with_reducible exact Kept.refl _ | with_reducible apply Kept.trans _ (kept_raise ..)
    | with_reducible apply Kept.trans _ (kept_modSeqr ..) | with_reducible apply Kept.trans _ (kept_emptyShadow ..))

theorem kept_applyCommit (c : Nat) (s : State) : Kept s (State.applyCommit c s) := by
  unfold State.applyCommit
  repeat' (first
    | with_reducible exact Kept.refl _ | with_reducible refine Kept.ite (fun _ => ?_) (fun _ => ?_)
    | with_reducible apply Kept.trans _ (kept_applyValues ..) | with_reducible apply Kept.trans _ (kept_commitDone ..)
    | with_reducible apply Kept.trans _ (kept_emit ..) | with_reducible apply Kept.trans _ (kept_apark ..)
    | with_reducible apply Kept.trans _ (kept_modPlgn ..) | with_reducible apply Kept.trans _ (kept_modPlGroup ..)
    | with_reducible apply Kept.trans _ (kept_modSeqr ..) | with_reducible refine Kept.trans ?_ (kept_modDict ?_ _)
    | with_reducible refine Kept.trans ?_ (Kept.foldl ?_ _ _) | exact (fun _ h => h) | intro _)

theorem kept_commitBoundary (f : Nat) (s : State) : Kept s (State.commitBoundary f s) := by
  unfold State.commitBoundary
  repeat' (first
    | with_reducible exact Kept.refl _ | with_reducible refine Kept.ite (fun _ => ?_) (fun _ => ?_)
    | with_reducible apply Kept.trans _ (kept_refuseCommit ..) | with_reducible apply Kept.trans _ (kept_applyCommit ..))

theorem kept_transBoundary (f : Nat) (s : State) : Kept s (State.transBoundary f s) := by
  unfold State.transBoundary
  repeat' (first
    | with_reducible exact Kept.refl _ | with_reducible refine Kept.ite (fun _ => ?_) (fun _ => ?_)
    | with_reducible apply Kept.trans _ (kept_modSeqr ..) | with_reducible apply Kept.trans _ (kept_commitDone ..)
    | with_reducible apply Kept.trans _ (kept_raise ..) | dsimp only | split)

theorem kept_execSeqrStageReady (t : Nat) (s : State) : KeepsGoing s (execSeqrStageReady t s) := by
  unfold execSeqrStageReady
  repeat' (first
    | with_reducible exact Kept.refl _ | with_reducible apply KeepsGoing.next
    | with_reducible apply Kept.trans _ (kept_stageVerified ..) | with_reducible apply Kept.trans _ (kept_advance ..))

/-! ## Machine/Profile.lean -/

theorem kept_profStart (save : Bool) (s : State) : Kept s (State.profStart save s) := by
  unfold State.profStart
  repeat' (first
    | with_reducible exact Kept.refl _ | with_reducible apply Kept.trans _ (kept_takeLeaseOf ..)
    | with_reducible refine Kept.trans ?_ (kept_modGysol ?_ _) | exact (fun _ h => h))

theorem kept_profCommand (save : Bool) (s : State) : Kept s (State.profCommand save s) := by
  unfold State.profCommand
  repeat' (first
    | with_reducible exact Kept.refl _ | with_reducible refine Kept.ite (fun _ => ?_) (fun _ => ?_)
    | with_reducible refine Kept.trans ?_ (kept_modGysol ?_ _) | with_reducible apply Kept.trans _ (kept_profStart ..)
    | exact (fun _ h => h))

theorem kept_profNext (s : State) : Kept s (State.profNext s) := by
  unfold State.profNext
  repeat' (first
    | with_reducible exact Kept.refl _ | with_reducible apply Kept.trans _ (kept_dropLease ..)
    | with_reducible apply Kept.trans _ (kept_profStart ..) | dsimp only | split)

theorem kept_saveEnd (ok : Bool) (s : State) : Kept s (State.saveEnd ok s) := by
  unfold State.saveEnd
  split
  · refine Kept.trans (kept_modGysol (fun g h => ?_) _) (kept_profNext _)
    dsimp only
    have k : ∀ (g : Gysol) (c : ProfCopy), (g.putOlder c).sessions = g.sessions ∧ (g.putOlder c).queue = g.queue := by
      intro g c
      unfold Gysol.putOlder
      split <;> exact ⟨rfl, rfl⟩
    split
    · exact h
    · split <;> exact Gysol.ok_same (k _ _).1 (k _ _).2 h
  · exact Kept.refl _

theorem kept_eraseEnd (s : State) : Kept s (State.eraseEnd s) := by
  unfold State.eraseEnd
  repeat' (first
    | with_reducible exact Kept.refl _ | with_reducible apply Kept.trans _ (kept_profNext ..)
    | with_reducible refine Kept.trans ?_ (kept_modGysol ?_ _) | exact (fun _ h => h) | split)

theorem kept_defaultObj (o : Nat) (s : State) : Kept s (State.defaultObj o s) := by
  refine kept_modDict (fun _ h => ?_) _
  exact ⟨mapRising_filter _ _ h.1, h.2⟩

theorem kept_profSkip (s : State) : Kept s (State.profSkip s) := by
  unfold State.profSkip
  repeat' (first
    | with_reducible exact Kept.refl _ | with_reducible refine Kept.trans ?_ (kept_modGysol ?_ _) | exact (fun _ h => h))

theorem kept_settleProfile (n : Nat) (s : State) : Kept s (State.settleProfile n s) := by
  induction n generalizing s with
  | zero => exact Kept.refl _
  | succ n ih =>
    unfold State.settleProfile
    dsimp only
    split
    · exact Kept.refl _
    · exact Kept.trans (Kept.trans (kept_defaultObj _ _) (kept_profSkip _)) (ih _)

theorem kept_enactProfile (s : State) : Kept s (State.enactProfile s) := by
  unfold State.enactProfile
  repeat' (first
    | with_reducible exact Kept.refl _ | with_reducible refine Kept.ite (fun _ => ?_) (fun _ => ?_)
    | with_reducible apply Kept.trans _ (kept_allocate ..) | with_reducible apply Kept.trans _ (kept_setPlan ..)
    | with_reducible apply Kept.trans _ (kept_fsyncMode ..) | with_reducible refine Kept.trans ?_ (Kept.foldl ?_ _ _) | intro _)

theorem kept_commandReset (s : State) : Kept s (State.commandReset s) := by
  unfold State.commandReset
  repeat' (first
    | with_reducible exact Kept.refl _ | with_reducible refine Kept.ite (fun _ => ?_) (fun _ => ?_)
    | with_reducible apply Kept.trans _ (kept_setCmd ..) | with_reducible refine Kept.trans ?_ (Kept.foldl ?_ _ _) | intro _)

theorem kept_loadProfile (s : State) : Kept s (State.loadProfile s) := by
  unfold State.loadProfile
  extract_lets es s0 s1 s2 s3
  have k0 : Kept s s0 := by
    change Kept s (match s.gysol.profInvalid with
      | some d => s.raise 0x24 0 d
      | none => s)
    split
    · exact kept_raise ..
    · exact Kept.refl _
  have k1 : Kept s0 s1 := Kept.foldl (fun t e => by
    split
    · exact kept_setVal ..
    · exact kept_profSkip _) _ _
  have k2 : Kept s1 s2 := kept_settleProfile _ _
  clear_value s0 s1 s2
  have k3 : Kept s2 s3 := by
    refine kept_modGysol (fun _ h => ?_) _
    exact h
  clear_value s3
  refine Kept.trans ?_ (kept_modMews _ _)
  refine Kept.trans ?_ (kept_commandReset _)
  refine Kept.trans ?_ (kept_enactProfile _)
  exact Kept.trans (Kept.trans (Kept.trans (Kept.trans k0 k1) k2) k3) (kept_modUane _ _)

theorem kept_execProfileSaveComplete (t : Nat) (ok : Bool) (s : State) : KeepsGoing s (execProfileSaveComplete t ok s) := by
  unfold execProfileSaveComplete
  repeat' (first
    | with_reducible exact Kept.refl _ | with_reducible apply KeepsGoing.next
    | with_reducible apply Kept.trans _ (kept_saveEnd ..) | with_reducible apply Kept.trans _ (kept_advance ..))

theorem kept_execProfileEraseComplete (t : Nat) (s : State) : KeepsGoing s (execProfileEraseComplete t s) := by
  unfold execProfileEraseComplete
  repeat' (first
    | with_reducible exact Kept.refl _ | with_reducible apply KeepsGoing.next
    | with_reducible apply Kept.trans _ (kept_eraseEnd ..) | with_reducible apply Kept.trans _ (kept_advance ..))

/-! ## Machine/Boot.lean -/

theorem kept_clearDie (s : State) : Kept s (State.clearDie s) := by
  unfold State.clearDie
  dsimp only
  refine Kept.trans ?_ (kept_emits _ _)
  exact ⟨rfl, le_refl _, List.prefix_refl _, fun o => ⟨⟨⟨rfl, by simp⟩, ⟨rfl, by simp⟩⟩, ⟨mapRising_filter _ _ o.dict.1, rfl⟩, ⟨o.xrds.1, Nat.zero_le _⟩,
    ⟨Nat.zero_le _, Nat.zero_le _⟩⟩⟩

theorem kept_dieReset (cause : Nat) (s : State) : Kept s (State.dieReset cause s) := by
  unfold State.dieReset
  repeat' (first
    | with_reducible exact Kept.refl _ | with_reducible apply Kept.trans _ (kept_modMews ..)
    | with_reducible apply Kept.trans _ (kept_clearDie ..))

theorem kept_holdDie (s : State) : Kept s (State.holdDie s) := by
  unfold State.holdDie
  repeat' (first
    | with_reducible exact Kept.refl _ | with_reducible apply Kept.trans _ (kept_modMews ..))

theorem kept_markSlot (n : Nat) (st : Nat) (s : State) : Kept s (State.markSlot n st s) := by
  unfold State.markSlot
  repeat' (first
    | with_reducible exact Kept.refl _ | with_reducible apply Kept.trans _ (kept_modFirm ..))

theorem kept_tryImages (ns : List Nat) (s : State) : Kept s (State.tryImages ns s).2 := by
  induction ns generalizing s with
  | nil => exact Kept.refl _
  | cons n ns ih =>
    unfold State.tryImages
    refine Kept.iteSnd (fun _ => ?_) (fun _ => ?_)
    · exact Kept.trans (kept_markSlot _ _ _) (kept_raise ..)
    · exact Kept.trans (Kept.trans (kept_markSlot _ _ _) (kept_raise ..)) (ih _)

theorem kept_checkImages (s : State) : Kept s (State.checkImages s).2 := by
  unfold State.checkImages
  refine Kept.trans ?_ (kept_tryImages _ _)
  refine Kept.foldl (fun t n => ?_) _ _
  split
  · exact kept_markSlot _ _ _
  · exact Kept.trans (kept_markSlot _ _ _) (kept_raise ..)

theorem kept_startFirmware (slot : Nat) (s : State) : Kept s (State.startFirmware slot s) := by
  unfold State.startFirmware
  extract_lets s1 s2
  have k : Kept s s2 := ⟨rfl, le_refl _, List.prefix_refl _, fun o => ⟨o.hbm, o.dict, o.xrds, o.gysol⟩⟩
  clear_value s2
  exact Kept.trans (Kept.trans (Kept.trans (Kept.trans k (kept_stepEvent ..)) (kept_loadProfile _)) (kept_ptpMode _)) (kept_updateMaster _)

theorem kept_startTraining (s : State) : Kept s (State.startTraining s) := by
  unfold State.startTraining
  repeat' (first
    | with_reducible exact Kept.refl _ | with_reducible refine Kept.ite (fun _ => ?_) (fun _ => ?_)
    | with_reducible apply Kept.trans _ (kept_hbmTrain ..) | with_reducible apply Kept.trans _ (kept_startTarget ..)
    | with_reducible apply Kept.trans _ (kept_atrain ..) | with_reducible apply Kept.trans _ (kept_uaneTrain ..)
    | with_reducible apply Kept.trans _ (kept_modMews ..) | with_reducible refine Kept.trans ?_ (Kept.foldl ?_ _ _) | intro _)

theorem kept_bootImage (s : State) : Kept s (State.bootImage s) := by
  unfold State.bootImage
  have k := kept_checkImages (s.modMews fun m => { m with bootStep := 3, bootReadAt := s.now })
  split <;> rename_i e <;> rw [e] at k
  · exact Kept.trans (Kept.trans (Kept.trans (kept_modMews _ _) k) (kept_startFirmware _ _)) (kept_startTraining _)
  · exact Kept.trans (kept_modMews _ _) k

theorem kept_bootOn (s : State) : Kept s (State.bootOn s) := by
  unfold State.bootOn
  repeat' (first
    | with_reducible exact Kept.refl _ | with_reducible refine Kept.ite (fun _ => ?_) (fun _ => ?_)
    | with_reducible apply Kept.trans _ (kept_modMews ..) | with_reducible apply Kept.trans _ (kept_startTarget ..)
    | with_reducible apply Kept.trans _ (kept_bootImage ..) | with_reducible refine Kept.trans ?_ (Kept.foldl ?_ _ _) | intro _)

theorem kept_restoreLog (s : State) : Kept s (State.restoreLog s) := by
  unfold State.restoreLog
  split
  · exact kept_raise ..
  · refine Kept.trans (kept_modXrds (fun x h => ?_) _) (kept_raise ..)
    exact ⟨Nat.zero_le _, h.2⟩

theorem kept_releaseDie (s : State) : Kept s (State.releaseDie s) := by
  unfold State.releaseDie
  repeat' (first
    | with_reducible exact Kept.refl _ | with_reducible refine Kept.ite (fun _ => ?_) (fun _ => ?_)
    | with_reducible apply Kept.trans _ (kept_restoreLog ..) | with_reducible apply Kept.trans _ (kept_modMews ..)
    | with_reducible apply Kept.trans _ (kept_raise ..) | with_reducible refine Kept.trans ?_ (kept_modHbm ?_ _)
    | with_reducible apply Kept.trans _ (kept_enterSafe ..) | with_reducible apply Kept.trans _ (kept_killPath ..)
    | with_reducible apply Kept.trans _ (kept_modClks ..) | exact (fun _ h => h))

theorem kept_execResetRelease (t : Nat) (sigs : List Bool) (eeprom : Bytes) (kib : Nat) (sfdp : Bool) (logOk : Bool) (s : State) : KeepsGoing s (execResetRelease t sigs eeprom kib sfdp logOk s) := by
  unfold execResetRelease
  repeat' (first
    | with_reducible exact Kept.refl _ | with_reducible refine Kept.ite (fun _ => ?_) (fun _ => ?_)
    | with_reducible refine KeepsGoing.ite (fun _ => ?_) (fun _ => ?_) | with_reducible apply KeepsGoing.next
    | with_reducible apply Kept.trans _ (kept_advance ..) | with_reducible apply Kept.trans _ (kept_dieReset ..)
    | with_reducible refine Kept.trans ?_ (kept_modXrds ?_ _) | with_reducible apply Kept.trans _ (kept_modMews ..)
    | with_reducible apply Kept.trans _ (kept_modFirm ..) | with_reducible apply Kept.trans _ (kept_bootOn ..)
    | with_reducible apply Kept.trans _ (kept_releaseDie ..) | exact (fun _ h => h) | split)

theorem kept_execRefGood (t : Nat) (s : State) : KeepsGoing s (execRefGood t s) := by
  unfold execRefGood
  repeat' (first
    | with_reducible exact Kept.refl _ | with_reducible apply KeepsGoing.next
    | with_reducible apply Kept.trans _ (kept_bootOn ..) | with_reducible apply Kept.trans _ (kept_refGood ..)
    | with_reducible apply Kept.trans _ (kept_advance ..))

theorem kept_execClksLocked (t : Nat) (pll : Nat) (band : Nat) (err : Int) (s : State) : KeepsGoing s (execClksLocked t pll band err s) := by
  unfold execClksLocked
  repeat' (first
    | with_reducible exact Kept.refl _ | with_reducible apply KeepsGoing.next
    | with_reducible apply Kept.trans _ (kept_bootOn ..) | with_reducible apply Kept.trans _ (kept_pllLocked ..)
    | with_reducible apply Kept.trans _ (kept_advance ..))

theorem kept_execDieTempConversion (t : Nat) (temps : List Int) (s : State) : KeepsGoing s (execDieTempConversion t temps s) := by
  unfold execDieTempConversion
  repeat' (first
    | with_reducible exact Kept.refl _ | with_reducible apply KeepsGoing.next
    | with_reducible apply Kept.trans _ (kept_bootOn ..) | with_reducible apply Kept.trans _ (kept_dieConvert ..)
    | with_reducible apply Kept.trans _ (kept_advance ..))

theorem kept_execBootRetry (t : Nat) (sigs : List Bool) (s : State) : KeepsGoing s (execBootRetry t sigs s) := by
  unfold execBootRetry
  repeat' (first
    | with_reducible exact Kept.refl _ | with_reducible refine KeepsGoing.ite (fun _ => ?_) (fun _ => ?_)
    | with_reducible apply KeepsGoing.next | with_reducible apply Kept.trans _ (kept_advance ..)
    | with_reducible apply Kept.trans _ (kept_bootImage ..) | with_reducible apply Kept.trans _ (kept_modFirm ..))

theorem kept_bootEnd (s : State) : Kept s (State.bootEnd s) := by
  unfold State.bootEnd
  repeat' (first
    | with_reducible exact Kept.refl _ | with_reducible refine Kept.ite (fun _ => ?_) (fun _ => ?_)
    | with_reducible apply Kept.trans _ (kept_modMews ..) | with_reducible apply Kept.trans _ (kept_enterSafe ..)
    | with_reducible apply Kept.trans _ (kept_freeOrigin ..) | with_reducible apply Kept.trans _ (kept_setDev ..)
    | with_reducible apply Kept.trans _ (kept_parkDark ..) | with_reducible apply Kept.trans _ (kept_selfRefresh ..)
    | with_reducible apply Kept.trans _ (kept_stopTarget ..) | with_reducible refine Kept.trans ?_ (Kept.foldl ?_ _ _)
    | intro _)

theorem kept_execBootComplete (t : Nat) (s : State) : KeepsGoing s (execBootComplete t s) := by
  unfold execBootComplete
  repeat' (first
    | with_reducible exact Kept.refl _ | with_reducible refine KeepsGoing.ite (fun _ => ?_) (fun _ => ?_)
    | with_reducible apply KeepsGoing.next | with_reducible apply Kept.trans _ (kept_advance ..)
    | with_reducible apply Kept.trans _ (kept_bootEnd ..))

theorem kept_execAutoWarmRequest (t : Nat) (s : State) : KeepsGoing s (execAutoWarmRequest t s) := by
  unfold execAutoWarmRequest
  dsimp only
  refine KeepsGoing.ite (fun _ => ?_) (fun _ => KeepsGoing.next (kept_advance _ _))
  refine KeepsGoing.next (Kept.trans (kept_advance t s) ?_)
  refine Kept.trans ?_ (Kept.getD (kept_stateRequest 3 id _ Kept.refl))
  exact kept_modMews _ _

theorem kept_execThermalDieReset (t : Nat) (s : State) : KeepsGoing s (execThermalDieReset t s) := by
  unfold execThermalDieReset
  repeat' (first
    | with_reducible exact Kept.refl _ | with_reducible refine KeepsGoing.ite (fun _ => ?_) (fun _ => ?_)
    | with_reducible apply KeepsGoing.next | with_reducible apply Kept.trans _ (kept_advance ..)
    | with_reducible apply Kept.trans _ (kept_dieReset ..) | dsimp only | split)

theorem kept_execWatchdogDieReset (t : Nat) (s : State) : KeepsGoing s (execWatchdogDieReset t s) := by
  unfold execWatchdogDieReset
  repeat' (first
    | with_reducible exact Kept.refl _ | with_reducible refine KeepsGoing.ite (fun _ => ?_) (fun _ => ?_)
    | with_reducible apply KeepsGoing.next | with_reducible apply Kept.trans _ (kept_advance ..)
    | with_reducible apply Kept.trans _ (kept_dieReset ..) | dsimp only | split)

theorem kept_execMewsWatchdog (t : Nat) (s : State) : KeepsGoing s (execMewsWatchdog t s) := by
  unfold execMewsWatchdog
  repeat' (first
    | with_reducible exact Kept.refl _ | with_reducible refine KeepsGoing.ite (fun _ => ?_) (fun _ => ?_)
    | with_reducible apply KeepsGoing.next | with_reducible apply Kept.trans _ (kept_advance ..)
    | with_reducible apply Kept.trans _ (kept_raise ..) | with_reducible apply Kept.trans _ (kept_modMews ..)
    | with_reducible apply Kept.trans _ (kept_enterSafe ..) | with_reducible apply Kept.trans _ (kept_killPath ..))

theorem kept_execResetNLow (t : Nat) (s : State) : KeepsGoing s (execResetNLow t s) := by
  unfold execResetNLow
  repeat' (first
    | with_reducible exact Kept.refl _ | with_reducible refine KeepsGoing.ite (fun _ => ?_) (fun _ => ?_)
    | with_reducible apply KeepsGoing.next | with_reducible apply Kept.trans _ (kept_advance ..)
    | with_reducible apply Kept.trans _ (kept_modMews ..) | with_reducible apply Kept.trans _ (kept_holdDie ..)
    | with_reducible apply Kept.trans _ (kept_dieReset ..))

theorem kept_execRailOutOfRange (t : Nat) (rail : Nat) (s : State) : KeepsGoing s (execRailOutOfRange t rail s) := by
  unfold execRailOutOfRange
  repeat' (first
    | with_reducible exact Kept.refl _ | with_reducible refine KeepsGoing.ite (fun _ => ?_) (fun _ => ?_)
    | with_reducible apply KeepsGoing.next | with_reducible apply Kept.trans _ (kept_modMews ..)
    | with_reducible apply Kept.trans _ (kept_advance ..) | with_reducible apply Kept.trans _ (kept_holdDie ..)
    | with_reducible apply Kept.trans _ (kept_dieReset ..))

theorem kept_enterMews (s : State) : Kept s (State.enterMews s) := by
  unfold State.enterMews
  dsimp only
  refine Kept.trans ?_ (kept_emit _ _)
  refine Kept.trans ?_ (kept_modMews _ _)
  have k := kept_setDev .mews s
  have d := kept_clearDie (s.setDev .mews)
  refine Kept.trans k ⟨d.queue, d.clock, d.sent, fun o => ?_⟩
  exact ⟨(d.ok o).hbm, (d.ok o).dict, ⟨(d.ok o).xrds.1, o.xrds.2⟩, (d.ok o).gysol⟩

theorem kept_wakeUp (s : State) : Kept s (State.wakeUp s) := by
  unfold State.wakeUp
  repeat' (first
    | with_reducible exact Kept.refl _ | with_reducible refine Kept.ite (fun _ => ?_) (fun _ => ?_)
    | with_reducible apply Kept.trans _ (kept_emit ..) | with_reducible apply Kept.trans _ (kept_modMews ..)
    | with_reducible apply Kept.trans _ (kept_dieReset ..))

theorem kept_wake (code : Nat) (s : State) : Kept s (State.wake code s) := by
  unfold State.wake
  repeat' (first
    | with_reducible exact Kept.refl _ | with_reducible refine Kept.ite (fun _ => ?_) (fun _ => ?_)
    | with_reducible apply Kept.trans _ (kept_wakeUp ..) | with_reducible apply Kept.trans _ (kept_modMews ..))

theorem kept_execWakeTimer (t : Nat) (s : State) : KeepsGoing s (execWakeTimer t s) := by
  unfold execWakeTimer
  repeat' (first
    | with_reducible exact Kept.refl _ | with_reducible refine KeepsGoing.ite (fun _ => ?_) (fun _ => ?_)
    | with_reducible apply KeepsGoing.next | with_reducible apply Kept.trans _ (kept_advance ..)
    | with_reducible apply Kept.trans _ (kept_wake ..))

theorem kept_execWakeGpioEdge (t : Nat) (gpio : Nat) (rising : Bool) (s : State) : KeepsGoing s (execWakeGpioEdge t gpio rising s) := by
  unfold execWakeGpioEdge
  repeat' (first
    | with_reducible exact Kept.refl _ | with_reducible refine KeepsGoing.ite (fun _ => ?_) (fun _ => ?_)
    | with_reducible apply KeepsGoing.next | with_reducible apply Kept.trans _ (kept_advance ..)
    | with_reducible apply Kept.trans _ (kept_wake ..))

theorem kept_execWakeResetNRise (t : Nat) (s : State) : KeepsGoing s (execWakeResetNRise t s) := by
  unfold execWakeResetNRise
  repeat' (first
    | with_reducible exact Kept.refl _ | with_reducible refine KeepsGoing.ite (fun _ => ?_) (fun _ => ?_)
    | with_reducible apply KeepsGoing.next | with_reducible apply Kept.trans _ (kept_advance ..)
    | with_reducible apply Kept.trans _ (kept_wake ..) | with_reducible apply Kept.trans _ (kept_modMews ..))

theorem kept_execRailRecovered (t : Nat) (s : State) : KeepsGoing s (execRailRecovered t s) := by
  unfold execRailRecovered
  repeat' (first
    | with_reducible exact Kept.refl _ | with_reducible refine KeepsGoing.ite (fun _ => ?_) (fun _ => ?_)
    | with_reducible apply KeepsGoing.next | with_reducible apply Kept.trans _ (kept_wakeUp ..)
    | with_reducible apply Kept.trans _ (kept_advance ..) | with_reducible apply Kept.trans _ (kept_modMews ..))

theorem kept_clearMews (s : State) : Kept s (State.clearMews s) := by
  unfold State.clearMews
  have d := kept_clearDie s
  exact ⟨d.queue, d.clock, d.sent, fun o => ⟨(d.ok o).hbm, ⟨rfl, rfl⟩, ⟨Nat.zero_le _, Nat.zero_le _⟩, (d.ok o).gysol⟩⟩

theorem kept_execVaonRemoved (t : Nat) (s : State) : KeepsGoing s (execVaonRemoved t s) := by
  unfold execVaonRemoved
  repeat' (first
    | with_reducible exact Kept.refl _ | with_reducible apply KeepsGoing.next
    | with_reducible apply Kept.trans _ (kept_clearMews ..) | with_reducible apply Kept.trans _ (kept_advance ..))

theorem kept_execPowerOn (t : Nat) (s : State) : KeepsGoing s (execPowerOn t s) := by
  unfold execPowerOn
  repeat' (first
    | with_reducible exact Kept.refl _ | with_reducible apply KeepsGoing.next
    | with_reducible apply Kept.trans _ (kept_emit ..) | with_reducible apply Kept.trans _ (kept_modMews ..)
    | with_reducible apply Kept.trans _ (kept_dieReset ..) | with_reducible apply Kept.trans _ (kept_clearMews ..)
    | with_reducible apply Kept.trans _ (kept_advance ..))

end Sys2Proof.Machine
end

