-- ==== Sys2Proof/Laws/KeptWall.lean ====
section
/-! SUPPORT. Every operation stays within the bounds of Safety.lean: wall commits, sweeps, dictionary writes and crossings. -/

namespace Sys2Proof.Machine

/-! ## Machine/WallCommit.lean -/

theorem kept_commitAck (node : Nat) (id : Nat) (s : State) : Kept s (State.commitAck node id s) := by
  unfold State.commitAck
  repeat' (first
    | with_reducible exact Kept.refl _ | with_reducible apply Kept.trans _ (kept_modCoh ..) | dsimp only | split)

theorem kept_refuseJoin (reason : Nat) (obj : Nat) (s : State) : Kept s (State.refuseJoin reason obj s) := by
  unfold State.refuseJoin
  repeat' (first
    | with_reducible exact Kept.refl _ | with_reducible apply Kept.trans _ (kept_modCoh ..)
    | with_reducible apply Kept.trans _ (kept_refuseCommit ..))

theorem kept_takeGo (src : Nat) (id : Nat) (g : Nat) (s : State) : Kept s (State.takeGo src id g s) := by
  unfold State.takeGo
  repeat' (first
    | with_reducible exact Kept.refl _ | with_reducible refine Kept.ite (fun _ => ?_) (fun _ => ?_)
    | with_reducible apply Kept.trans _ (kept_commitAck ..) | with_reducible apply Kept.trans _ (kept_uaneSend ..)
    | with_reducible apply Kept.trans _ (kept_refuseJoin ..) | with_reducible refine Kept.trans ?_ (kept_modDict ?_ _)
    | with_reducible apply Kept.trans _ (kept_modCoh ..) | with_reducible apply Kept.trans _ (kept_pendCommit ..)
    | exact (fun _ h => ⟨h.1, mapRising_put _ _ _ h.2⟩) | dsimp only | split)

theorem kept_takeAbort (id : Nat) (s : State) : Kept s (State.takeAbort id s) := by
  unfold State.takeAbort
  repeat' (first
    | with_reducible exact Kept.refl _ | with_reducible refine Kept.ite (fun _ => ?_) (fun _ => ?_)
    | with_reducible apply Kept.trans _ (kept_refuseJoin ..) | split)

theorem kept_sendGo (s : State) : Kept s (State.sendGo s) := by
  unfold State.sendGo
  repeat' (first
    | with_reducible exact Kept.refl _ | with_reducible apply Kept.trans _ (kept_takeGo ..)
    | with_reducible apply Kept.trans _ (kept_uaneSend ..) | split)

theorem kept_abortCommit (s : State) : Kept s (State.abortCommit s) := by
  unfold State.abortCommit
  repeat' (first
    | with_reducible exact Kept.refl _ | with_reducible apply Kept.trans _ (kept_raise ..)
    | with_reducible apply Kept.trans _ (kept_modCoh ..) | with_reducible apply Kept.trans _ (kept_takeAbort ..)
    | with_reducible apply Kept.trans _ (kept_uaneSend ..) | dsimp only | split)

theorem kept_commitReady (node : Nat) (id : Nat) (s : State) : Kept s (State.commitReady node id s) := by
  unfold State.commitReady
  repeat' (first
    | with_reducible exact Kept.refl _ | with_reducible refine Kept.ite (fun _ => ?_) (fun _ => ?_)
    | with_reducible apply Kept.trans _ (kept_modCoh ..) | with_reducible apply Kept.trans _ (kept_sendGo ..)
    | with_reducible apply Kept.trans _ (kept_raise ..) | dsimp only | split)

theorem kept_commitRefused (id : Nat) (s : State) : Kept s (State.commitRefused id s) := by
  unfold State.commitRefused
  repeat' (first
    | with_reducible exact Kept.refl _ | with_reducible refine Kept.ite (fun _ => ?_) (fun _ => ?_)
    | with_reducible apply Kept.trans _ (kept_abortCommit ..) | split)

theorem kept_sendAnswer (dst : Nat) (s : State) : Kept s (State.sendAnswer dst s) := by
  unfold State.sendAnswer
  repeat' (first
    | with_reducible exact Kept.refl _ | with_reducible refine Kept.ite (fun _ => ?_) (fun _ => ?_)
    | with_reducible apply Kept.trans _ (kept_commitReady ..) | with_reducible apply Kept.trans _ (kept_commitRefused ..)
    | with_reducible apply Kept.trans _ (kept_uaneSend ..) | split)

theorem kept_takePrepare (src : Nat) (id : Nat) (s : State) : Kept s (State.takePrepare src id s) := by
  unfold State.takePrepare
  repeat' (first
    | with_reducible exact Kept.refl _ | with_reducible refine Kept.ite (fun _ => ?_) (fun _ => ?_)
    | with_reducible apply Kept.trans _ (kept_sendAnswer ..))

theorem kept_sendPrepare (s : State) : Kept s (State.sendPrepare s) := by
  unfold State.sendPrepare
  repeat' (first
    | with_reducible exact Kept.refl _ | with_reducible refine Kept.ite (fun _ => ?_) (fun _ => ?_)
    | with_reducible apply Kept.trans _ (kept_takePrepare ..) | with_reducible apply Kept.trans _ (kept_uaneSend ..) | split)

theorem kept_startWallCommit (b : Bytes) (s : State) : Kept s (State.startWallCommit b s) := by
  unfold State.startWallCommit
  repeat' (first
    | with_reducible exact Kept.refl _ | with_reducible apply Kept.trans _ (kept_sendPrepare ..)
    | with_reducible apply Kept.trans _ (kept_modCoh ..))

theorem kept_startUnisonCommit (id : Nat) (parts : List Nat) (s : State) : Kept s (State.startUnisonCommit id parts s) := by
  unfold State.startUnisonCommit
  repeat' (first
    | with_reducible exact Kept.refl _ | with_reducible apply Kept.trans _ (kept_sendPrepare ..)
    | with_reducible apply Kept.trans _ (kept_modCoh ..))

theorem kept_wallJoin (id : Nat) (s : State) : Kept s (State.wallJoin id s) := by
  unfold State.wallJoin
  repeat' (first
    | with_reducible exact Kept.refl _ | with_reducible apply Kept.trans _ (kept_modCoh ..)
    | with_reducible apply Kept.trans _ (kept_sealShadow ..))

theorem kept_localCommit (s : State) : Kept s (State.localCommit s) := by
  unfold State.localCommit
  repeat' (first
    | with_reducible exact Kept.refl _ | with_reducible apply Kept.trans _ (kept_modCoh ..)
    | with_reducible apply Kept.trans _ (kept_sealShadow ..))

theorem kept_endJoinValidation (j : WJoin) (s : State) : Kept s (State.endJoinValidation j s) := by
  unfold State.endJoinValidation
  repeat' (first
    | with_reducible exact Kept.refl _ | with_reducible apply Kept.trans _ (kept_sendAnswer ..)
    | with_reducible apply Kept.trans _ (kept_refuseJoin ..) | with_reducible apply Kept.trans _ (kept_modSeqr ..)
    | with_reducible apply Kept.trans _ (kept_modCoh ..) | dsimp only | split)

theorem kept_execCommitValidationEnd (t : Nat) (s : State) : KeepsGoing s (execCommitValidationEnd t s) := by
  unfold execCommitValidationEnd
  repeat' (first
    | with_reducible exact Kept.refl _ | with_reducible refine KeepsGoing.ite (fun _ => ?_) (fun _ => ?_)
    | with_reducible apply KeepsGoing.next | with_reducible apply Kept.trans _ (kept_advance ..)
    | with_reducible apply Kept.trans _ (kept_endJoinValidation ..)
    | with_reducible apply Kept.trans _ (kept_endLocalValidation ..) | split)

theorem kept_newTerm (before : Nat × Nat) (s : State) : Kept s (State.newTerm before s) := by
  unfold State.newTerm
  repeat' (first
    | with_reducible exact Kept.refl _ | with_reducible refine Kept.ite (fun _ => ?_) (fun _ => ?_)
    | with_reducible apply Kept.trans _ (kept_modCoh ..) | with_reducible apply Kept.trans _ (kept_refuseJoin ..) | dsimp only
    | split)

theorem kept_execPrepare (t : Nat) (src : Nat) (id : Nat) (s : State) : KeepsGoing s (execPrepare t src id s) := by
  unfold execPrepare
  repeat' (first
    | with_reducible exact Kept.refl _ | with_reducible apply KeepsGoing.next
    | with_reducible apply Kept.trans _ (kept_takePrepare ..) | with_reducible apply Kept.trans _ (kept_advance ..))

theorem kept_execReady (t : Nat) (node : Nat) (id : Nat) (s : State) : KeepsGoing s (execReady t node id s) := by
  unfold execReady
  repeat' (first
    | with_reducible exact Kept.refl _ | with_reducible apply KeepsGoing.next
    | with_reducible apply Kept.trans _ (kept_commitReady ..) | with_reducible apply Kept.trans _ (kept_advance ..))

theorem kept_execRefused (t : Nat) (id : Nat) (s : State) : KeepsGoing s (execRefused t id s) := by
  unfold execRefused
  repeat' (first
    | with_reducible exact Kept.refl _ | with_reducible apply KeepsGoing.next
    | with_reducible apply Kept.trans _ (kept_commitRefused ..) | with_reducible apply Kept.trans _ (kept_advance ..))

theorem kept_execGo (t : Nat) (src : Nat) (id : Nat) (g : Nat) (s : State) : KeepsGoing s (execGo t src id g s) := by
  unfold execGo
  repeat' (first
    | with_reducible exact Kept.refl _ | with_reducible apply KeepsGoing.next
    | with_reducible apply Kept.trans _ (kept_takeGo ..) | with_reducible apply Kept.trans _ (kept_advance ..))

theorem kept_execCommitAck (t : Nat) (node : Nat) (id : Nat) (s : State) : KeepsGoing s (execCommitAck t node id s) := by
  unfold execCommitAck
  repeat' (first
    | with_reducible exact Kept.refl _ | with_reducible apply KeepsGoing.next
    | with_reducible apply Kept.trans _ (kept_commitAck ..) | with_reducible apply Kept.trans _ (kept_advance ..))

theorem kept_execAbort (t : Nat) (id : Nat) (s : State) : KeepsGoing s (execAbort t id s) := by
  unfold execAbort
  repeat' (first
    | with_reducible exact Kept.refl _ | with_reducible apply KeepsGoing.next
    | with_reducible apply Kept.trans _ (kept_takeAbort ..) | with_reducible apply Kept.trans _ (kept_advance ..))

theorem kept_execPrepareRepeat (t : Nat) (s : State) : KeepsGoing s (execPrepareRepeat t s) := by
  unfold execPrepareRepeat
  repeat' (first
    | with_reducible exact Kept.refl _ | with_reducible apply KeepsGoing.next
    | with_reducible apply Kept.trans _ (kept_sendPrepare ..) | with_reducible apply Kept.trans _ (kept_advance ..))

theorem kept_execGoRepeat (t : Nat) (s : State) : KeepsGoing s (execGoRepeat t s) := by
  unfold execGoRepeat
  repeat' (first
    | with_reducible exact Kept.refl _ | with_reducible refine KeepsGoing.ite (fun _ => ?_) (fun _ => ?_)
    | with_reducible apply KeepsGoing.next | with_reducible apply Kept.trans _ (kept_advance ..)
    | with_reducible apply Kept.trans _ (kept_sendGo ..))

theorem kept_execWallJoinTimeout (t : Nat) (s : State) : KeepsGoing s (execWallJoinTimeout t s) := by
  unfold execWallJoinTimeout
  repeat' (first
    | with_reducible exact Kept.refl _ | with_reducible refine KeepsGoing.ite (fun _ => ?_) (fun _ => ?_)
    | with_reducible apply KeepsGoing.next | with_reducible apply Kept.trans _ (kept_advance ..)
    | with_reducible apply Kept.trans _ (kept_abortCommit ..) | dsimp only | split)

theorem kept_execWallJoinExpiry (t : Nat) (s : State) : KeepsGoing s (execWallJoinExpiry t s) := by
  unfold execWallJoinExpiry
  repeat' (first
    | with_reducible exact Kept.refl _ | with_reducible refine KeepsGoing.ite (fun _ => ?_) (fun _ => ?_)
    | with_reducible apply KeepsGoing.next | with_reducible apply Kept.trans _ (kept_advance ..)
    | with_reducible apply Kept.trans _ (kept_refuseJoin ..) | dsimp only | split)

theorem kept_execSeqrWallCommit (t : Nat) (s : State) : KeepsGoing s (execSeqrWallCommit t s) := by
  unfold execSeqrWallCommit
  repeat' (first
    | with_reducible exact Kept.refl _ | with_reducible refine KeepsGoing.ite (fun _ => ?_) (fun _ => ?_)
    | with_reducible apply KeepsGoing.next | with_reducible apply Kept.trans _ (kept_advance ..)
    | with_reducible apply Kept.trans _ (kept_modCoh ..) | with_reducible apply Kept.trans _ (kept_raise ..)
    | with_reducible refine Kept.trans ?_ (Kept.foldl ?_ _ _) | intro _ | dsimp only | split)

/-! ## Machine/Sweep.lean -/

theorem kept_modMaster (f : SMaster → SMaster) (s : State) : Kept s (State.modMaster f s) := by
  unfold State.modMaster
  repeat' (first
    | with_reducible exact Kept.refl _ | with_reducible apply Kept.trans _ (kept_modCoh ..))

theorem kept_modNode (f : SNode → SNode) (s : State) : Kept s (State.modNode f s) := by
  unfold State.modNode
  repeat' (first
    | with_reducible exact Kept.refl _ | with_reducible apply Kept.trans _ (kept_modCoh ..))

theorem kept_takeStep (x : SStep) (nodes : List Nat) (s : State) : Kept s (State.takeStep x nodes s) := by
  unfold State.takeStep
  repeat' (first
    | with_reducible exact Kept.refl _ | with_reducible refine Kept.ite (fun _ => ?_) (fun _ => ?_)
    | with_reducible apply Kept.trans _ (kept_modNode ..))

theorem kept_sendResult (master : Nat) (r : SResult) (s : State) : Kept s (State.sendResult master r s) := by
  unfold State.sendResult
  repeat' (first
    | with_reducible exact Kept.refl _ | with_reducible refine Kept.ite (fun _ => ?_) (fun _ => ?_)
    | with_reducible apply Kept.trans _ (kept_modMaster ..) | with_reducible apply Kept.trans _ (kept_uaneSend ..))

theorem kept_endStep (s : State) : Kept s (State.endStep s) := by
  unfold State.endStep
  repeat' (first
    | with_reducible exact Kept.refl _ | with_reducible refine Kept.ite (fun _ => ?_) (fun _ => ?_)
    | with_reducible apply Kept.trans _ (kept_sendResult ..) | with_reducible apply Kept.trans _ (kept_modNode ..) | dsimp only
    | split)

theorem kept_takeCollect (master : Nat) (sweep : Nat) (s : State) : Kept s (State.takeCollect master sweep s) := by
  unfold State.takeCollect
  repeat' (first
    | with_reducible exact Kept.refl _ | with_reducible apply Kept.trans _ (kept_sendResult ..)
    | with_reducible refine Kept.trans ?_ (Kept.foldl ?_ _ _) | intro _)

theorem kept_takeEnd (sweep : Nat) (s : State) : Kept s (State.takeEnd sweep s) := by
  unfold State.takeEnd
  repeat' (first
    | with_reducible exact Kept.refl _ | with_reducible apply Kept.trans _ (kept_modNode ..))

theorem kept_sendStep (k : Nat) (after_ : Nat) (named : List Nat) (s : State) : Kept s (State.sendStep k after_ named s) := by
  unfold State.sendStep
  repeat' (first
    | with_reducible exact Kept.refl _ | with_reducible apply Kept.trans _ (kept_modMaster ..)
    | with_reducible apply Kept.trans _ (kept_takeStep ..) | with_reducible apply Kept.trans _ (kept_uaneSend ..)
    | with_reducible apply Kept.trans _ (kept_raise ..))

theorem kept_sendEnd (st : Nat) (s : State) : Kept s (State.sendEnd st s) := by
  unfold State.sendEnd
  repeat' (first
    | with_reducible exact Kept.refl _ | with_reducible apply Kept.trans _ (kept_raise ..)
    | with_reducible apply Kept.trans _ (kept_modMaster ..) | with_reducible apply Kept.trans _ (kept_takeEnd ..)
    | with_reducible apply Kept.trans _ (kept_uaneSend ..))

theorem kept_nextStep (s : State) : Kept s (State.nextStep s) := by
  unfold State.nextStep
  repeat' (first
    | with_reducible exact Kept.refl _ | with_reducible refine Kept.ite (fun _ => ?_) (fun _ => ?_)
    | with_reducible apply Kept.trans _ (kept_sendStep ..) | with_reducible apply Kept.trans _ (kept_modMaster ..)
    | with_reducible apply Kept.trans _ (kept_sendEnd ..) | dsimp only | split)

theorem kept_stepGathered (s : State) : Kept s (State.stepGathered s) := by
  unfold State.stepGathered
  repeat' (first
    | with_reducible exact Kept.refl _ | with_reducible refine Kept.ite (fun _ => ?_) (fun _ => ?_)
    | with_reducible apply Kept.trans _ (kept_nextStep ..) | with_reducible apply Kept.trans _ (kept_raise ..))

theorem kept_takeResult (r : SResult) (s : State) : Kept s (State.takeResult r s) := by
  unfold State.takeResult
  repeat' (first
    | with_reducible exact Kept.refl _ | with_reducible refine Kept.ite (fun _ => ?_) (fun _ => ?_)
    | with_reducible apply Kept.trans _ (kept_modMaster ..) | with_reducible apply Kept.trans _ (kept_stepGathered ..))

theorem kept_sendCollect (s : State) : Kept s (State.sendCollect s) := by
  unfold State.sendCollect
  repeat' (first
    | with_reducible exact Kept.refl _ | with_reducible apply Kept.trans _ (kept_takeCollect ..)
    | with_reducible apply Kept.trans _ (kept_uaneSend ..))

theorem kept_sweepStart (s : State) : Kept s (State.sweepStart s) := by
  unfold State.sweepStart
  repeat' (first
    | with_reducible exact Kept.refl _ | with_reducible apply Kept.trans _ (kept_sendStep ..)
    | with_reducible apply Kept.trans _ (kept_modMaster ..))

theorem kept_sweepAbort (s : State) : Kept s (State.sweepAbort s) := by
  unfold State.sweepAbort
  repeat' (first
    | with_reducible exact Kept.refl _ | with_reducible refine Kept.ite (fun _ => ?_) (fun _ => ?_)
    | with_reducible apply Kept.trans _ (kept_sendEnd ..))

theorem kept_sweepBoundary (s : State) : Kept s (State.sweepBoundary s) := by
  unfold State.sweepBoundary
  repeat' (first
    | with_reducible exact Kept.refl _ | with_reducible refine Kept.ite (fun _ => ?_) (fun _ => ?_)
    | with_reducible apply Kept.trans _ (kept_endStep ..) | with_reducible apply Kept.trans _ (kept_stepGathered ..))

theorem kept_sweepReturned (before : List Nat) (s : State) : Kept s (State.sweepReturned before s) := by
  unfold State.sweepReturned
  repeat' (first
    | with_reducible exact Kept.refl _ | with_reducible refine Kept.ite (fun _ => ?_) (fun _ => ?_)
    | with_reducible apply Kept.trans _ (kept_sendCollect ..))

theorem kept_execSweepStep (t : Nat) (master : Nat) (payload : Bytes) (s : State) : KeepsGoing s (execSweepStep t master payload s) := by
  unfold execSweepStep
  repeat' (first
    | with_reducible exact Kept.refl _ | with_reducible apply KeepsGoing.next
    | with_reducible apply Kept.trans _ (kept_takeStep ..) | with_reducible apply Kept.trans _ (kept_advance ..))

theorem kept_execSweepResult (t : Nat) (node : Nat) (payload : Bytes) (s : State) : KeepsGoing s (execSweepResult t node payload s) := by
  unfold execSweepResult
  repeat' (first
    | with_reducible exact Kept.refl _ | with_reducible apply KeepsGoing.next
    | with_reducible apply Kept.trans _ (kept_takeResult ..) | with_reducible apply Kept.trans _ (kept_advance ..))

theorem kept_execSweepCollect (t : Nat) (master : Nat) (sweep : Nat) (s : State) : KeepsGoing s (execSweepCollect t master sweep s) := by
  unfold execSweepCollect
  repeat' (first
    | with_reducible exact Kept.refl _ | with_reducible apply KeepsGoing.next
    | with_reducible apply Kept.trans _ (kept_takeCollect ..) | with_reducible apply Kept.trans _ (kept_advance ..))

theorem kept_execSweepEnd (t : Nat) (sweep : Nat) (s : State) : KeepsGoing s (execSweepEnd t sweep s) := by
  unfold execSweepEnd
  repeat' (first
    | with_reducible exact Kept.refl _ | with_reducible apply KeepsGoing.next
    | with_reducible apply Kept.trans _ (kept_takeEnd ..) | with_reducible apply Kept.trans _ (kept_advance ..))

theorem kept_execSweepStepTimeout (t : Nat) (s : State) : KeepsGoing s (execSweepStepTimeout t s) := by
  unfold execSweepStepTimeout
  repeat' (first
    | with_reducible exact Kept.refl _ | with_reducible refine KeepsGoing.ite (fun _ => ?_) (fun _ => ?_)
    | with_reducible apply KeepsGoing.next | with_reducible apply Kept.trans _ (kept_advance ..)
    | with_reducible apply Kept.trans _ (kept_nextStep ..) | with_reducible apply Kept.trans _ (kept_sendCollect ..)
    | with_reducible refine Kept.trans ?_ (Kept.foldl ?_ _ _) | intro _)

theorem kept_execMgmtSweep (t : Nat) (s : State) : KeepsGoing s (execMgmtSweep t s) := by
  unfold execMgmtSweep
  repeat' (first
    | with_reducible exact Kept.refl _ | with_reducible refine KeepsGoing.ite (fun _ => ?_) (fun _ => ?_)
    | with_reducible apply KeepsGoing.next | with_reducible apply Kept.trans _ (kept_advance ..)
    | with_reducible apply Kept.trans _ (kept_raise ..) | with_reducible apply Kept.trans _ (kept_modNode ..) | dsimp only
    | split)

/-! ## Machine/Store.lean -/

theorem kept_countRises (rose : List Nat) (s : State) : Kept s (State.countRises rose s) := by
  unfold State.countRises
  dsimp only
  have k : ∀ l, Kept s (List.foldl (fun (acc : State × List Occ) i =>
      if fld (s.num 0x3020 i) 63 56 = 6 && rose.contains (fld (s.num 0x3020 i) 55 48) then ((acc.1.countOn i 1).1, acc.2 ++ (acc.1.countOn i 1).2) else acc) (s, []) l).1 := fun l =>
    Kept.foldlPair (fun p i => by
      split
      · exact kept_countOn _ _ _
      · exact Kept.refl _) l s []
  split
  · exact k _
  · exact Kept.trans (k _) (kept_raiseAll _ _)

theorem kept_gpioMove (f : State → State) (s : State) (hf : ∀ s, Kept s (f s)) : Kept s (State.gpioMove f s) := by
  unfold State.gpioMove
  repeat' (first
    | with_reducible exact Kept.refl _ | with_reducible refine Kept.ite (fun _ => ?_) (fun _ => ?_)
    | with_reducible apply Kept.trans _ (kept_emits ..) | with_reducible apply Kept.trans _ (kept_countRises ..)
    | with_reducible refine Kept.trans ?_ (hf _))

theorem kept_gpioFunction (n : Nat) (v : Nat) (s : State) : Kept s (State.gpioFunction n v s) := by
  unfold State.gpioFunction
  repeat' (first
    | with_reducible exact Kept.refl _ | with_reducible refine Kept.trans ?_ (kept_gpioMove _ _ ?_)
    | with_reducible apply Kept.trans _ (kept_setNum ..) | with_reducible refine Kept.trans ?_ (kept_modXrds ?_ _)
    | exact (fun _ h => h) | intro _)

theorem kept_arrayCommand (ap : Nat) (v : Nat) (s : State) : Kept s (State.arrayCommand ap v s) := by
  unfold State.arrayCommand
  repeat' (first
    | with_reducible exact Kept.refl _ | with_reducible refine Kept.ite (fun _ => ?_) (fun _ => ?_)
    | with_reducible apply Kept.trans _ (kept_apark ..) | with_reducible apply Kept.trans _ (kept_setArray ..)
    | with_reducible apply Kept.trans _ (kept_atrain ..))

theorem kept_unitApply (w : Nat) (v : Nat) (s : State) : Kept s (State.unitApply w v s) := by
  unfold State.unitApply
  repeat' (first
    | with_reducible exact Kept.refl _ | with_reducible refine Kept.ite (fun _ => ?_) (fun _ => ?_)
    | with_reducible apply Kept.trans _ (kept_setCmd ..) | with_reducible apply Kept.trans _ (kept_recommand ..)
    | with_reducible apply Kept.trans _ (kept_arrayCommand ..) | with_reducible apply Kept.trans _ (kept_bandCommand ..)
    | with_reducible apply Kept.trans _ (kept_wheelStop ..) | with_reducible apply Kept.trans _ (kept_wheelRun ..)
    | with_reducible apply Kept.trans _ (kept_uaneTrain ..) | with_reducible apply Kept.trans _ (kept_uaneDown ..)
    | with_reducible apply Kept.trans _ (kept_drawn ..) | dsimp only | split)

theorem kept_unitCommand (w : Nat) (v : Nat) (s : State) : Kept s (State.unitCommand w v s).1 := by
  unfold State.unitCommand
  repeat' (first
    | with_reducible exact Kept.refl _ | with_reducible refine Kept.iteFst (fun _ => ?_) (fun _ => ?_)
    | with_reducible apply Kept.trans _ (kept_holdCmd ..) | with_reducible apply Kept.trans _ (kept_unitApply ..))

theorem kept_unitForce (w : Nat) (s : State) : Kept s (State.unitForce w s) := by
  unfold State.unitForce
  repeat' (first
    | with_reducible exact Kept.refl _ | with_reducible apply Kept.trans _ (kept_modUnit ..))

theorem kept_heldBoundary (s : State) : Kept s (State.heldBoundary s) := by
  unfold State.heldBoundary
  repeat' (first
    | with_reducible exact Kept.refl _ | with_reducible refine Kept.ite (fun _ => ?_) (fun _ => ?_)
    | with_reducible apply Kept.trans _ (kept_unitApply ..) | with_reducible refine Kept.trans ?_ (Kept.foldl ?_ _ _) | intro _)

theorem kept_arrayReg (ap : Nat) (word : Nat) (s : State) : Kept s (State.arrayReg ap word s) := by
  unfold State.arrayReg
  repeat' (first
    | with_reducible exact Kept.refl _ | with_reducible apply Kept.trans _ (kept_acontrol ..)
    | with_reducible apply Kept.trans _ (kept_takeLeaseOf ..))

theorem kept_lampReg (d : Nat) (word : Nat) (s : State) : Kept s (State.lampReg d word s) := by
  unfold State.lampReg
  repeat' (first
    | with_reducible exact Kept.refl _ | with_reducible apply Kept.trans _ (kept_lampSend ..))

theorem kept_snapshot (s : State) : Kept s (State.snapshot s) := by
  unfold State.snapshot
  repeat' (first
    | with_reducible exact Kept.refl _ | with_reducible refine Kept.trans ?_ (kept_modXrds ?_ _) | exact (fun _ h => h))

theorem kept_clearCounters (mask : Nat) (s : State) : Kept s (State.clearCounters mask s) := by
  unfold State.clearCounters
  repeat' (first
    | with_reducible exact Kept.refl _ | with_reducible refine Kept.trans ?_ (kept_modXrds ?_ _) | exact (fun _ h => h))

theorem kept_counterSource (n : Nat) (v : Nat) (s : State) : Kept s (State.counterSource n v s) := by
  unfold State.counterSource
  repeat' (first
    | with_reducible exact Kept.refl _ | with_reducible refine Kept.trans ?_ (kept_modXrds ?_ _)
    | with_reducible apply Kept.trans _ (kept_setNum ..) | exact (fun _ h => h))

theorem kept_versionNotice (n : Nat) (s : State) : Kept s (State.versionNotice n s) := by
  unfold State.versionNotice
  repeat' (first
    | with_reducible exact Kept.refl _ | with_reducible apply Kept.trans _ (kept_sendReport ..)
    | with_reducible apply Kept.trans _ (kept_reportSpace ..) | with_reducible apply Kept.trans _ (kept_hbFill ..))

theorem kept_putRw (obj : Nat) (sub : Nat) (v : Nat) (s : State) : Kept s (State.putRw obj sub v s) := by
  unfold State.putRw
  repeat' (first
    | with_reducible exact Kept.refl _ | with_reducible apply Kept.trans _ (kept_sparePolicy ..)
    | with_reducible refine Kept.trans ?_ (kept_modXrds ?_ _) | with_reducible apply Kept.trans _ (kept_gpioFunction ..)
    | with_reducible refine Kept.trans ?_ (kept_gpioMove _ _ ?_) | with_reducible apply Kept.trans _ (kept_setNum ..)
    | with_reducible apply Kept.trans _ (kept_recommand ..) | with_reducible apply Kept.trans _ (kept_modBand ..)
    | exact (fun _ h => h) | intro _ | split)

theorem kept_stageVal (sid : Nat) (obj : Nat) (sub : Nat) (v : Val) (s : State) : Kept s (State.stageVal sid obj sub v s) := by
  unfold State.stageVal
  repeat' (first
    | with_reducible exact Kept.refl _ | with_reducible refine Kept.ite (fun _ => ?_) (fun _ => ?_)
    | with_reducible refine Kept.trans ?_ (kept_modDict ?_ _) | with_reducible apply Kept.trans _ (kept_stageStart ..)
    | exact (fun _ h => ⟨h.1, mapRising_put _ _ _ h.2⟩))

theorem kept_runCmd (obj : Nat) (sub : Nat) (v : Nat) (s : State) : Kept s (State.runCmd obj sub v s).1 := by
  have w : ∀ (f : State → State) (st : Nat), (∀ t, Kept t (f t)) → Kept s (if v = 0 then (s, 0) else (f s, st)).1 := by
    intro f st h
    split
    · exact Kept.refl _
    · exact h s
  unfold State.runCmd
  dsimp only
  split
  · exact Kept.getD (kept_stateRequest _ _ _ kept_enterMews)
  · exact w _ _ (fun _ => kept_modMews _ _)
  · exact Kept.getD (kept_spareDecide _ _)
  · exact w _ _ (fun _ => kept_modTherm _ _)
  · exact w _ _ kept_emptyShadow
  · exact w _ _ (fun _ => kept_profCommand _ _)
  · exact w _ _ (fun _ => kept_profCommand _ _)
  · exact Kept.ite (fun _ => kept_sweepStart _) (fun _ => kept_sweepAbort _)
  · exact w _ _ kept_snapshot
  · exact kept_clearCounters _ _
  · exact kept_hbmTrain _ _
  · exact Kept.trans (kept_gfxPublish _ _ _) (kept_versionNotice _ _)
  · exact kept_arrayReg ..
  · exact kept_aswapStart ..
  · exact kept_localCommit _
  · exact kept_wallJoin _ _
  · exact w _ _ (fun _ => kept_modBand ..)
  · exact w _ _ (fun _ => kept_traceArm ..)
  · exact kept_startEnum ..
  · exact kept_lampReg ..
  · exact Kept.iteFst (fun _ => w _ _ (fun _ => kept_unitForce ..)) (fun _ => Kept.refl _)

theorem kept_writeOne (sid : Nat) (obj : Nat) (sub : Nat) (v : Nat) (s : State) : Kept s (State.writeOne sid obj sub v s).1 := by
  unfold State.writeOne
  repeat' (first
    | with_reducible exact Kept.refl _ | with_reducible refine Kept.iteFst (fun _ => ?_) (fun _ => ?_)
    | with_reducible apply Kept.trans _ (kept_stageVal ..) | with_reducible apply Kept.trans _ (kept_runCmd ..)
    | with_reducible refine Kept.trans ?_ (kept_modDict ?_ _) | with_reducible apply Kept.trans _ (kept_unitCommand ..)
    | with_reducible apply Kept.trans _ (kept_putRw ..) | exact (fun _ h => h) | dsimp only | split)

theorem kept_doWrite (c : Caller) (obj : Nat) (sub : Nat) (count : Nat) (data : Bytes) (s : State) : Kept s (State.doWrite c obj sub count data s).1 := by
  unfold State.doWrite
  repeat' (first
    | with_reducible exact Kept.refl _ | with_reducible apply Kept.trans _ (kept_writeOne ..)
    | with_reducible refine Kept.trans ?_ (Kept.foldlPair ?_ _ _ _) | intro _)

/-! ## Machine/Cross.lean -/

theorem kept_countWhere (hit : Nat → Bool) (add : Nat) (s : State) : Kept s (State.countWhere hit add s) := by
  unfold State.countWhere
  dsimp only
  have k : ∀ l, Kept s (List.foldl (fun (acc : State × List Occ) i =>
      if hit (s.num 0x3020 i) then ((acc.1.countOn i add).1, acc.2 ++ (acc.1.countOn i add).2) else acc) (s, []) l).1 := fun l =>
    Kept.foldlPair (fun p i => by
      split
      · exact kept_countOn _ _ _
      · exact Kept.refl _) l s []
  exact Kept.trans (k _) (kept_raiseAll _ _)

theorem kept_pulseStart (n : Nat) (s : State) : Kept s (State.pulseStart n s) := by
  unfold State.pulseStart
  repeat' (first
    | with_reducible exact Kept.refl _ | with_reducible apply Kept.trans _ (kept_countRises ..)
    | with_reducible apply Kept.trans _ (kept_emit ..) | with_reducible refine Kept.trans ?_ (kept_modXrds ?_ _)
    | exact (fun _ h => h))

theorem kept_taskAct (i : Nat) (s : State) : Kept s (State.taskAct i s) := by
  unfold State.taskAct
  repeat' (first
    | with_reducible exact Kept.refl _ | with_reducible refine Kept.ite (fun _ => ?_) (fun _ => ?_)
    | with_reducible apply Kept.trans _ (kept_traceTrigger ..) | with_reducible apply Kept.trans _ (kept_pulseStart ..)
    | with_reducible apply Kept.trans _ (kept_snapshot ..) | with_reducible apply Kept.trans _ (kept_clearCounters ..))

theorem kept_taskTake (i : Nat) (s : State) : Kept s (State.taskTake i s) := by
  unfold State.taskTake
  repeat' (first
    | with_reducible exact Kept.refl _ | with_reducible refine Kept.trans ?_ (kept_modXrds ?_ _)
    | with_reducible apply Kept.trans _ (kept_countWhere ..) | with_reducible apply Kept.trans _ (kept_taskAct ..)
    | exact (fun _ h => h))

theorem kept_execEventOccurrence (t : Nat) (occs : List Occ) (s : State) : KeepsGoing s (execEventOccurrence t occs s) := by
  unfold execEventOccurrence
  repeat' (first
    | with_reducible exact Kept.refl _ | with_reducible apply KeepsGoing.next
    | with_reducible apply Kept.trans _ (kept_raiseAll ..) | with_reducible apply Kept.trans _ (kept_advance ..))

theorem kept_execXrdsEventsLost (t : Nat) (s : State) : KeepsGoing s (execXrdsEventsLost t s) := by
  unfold execXrdsEventsLost
  repeat' (first
    | with_reducible exact Kept.refl _ | with_reducible refine KeepsGoing.ite (fun _ => ?_) (fun _ => ?_)
    | with_reducible apply KeepsGoing.next | with_reducible apply Kept.trans _ (kept_advance ..)
    | with_reducible apply Kept.trans _ (kept_raise ..) | with_reducible refine Kept.trans ?_ (kept_modXrds ?_ _)
    | exact (fun _ h => h))

theorem kept_execTaskActivation (t : Nat) (input : Nat) (s : State) : KeepsGoing s (execTaskActivation t input s) := by
  unfold execTaskActivation
  repeat' (first
    | with_reducible exact Kept.refl _ | with_reducible refine KeepsGoing.ite (fun _ => ?_) (fun _ => ?_)
    | with_reducible apply KeepsGoing.next | with_reducible apply Kept.trans _ (kept_advance ..)
    | with_reducible apply Kept.trans _ (kept_taskTake ..))

theorem kept_execGpioPulseEnd (t : Nat) (gpio : Nat) (s : State) : KeepsGoing s (execGpioPulseEnd t gpio s) := by
  unfold execGpioPulseEnd
  repeat' (first
    | with_reducible exact Kept.refl _ | with_reducible refine KeepsGoing.ite (fun _ => ?_) (fun _ => ?_)
    | with_reducible apply KeepsGoing.next | with_reducible apply Kept.trans _ (kept_advance ..)
    | with_reducible refine Kept.trans ?_ (kept_modXrds ?_ _) | exact (fun _ h => h))

theorem kept_execGpioInputEdge (t : Nat) (gpio : Nat) (high : Bool) (s : State) : KeepsGoing s (execGpioInputEdge t gpio high s) := by
  unfold execGpioInputEdge
  repeat' (first
    | with_reducible exact Kept.refl _ | with_reducible refine KeepsGoing.ite (fun _ => ?_) (fun _ => ?_)
    | with_reducible apply KeepsGoing.next | with_reducible apply Kept.trans _ (kept_advance ..)
    | with_reducible refine Kept.trans ?_ (kept_modXrds ?_ _) | with_reducible refine Kept.trans ?_ (kept_gpioMove _ _ ?_)
    | exact (fun _ h => h) | intro _)

theorem kept_execCyclesCounterCompare (t : Nat) (domain : Nat) (cycles : Nat) (s : State) : KeepsGoing s (execCyclesCounterCompare t domain cycles s) := by
  unfold execCyclesCounterCompare
  repeat' (first
    | with_reducible exact Kept.refl _ | with_reducible refine KeepsGoing.ite (fun _ => ?_) (fun _ => ?_)
    | with_reducible apply KeepsGoing.next | with_reducible apply Kept.trans _ (kept_advance ..)
    | with_reducible apply Kept.trans _ (kept_countWhere ..))

end Sys2Proof.Machine
end

