-- ==== Sys2Proof/Laws/KeptHost.lean ====
section
/-! SUPPORT. Every operation stays within the bounds of Safety.lean: host sessions, the unison view, request frames and the fabric. -/

namespace Sys2Proof.Machine

/-! ## Machine/Gysol.lean -/

theorem kept_closeStream (key : Nat) (s : State) : Kept s (State.closeStream key s) := by
  unfold State.closeStream
  repeat' (first
    | with_reducible exact Kept.refl _ | with_reducible refine Kept.trans ?_ (kept_modGysol ?_ _) | exact (fun _ h => h))

theorem kept_keepStream (x : BlobStream) (s : State) : Kept s (State.keepStream x s) := by
  unfold State.keepStream
  repeat' (first
    | with_reducible exact Kept.refl _ | with_reducible refine Kept.trans ?_ (kept_modGysol ?_ _) | exact (fun _ h => h))

theorem kept_endSession (sid : Nat) (cause : Nat) (s : State) : Kept s (State.endSession sid cause s) := by
  unfold State.endSession
  repeat' (first
    | with_reducible exact Kept.refl _ | with_reducible refine Kept.ite (fun _ => ?_) (fun _ => ?_)
    | with_reducible refine Kept.trans ?_ (kept_modGysol ?_ _) | with_reducible apply Kept.trans _ (kept_raiseAll ..)
    | with_reducible apply Kept.trans _ (kept_emptyShadow ..) | with_reducible apply Kept.trans _ (kept_raise ..)
    | exact (fun _ h => ⟨(List.length_filter_le _ _).trans h.1, h.2⟩))

theorem kept_writeKey (role : Nat) (key : Bytes) (s : State) : Kept s (State.writeKey role key s) := by
  unfold State.writeKey
  repeat' (first
    | with_reducible exact Kept.refl _ | with_reducible refine Kept.trans ?_ (kept_modGysol ?_ _)
    | with_reducible apply Kept.trans _ (kept_endSession ..) | with_reducible refine Kept.trans ?_ (Kept.foldl ?_ _ _)
    | exact (fun _ h => h) | intro _)

theorem kept_writeImage (b : Bytes) (s : State) : Kept s (State.writeImage b s) := by
  unfold State.writeImage
  repeat' (first
    | with_reducible exact Kept.refl _ | with_reducible apply Kept.trans _ (kept_takeLeaseOf ..)
    | with_reducible apply Kept.trans _ (kept_modFirm ..))

theorem kept_takeBlob (sid : Nat) (obj : Nat) (sub : Nat) (d : Desc) (b : Bytes) (s : State) : Kept s (State.takeBlob sid obj sub d b s).1 := by
  unfold State.takeBlob
  repeat' (first
    | with_reducible exact Kept.refl _ | with_reducible refine Kept.iteFst (fun _ => ?_) (fun _ => ?_)
    | with_reducible apply Kept.trans _ (kept_writeKey ..) | with_reducible apply Kept.trans _ (kept_raise ..)
    | with_reducible apply Kept.trans _ (kept_writeImage ..) | with_reducible apply Kept.trans _ (kept_gfxAccept ..)
    | with_reducible apply Kept.trans _ (kept_dropHpd ..) | with_reducible apply Kept.trans _ (kept_setVal ..)
    | with_reducible apply Kept.trans _ (kept_startWallCommit ..) | with_reducible apply Kept.trans _ (kept_stageVal ..)
    | dsimp only | split)

theorem kept_headerArrives (obj : Nat) (sub : Nat) (before : Bytes) (whole : Bytes) (s : State) : Kept s (State.headerArrives obj sub before whole s) := by
  unfold State.headerArrives
  repeat' (first
    | with_reducible exact Kept.refl _ | with_reducible refine Kept.ite (fun _ => ?_) (fun _ => ?_)
    | with_reducible apply Kept.trans _ (kept_gfxHeader ..))

theorem kept_opBlobWrite (c : Caller) (o : GOp) (s : State) : Kept s (State.opBlobWrite c o s).1 := by
  unfold State.opBlobWrite
  repeat' (first
    | with_reducible exact Kept.refl _ | with_reducible refine Kept.iteFst (fun _ => ?_) (fun _ => ?_)
    | with_reducible apply Kept.trans _ (kept_closeStream ..) | with_reducible refine Kept.trans ?_ (kept_modHbm ?_ _)
    | with_reducible apply Kept.trans _ (kept_drawn ..) | with_reducible apply Kept.trans _ (kept_headerArrives ..)
    | with_reducible apply Kept.trans _ (kept_keepStream ..) | with_reducible apply Kept.trans _ (kept_takeBlob ..)
    | exact (fun _ h => h) | dsimp only | split)

theorem kept_subscribe (sid : Nat) (mask : Bytes) (s : State) : Kept s (State.subscribe sid mask s) := by
  refine kept_modGysol (fun g h => ?_) _
  split
  · exact h
  · exact ⟨(List.length_map _).trans_le h.1, h.2⟩

theorem kept_opExec (c : Caller) (o : GOp) (s : State) : Kept s (State.opExec c o s).1 := by
  unfold State.opExec
  repeat' (first
    | with_reducible exact Kept.refl _ | with_reducible apply Kept.trans _ (kept_doWrite ..)
    | with_reducible apply Kept.trans _ (kept_opBlobWrite ..) | with_reducible apply Kept.trans _ (kept_subscribe ..)
    | dsimp only | split)

theorem kept_runOps (c : Caller) (limit : Nat) (os : List GOp) (used : Nat) (s : State) :
    Kept s (State.runOps c limit os used s).1 := by
  induction os generalizing used s with
  | nil => exact Kept.refl _
  | cons o os ih =>
    unfold State.runOps
    dsimp only
    refine Kept.iteFst (fun _ => Kept.refl _) (fun _ => ?_)
    exact Kept.trans (kept_opExec _ _ _) (ih _ _)

theorem kept_runRequest (c : Caller) (limit : Nat) (atomic : Bool) (os : List GOp) (s : State) : Kept s (State.runRequest c limit atomic os s).1 := by
  unfold State.runRequest
  dsimp only
  exact Kept.iteFst (fun _ => Kept.refl _) (fun _ => kept_runOps _ _ _ _ _)

theorem kept_gsend (tr : Transport) (addr : Nat) (kind : Nat) (b : Bytes) (s : State) : Kept s (State.gsend tr addr kind b s) := by
  unfold State.gsend
  split
  · split
    · exact kept_emit _ _
    · exact Kept.refl _
  · refine kept_modGysol (fun g h => ?_) _
    split <;> exact h
  · refine kept_modGysol (fun g h => ?_) _
    split <;> exact h
  · exact kept_uaneSend ..

theorem kept_modSession (sid : Nat) (f : Session → Session) (s : State) : Kept s (State.modSession sid f s) := by
  unfold State.modSession
  repeat' (first
    | with_reducible exact Kept.refl _ | with_reducible refine Kept.trans ?_ (kept_modGysol ?_ _)
    | exact (fun _ h => ⟨(List.length_map _).trans_le h.1, h.2⟩))

theorem kept_openNew (tr : Transport) (addr : Nat) (role : Nat) (want : Nat) (rk : Bytes) (host : Bytes) (nonce : Bytes) (s : State) : Kept s (State.openNew tr addr role want rk host nonce s).1 := by
  unfold State.openNew
  dsimp only
  refine Kept.iteFst (fun _ => Kept.refl _) (fun k => ?_)
  refine ⟨rfl, le_refl _, List.prefix_refl _, fun o => ⟨o.hbm, o.dict, o.xrds, ?_, o.gysol.2⟩⟩
  refine (List.length_append).trans_le ?_
  have : s.gysol.sessions.length < 8 := Nat.lt_of_not_le k
  exact this

theorem kept_sessionOpen (tr : Transport) (addr : Nat) (o : GOp) (s : State) : Kept s (State.sessionOpen tr addr o s).1 := by
  unfold State.sessionOpen
  repeat' (first
    | with_reducible exact Kept.refl _ | with_reducible refine Kept.iteFst (fun _ => ?_) (fun _ => ?_)
    | with_reducible apply Kept.trans _ (kept_modSession ..) | with_reducible apply Kept.trans _ (kept_drawn ..)
    | with_reducible apply Kept.trans _ (kept_openNew ..) | dsimp only | split)

theorem kept_authDrop (tr : Transport) (s : State) : Kept s (State.authDrop tr s) := by
  unfold State.authDrop
  repeat' (first
    | with_reducible exact Kept.refl _ | with_reducible apply Kept.trans _ (kept_raiseLimited ..)
    | with_reducible refine Kept.trans ?_ (kept_modGysol ?_ _) | exact (fun _ h => h))

theorem kept_gwTag (tr : Transport) (addr : Nat) (s : State) : Kept s (State.gwTag tr addr s).2 := by
  unfold State.gwTag
  repeat' (first
    | with_reducible exact Kept.refl _ | with_reducible apply Kept.trans _ (kept_modUane ..)
    | with_reducible apply Kept.trans _ (kept_drawn ..) | dsimp only | split)

/-! ## Machine/Unison.lean -/

theorem kept_relayFrame (sid : Nat) (die : Nat) (b : Bytes) (s : State) : Kept s (State.relayFrame sid die b s) := by
  unfold State.relayFrame
  repeat' (first
    | with_reducible exact Kept.refl _ | with_reducible apply Kept.trans _ (kept_gwTag ..)
    | with_reducible apply Kept.trans _ (kept_uaneSend ..))

theorem kept_setRelay (r : Relay) (s : State) : Kept s (State.setRelay r s) := by
  unfold State.setRelay
  repeat' (first
    | with_reducible exact Kept.refl _ | with_reducible refine Kept.trans ?_ (kept_modGysol ?_ _) | exact (fun _ h => h))

theorem kept_relayOpen (x : Session) (die : Nat) (s : State) : Kept s (State.relayOpen x die s) := by
  unfold State.relayOpen
  repeat' (first
    | with_reducible exact Kept.refl _ | with_reducible refine Kept.ite (fun _ => ?_) (fun _ => ?_)
    | with_reducible apply Kept.trans _ (kept_setRelay ..) | with_reducible apply Kept.trans _ (kept_relayFrame ..)
    | with_reducible apply Kept.trans _ (kept_drawn ..))

theorem kept_ensureRelays (x : Session) (s : State) : Kept s (State.ensureRelays x s) := by
  unfold State.ensureRelays
  repeat' (first
    | with_reducible exact Kept.refl _ | with_reducible refine Kept.ite (fun _ => ?_) (fun _ => ?_)
    | with_reducible apply Kept.trans _ (kept_relayOpen ..) | with_reducible refine Kept.trans ?_ (Kept.foldl ?_ _ _) | intro _
    | split)

theorem kept_modJob (sid : Nat) (ext : Int) (f : RelayJob → RelayJob) (s : State) : Kept s (State.modJob sid ext f s) := by
  unfold State.modJob
  repeat' (first
    | with_reducible exact Kept.refl _ | with_reducible refine Kept.trans ?_ (kept_modGysol ?_ _) | exact (fun _ h => h))

theorem kept_relayJob (die : Nat) (s : State) (j : RelayJob) : Kept s (State.relayJob die s j) := by
  unfold State.relayJob
  repeat' (first
    | with_reducible exact Kept.refl _ | with_reducible refine Kept.ite (fun _ => ?_) (fun _ => ?_)
    | with_reducible apply Kept.trans _ (kept_modJob ..) | with_reducible apply Kept.trans _ (kept_relayFrame ..)
    | with_reducible apply Kept.trans _ (kept_setRelay ..) | dsimp only | split)

theorem kept_viewAnswer (tr : Transport) (addr : Nat) (q : GReq) (x : Session) (e : Int) (resp : Bytes) (s : State) : Kept s (State.viewAnswer tr addr q x e resp s) := by
  unfold State.viewAnswer
  repeat' (first
    | with_reducible exact Kept.refl _ | with_reducible refine Kept.ite (fun _ => ?_) (fun _ => ?_)
    | with_reducible apply Kept.trans _ (kept_gsend ..) | with_reducible apply Kept.trans _ (kept_modSession ..)
    | with_reducible apply Kept.trans _ (kept_endSession ..))

theorem kept_finishJobs (s : State) : Kept s (State.finishJobs s) := by
  unfold State.finishJobs
  refine Kept.foldl (fun t j => ?_) _ _
  extract_lets t1
  have k : Kept t t1 := by
    refine kept_modGysol (fun _ h => ?_) _
    exact h
  refine Kept.trans k ?_
  split
  · exact kept_viewAnswer ..
  · exact Kept.ite (fun _ => kept_gsend ..) (fun _ => Kept.refl _)
  · exact Kept.refl _

theorem kept_relayOpened (r : Relay) (b : Bytes) (s : State) : Kept s (State.relayOpened r b s) := by
  unfold State.relayOpened
  repeat' (first
    | with_reducible exact Kept.refl _ | with_reducible apply Kept.trans _ (kept_setRelay ..)
    | with_reducible apply Kept.trans _ (kept_relayJob ..) | with_reducible refine Kept.trans ?_ (Kept.foldl ?_ _ _) | intro _)

theorem kept_relayAnswered (r : Relay) (b : Bytes) (s : State) : Kept s (State.relayAnswered r b s) := by
  unfold State.relayAnswered
  repeat' (first
    | with_reducible exact Kept.refl _ | with_reducible refine Kept.ite (fun _ => ?_) (fun _ => ?_)
    | with_reducible apply Kept.trans _ (kept_modJob ..) | with_reducible refine Kept.trans ?_ (kept_modGysol ?_ _)
    | exact (fun _ h => h) | dsimp only | split)

theorem kept_relayPush (r : Relay) (b : Bytes) (s : State) : Kept s (State.relayPush r b s) := by
  unfold State.relayPush
  repeat' (first
    | with_reducible exact Kept.refl _ | with_reducible refine Kept.ite (fun _ => ?_) (fun _ => ?_)
    | with_reducible apply Kept.trans _ (kept_gsend ..) | with_reducible apply Kept.trans _ (kept_modSession ..)
    | with_reducible apply Kept.trans _ (kept_setRelay ..) | dsimp only | split)

theorem kept_freeAnswered (die : Nat) (b : Bytes) (s : State) : Kept s (State.freeAnswered die b s) := by
  unfold State.freeAnswered
  repeat' (first
    | with_reducible exact Kept.refl _ | with_reducible apply Kept.trans _ (kept_finishJobs ..)
    | with_reducible apply Kept.trans _ (kept_modJob ..) | split)

theorem kept_relayTake (sid : Nat) (die : Nat) (kind : Nat) (b : Bytes) (s : State) : Kept s (State.relayTake sid die kind b s) := by
  unfold State.relayTake
  repeat' (first
    | with_reducible exact Kept.refl _ | with_reducible refine Kept.ite (fun _ => ?_) (fun _ => ?_)
    | with_reducible apply Kept.trans _ (kept_freeAnswered ..) | with_reducible apply Kept.trans _ (kept_relayPush ..)
    | with_reducible apply Kept.trans _ (kept_finishJobs ..) | with_reducible apply Kept.trans _ (kept_relayOpened ..)
    | with_reducible apply Kept.trans _ (kept_relayAnswered ..) | split)

theorem kept_relayFree (tr : Transport) (addr : Nat) (q : GReq) (s : State) : Kept s (State.relayFree tr addr q s) := by
  unfold State.relayFree
  repeat' (first
    | with_reducible exact Kept.refl _ | with_reducible refine Kept.ite (fun _ => ?_) (fun _ => ?_)
    | with_reducible apply Kept.trans _ (kept_gsend ..) | with_reducible apply Kept.trans _ (kept_relayFrame ..)
    | with_reducible refine Kept.trans ?_ (kept_modGysol ?_ _) | with_reducible apply Kept.trans _ (kept_drawn ..)
    | exact (fun _ h => h))

theorem kept_serveView (tr : Transport) (addr : Nat) (q : GReq) (x : Session) (e : Int) (s : State) : Kept s (State.serveView tr addr q x e s) := by
  unfold State.serveView
  repeat' (first
    | with_reducible exact Kept.refl _ | with_reducible refine Kept.ite (fun _ => ?_) (fun _ => ?_)
    | with_reducible apply Kept.trans _ (kept_viewAnswer ..) | with_reducible apply Kept.trans _ (kept_finishJobs ..)
    | with_reducible apply Kept.trans _ (kept_relayJob ..) | with_reducible refine Kept.trans ?_ (kept_modGysol ?_ _)
    | with_reducible apply Kept.trans _ (kept_runRequest ..) | with_reducible apply Kept.trans _ (kept_drawn ..)
    | with_reducible apply Kept.trans _ (kept_startUnisonCommit ..) | with_reducible refine Kept.trans ?_ (Kept.foldl ?_ _ _)
    | exact (fun _ h => h) | intro _)

/-! ## Machine/Serve.lean -/

theorem kept_serveSession (tr : Transport) (addr : Nat) (q : GReq) (x : Session) (key : Bytes) (ext : Int) (s : State) : Kept s (State.serveSession tr addr q x key ext s) := by
  unfold State.serveSession
  repeat' (first
    | with_reducible exact Kept.refl _ | with_reducible refine Kept.ite (fun _ => ?_) (fun _ => ?_)
    | with_reducible apply Kept.trans _ (kept_modSession ..) | with_reducible apply Kept.trans _ (kept_ensureRelays ..)
    | with_reducible apply Kept.trans _ (kept_gsend ..) | with_reducible apply Kept.trans _ (kept_endSession ..)
    | with_reducible apply Kept.trans _ (kept_serveView ..) | with_reducible apply Kept.trans _ (kept_runRequest ..)
    | dsimp only | split)

theorem kept_serveOpen (tr : Transport) (addr : Nat) (q : GReq) (s : State) : Kept s (State.serveOpen tr addr q s) := by
  unfold State.serveOpen
  repeat' (first
    | with_reducible exact Kept.refl _ | with_reducible refine Kept.ite (fun _ => ?_) (fun _ => ?_)
    | with_reducible apply Kept.trans _ (kept_authDrop ..) | with_reducible apply Kept.trans _ (kept_gsend ..)
    | with_reducible apply Kept.trans _ (kept_sessionOpen ..) | dsimp only | split)

theorem kept_serveHost (tr : Transport) (addr : Nat) (q0 : GReq) (s : State) : Kept s (State.serveHost tr addr q0 s) := by
  unfold State.serveHost
  repeat' (first
    | with_reducible exact Kept.refl _ | with_reducible refine Kept.ite (fun _ => ?_) (fun _ => ?_)
    | with_reducible apply Kept.trans _ (kept_gsend ..) | with_reducible apply Kept.trans _ (kept_serveOpen ..)
    | with_reducible apply Kept.trans _ (kept_authDrop ..) | with_reducible apply Kept.trans _ (kept_relayFree ..)
    | with_reducible apply Kept.trans _ (kept_runRequest ..) | with_reducible apply Kept.trans _ (kept_serveSession ..)
    | dsimp only | split)

theorem kept_serveMailbox (q : GReq) (s : State) : Kept s (State.serveMailbox q s) := by
  unfold State.serveMailbox
  dsimp only
  refine Kept.ite (fun _ => kept_gsend ..) fun _ => Kept.ite (fun _ => kept_gsend ..) fun _ =>
    Kept.ite (fun _ => kept_gsend ..) fun _ => Kept.ite (fun _ => kept_gsend ..) fun _ =>
    Kept.ite (fun _ => Kept.trans (kept_runRequest ..) (kept_gsend ..)) fun _ => ?_
  refine Kept.trans (Kept.foldlPair (fun p o => ?_) q.ops s []) (kept_gsend ..)
  exact Kept.iteFst (fun _ => kept_opExec _ _ _) (fun _ => Kept.refl _)

theorem kept_serveFrame (f : QFrame) (s : State) : Kept s (State.serveFrame f s) := by
  unfold State.serveFrame
  repeat' (first
    | with_reducible exact Kept.refl _ | with_reducible refine Kept.ite (fun _ => ?_) (fun _ => ?_)
    | with_reducible refine Kept.trans ?_ (kept_modGysol ?_ _) | with_reducible apply Kept.trans _ (kept_serveMailbox ..)
    | with_reducible apply Kept.trans _ (kept_serveHost ..) | exact (fun _ h => h) | split)

theorem kept_pumpFrames (n : Nat) (s : State) : Kept s (State.pumpFrames n s) := by
  induction n generalizing s with
  | zero => exact Kept.refl _
  | succ n ih =>
    unfold State.pumpFrames
    split
    · exact Kept.refl _
    · rename_i f fs e
      refine Kept.ite (fun _ => Kept.refl _) (fun _ => ?_)
      refine Kept.trans ?_ (ih _)
      refine Kept.trans (s := s.modGysol fun g => { g with queue := fs }) ?_ (kept_serveFrame _ _)
      refine ⟨rfl, le_refl _, List.prefix_refl _, fun o => ⟨o.hbm, o.dict, o.xrds, o.gysol.1, ?_⟩⟩
      have := o.gysol.2
      rw [e, List.length_cons] at this
      exact Nat.le_of_succ_le this

theorem kept_pump (s : State) : Kept s (State.pump s) := by
  exact kept_pumpFrames _ _

theorem kept_enqueue (f : QFrame) (s : State) : Kept s (State.enqueue f s) := by
  unfold State.enqueue
  refine Kept.ite (fun _ => ?_) (fun k => ?_)
  · refine kept_modGysol (fun _ h => ?_) _
    exact h
  · refine ⟨rfl, le_refl _, List.prefix_refl _, fun o => ⟨o.hbm, o.dict, o.xrds, o.gysol.1, ?_⟩⟩
    refine (List.length_append).trans_le ?_
    have : s.gysol.queue.length < 32 := Nat.lt_of_not_le k
    exact this

theorem kept_request (tr : Transport) (addr : Nat) (b : Bytes) (wait : Bool) (s : State) : Kept s (State.request tr addr b wait s) := by
  unfold State.request
  repeat' (first
    | with_reducible exact Kept.refl _ | with_reducible refine Kept.ite (fun _ => ?_) (fun _ => ?_)
    | with_reducible apply Kept.trans _ (kept_enqueue ..) | with_reducible apply Kept.trans _ (kept_pump ..)
    | with_reducible apply Kept.trans _ (kept_gsend ..) | with_reducible apply Kept.trans _ (kept_gwTag ..)
    | with_reducible apply Kept.trans _ (kept_uaneSend ..) | split)

/-! ## Machine/Fabric.lean -/

theorem kept_uaneLostLanes (n : Nat) (s : State) : Kept s (State.uaneLostLanes n s) := by
  unfold State.uaneLostLanes
  repeat' (first
    | with_reducible exact Kept.refl _ | with_reducible refine Kept.ite (fun _ => ?_) (fun _ => ?_)
    | with_reducible apply Kept.trans _ (kept_uaneSwapStart ..) | dsimp only | split)

theorem kept_uaneHelloSwaps (n : Nat) (p : Bytes) (s : State) : Kept s (State.uaneHelloSwaps n p s) := by
  unfold State.uaneHelloSwaps
  repeat' (first
    | with_reducible exact Kept.refl _ | with_reducible refine Kept.ite (fun _ => ?_) (fun _ => ?_)
    | with_reducible apply Kept.trans _ (kept_modUport ..) | with_reducible apply Kept.trans _ (kept_drawn ..))

theorem kept_takeHello (n : Nat) (p : Bytes) (s : State) : Kept s (State.takeHello n p s) := by
  unfold State.takeHello
  repeat' (first
    | with_reducible exact Kept.refl _ | with_reducible refine Kept.ite (fun _ => ?_) (fun _ => ?_)
    | with_reducible apply Kept.trans _ (kept_modUport ..) | with_reducible apply Kept.trans _ (kept_uaneUp ..)
    | with_reducible apply Kept.trans _ (kept_uaneDown ..) | with_reducible apply Kept.trans _ (kept_uaneLostLanes ..)
    | with_reducible apply Kept.trans _ (kept_uaneHelloSwaps ..))

theorem kept_discipline (steps : Bool) (o : Int) (s : State) : Kept s (State.discipline steps o s) := by
  unfold State.discipline
  repeat' (first
    | with_reducible exact Kept.refl _ | with_reducible refine Kept.ite (fun _ => ?_) (fun _ => ?_)
    | with_reducible apply Kept.trans _ (kept_startRephase ..) | with_reducible apply Kept.trans _ (kept_stepWall ..)
    | with_reducible apply Kept.trans _ (kept_modSeqr ..) | with_reducible apply Kept.trans _ (kept_modWallOff ..)
    | with_reducible apply Kept.trans _ (kept_drawn ..) | with_reducible apply Kept.trans _ (kept_modWallTrim ..))

theorem kept_judgeLock (o : Int) (s : State) : Kept s (State.judgeLock o s) := by
  unfold State.judgeLock
  repeat' (first
    | with_reducible exact Kept.refl _ | with_reducible refine Kept.ite (fun _ => ?_) (fun _ => ?_)
    | with_reducible apply Kept.trans _ (kept_modUane ..) | with_reducible apply Kept.trans _ (kept_setTimeState ..))

theorem kept_takeTime (n : Nat) (tenths : Nat) (b : Bytes) (s : State) : Kept s (State.takeTime n tenths b s) := by
  unfold State.takeTime
  repeat' (first
    | with_reducible exact Kept.refl _ | with_reducible refine Kept.ite (fun _ => ?_) (fun _ => ?_)
    | with_reducible apply Kept.trans _ (kept_modUport ..) | with_reducible apply Kept.trans _ (kept_modUane ..)
    | with_reducible apply Kept.trans _ (kept_judgeLock ..) | with_reducible apply Kept.trans _ (kept_discipline ..))

theorem kept_ptpMeasure (t4 : Nat) (s : State) : Kept s (State.ptpMeasure t4 s) := by
  unfold State.ptpMeasure
  repeat' (first
    | with_reducible exact Kept.refl _ | with_reducible refine Kept.ite (fun _ => ?_) (fun _ => ?_)
    | with_reducible apply Kept.trans _ (kept_setPtp ..) | with_reducible apply Kept.trans _ (kept_modUane ..)
    | with_reducible apply Kept.trans _ (kept_discipline ..) | dsimp only | split)

theorem kept_takePtp (m : PtpMsg) (s : State) : Kept s (State.takePtp m s) := by
  unfold State.takePtp
  repeat' (first
    | with_reducible exact Kept.refl _ | with_reducible refine Kept.ite (fun _ => ?_) (fun _ => ?_)
    | with_reducible apply Kept.trans _ (kept_modUane ..) | with_reducible apply Kept.trans _ (kept_setPtp ..)
    | with_reducible apply Kept.trans _ (kept_emit ..) | with_reducible apply Kept.trans _ (kept_ptpMeasure ..) | dsimp only
    | split)

theorem kept_takeMgmt (port : Nat) (src : Nat) (spec : Bytes) (payload : Bytes) (s : State) : Kept s (State.takeMgmt port src spec payload s) := by
  unfold State.takeMgmt
  repeat' (first
    | with_reducible exact Kept.refl _ | with_reducible refine Kept.ite (fun _ => ?_) (fun _ => ?_)
    | with_reducible apply Kept.trans _ (kept_request ..) | with_reducible apply Kept.trans _ (kept_modUane ..)
    | with_reducible apply Kept.trans _ (kept_relayTake ..) | with_reducible apply Kept.trans _ (kept_gsend ..)
    | with_reducible apply Kept.trans _ (kept_modUport ..) | dsimp only | split)

theorem kept_modRx (n : Nat) (f : RxLayer → RxLayer) (s : State) : Kept s (State.modRx n f s) := by
  unfold State.modRx
  repeat' (first
    | with_reducible exact Kept.refl _ | with_reducible apply Kept.trans _ (kept_modUane ..))

theorem kept_transitStart (n : Nat) (ver : Nat) (s : State) : Kept s (State.transitStart n ver s) := by
  unfold State.transitStart
  repeat' (first
    | with_reducible exact Kept.refl _ | with_reducible refine Kept.ite (fun _ => ?_) (fun _ => ?_)
    | with_reducible apply Kept.trans _ (kept_modLayer ..) | with_reducible apply Kept.trans _ (kept_discardWriting ..)
    | with_reducible apply Kept.trans _ (kept_takeNext ..) | with_reducible apply Kept.trans _ (kept_modRx ..)
    | with_reducible apply Kept.trans _ (kept_dropFrame ..) | dsimp only | split)

theorem kept_takePixel (src : Nat) (spec : Bytes) (payload : Bytes) (s : State) : Kept s (State.takePixel src spec payload s) := by
  unfold State.takePixel
  repeat' (first
    | with_reducible exact Kept.refl _ | with_reducible refine Kept.ite (fun _ => ?_) (fun _ => ?_)
    | with_reducible apply Kept.trans _ (kept_transitStart ..) | with_reducible apply Kept.trans _ (kept_modRx ..)
    | with_reducible refine Kept.trans ?_ (kept_modHbm ?_ _) | with_reducible exact (fun _ h => Hbm.ok_putPixels _ _ _ _ _ h)
    | dsimp only | split)

theorem kept_takePixelEnd (src : Nat) (spec : Bytes) (payload : Bytes) (s : State) : Kept s (State.takePixelEnd src spec payload s) := by
  unfold State.takePixelEnd
  repeat' (first
    | with_reducible exact Kept.refl _ | with_reducible refine Kept.ite (fun _ => ?_) (fun _ => ?_)
    | with_reducible apply Kept.trans _ (kept_transitStart ..) | with_reducible apply Kept.trans _ (kept_modRx ..)
    | with_reducible apply Kept.trans _ (kept_discardWriting ..) | with_reducible apply Kept.trans _ (kept_modLayer ..)
    | with_reducible apply Kept.trans _ (kept_modUane ..) | with_reducible apply Kept.trans _ (kept_raise ..)
    | with_reducible apply Kept.trans _ (kept_takeAfter ..) | with_reducible apply Kept.trans _ (kept_versionNotice ..)
    | dsimp only | split)

theorem kept_modTx (k : Nat) (f : TxStream → TxStream) (s : State) : Kept s (State.modTx k f s) := by
  unfold State.modTx
  repeat' (first
    | with_reducible exact Kept.refl _ | with_reducible apply Kept.trans _ (kept_modUane ..))

theorem kept_sendLine (k : Nat) (line : Nat) (ver : Nat) (buf : Nat) (width : Nat) (s : State) : Kept s (State.sendLine k line ver buf width s) := by
  unfold State.sendLine
  repeat' (first
    | with_reducible exact Kept.refl _ | with_reducible apply Kept.trans _ (kept_uaneSend ..)
    | with_reducible apply Kept.trans _ (kept_modTx ..) | with_reducible refine Kept.trans ?_ (Kept.foldl ?_ _ _) | intro _)

theorem kept_sendEndFrame (k : Nat) (ver : Nat) (v : Option Version) (s : State) : Kept s (State.sendEndFrame k ver v s) := by
  unfold State.sendEndFrame
  repeat' (first
    | with_reducible exact Kept.refl _ | with_reducible apply Kept.trans _ (kept_modTx ..)
    | with_reducible apply Kept.trans _ (kept_uaneSend ..))

theorem kept_streamSend (k : Nat) (line : Nat) (s : State) : Kept s (State.streamSend k line s) := by
  unfold State.streamSend
  repeat' (first
    | with_reducible exact Kept.refl _ | with_reducible refine Kept.ite (fun _ => ?_) (fun _ => ?_)
    | with_reducible apply Kept.trans _ (kept_sendEndFrame ..) | with_reducible apply Kept.trans _ (kept_sendLine ..) | split)

theorem kept_takeCommit (src : Nat) (b : Bytes) (s : State) : Kept s (State.takeCommit src b s) := by
  unfold State.takeCommit
  repeat' (first
    | with_reducible exact Kept.refl _ | with_reducible refine Kept.ite (fun _ => ?_) (fun _ => ?_)
    | with_reducible apply Kept.trans _ (kept_takePrepare ..) | with_reducible apply Kept.trans _ (kept_commitReady ..)
    | with_reducible apply Kept.trans _ (kept_commitRefused ..) | with_reducible apply Kept.trans _ (kept_takeGo ..)
    | with_reducible apply Kept.trans _ (kept_commitAck ..) | with_reducible apply Kept.trans _ (kept_takeAbort ..)
    | dsimp only | split)

theorem kept_takeSweep (src : Nat) (b : Bytes) (s : State) : Kept s (State.takeSweep src b s) := by
  unfold State.takeSweep
  repeat' (first
    | with_reducible exact Kept.refl _ | with_reducible apply Kept.trans _ (kept_takeStep ..)
    | with_reducible apply Kept.trans _ (kept_takeResult ..) | with_reducible apply Kept.trans _ (kept_takeCollect ..)
    | with_reducible apply Kept.trans _ (kept_takeEnd ..) | dsimp only | split)

theorem kept_lease (b : Bytes) (s : State) : Kept s (State.lease b s) := by
  unfold State.lease
  repeat' (first
    | with_reducible exact Kept.refl _ | with_reducible apply Kept.trans _ (kept_newTerm ..)
    | with_reducible apply Kept.trans _ (kept_takeLease ..))

theorem kept_takeLumaFrame (src : Nat) (b : Bytes) (s : State) : Kept s (State.takeLumaFrame src b s) := by
  unfold State.takeLumaFrame
  repeat' (first
    | with_reducible exact Kept.refl _ | with_reducible refine Kept.ite (fun _ => ?_) (fun _ => ?_)
    | with_reducible apply Kept.trans _ (kept_takeLuma ..) | with_reducible apply Kept.trans _ (kept_takeSet ..))

theorem kept_topoFrame (src : Nat) (b : Bytes) (s : State) : Kept s (State.topoFrame src b s) := by
  unfold State.topoFrame
  repeat' (first
    | with_reducible exact Kept.refl _ | with_reducible apply Kept.trans _ (kept_sweepReturned ..)
    | with_reducible apply Kept.trans _ (kept_takeTopo ..))

theorem kept_deliverFrame (port : Nat) (h : UHdr) (p : Bytes) (s : State) : Kept s (State.deliverFrame port h p s) := by
  unfold State.deliverFrame
  repeat' (first
    | with_reducible exact Kept.refl _ | with_reducible refine Kept.ite (fun _ => ?_) (fun _ => ?_)
    | with_reducible apply Kept.trans _ (kept_topoFrame ..) | with_reducible apply Kept.trans _ (kept_takeReport ..)
    | with_reducible apply Kept.trans _ (kept_takeAgreement ..) | with_reducible apply Kept.trans _ (kept_takeCommit ..)
    | with_reducible apply Kept.trans _ (kept_lease ..) | with_reducible apply Kept.trans _ (kept_takeLumaFrame ..)
    | with_reducible apply Kept.trans _ (kept_takeSweep ..) | with_reducible apply Kept.trans _ (kept_takePixelEnd ..)
    | with_reducible apply Kept.trans _ (kept_takePixel ..) | with_reducible apply Kept.trans _ (kept_takeMgmt ..) | split)

theorem kept_recvBroadcast (port : Nat) (h : UHdr) (b : Bytes) (good : Bool) (s : State) : Kept s (State.recvBroadcast port h b good s) := by
  unfold State.recvBroadcast
  repeat' (first
    | with_reducible exact Kept.refl _ | with_reducible refine Kept.ite (fun _ => ?_) (fun _ => ?_)
    | with_reducible apply Kept.trans _ (kept_seeBroadcast ..) | with_reducible apply Kept.trans _ (kept_topoFrame ..)
    | with_reducible apply Kept.trans _ (kept_uaneFlood ..) | with_reducible apply Kept.trans _ (kept_deliverFrame ..))

theorem kept_recvUnicast (port : Nat) (h : UHdr) (b : Bytes) (good : Bool) (s : State) : Kept s (State.recvUnicast port h b good s) := by
  unfold State.recvUnicast
  repeat' (first
    | with_reducible exact Kept.refl _ | with_reducible refine Kept.ite (fun _ => ?_) (fun _ => ?_)
    | with_reducible apply Kept.trans _ (kept_deliverFrame ..) | with_reducible apply Kept.trans _ (kept_uaneOut ..)
    | with_reducible apply Kept.trans _ (kept_uaneRoute ..))

theorem kept_recvLocal (port : Nat) (tenths : Nat) (h : UHdr) (b : Bytes) (s : State) : Kept s (State.recvLocal port tenths h b s) := by
  unfold State.recvLocal
  repeat' (first
    | with_reducible exact Kept.refl _ | with_reducible refine Kept.ite (fun _ => ?_) (fun _ => ?_)
    | with_reducible apply Kept.trans _ (kept_takeHello ..) | with_reducible apply Kept.trans _ (kept_takeTime ..))

theorem kept_recvFrame (port : Nat) (tenths : Nat) (named : Bool) (b : Bytes) (s : State) : Kept s (State.recvFrame port tenths named b s) := by
  unfold State.recvFrame
  repeat' (first
    | with_reducible exact Kept.refl _ | with_reducible refine Kept.ite (fun _ => ?_) (fun _ => ?_)
    | with_reducible apply Kept.trans _ (kept_modUport ..) | with_reducible apply Kept.trans _ (kept_recvLocal ..)
    | with_reducible apply Kept.trans _ (kept_recvBroadcast ..) | with_reducible apply Kept.trans _ (kept_recvUnicast ..))

theorem kept_execHello (t : Nat) (port : Nat) (intact : Bool) (payload : Bytes) (ser : List Nat) (s : State) : KeepsGoing s (execHello t port intact payload ser s) := by
  unfold execHello
  repeat' (first
    | with_reducible exact Kept.refl _ | with_reducible refine Kept.ite (fun _ => ?_) (fun _ => ?_)
    | with_reducible refine KeepsGoing.ite (fun _ => ?_) (fun _ => ?_) | with_reducible apply KeepsGoing.next
    | with_reducible apply Kept.trans _ (kept_advance ..) | with_reducible apply Kept.trans _ (kept_modUport ..)
    | with_reducible apply Kept.trans _ (kept_takeHello ..))

theorem kept_execHelloSend (t : Nat) (aligned : Nat) (s : State) : KeepsGoing s (execHelloSend t aligned s) := by
  unfold execHelloSend
  repeat' (first
    | with_reducible exact Kept.refl _ | with_reducible refine Kept.ite (fun _ => ?_) (fun _ => ?_)
    | with_reducible apply KeepsGoing.next | with_reducible apply Kept.trans _ (kept_uaneSend ..)
    | with_reducible apply Kept.trans _ (kept_advance ..) | with_reducible refine Kept.trans ?_ (Kept.foldl ?_ _ _) | intro _)

theorem kept_execHelloTimeout (t : Nat) (port : Nat) (s : State) : KeepsGoing s (execHelloTimeout t port s) := by
  unfold execHelloTimeout
  repeat' (first
    | with_reducible exact Kept.refl _ | with_reducible refine KeepsGoing.ite (fun _ => ?_) (fun _ => ?_)
    | with_reducible apply KeepsGoing.next | with_reducible apply Kept.trans _ (kept_advance ..)
    | with_reducible apply Kept.trans _ (kept_uaneDown ..))

theorem kept_execUaneLockLost (t : Nat) (port : Nat) (lane : Nat) (s : State) : KeepsGoing s (execUaneLockLost t port lane s) := by
  unfold execUaneLockLost
  repeat' (first
    | with_reducible exact Kept.refl _ | with_reducible refine KeepsGoing.ite (fun _ => ?_) (fun _ => ?_)
    | with_reducible apply KeepsGoing.next | with_reducible apply Kept.trans _ (kept_advance ..)
    | with_reducible apply Kept.trans _ (kept_modUport ..) | with_reducible apply Kept.trans _ (kept_uaneDown ..) | split)

theorem kept_execUanePortTraining (t : Nat) (port : Nat) (locked : Bool) (s : State) : KeepsGoing s (execUanePortTraining t port locked s) := by
  unfold execUanePortTraining
  repeat' (first
    | with_reducible exact Kept.refl _ | with_reducible refine KeepsGoing.ite (fun _ => ?_) (fun _ => ?_)
    | with_reducible apply KeepsGoing.next | with_reducible apply Kept.trans _ (kept_advance ..)
    | with_reducible apply Kept.trans _ (kept_uaneLocked ..) | with_reducible apply Kept.trans _ (kept_uaneRetrain ..))

theorem kept_execUaneTrainingTimeout (t : Nat) (port : Nat) (s : State) : KeepsGoing s (execUaneTrainingTimeout t port s) := by
  unfold execUaneTrainingTimeout
  repeat' (first
    | with_reducible exact Kept.refl _ | with_reducible refine KeepsGoing.ite (fun _ => ?_) (fun _ => ?_)
    | with_reducible apply KeepsGoing.next | with_reducible apply Kept.trans _ (kept_advance ..)
    | with_reducible apply Kept.trans _ (kept_uaneDown ..))

theorem kept_execUaneLaneSwap (t : Nat) (port : Nat) (sending : Bool) (s : State) : KeepsGoing s (execUaneLaneSwap t port sending s) := by
  unfold execUaneLaneSwap
  repeat' (first
    | with_reducible exact Kept.refl _ | with_reducible refine KeepsGoing.ite (fun _ => ?_) (fun _ => ?_)
    | with_reducible apply KeepsGoing.next | with_reducible apply Kept.trans _ (kept_advance ..)
    | with_reducible apply Kept.trans _ (kept_uaneSwapTaken ..) | with_reducible apply Kept.trans _ (kept_uaneSwapSent ..)
    | with_reducible apply Kept.trans _ (kept_pumpSwaps ..) | with_reducible apply Kept.trans _ (kept_swapDone ..) | dsimp only
    | split)

theorem kept_execUaneFramingLost (t : Nat) (port : Nat) (s : State) : KeepsGoing s (execUaneFramingLost t port s) := by
  unfold execUaneFramingLost
  repeat' (first
    | with_reducible exact Kept.refl _ | with_reducible apply KeepsGoing.next
    | with_reducible apply Kept.trans _ (kept_modUport ..) | with_reducible apply Kept.trans _ (kept_advance ..))

theorem kept_execUaneFrameForward (t : Nat) (port : Nat) (frame : Bytes) (tenths : Nat) (named : Bool) (s : State) : KeepsGoing s (execUaneFrameForward t port frame tenths named s) := by
  unfold execUaneFrameForward
  repeat' (first
    | with_reducible exact Kept.refl _ | with_reducible refine KeepsGoing.ite (fun _ => ?_) (fun _ => ?_)
    | with_reducible apply KeepsGoing.next | with_reducible apply Kept.trans _ (kept_advance ..)
    | with_reducible apply Kept.trans _ (kept_recvFrame ..) | with_reducible apply Kept.trans _ (kept_uaneFlush ..))

theorem kept_execTopo (t : Nat) (src : Nat) (payload : Bytes) (s : State) : KeepsGoing s (execTopo t src payload s) := by
  unfold execTopo
  repeat' (first
    | with_reducible exact Kept.refl _ | with_reducible refine KeepsGoing.ite (fun _ => ?_) (fun _ => ?_)
    | with_reducible apply KeepsGoing.next | with_reducible apply Kept.trans _ (kept_advance ..)
    | with_reducible apply Kept.trans _ (kept_topoFrame ..))

theorem kept_execTopoSend (t : Nat) (s : State) : KeepsGoing s (execTopoSend t s) := by
  unfold execTopoSend
  repeat' (first
    | with_reducible exact Kept.refl _ | with_reducible refine Kept.ite (fun _ => ?_) (fun _ => ?_)
    | with_reducible refine KeepsGoing.ite (fun _ => ?_) (fun _ => ?_) | with_reducible apply KeepsGoing.next
    | with_reducible apply Kept.trans _ (kept_advance ..) | with_reducible apply Kept.trans _ (kept_uaneSend ..)
    | with_reducible apply Kept.trans _ (kept_sweepReturned ..) | with_reducible apply Kept.trans _ (kept_recompute ..)
    | with_reducible apply Kept.trans _ (kept_updateMaster ..))

theorem kept_execTopoStale (t : Nat) (s : State) : KeepsGoing s (execTopoStale t s) := by
  unfold execTopoStale
  repeat' (first
    | with_reducible exact Kept.refl _ | with_reducible refine Kept.ite (fun _ => ?_) (fun _ => ?_)
    | with_reducible apply KeepsGoing.next | with_reducible apply Kept.trans _ (kept_advance ..)
    | with_reducible apply Kept.trans _ (kept_modUane ..) | with_reducible apply Kept.trans _ (kept_recompute ..))

theorem kept_execUaneTime (t : Nat) (port : Nat) (payload : Bytes) (tenths : Nat) (s : State) : KeepsGoing s (execUaneTime t port payload tenths s) := by
  unfold execUaneTime
  repeat' (first
    | with_reducible exact Kept.refl _ | with_reducible refine KeepsGoing.ite (fun _ => ?_) (fun _ => ?_)
    | with_reducible apply KeepsGoing.next | with_reducible apply Kept.trans _ (kept_advance ..)
    | with_reducible apply Kept.trans _ (kept_takeTime ..))

theorem kept_execTimeSend (t : Nat) (s : State) : KeepsGoing s (execTimeSend t s) := by
  unfold execTimeSend
  repeat' (first
    | with_reducible exact Kept.refl _ | with_reducible refine Kept.ite (fun _ => ?_) (fun _ => ?_)
    | with_reducible apply KeepsGoing.next | with_reducible apply Kept.trans _ (kept_uaneSend ..)
    | with_reducible apply Kept.trans _ (kept_advance ..) | with_reducible refine Kept.trans ?_ (Kept.foldl ?_ _ _) | intro _)

theorem kept_execPtpMessage (t : Nat) (msg : PtpMsg) (s : State) : KeepsGoing s (execPtpMessage t msg s) := by
  unfold execPtpMessage
  repeat' (first
    | with_reducible exact Kept.refl _ | with_reducible refine KeepsGoing.ite (fun _ => ?_) (fun _ => ?_)
    | with_reducible apply KeepsGoing.next | with_reducible apply Kept.trans _ (kept_advance ..)
    | with_reducible apply Kept.trans _ (kept_takePtp ..))

theorem kept_execPpsEdge (t : Nat) (rises : Bool) (s : State) : KeepsGoing s (execPpsEdge t rises s) := by
  unfold execPpsEdge
  repeat' (first
    | with_reducible exact Kept.refl _ | with_reducible refine KeepsGoing.ite (fun _ => ?_) (fun _ => ?_)
    | with_reducible apply KeepsGoing.next | with_reducible apply Kept.trans _ (kept_advance ..)
    | with_reducible apply Kept.trans _ (kept_emit ..))

theorem kept_execPixel (t : Nat) (src : Nat) (spec : Bytes) (payload : Bytes) (s : State) : KeepsGoing s (execPixel t src spec payload s) := by
  unfold execPixel
  repeat' (first
    | with_reducible exact Kept.refl _ | with_reducible apply KeepsGoing.next
    | with_reducible apply Kept.trans _ (kept_takePixel ..) | with_reducible apply Kept.trans _ (kept_advance ..))

theorem kept_execPixelEnd (t : Nat) (src : Nat) (spec : Bytes) (payload : Bytes) (s : State) : KeepsGoing s (execPixelEnd t src spec payload s) := by
  unfold execPixelEnd
  repeat' (first
    | with_reducible exact Kept.refl _ | with_reducible apply KeepsGoing.next
    | with_reducible apply Kept.trans _ (kept_takePixelEnd ..) | with_reducible apply Kept.trans _ (kept_advance ..))

theorem kept_execTransitLineSend (t : Nat) (stream : Nat) (line : Nat) (s : State) : KeepsGoing s (execTransitLineSend t stream line s) := by
  unfold execTransitLineSend
  repeat' (first
    | with_reducible exact Kept.refl _ | with_reducible apply KeepsGoing.next
    | with_reducible apply Kept.trans _ (kept_streamSend ..) | with_reducible apply Kept.trans _ (kept_advance ..))

theorem kept_execTransitEndTimeout (t : Nat) (layer : Nat) (s : State) : KeepsGoing s (execTransitEndTimeout t layer s) := by
  unfold execTransitEndTimeout
  repeat' (first
    | with_reducible exact Kept.refl _ | with_reducible refine KeepsGoing.ite (fun _ => ?_) (fun _ => ?_)
    | with_reducible apply KeepsGoing.next | with_reducible apply Kept.trans _ (kept_advance ..)
    | with_reducible apply Kept.trans _ (kept_raise ..) | with_reducible apply Kept.trans _ (kept_modRx ..)
    | with_reducible apply Kept.trans _ (kept_discardWriting ..))

theorem kept_execMgmt (t : Nat) (port : Nat) (src : Nat) (spec : Bytes) (payload : Bytes) (s : State) : KeepsGoing s (execMgmt t port src spec payload s) := by
  unfold execMgmt
  repeat' (first
    | with_reducible exact Kept.refl _ | with_reducible apply KeepsGoing.next
    | with_reducible apply Kept.trans _ (kept_takeMgmt ..) | with_reducible apply Kept.trans _ (kept_advance ..))

theorem kept_execVoteReport (t : Nat) (report : Bytes) (s : State) : KeepsGoing s (execVoteReport t report s) := by
  unfold execVoteReport
  repeat' (first
    | with_reducible exact Kept.refl _ | with_reducible refine KeepsGoing.ite (fun _ => ?_) (fun _ => ?_)
    | with_reducible apply KeepsGoing.next | with_reducible apply Kept.trans _ (kept_advance ..)
    | with_reducible apply Kept.trans _ (kept_takeReport ..))

theorem kept_execAgreement (t : Nat) (agreement : Bytes) (s : State) : KeepsGoing s (execAgreement t agreement s) := by
  unfold execAgreement
  repeat' (first
    | with_reducible exact Kept.refl _ | with_reducible apply KeepsGoing.next
    | with_reducible apply Kept.trans _ (kept_takeAgreement ..) | with_reducible apply Kept.trans _ (kept_advance ..))

theorem kept_execAgreementIssue (t : Nat) (s : State) : KeepsGoing s (execAgreementIssue t s) := by
  unfold execAgreementIssue
  repeat' (first
    | with_reducible exact Kept.refl _ | with_reducible refine KeepsGoing.ite (fun _ => ?_) (fun _ => ?_)
    | with_reducible apply KeepsGoing.next | with_reducible apply Kept.trans _ (kept_advance ..)
    | with_reducible apply Kept.trans _ (kept_issueAgreements ..))

theorem kept_execAgreementRepeat (t : Nat) (s : State) : KeepsGoing s (execAgreementRepeat t s) := by
  unfold execAgreementRepeat
  repeat' (first
    | with_reducible exact Kept.refl _ | with_reducible refine KeepsGoing.ite (fun _ => ?_) (fun _ => ?_)
    | with_reducible apply KeepsGoing.next | with_reducible apply Kept.trans _ (kept_advance ..)
    | with_reducible apply Kept.trans _ (kept_repeatAgreements ..))

theorem kept_execLease (t : Nat) (lease : Bytes) (s : State) : KeepsGoing s (execLease t lease s) := by
  unfold execLease
  repeat' (first
    | with_reducible exact Kept.refl _ | with_reducible apply KeepsGoing.next
    | with_reducible apply Kept.trans _ (kept_lease ..) | with_reducible apply Kept.trans _ (kept_advance ..))

theorem kept_execLeaseExpiry (t : Nat) (s : State) : KeepsGoing s (execLeaseExpiry t s) := by
  unfold execLeaseExpiry
  repeat' (first
    | with_reducible exact Kept.refl _ | with_reducible refine KeepsGoing.ite (fun _ => ?_) (fun _ => ?_)
    | with_reducible apply KeepsGoing.next | with_reducible apply Kept.trans _ (kept_advance ..)
    | with_reducible apply Kept.trans _ (kept_sendReports ..) | with_reducible apply Kept.trans _ (kept_checkTable ..)
    | with_reducible apply Kept.trans _ (kept_newTerm ..) | with_reducible apply Kept.trans _ (kept_takeRole ..))

theorem kept_execLumaReport (t : Nat) (node : Nat) (report : Bytes) (s : State) : KeepsGoing s (execLumaReport t node report s) := by
  unfold execLumaReport
  repeat' (first
    | with_reducible exact Kept.refl _ | with_reducible refine KeepsGoing.ite (fun _ => ?_) (fun _ => ?_)
    | with_reducible apply KeepsGoing.next | with_reducible apply Kept.trans _ (kept_advance ..)
    | with_reducible apply Kept.trans _ (kept_takeLuma ..))

theorem kept_execLumaSet (t : Nat) (set : Bytes) (s : State) : KeepsGoing s (execLumaSet t set s) := by
  unfold execLumaSet
  repeat' (first
    | with_reducible exact Kept.refl _ | with_reducible apply KeepsGoing.next
    | with_reducible apply Kept.trans _ (kept_takeSet ..) | with_reducible apply Kept.trans _ (kept_advance ..))

theorem kept_execLumaSetRepeat (t : Nat) (s : State) : KeepsGoing s (execLumaSetRepeat t s) := by
  unfold execLumaSetRepeat
  repeat' (first
    | with_reducible exact Kept.refl _ | with_reducible refine KeepsGoing.ite (fun _ => ?_) (fun _ => ?_)
    | with_reducible apply KeepsGoing.next | with_reducible apply Kept.trans _ (kept_advance ..)
    | with_reducible apply Kept.trans _ (kept_takeSet ..) | with_reducible apply Kept.trans _ (kept_uaneSend ..)
    | with_reducible apply Kept.trans _ (kept_modCoh ..) | dsimp only | split)

end Sys2Proof.Machine
end

