-- ==== Sys2Proof/Laws/KeptRows.lean ====
section
/-! SUPPORT. Every operation stays within the bounds of Safety.lean: the rows of the table that follow. -/

namespace Sys2Proof.Machine

/-! ## Machine/Boundary.lean -/

theorem kept_putPlanes (f : Nat) (s : State) : Kept s (State.putPlanes f s) := by
  unfold State.putPlanes
  repeat' (first
    | with_reducible exact Kept.refl _ | with_reducible refine Kept.ite (fun _ => ?_) (fun _ => ?_)
    | with_reducible apply Kept.trans _ (kept_modPlArray ..) | with_reducible refine Kept.trans ?_ (Kept.foldl ?_ _ _)
    | intro _)

theorem kept_putClips (s : State) : Kept s (State.putClips s) := by
  unfold State.putClips
  repeat' (first
    | with_reducible exact Kept.refl _ | with_reducible refine Kept.ite (fun _ => ?_) (fun _ => ?_)
    | with_reducible apply Kept.trans _ (kept_clipReport ..) | with_reducible refine Kept.trans ?_ (Kept.foldl ?_ _ _)
    | intro _)

theorem kept_putSchedule (f : Nat) (period : Nat) (s : State) (g : Nat) : Kept s (State.putSchedule f period s g) := by
  unfold State.putSchedule
  repeat' (first
    | with_reducible exact Kept.refl _ | with_reducible refine Kept.ite (fun _ => ?_) (fun _ => ?_)
    | with_reducible apply Kept.trans _ (kept_modPlGroup ..) | with_reducible apply Kept.trans _ (kept_fallback ..)
    | with_reducible apply Kept.trans _ (kept_runsSched ..) | with_reducible apply Kept.trans _ (kept_modLoop ..) | split)

theorem kept_putMatrix (s : State) (g : Nat) : Kept s (State.putMatrix s g) := by
  unfold State.putMatrix
  repeat' (first
    | with_reducible exact Kept.refl _ | with_reducible apply Kept.trans _ (kept_modCGroup ..))

theorem kept_putFrame (f : Nat) (period : Nat) (s : State) : Kept s (State.putFrame f period s) := by
  unfold State.putFrame
  repeat' (first
    | with_reducible exact Kept.refl _ | with_reducible apply Kept.trans _ (kept_putMatrix ..)
    | with_reducible apply Kept.trans _ (kept_putSchedule ..) | with_reducible apply Kept.trans _ (kept_putClips ..)
    | with_reducible apply Kept.trans _ (kept_putPlanes ..) | with_reducible refine Kept.trans ?_ (Kept.foldl ?_ _ _) | intro _)

theorem kept_putNothing (s : State) : Kept s (State.putNothing s) := by
  unfold State.putNothing
  repeat' (first
    | with_reducible exact Kept.refl _ | with_reducible apply Kept.trans _ (kept_modPlgn ..))

theorem kept_countTo (f : Nat) (s : State) : Kept s (State.countTo f s) := by
  unfold State.countTo
  repeat' (first
    | with_reducible exact Kept.refl _ | with_reducible apply Kept.trans _ (kept_modSeqr ..))

theorem kept_flip (f : Nat) (time : Int) (late : Int) (s : State) : Kept s (State.flip f time late s) := by
  unfold State.flip
  repeat' (first
    | with_reducible exact Kept.refl _ | with_reducible refine Kept.ite (fun _ => ?_) (fun _ => ?_)
    | with_reducible apply Kept.trans _ (kept_raiseAll ..) | with_reducible apply Kept.trans _ (kept_modSeqr ..))

theorem kept_setQuiet (f : Nat) (g : Nat) (q : Bool) (s : State) : Kept s (State.setQuiet f g q s) := by
  unfold State.setQuiet
  repeat' (first
    | with_reducible exact Kept.refl _ | with_reducible refine Kept.ite (fun _ => ?_) (fun _ => ?_)
    | with_reducible apply Kept.trans _ (kept_modPlaz ..) | with_reducible apply Kept.trans _ (kept_raise ..)
    | with_reducible apply Kept.trans _ (kept_sigFinal ..) | with_reducible refine Kept.trans ?_ (Kept.foldl ?_ _ _) | intro _)

theorem kept_startCompile (f : Nat) (g : Nat) (s : State) : Kept s (State.startCompile f g s) := by
  unfold State.startCompile
  repeat' (first
    | with_reducible exact Kept.refl _ | with_reducible refine Kept.ite (fun _ => ?_) (fun _ => ?_)
    | with_reducible apply Kept.trans _ (kept_modPlGroup ..))

theorem kept_takeCompiler (s : State) : Kept s (State.takeCompiler s) := by
  unfold State.takeCompiler
  repeat' (first
    | with_reducible exact Kept.refl _ | with_reducible apply Kept.trans _ (kept_compilerLease ..)
    | with_reducible apply Kept.trans _ (kept_dropLease ..))

theorem kept_compose (f : Nat) (touched : Nat) (was : Bool) (s : State) : Kept s (State.compose f touched was s) := by
  unfold State.compose
  extract_lets before s1 s2 s3
  have k1 : Kept s s1 := by
    refine Kept.trans (Kept.trans (kept_sigHatch s) (kept_modHbm (fun _ h => ?_) _)) (kept_curgDecide ..)
    exact h
  have k2 : Kept s1 s2 := Kept.foldl (fun _ _ => kept_colrDecide ..) _ _
  have k3 : Kept s2 s3 := Kept.foldl (fun _ _ => kept_setQuiet ..) _ _
  clear_value s1 s2 s3
  exact Kept.trans (Kept.trans (Kept.trans (Kept.trans k1 k2) k3) (Kept.foldl (fun _ _ => kept_startCompile ..) _ _)) (kept_takeCompiler _)

theorem kept_composeNothing (f : Nat) (s : State) : Kept s (State.composeNothing f s) := by
  unfold State.composeNothing
  repeat' (first
    | with_reducible exact Kept.refl _ | with_reducible apply Kept.trans _ (kept_takeCompiler ..)
    | with_reducible apply Kept.trans _ (kept_modPlGroup ..) | with_reducible apply Kept.trans _ (kept_setQuiet ..)
    | with_reducible refine Kept.trans ?_ (Kept.foldl ?_ _ _) | intro _)

theorem kept_sendLuma (s : State) : Kept s (State.sendLuma s) := by
  unfold State.sendLuma
  repeat' (first
    | with_reducible exact Kept.refl _ | with_reducible refine Kept.ite (fun _ => ?_) (fun _ => ?_)
    | with_reducible apply Kept.trans _ (kept_takeLuma ..) | with_reducible apply Kept.trans _ (kept_uaneSend ..))

theorem kept_driveArrays (f : Nat) (s : State) : Kept s (State.driveArrays f s) := by
  unfold State.driveArrays
  repeat' (first
    | with_reducible exact Kept.refl _ | with_reducible apply Kept.trans _ (kept_driveArray ..)
    | with_reducible refine Kept.trans ?_ (Kept.foldl ?_ _ _) | intro _)

theorem kept_boundary (late : Int) (mismatch : Bool) (s : State) : Kept s (State.boundary late mismatch s) := by
  unfold State.boundary
  repeat' (first
    | with_reducible exact Kept.refl _ | with_reducible refine Kept.ite (fun _ => ?_) (fun _ => ?_)
    | with_reducible apply Kept.trans _ (kept_putFrame ..) | with_reducible apply Kept.trans _ (kept_sigMissing ..)
    | with_reducible apply Kept.trans _ (kept_putNothing ..) | with_reducible apply Kept.trans _ (kept_countWhere ..)
    | with_reducible apply Kept.trans _ (kept_fsyncPulse ..) | with_reducible apply Kept.trans _ (kept_countTo ..)
    | with_reducible apply Kept.trans _ (kept_transBoundary ..) | with_reducible apply Kept.trans _ (kept_commitBoundary ..)
    | with_reducible apply Kept.trans _ (kept_flip ..) | with_reducible apply Kept.trans _ (kept_stageBoundary ..)
    | with_reducible apply Kept.trans _ (kept_rampBoundary ..) | with_reducible apply Kept.trans _ (kept_engineBoundary ..)
    | with_reducible apply Kept.trans _ (kept_pumpSwaps ..) | with_reducible apply Kept.trans _ (kept_engineCheck ..)
    | with_reducible apply Kept.trans _ (kept_throttleBoundary ..) | with_reducible apply Kept.trans _ (kept_loopBoundary ..)
    | with_reducible apply Kept.trans _ (kept_applySet ..) | with_reducible apply Kept.trans _ (kept_liftWheel ..)
    | with_reducible apply Kept.trans _ (kept_wheelBoundary ..) | with_reducible apply Kept.trans _ (kept_driveArrays ..)
    | with_reducible apply Kept.trans _ (kept_sweepBoundary ..) | with_reducible apply Kept.trans _ (kept_leaseBoundary ..)
    | with_reducible apply Kept.trans _ (kept_heldBoundary ..) | with_reducible apply Kept.trans _ (kept_observeLayers ..)
    | with_reducible apply Kept.trans _ (kept_compose ..) | with_reducible apply Kept.trans _ (kept_composeNothing ..)
    | with_reducible apply Kept.trans _ (kept_pump ..) | with_reducible apply Kept.trans _ (kept_rampDownBoundary ..)
    | with_reducible apply Kept.trans _ (kept_judgeService ..) | with_reducible apply Kept.trans _ (kept_wallTarget ..)
    | with_reducible apply Kept.trans _ (kept_sendLuma ..) | with_reducible apply Kept.trans _ (kept_sendReports ..)
    | with_reducible refine Kept.trans ?_ (Kept.foldl ?_ _ _) | intro _)

theorem kept_execFrameBoundary (t : Nat) (late : Int) (mismatch : Bool) (s : State) : KeepsGoing s (execFrameBoundary t late mismatch s) := by
  unfold execFrameBoundary
  repeat' (first
    | with_reducible exact Kept.refl _ | with_reducible refine KeepsGoing.ite (fun _ => ?_) (fun _ => ?_)
    | with_reducible apply KeepsGoing.next | with_reducible apply Kept.trans _ (kept_advance ..)
    | with_reducible apply Kept.trans _ (kept_boundary ..) | with_reducible apply Kept.trans _ (kept_compose ..)
    | with_reducible apply Kept.trans _ (kept_modSeqr ..))

theorem kept_execSignatureFinal (t : Nat) (region : Nat) (s : State) : KeepsGoing s (execSignatureFinal t region s) := by
  unfold execSignatureFinal
  repeat' (first
    | with_reducible exact Kept.refl _ | with_reducible refine KeepsGoing.ite (fun _ => ?_) (fun _ => ?_)
    | with_reducible apply KeepsGoing.next | with_reducible apply Kept.trans _ (kept_advance ..)
    | with_reducible apply Kept.trans _ (kept_sigFinal ..))

theorem kept_execVersionComplete (t : Nat) (layer : Nat) (s : State) : KeepsGoing s (execVersionComplete t layer s) := by
  unfold execVersionComplete
  repeat' (first
    | with_reducible exact Kept.refl _ | with_reducible refine KeepsGoing.ite (fun _ => ?_) (fun _ => ?_)
    | with_reducible apply KeepsGoing.next | with_reducible apply Kept.trans _ (kept_advance ..)
    | with_reducible apply Kept.trans _ (kept_takeAfter ..) | with_reducible apply Kept.trans _ (kept_versionNotice ..)
    | with_reducible apply Kept.trans _ (kept_ingestComplete ..) | dsimp only | split)

theorem kept_clientFailed (port : Nat) (w : Nat) (write : Bool) (s : State) : Kept s (State.clientFailed port w write s) := by
  unfold State.clientFailed
  repeat' (first
    | with_reducible exact Kept.refl _ | with_reducible refine Kept.ite (fun _ => ?_) (fun _ => ?_)
    | with_reducible refine Kept.trans ?_ (kept_modHbm ?_ _) | with_reducible apply Kept.trans _ (kept_modPlArray ..)
    | with_reducible apply Kept.trans _ (kept_findRuns ..) | with_reducible apply Kept.trans _ (kept_modRx ..)
    | with_reducible apply Kept.trans _ (kept_dropFrame ..) | with_reducible apply Kept.trans _ (kept_discardWriting ..)
    | with_reducible apply Kept.trans _ (kept_discardFinishing ..) | with_reducible refine Kept.trans ?_ (Kept.foldl ?_ _ _)
    | exact (fun _ h => h) | intro _ | dsimp only | split)

theorem kept_execHbmReadReturn (t : Nat) (port : Nat) (severity : Nat) (io : HbmTraffic) (s : State) : KeepsGoing s (execHbmReadReturn t port severity io s) := by
  unfold execHbmReadReturn
  repeat' (first
    | with_reducible exact Kept.refl _ | with_reducible refine Kept.ite (fun _ => ?_) (fun _ => ?_)
    | with_reducible refine KeepsGoing.ite (fun _ => ?_) (fun _ => ?_) | with_reducible apply KeepsGoing.next
    | with_reducible apply Kept.trans _ (kept_advance ..) | with_reducible apply Kept.trans _ (kept_hbmTraffic ..)
    | with_reducible apply Kept.trans _ (kept_clientFailed ..) | with_reducible apply Kept.trans _ (kept_portLevels ..)
    | with_reducible apply Kept.trans _ (kept_hbmSeverity ..) | with_reducible refine Kept.trans ?_ (kept_modHbm ?_ _)
    | with_reducible refine Kept.trans ?_ (Kept.foldl ?_ _ _) | exact (fun _ h => h) | intro _ | dsimp only | split)

theorem kept_execHbmcReqTimeout (t : Nat) (port : Nat) (chan : Nat) (s : State) : KeepsGoing s (execHbmcReqTimeout t port chan s) := by
  unfold execHbmcReqTimeout
  refine KeepsGoing.trans (kept_advance t s) ?_
  generalize s.advance t = s
  dsimp only
  split
  · exact KeepsGoing.next (Kept.refl _)
  · rename_i i e
    refine KeepsGoing.next (Kept.trans (Kept.trans (Kept.trans (kept_modHbm (fun _ h => ?_) s) (kept_clientFailed ..))
      (kept_hbmTimeout ..)) (kept_portLevels _))
    exact h

/-! ## Machine/Manage.lean -/

theorem kept_opRow (sid : Nat) (o : GOp) (s : State) : Kept s (State.opRow sid o s) := by
  unfold State.opRow
  repeat' (first
    | with_reducible exact Kept.refl _ | with_reducible refine Kept.ite (fun _ => ?_) (fun _ => ?_)
    | with_reducible apply Kept.trans _ (kept_opExec ..) | with_reducible apply Kept.trans _ (kept_emit ..)
    | with_reducible apply Kept.trans _ (kept_modSession ..) | with_reducible apply Kept.trans _ (kept_endSession ..)
    | dsimp only | split)

theorem kept_writeRow (sid : Nat) (obj : Nat) (sub : Nat) (w : Nat) (v : Nat) (s : State) : Kept s (State.writeRow sid obj sub w v s) := by
  unfold State.writeRow
  repeat' (first
    | with_reducible exact Kept.refl _ | with_reducible apply Kept.trans _ (kept_opRow ..))

theorem kept_blobRow (sid : Nat) (obj : Nat) (sub : Nat) (b : Bytes) (s : State) : Kept s (State.blobRow sid obj sub b s) := by
  unfold State.blobRow
  repeat' (first
    | with_reducible exact Kept.refl _ | with_reducible apply Kept.trans _ (kept_opRow ..))

theorem kept_execRead (t : Nat) (sid : Nat) (obj : Nat) (sub : Nat) (count : Nat) (shadow : Bool) (s : State) : KeepsGoing s (execRead t sid obj sub count shadow s) := by
  unfold execRead
  repeat' (first
    | with_reducible exact Kept.refl _ | with_reducible apply KeepsGoing.next
    | with_reducible apply Kept.trans _ (kept_opRow ..) | with_reducible apply Kept.trans _ (kept_advance ..))

theorem kept_execWrite (t : Nat) (sid : Nat) (obj : Nat) (sub : Nat) (count : Nat) (data : Bytes) (s : State) : KeepsGoing s (execWrite t sid obj sub count data s) := by
  unfold execWrite
  repeat' (first
    | with_reducible exact Kept.refl _ | with_reducible apply KeepsGoing.next
    | with_reducible apply Kept.trans _ (kept_opRow ..) | with_reducible apply Kept.trans _ (kept_advance ..))

theorem kept_execDescribe (t : Nat) (sid : Nat) (obj : Nat) (sub : Nat) (count : Nat) (s : State) : KeepsGoing s (execDescribe t sid obj sub count s) := by
  unfold execDescribe
  repeat' (first
    | with_reducible exact Kept.refl _ | with_reducible apply KeepsGoing.next
    | with_reducible apply Kept.trans _ (kept_opRow ..) | with_reducible apply Kept.trans _ (kept_advance ..))

theorem kept_execBlobRead (t : Nat) (sid : Nat) (obj : Nat) (sub : Nat) (offset : Nat) (length : Nat) (s : State) : KeepsGoing s (execBlobRead t sid obj sub offset length s) := by
  unfold execBlobRead
  repeat' (first
    | with_reducible exact Kept.refl _ | with_reducible apply KeepsGoing.next
    | with_reducible apply Kept.trans _ (kept_opRow ..) | with_reducible apply Kept.trans _ (kept_advance ..))

theorem kept_execBlobWrite (t : Nat) (sid : Nat) (obj : Nat) (sub : Nat) (offset : Nat) (chunk : Bytes) (last : Bool) (crc : Nat) (s : State) : KeepsGoing s (execBlobWrite t sid obj sub offset chunk last crc s) := by
  unfold execBlobWrite
  repeat' (first
    | with_reducible exact Kept.refl _ | with_reducible apply KeepsGoing.next
    | with_reducible apply Kept.trans _ (kept_opRow ..) | with_reducible apply Kept.trans _ (kept_advance ..))

theorem kept_execLogRead (t : Nat) (sid : Nat) (start : Nat) (count : Nat) (s : State) : KeepsGoing s (execLogRead t sid start count s) := by
  unfold execLogRead
  repeat' (first
    | with_reducible exact Kept.refl _ | with_reducible apply KeepsGoing.next
    | with_reducible apply Kept.trans _ (kept_opRow ..) | with_reducible apply Kept.trans _ (kept_advance ..))

theorem kept_execSubscribe (t : Nat) (sid : Nat) (mask : Bytes) (s : State) : KeepsGoing s (execSubscribe t sid mask s) := by
  unfold execSubscribe
  repeat' (first
    | with_reducible exact Kept.refl _ | with_reducible apply KeepsGoing.next
    | with_reducible apply Kept.trans _ (kept_opRow ..) | with_reducible apply Kept.trans _ (kept_advance ..))

theorem kept_execNop (t : Nat) (sid : Nat) (s : State) : KeepsGoing s (execNop t sid s) := by
  unfold execNop
  repeat' (first
    | with_reducible exact Kept.refl _ | with_reducible apply KeepsGoing.next
    | with_reducible apply Kept.trans _ (kept_opRow ..) | with_reducible apply Kept.trans _ (kept_advance ..))

theorem kept_execSessionOpen (t : Nat) (tr : Transport) (addr : Nat) (role : Nat) (resume : Nat) (nonce : Bytes) (s : State) : KeepsGoing s (execSessionOpen t tr addr role resume nonce s) := by
  unfold execSessionOpen
  repeat' (first
    | with_reducible exact Kept.refl _ | with_reducible refine KeepsGoing.ite (fun _ => ?_) (fun _ => ?_)
    | with_reducible apply KeepsGoing.next | with_reducible apply Kept.trans _ (kept_advance ..)
    | with_reducible apply Kept.trans _ (kept_sessionOpen ..) | with_reducible apply Kept.trans _ (kept_emit ..))

theorem kept_execSessionClose (t : Nat) (sid : Nat) (s : State) : KeepsGoing s (execSessionClose t sid s) := by
  unfold execSessionClose
  repeat' (first
    | with_reducible exact Kept.refl _ | with_reducible apply KeepsGoing.next
    | with_reducible apply Kept.trans _ (kept_opRow ..) | with_reducible apply Kept.trans _ (kept_advance ..))

theorem kept_execPendingSessionTimeout (t : Nat) (sid : Nat) (s : State) : KeepsGoing s (execPendingSessionTimeout t sid s) := by
  have drop : ∀ s : State, Kept s (s.modGysol fun g => { g with sessions := g.sessions.filter fun y => y.id != sid }) :=
    fun s => kept_modGysol (f := fun g => { g with sessions := g.sessions.filter fun y => y.id != sid })
      (fun g h => ⟨(List.length_filter_le _ _).trans h.1, h.2⟩) s
  unfold execPendingSessionTimeout
  refine KeepsGoing.trans (kept_advance t s) ?_
  generalize s.advance t = s
  dsimp only
  split
  · exact KeepsGoing.next (Kept.refl _)
  · refine KeepsGoing.ite (fun _ => ?_) (fun _ => KeepsGoing.ite (fun _ => ?_) (fun _ => ?_))
    · split
      · exact KeepsGoing.ite (fun _ => KeepsGoing.next (drop s)) (fun _ => KeepsGoing.next (kept_modSession _ _ _))
      · exact KeepsGoing.next (drop s)
    · exact KeepsGoing.next (kept_modSession _ _ _)
    · exact KeepsGoing.next (Kept.refl _)

theorem kept_execSessionTimeout (t : Nat) (sid : Nat) (s : State) : KeepsGoing s (execSessionTimeout t sid s) := by
  unfold execSessionTimeout
  repeat' (first
    | with_reducible exact Kept.refl _ | with_reducible refine KeepsGoing.ite (fun _ => ?_) (fun _ => ?_)
    | with_reducible apply KeepsGoing.next | with_reducible apply Kept.trans _ (kept_advance ..)
    | with_reducible apply Kept.trans _ (kept_endSession ..) | dsimp only | split)

theorem kept_execBlobStreamAbandon (t : Nat) (obj : Nat) (sub : Nat) (s : State) : KeepsGoing s (execBlobStreamAbandon t obj sub s) := by
  unfold execBlobStreamAbandon
  repeat' (first
    | with_reducible exact Kept.refl _ | with_reducible refine KeepsGoing.ite (fun _ => ?_) (fun _ => ?_)
    | with_reducible apply KeepsGoing.next | with_reducible apply Kept.trans _ (kept_advance ..)
    | with_reducible apply Kept.trans _ (kept_closeStream ..))

theorem kept_execEventPush (t : Nat) (sid : Nat) (s : State) : KeepsGoing s (execEventPush t sid s) := by
  unfold execEventPush
  refine KeepsGoing.trans (kept_advance t s) ?_
  generalize s.advance t = s
  refine KeepsGoing.ite (fun _ => KeepsGoing.ite (fun _ => ?_) (fun _ => KeepsGoing.next (Kept.refl _))) (fun _ => ?_)
  · refine KeepsGoing.next (Kept.trans (kept_modGysol (fun g h => ?_) _) (kept_gsend ..))
    exact h
  · split
    · exact KeepsGoing.next (Kept.refl _)
    · exact KeepsGoing.ite (fun _ => KeepsGoing.next (Kept.trans (kept_modSession ..) (kept_gsend ..)))
        (fun _ => KeepsGoing.next (Kept.refl _))

theorem kept_execGysolRequest (t : Nat) (tr : Transport) (addr : Nat) (port : Nat) (plain : Bool) (frame : Bytes) (wait : Bool) (s : State) : KeepsGoing s (execGysolRequest t tr addr port plain frame wait s) := by
  unfold execGysolRequest
  repeat' (first
    | with_reducible exact Kept.refl _ | with_reducible refine Kept.ite (fun _ => ?_) (fun _ => ?_)
    | with_reducible apply KeepsGoing.next | with_reducible apply Kept.trans _ (kept_advance ..)
    | with_reducible apply Kept.trans _ (kept_request ..))

theorem kept_execWriteFrame (t : Nat) (frame : Bytes) (whole : Bool) (wait : Bool) (s : State) : KeepsGoing s (execWriteFrame t frame whole wait s) := by
  unfold execWriteFrame
  repeat' (first
    | with_reducible exact Kept.refl _ | with_reducible refine KeepsGoing.ite (fun _ => ?_) (fun _ => ?_)
    | with_reducible apply KeepsGoing.next | with_reducible apply Kept.trans _ (kept_advance ..)
    | with_reducible refine Kept.trans ?_ (kept_modGysol ?_ _) | with_reducible apply Kept.trans _ (kept_request ..)
    | exact (fun _ h => h))

theorem kept_execReadStatus (t : Nat) (s : State) : KeepsGoing s (execReadStatus t s) := by
  unfold execReadStatus
  repeat' (first
    | with_reducible exact Kept.refl _ | with_reducible refine KeepsGoing.ite (fun _ => ?_) (fun _ => ?_)
    | with_reducible apply KeepsGoing.next | with_reducible apply Kept.trans _ (kept_advance ..)
    | with_reducible apply Kept.trans _ (kept_emit ..) | with_reducible refine Kept.trans ?_ (kept_modGysol ?_ _)
    | exact (fun _ h => h))

theorem kept_execReadFrame (t : Nat) (s : State) : KeepsGoing s (execReadFrame t s) := by
  unfold execReadFrame
  repeat' (first
    | with_reducible exact Kept.refl _ | with_reducible refine KeepsGoing.ite (fun _ => ?_) (fun _ => ?_)
    | with_reducible apply KeepsGoing.next | with_reducible apply Kept.trans _ (kept_advance ..)
    | with_reducible apply Kept.trans _ (kept_emit ..) | with_reducible refine Kept.trans ?_ (kept_modGysol ?_ _)
    | exact (fun _ h => h) | split)

theorem kept_execArpRequest (t : Nat) (ip : Nat) (asker : Nat) (s : State) : KeepsGoing s (execArpRequest t ip asker s) := by
  unfold execArpRequest
  repeat' (first
    | with_reducible exact Kept.refl _ | with_reducible refine Kept.ite (fun _ => ?_) (fun _ => ?_)
    | with_reducible apply KeepsGoing.next | with_reducible apply Kept.trans _ (kept_advance ..)
    | with_reducible apply Kept.trans _ (kept_emit ..))

theorem kept_execIcmpEcho (t : Nat) (ip : Nat) (asker : Nat) (plain : Bool) (data : Bytes) (s : State) : KeepsGoing s (execIcmpEcho t ip asker plain data s) := by
  unfold execIcmpEcho
  repeat' (first
    | with_reducible exact Kept.refl _ | with_reducible refine Kept.ite (fun _ => ?_) (fun _ => ?_)
    | with_reducible apply KeepsGoing.next | with_reducible apply Kept.trans _ (kept_advance ..)
    | with_reducible apply Kept.trans _ (kept_emit ..) | split)

theorem kept_execGatewayTagExpiry (t : Nat) (tag : Nat) (s : State) : KeepsGoing s (execGatewayTagExpiry t tag s) := by
  unfold execGatewayTagExpiry
  repeat' (first
    | with_reducible exact Kept.refl _ | with_reducible apply KeepsGoing.next
    | with_reducible apply Kept.trans _ (kept_advance ..) | with_reducible apply Kept.trans _ (kept_modUane ..))

theorem kept_execUnitCommand (t : Nat) (sid : Nat) (unit : Nat) (value : Nat) (s : State) : KeepsGoing s (execUnitCommand t sid unit value s) := by
  unfold execUnitCommand
  repeat' (first
    | with_reducible exact Kept.refl _ | with_reducible apply KeepsGoing.next
    | with_reducible apply Kept.trans _ (kept_writeRow ..) | with_reducible apply Kept.trans _ (kept_advance ..))

theorem kept_execUnitForce (t : Nat) (sid : Nat) (unit : Nat) (s : State) : KeepsGoing s (execUnitForce t sid unit s) := by
  unfold execUnitForce
  repeat' (first
    | with_reducible exact Kept.refl _ | with_reducible apply KeepsGoing.next
    | with_reducible apply Kept.trans _ (kept_writeRow ..) | with_reducible apply Kept.trans _ (kept_advance ..))

theorem kept_execMgmtUnitDisagree (t : Nat) (unit : Nat) (s : State) : KeepsGoing s (execMgmtUnitDisagree t unit s) := by
  unfold execMgmtUnitDisagree
  repeat' (first
    | with_reducible exact Kept.refl _ | with_reducible apply KeepsGoing.next
    | with_reducible apply Kept.trans _ (kept_disagreeEvent ..) | with_reducible apply Kept.trans _ (kept_advance ..))

theorem kept_execDisagreeAllowanceExpiry (t : Nat) (unit : Nat) (s : State) : KeepsGoing s (execDisagreeAllowanceExpiry t unit s) := by
  unfold execDisagreeAllowanceExpiry
  repeat' (first
    | with_reducible exact Kept.refl _ | with_reducible apply KeepsGoing.next
    | with_reducible apply Kept.trans _ (kept_advance ..) | with_reducible apply Kept.trans _ (kept_disagreeExpiry ..))

/-! ## Machine/Command.lean -/

theorem kept_execStateRequestMews (t : Nat) (sid : Nat) (s : State) : KeepsGoing s (execStateRequestMews t sid s) := by
  unfold execStateRequestMews
  repeat' (first
    | with_reducible exact Kept.refl _ | with_reducible apply KeepsGoing.next
    | with_reducible apply Kept.trans _ (kept_writeRow ..) | with_reducible apply Kept.trans _ (kept_advance ..))

theorem kept_execStateRequestStandby (t : Nat) (sid : Nat) (s : State) : KeepsGoing s (execStateRequestStandby t sid s) := by
  unfold execStateRequestStandby
  repeat' (first
    | with_reducible exact Kept.refl _ | with_reducible apply KeepsGoing.next
    | with_reducible apply Kept.trans _ (kept_writeRow ..) | with_reducible apply Kept.trans _ (kept_advance ..))

theorem kept_execStateRequestWarming (t : Nat) (sid : Nat) (s : State) : KeepsGoing s (execStateRequestWarming t sid s) := by
  unfold execStateRequestWarming
  repeat' (first
    | with_reducible exact Kept.refl _ | with_reducible apply KeepsGoing.next
    | with_reducible apply Kept.trans _ (kept_writeRow ..) | with_reducible apply Kept.trans _ (kept_advance ..))

theorem kept_execStateRequestSafe (t : Nat) (sid : Nat) (s : State) : KeepsGoing s (execStateRequestSafe t sid s) := by
  unfold execStateRequestSafe
  repeat' (first
    | with_reducible exact Kept.refl _ | with_reducible apply KeepsGoing.next
    | with_reducible apply Kept.trans _ (kept_writeRow ..) | with_reducible apply Kept.trans _ (kept_advance ..))

theorem kept_execResetCmd (t : Nat) (sid : Nat) (s : State) : KeepsGoing s (execResetCmd t sid s) := by
  unfold execResetCmd
  repeat' (first
    | with_reducible exact Kept.refl _ | with_reducible apply KeepsGoing.next
    | with_reducible apply Kept.trans _ (kept_writeRow ..) | with_reducible apply Kept.trans _ (kept_advance ..))

theorem kept_execProfileSave (t : Nat) (sid : Nat) (s : State) : KeepsGoing s (execProfileSave t sid s) := by
  unfold execProfileSave
  repeat' (first
    | with_reducible exact Kept.refl _ | with_reducible apply KeepsGoing.next
    | with_reducible apply Kept.trans _ (kept_writeRow ..) | with_reducible apply Kept.trans _ (kept_advance ..))

theorem kept_execProfileErase (t : Nat) (sid : Nat) (s : State) : KeepsGoing s (execProfileErase t sid s) := by
  unfold execProfileErase
  repeat' (first
    | with_reducible exact Kept.refl _ | with_reducible apply KeepsGoing.next
    | with_reducible apply Kept.trans _ (kept_writeRow ..) | with_reducible apply Kept.trans _ (kept_advance ..))

theorem kept_execStageDiscard (t : Nat) (sid : Nat) (s : State) : KeepsGoing s (execStageDiscard t sid s) := by
  unfold execStageDiscard
  repeat' (first
    | with_reducible exact Kept.refl _ | with_reducible apply KeepsGoing.next
    | with_reducible apply Kept.trans _ (kept_writeRow ..) | with_reducible apply Kept.trans _ (kept_advance ..))

theorem kept_execRoleKeyWrite (t : Nat) (sid : Nat) (role : Nat) (key : Bytes) (s : State) : KeepsGoing s (execRoleKeyWrite t sid role key s) := by
  unfold execRoleKeyWrite
  repeat' (first
    | with_reducible exact Kept.refl _ | with_reducible apply KeepsGoing.next
    | with_reducible apply Kept.trans _ (kept_blobRow ..) | with_reducible apply Kept.trans _ (kept_advance ..))

theorem kept_execCommit (t : Nat) (sid : Nat) (s : State) : KeepsGoing s (execCommit t sid s) := by
  unfold execCommit
  repeat' (first
    | with_reducible exact Kept.refl _ | with_reducible apply KeepsGoing.next
    | with_reducible apply Kept.trans _ (kept_writeRow ..) | with_reducible apply Kept.trans _ (kept_advance ..))

theorem kept_execFwImageWrite (t : Nat) (sid : Nat) (image : Bytes) (s : State) : KeepsGoing s (execFwImageWrite t sid image s) := by
  unfold execFwImageWrite
  repeat' (first
    | with_reducible exact Kept.refl _ | with_reducible apply KeepsGoing.next
    | with_reducible apply Kept.trans _ (kept_blobRow ..) | with_reducible apply Kept.trans _ (kept_advance ..))

theorem kept_execHbmTrainFull (t : Nat) (sid : Nat) (s : State) : KeepsGoing s (execHbmTrainFull t sid s) := by
  unfold execHbmTrainFull
  repeat' (first
    | with_reducible exact Kept.refl _ | with_reducible apply KeepsGoing.next
    | with_reducible apply Kept.trans _ (kept_writeRow ..) | with_reducible apply Kept.trans _ (kept_advance ..))

theorem kept_execHbmTrainQuick (t : Nat) (sid : Nat) (s : State) : KeepsGoing s (execHbmTrainQuick t sid s) := by
  unfold execHbmTrainQuick
  repeat' (first
    | with_reducible exact Kept.refl _ | with_reducible apply KeepsGoing.next
    | with_reducible apply Kept.trans _ (kept_writeRow ..) | with_reducible apply Kept.trans _ (kept_advance ..))

theorem kept_execArrayRegAccessRead (t : Nat) (sid : Nat) (ap : Nat) (addr : Nat) (s : State) : KeepsGoing s (execArrayRegAccessRead t sid ap addr s) := by
  unfold execArrayRegAccessRead
  repeat' (first
    | with_reducible exact Kept.refl _ | with_reducible apply KeepsGoing.next
    | with_reducible apply Kept.trans _ (kept_writeRow ..) | with_reducible apply Kept.trans _ (kept_advance ..))

theorem kept_execArrayRegAccessWrite (t : Nat) (sid : Nat) (ap : Nat) (addr : Nat) (data : Nat) (s : State) : KeepsGoing s (execArrayRegAccessWrite t sid ap addr data s) := by
  unfold execArrayRegAccessWrite
  repeat' (first
    | with_reducible exact Kept.refl _ | with_reducible apply KeepsGoing.next
    | with_reducible apply Kept.trans _ (kept_writeRow ..) | with_reducible apply Kept.trans _ (kept_advance ..))

theorem kept_execLampRegAccessRead (t : Nat) (sid : Nat) (driver : Nat) (addr : Nat) (s : State) : KeepsGoing s (execLampRegAccessRead t sid driver addr s) := by
  unfold execLampRegAccessRead
  repeat' (first
    | with_reducible exact Kept.refl _ | with_reducible apply KeepsGoing.next
    | with_reducible apply Kept.trans _ (kept_writeRow ..) | with_reducible apply Kept.trans _ (kept_advance ..))

theorem kept_execLampRegAccessWrite (t : Nat) (sid : Nat) (driver : Nat) (addr : Nat) (data : Nat) (s : State) : KeepsGoing s (execLampRegAccessWrite t sid driver addr data s) := by
  unfold execLampRegAccessWrite
  repeat' (first
    | with_reducible exact Kept.refl _ | with_reducible apply KeepsGoing.next
    | with_reducible apply Kept.trans _ (kept_writeRow ..) | with_reducible apply Kept.trans _ (kept_advance ..))

theorem kept_execArcdLaneSwapCmd (t : Nat) (sid : Nat) (ap : Nat) (lane : Nat) (s : State) : KeepsGoing s (execArcdLaneSwapCmd t sid ap lane s) := by
  unfold execArcdLaneSwapCmd
  repeat' (first
    | with_reducible exact Kept.refl _ | with_reducible apply KeepsGoing.next
    | with_reducible apply Kept.trans _ (kept_writeRow ..) | with_reducible apply Kept.trans _ (kept_advance ..))

theorem kept_execRepClear (t : Nat) (sid : Nat) (band : Nat) (s : State) : KeepsGoing s (execRepClear t sid band s) := by
  unfold execRepClear
  repeat' (first
    | with_reducible exact Kept.refl _ | with_reducible apply KeepsGoing.next
    | with_reducible apply Kept.trans _ (kept_writeRow ..) | with_reducible apply Kept.trans _ (kept_advance ..))

theorem kept_execTraceArm (t : Nat) (sid : Nat) (buffer : Nat) (s : State) : KeepsGoing s (execTraceArm t sid buffer s) := by
  unfold execTraceArm
  repeat' (first
    | with_reducible exact Kept.refl _ | with_reducible apply KeepsGoing.next
    | with_reducible apply Kept.trans _ (kept_writeRow ..) | with_reducible apply Kept.trans _ (kept_advance ..))

theorem kept_execSatStickyClear (t : Nat) (sid : Nat) (band : Nat) (bits : Nat) (s : State) : KeepsGoing s (execSatStickyClear t sid band bits s) := by
  unfold execSatStickyClear
  repeat' (first
    | with_reducible exact Kept.refl _ | with_reducible apply KeepsGoing.next
    | with_reducible apply Kept.trans _ (kept_writeRow ..) | with_reducible apply Kept.trans _ (kept_advance ..))

theorem kept_execChainCmdEnumerate (t : Nat) (sid : Nat) (chain : Nat) (s : State) : KeepsGoing s (execChainCmdEnumerate t sid chain s) := by
  unfold execChainCmdEnumerate
  repeat' (first
    | with_reducible exact Kept.refl _ | with_reducible apply KeepsGoing.next
    | with_reducible apply Kept.trans _ (kept_writeRow ..) | with_reducible apply Kept.trans _ (kept_advance ..))

theorem kept_execCounterSnapshot (t : Nat) (sid : Nat) (s : State) : KeepsGoing s (execCounterSnapshot t sid s) := by
  unfold execCounterSnapshot
  repeat' (first
    | with_reducible exact Kept.refl _ | with_reducible apply KeepsGoing.next
    | with_reducible apply Kept.trans _ (kept_writeRow ..) | with_reducible apply Kept.trans _ (kept_advance ..))

theorem kept_execCounterClear (t : Nat) (sid : Nat) (mask : Nat) (s : State) : KeepsGoing s (execCounterClear t sid mask s) := by
  unfold execCounterClear
  repeat' (first
    | with_reducible exact Kept.refl _ | with_reducible apply KeepsGoing.next
    | with_reducible apply Kept.trans _ (kept_writeRow ..) | with_reducible apply Kept.trans _ (kept_advance ..))

theorem kept_execCounterSourceWrite (t : Nat) (sid : Nat) (counter : Nat) (source : Nat) (s : State) : KeepsGoing s (execCounterSourceWrite t sid counter source s) := by
  unfold execCounterSourceWrite
  repeat' (first
    | with_reducible exact Kept.refl _ | with_reducible apply KeepsGoing.next
    | with_reducible apply Kept.trans _ (kept_writeRow ..) | with_reducible apply Kept.trans _ (kept_advance ..))

theorem kept_execTaskPendingEmpty (t : Nat) (sid : Nat) (input : Nat) (s : State) : KeepsGoing s (execTaskPendingEmpty t sid input s) := by
  unfold execTaskPendingEmpty
  repeat' (first
    | with_reducible exact Kept.refl _ | with_reducible apply KeepsGoing.next
    | with_reducible apply Kept.trans _ (kept_writeRow ..) | with_reducible apply Kept.trans _ (kept_advance ..))

theorem kept_execTaskStickyClear (t : Nat) (sid : Nat) (bits : Nat) (s : State) : KeepsGoing s (execTaskStickyClear t sid bits s) := by
  unfold execTaskStickyClear
  repeat' (first
    | with_reducible exact Kept.refl _ | with_reducible apply KeepsGoing.next
    | with_reducible apply Kept.trans _ (kept_writeRow ..) | with_reducible apply Kept.trans _ (kept_advance ..))

theorem kept_execIrqPendingClear (t : Nat) (sid : Nat) (block : Nat) (bits : Nat) (s : State) : KeepsGoing s (execIrqPendingClear t sid block bits s) := by
  unfold execIrqPendingClear
  repeat' (first
    | with_reducible exact Kept.refl _ | with_reducible apply KeepsGoing.next
    | with_reducible apply Kept.trans _ (kept_writeRow ..) | with_reducible apply Kept.trans _ (kept_advance ..))

theorem kept_execGpioFunctionWrite (t : Nat) (sid : Nat) (gpio : Nat) (function : Nat) (s : State) : KeepsGoing s (execGpioFunctionWrite t sid gpio function s) := by
  unfold execGpioFunctionWrite
  repeat' (first
    | with_reducible exact Kept.refl _ | with_reducible apply KeepsGoing.next
    | with_reducible apply Kept.trans _ (kept_writeRow ..) | with_reducible apply Kept.trans _ (kept_advance ..))

theorem kept_execGfxLinesChunk (t : Nat) (sid : Nat) (gfx : Nat) (offset : Nat) (chunk : Bytes) (last : Bool) (crc : Nat) (s : State) : KeepsGoing s (execGfxLinesChunk t sid gfx offset chunk last crc s) := by
  unfold execGfxLinesChunk
  repeat' (first
    | with_reducible exact Kept.refl _ | with_reducible apply KeepsGoing.next
    | with_reducible apply Kept.trans _ (kept_opRow ..) | with_reducible apply Kept.trans _ (kept_advance ..))

theorem kept_execGfxPublish (t : Nat) (sid : Nat) (gfx : Nat) (number : Nat) (s : State) : KeepsGoing s (execGfxPublish t sid gfx number s) := by
  unfold execGfxPublish
  repeat' (first
    | with_reducible exact Kept.refl _ | with_reducible apply KeepsGoing.next
    | with_reducible apply Kept.trans _ (kept_writeRow ..) | with_reducible apply Kept.trans _ (kept_advance ..))

theorem kept_execEdidWrite (t : Nat) (sid : Nat) (port : Nat) (edid : Bytes) (s : State) : KeepsGoing s (execEdidWrite t sid port edid s) := by
  unfold execEdidWrite
  repeat' (first
    | with_reducible exact Kept.refl _ | with_reducible apply KeepsGoing.next
    | with_reducible apply Kept.trans _ (kept_blobRow ..) | with_reducible apply Kept.trans _ (kept_advance ..))

theorem kept_execSpareApprove (t : Nat) (sid : Nat) (area : Nat) (res : Nat) (s : State) : KeepsGoing s (execSpareApprove t sid area res s) := by
  unfold execSpareApprove
  repeat' (first
    | with_reducible exact Kept.refl _ | with_reducible apply KeepsGoing.next
    | with_reducible apply Kept.trans _ (kept_writeRow ..) | with_reducible apply Kept.trans _ (kept_advance ..))

theorem kept_execSpareReject (t : Nat) (sid : Nat) (area : Nat) (res : Nat) (s : State) : KeepsGoing s (execSpareReject t sid area res s) := by
  unfold execSpareReject
  repeat' (first
    | with_reducible exact Kept.refl _ | with_reducible apply KeepsGoing.next
    | with_reducible apply Kept.trans _ (kept_writeRow ..) | with_reducible apply Kept.trans _ (kept_advance ..))

theorem kept_execSparePolicyWrite (t : Nat) (sid : Nat) (policy : Nat) (s : State) : KeepsGoing s (execSparePolicyWrite t sid policy s) := by
  unfold execSparePolicyWrite
  repeat' (first
    | with_reducible exact Kept.refl _ | with_reducible apply KeepsGoing.next
    | with_reducible apply Kept.trans _ (kept_writeRow ..) | with_reducible apply Kept.trans _ (kept_advance ..))

theorem kept_execStringCommission (t : Nat) (sid : Nat) (s : State) : KeepsGoing s (execStringCommission t sid s) := by
  unfold execStringCommission
  repeat' (first
    | with_reducible exact Kept.refl _ | with_reducible apply KeepsGoing.next
    | with_reducible apply Kept.trans _ (kept_writeRow ..) | with_reducible apply Kept.trans _ (kept_advance ..))

theorem kept_execSweepStart (t : Nat) (sid : Nat) (s : State) : KeepsGoing s (execSweepStart t sid s) := by
  unfold execSweepStart
  repeat' (first
    | with_reducible exact Kept.refl _ | with_reducible apply KeepsGoing.next
    | with_reducible apply Kept.trans _ (kept_writeRow ..) | with_reducible apply Kept.trans _ (kept_advance ..))

theorem kept_execSweepAbort (t : Nat) (sid : Nat) (s : State) : KeepsGoing s (execSweepAbort t sid s) := by
  unfold execSweepAbort
  repeat' (first
    | with_reducible exact Kept.refl _ | with_reducible apply KeepsGoing.next
    | with_reducible apply Kept.trans _ (kept_writeRow ..) | with_reducible apply Kept.trans _ (kept_advance ..))

theorem kept_execWallJoin (t : Nat) (sid : Nat) (id : Nat) (s : State) : KeepsGoing s (execWallJoin t sid id s) := by
  unfold execWallJoin
  repeat' (first
    | with_reducible exact Kept.refl _ | with_reducible apply KeepsGoing.next
    | with_reducible apply Kept.trans _ (kept_writeRow ..) | with_reducible apply Kept.trans _ (kept_advance ..))

theorem kept_execWallCommitStart (t : Nat) (sid : Nat) (start : Bytes) (s : State) : KeepsGoing s (execWallCommitStart t sid start s) := by
  unfold execWallCommitStart
  repeat' (first
    | with_reducible exact Kept.refl _ | with_reducible apply KeepsGoing.next
    | with_reducible apply Kept.trans _ (kept_blobRow ..) | with_reducible apply Kept.trans _ (kept_advance ..))

/-! ## Machine/Firmware.lean -/

theorem Gysol.ok_stop (n : Nat) {g : Gysol} (h : g.Ok) : (g.profStop n).Ok := by
  unfold Gysol.profStop Gysol.putOlder
  split
  · split <;> exact h
  · exact h
  · exact h

theorem kept_revokeFlash (sectors : Nat) (s : State) : Kept s (State.revokeFlash sectors s) := by
  unfold State.revokeFlash
  extract_lets t
  have k : Kept s t := by
    refine Kept.ite (fun _ => Kept.refl _) (fun _ => kept_modGysol (fun g h => ?_) _)
    exact Gysol.ok_same (h := { g.profStop sectors with profStatus := 3 }) rfl rfl (Gysol.ok_stop sectors h)
  clear_value t
  split
  · exact Kept.trans (Kept.trans k (kept_modFirm _ _)) (kept_raise ..)
  · exact k

theorem kept_revokeTraining (s : State) : Kept s (State.revokeTraining s) := by
  unfold State.revokeTraining
  repeat' (first
    | with_reducible exact Kept.refl _ | with_reducible refine Kept.ite (fun _ => ?_) (fun _ => ?_)
    | with_reducible apply Kept.trans _ (kept_hbmTrainingDone ..) | with_reducible apply Kept.trans _ (kept_drawn ..)
    | with_reducible refine Kept.trans ?_ (kept_modHbm ?_ _) | with_reducible apply Kept.trans _ (kept_hbmTrain ..)
    | exact (fun _ h => h))

theorem kept_revokeSlot (n : Nat) (s : State) : Kept s (State.revokeSlot n s) := by
  unfold State.revokeSlot
  repeat' (first
    | with_reducible exact Kept.refl _ | with_reducible refine Kept.ite (fun _ => ?_) (fun _ => ?_)
    | with_reducible apply Kept.trans _ (kept_dropLease ..) | with_reducible apply Kept.trans _ (kept_modChain ..)
    | with_reducible apply Kept.trans _ (kept_lampSend ..) | split)

theorem kept_revokeCompiler (s : State) : Kept s (State.revokeCompiler s) := by
  unfold State.revokeCompiler
  repeat' (first
    | with_reducible exact Kept.refl _ | with_reducible refine Kept.ite (fun _ => ?_) (fun _ => ?_)
    | with_reducible apply Kept.trans _ (kept_fallback ..) | with_reducible refine Kept.trans ?_ (Kept.foldl ?_ _ _) | intro _)

theorem kept_revokeWork (n : Nat) (sectors : Nat) (s : State) : Kept s (State.revokeWork n sectors s) := by
  unfold State.revokeWork
  repeat' (first
    | with_reducible exact Kept.refl _ | with_reducible refine Kept.ite (fun _ => ?_) (fun _ => ?_)
    | with_reducible apply Kept.trans _ (kept_revokeFlash ..) | with_reducible apply Kept.trans _ (kept_revokeTraining ..)
    | with_reducible apply Kept.trans _ (kept_modAport ..) | with_reducible apply Kept.trans _ (kept_revokeSlot ..)
    | with_reducible apply Kept.trans _ (kept_revokeCompiler ..) | with_reducible apply Kept.trans _ (kept_swapsBackOf ..))

theorem kept_revokeLease (n : Nat) (sectors : Nat) (s : State) : Kept s (State.revokeLease n sectors s) := by
  unfold State.revokeLease
  repeat' (first
    | with_reducible exact Kept.refl _ | with_reducible refine Kept.ite (fun _ => ?_) (fun _ => ?_)
    | with_reducible apply Kept.trans _ (kept_revokeWork ..) | with_reducible apply Kept.trans _ (kept_dropLease ..)
    | with_reducible apply Kept.trans _ (kept_raise ..) | with_reducible apply Kept.trans _ (kept_modFirm ..))

theorem kept_revokeHeld (ns : List Nat) (sectors : Nat) (s : State) : Kept s (State.revokeHeld ns sectors s) := by
  unfold State.revokeHeld
  repeat' (first
    | with_reducible exact Kept.refl _ | with_reducible refine Kept.ite (fun _ => ?_) (fun _ => ?_)
    | with_reducible apply Kept.trans _ (kept_revokeLease ..) | with_reducible refine Kept.trans ?_ (Kept.foldl ?_ _ _)
    | intro _)

theorem kept_coreTakeover (core : Nat) (spare : Nat) (s : State) : Kept s (State.coreTakeover core spare s) := by
  unfold State.coreTakeover
  repeat' (first
    | with_reducible exact Kept.refl _ | with_reducible apply Kept.trans _ (kept_swapDone ..)
    | with_reducible apply Kept.trans _ (kept_raise ..) | with_reducible apply Kept.trans _ (kept_modFirm ..))

theorem kept_coreOut (core : Nat) (s : State) : Kept s (State.coreOut core s) := by
  unfold State.coreOut
  repeat' (first
    | with_reducible exact Kept.refl _ | with_reducible apply Kept.trans _ (kept_coreTakeover ..)
    | with_reducible apply Kept.trans _ (kept_wearOut ..) | with_reducible apply Kept.trans _ (kept_modFirm ..) | dsimp only
    | split)

theorem kept_retainedLost (s : State) : Kept s (State.retainedLost s) := by
  unfold State.retainedLost
  repeat' (first
    | with_reducible exact Kept.refl _ | with_reducible refine Kept.ite (fun _ => ?_) (fun _ => ?_)
    | with_reducible apply Kept.trans _ (kept_endSession ..) | with_reducible apply Kept.trans _ (kept_raise ..)
    | with_reducible apply Kept.trans _ (kept_emptyShadow ..) | with_reducible refine Kept.trans ?_ (Kept.foldl ?_ _ _)
    | intro _)

theorem kept_fwRestart (sectors : Nat) (retained : Bool) (s : State) : Kept s (State.fwRestart sectors retained s) := by
  unfold State.fwRestart
  repeat' (first
    | with_reducible exact Kept.refl _ | with_reducible refine Kept.ite (fun _ => ?_) (fun _ => ?_)
    | with_reducible apply Kept.trans _ (kept_modFirm ..) | with_reducible apply Kept.trans _ (kept_revokeHeld ..)
    | with_reducible apply Kept.trans _ (kept_retainedLost ..))

theorem kept_execMgmtFwUpdate (t : Nat) (signed : Bool) (s : State) : KeepsGoing s (execMgmtFwUpdate t signed s) := by
  unfold execMgmtFwUpdate
  repeat' (first
    | with_reducible exact Kept.refl _ | with_reducible refine KeepsGoing.ite (fun _ => ?_) (fun _ => ?_)
    | with_reducible apply KeepsGoing.next | with_reducible apply Kept.trans _ (kept_advance ..)
    | with_reducible apply Kept.trans _ (kept_dropLease ..) | with_reducible apply Kept.trans _ (kept_markSlot ..)
    | with_reducible apply Kept.trans _ (kept_modFirm ..) | with_reducible apply Kept.trans _ (kept_raise ..)
    | with_reducible apply Kept.trans _ (kept_startTraining ..) | with_reducible apply Kept.trans _ (kept_startFirmware ..)
    | dsimp only | split)

theorem kept_execMgmtCoreSpared (t : Nat) (core : Nat) (held : List Nat) (sectors : Nat) (s : State) : KeepsGoing s (execMgmtCoreSpared t core held sectors s) := by
  unfold execMgmtCoreSpared
  repeat' (first
    | with_reducible exact Kept.refl _ | with_reducible refine KeepsGoing.ite (fun _ => ?_) (fun _ => ?_)
    | with_reducible apply KeepsGoing.next | with_reducible apply Kept.trans _ (kept_advance ..)
    | with_reducible apply Kept.trans _ (kept_coreOut ..) | with_reducible apply Kept.trans _ (kept_revokeHeld ..))

theorem kept_execMgmtFwWatchdog (t : Nat) (task : Nat) (held : List Nat) (sectors : Nat) (retained : Bool) (s : State) : KeepsGoing s (execMgmtFwWatchdog t task held sectors retained s) := by
  unfold execMgmtFwWatchdog
  repeat' (first
    | with_reducible exact Kept.refl _ | with_reducible refine KeepsGoing.ite (fun _ => ?_) (fun _ => ?_)
    | with_reducible apply KeepsGoing.next | with_reducible apply Kept.trans _ (kept_advance ..)
    | with_reducible apply Kept.trans _ (kept_modFirm ..) | with_reducible apply Kept.trans _ (kept_revokeHeld ..)
    | with_reducible apply Kept.trans _ (kept_raise ..) | with_reducible apply Kept.trans _ (kept_fwRestart ..))

theorem kept_portAnswers (area : Nat) (s : State) : Kept s (State.portAnswers area s) := by
  unfold State.portAnswers
  repeat' (first
    | with_reducible exact Kept.refl _ | with_reducible refine Kept.ite (fun _ => ?_) (fun _ => ?_)
    | with_reducible apply Kept.trans _ (kept_modUnit ..) | with_reducible apply Kept.trans _ (kept_modFirm ..)
    | with_reducible refine Kept.trans ?_ (Kept.foldl ?_ _ _) | intro _)

theorem kept_execBusTransactionTimeout (t : Nat) (area : Nat) (answered : Bool) (s : State) : KeepsGoing s (execBusTransactionTimeout t area answered s) := by
  unfold execBusTransactionTimeout
  repeat' (first
    | with_reducible exact Kept.refl _ | with_reducible refine Kept.ite (fun _ => ?_) (fun _ => ?_)
    | with_reducible refine KeepsGoing.ite (fun _ => ?_) (fun _ => ?_) | with_reducible apply KeepsGoing.next
    | with_reducible apply Kept.trans _ (kept_advance ..) | with_reducible apply Kept.trans _ (kept_portAnswers ..)
    | with_reducible apply Kept.trans _ (kept_modFirm ..) | with_reducible apply Kept.trans _ (kept_forceDisagree ..)
    | with_reducible refine Kept.trans ?_ (Kept.foldl ?_ _ _) | intro _)

theorem kept_execMgmtLeaseRevoked (t : Nat) (lease : Nat) (sectors : Nat) (s : State) : KeepsGoing s (execMgmtLeaseRevoked t lease sectors s) := by
  unfold execMgmtLeaseRevoked
  repeat' (first
    | with_reducible exact Kept.refl _ | with_reducible refine KeepsGoing.ite (fun _ => ?_) (fun _ => ?_)
    | with_reducible apply KeepsGoing.next | with_reducible apply Kept.trans _ (kept_advance ..)
    | with_reducible apply Kept.trans _ (kept_revokeLease ..))

/-! ## Machine/Jtag.lean -/

theorem kept_mailboxCapture (s : State) : Kept s (State.mailboxCapture s).2 := by
  unfold State.mailboxCapture
  dsimp only
  refine Kept.iteSnd (fun _ => Kept.refl _) (fun _ => Kept.iteSnd (fun _ => Kept.refl _) (fun _ => ?_))
  refine ⟨rfl, le_refl _, List.prefix_refl _, fun o => ⟨o.hbm, o.dict, o.xrds, ?_⟩⟩
  refine Gysol.ok_same ?_ ?_ o.gysol <;> dsimp only [State.modGysol] <;> split <;> try rfl
  all_goals split <;> rfl

theorem kept_mailboxTake (ctl : Nat) (data : Nat) (wait : Bool) (s : State) : Kept s (State.mailboxTake ctl data wait s) := by
  unfold State.mailboxTake
  repeat' (first
    | with_reducible exact Kept.refl _ | with_reducible refine Kept.trans ?_ (kept_modGysol ?_ _)
    | with_reducible apply Kept.trans _ (kept_request ..) | exact (fun _ h => h) | dsimp only | split)

theorem kept_peekRead (s : State) (a : Nat) : Kept s (State.peekRead s a).2 := by
  unfold State.peekRead
  repeat' (first
    | with_reducible exact Kept.refl _ | with_reducible refine Kept.iteSnd (fun _ => ?_) (fun _ => ?_)
    | with_reducible apply Kept.trans _ (kept_drawn ..) | dsimp only | split)

theorem kept_peekWrite (a : Nat) (d : Nat) (s : State) : Kept s (State.peekWrite a d s) := by
  unfold State.peekWrite
  dsimp only
  split
  · exact kept_modHbm (fun _ o => Hbm.ok_putAt _ _ o) _
  · exact Kept.trans (kept_modHbm (fun _ o => Hbm.ok_wrote _ _ o) _) (kept_modPlArray ..)
  · exact Kept.refl _

theorem kept_peek (write : Bool) (space : Nat) (a : Nat) (d : Nat) (timely : Bool) (s : State) : Kept s (State.peek write space a d timely s) := by
  unfold State.peek
  repeat' (first
    | with_reducible exact Kept.refl _ | with_reducible refine Kept.ite (fun _ => ?_) (fun _ => ?_)
    | with_reducible apply Kept.trans _ (kept_modTap ..) | with_reducible apply Kept.trans _ (kept_drawn ..)
    | with_reducible apply Kept.trans _ (kept_peekWrite ..) | with_reducible apply Kept.trans _ (kept_peekRead ..))

theorem kept_tapTake (ir : Nat) (captured : Nat) (s : State) : Kept s (State.tapTake ir captured s) := by
  unfold State.tapTake
  repeat' (first
    | with_reducible exact Kept.refl _ | with_reducible apply Kept.trans _ (kept_modTap ..))

theorem kept_execTapReset (t : Nat) (s : State) : KeepsGoing s (execTapReset t s) := by
  unfold execTapReset
  repeat' (first
    | with_reducible exact Kept.refl _ | with_reducible apply KeepsGoing.next
    | with_reducible apply Kept.trans _ (kept_modTap ..) | with_reducible apply Kept.trans _ (kept_advance ..))

theorem kept_execIdcode (t : Nat) (s : State) : KeepsGoing s (execIdcode t s) := by
  unfold execIdcode
  repeat' (first
    | with_reducible exact Kept.refl _ | with_reducible apply KeepsGoing.next
    | with_reducible apply Kept.trans _ (kept_tapTake ..) | with_reducible apply Kept.trans _ (kept_advance ..))

theorem kept_execExtest (t : Nat) (cells : Nat) (sample : Nat) (s : State) : KeepsGoing s (execExtest t cells sample s) := by
  unfold execExtest
  repeat' (first
    | with_reducible exact Kept.refl _ | with_reducible refine KeepsGoing.ite (fun _ => ?_) (fun _ => ?_)
    | with_reducible apply KeepsGoing.next | with_reducible apply Kept.trans _ (kept_advance ..)
    | with_reducible apply Kept.trans _ (kept_tapTake ..) | with_reducible apply Kept.trans _ (kept_emit ..)
    | with_reducible apply Kept.trans _ (kept_modTap ..))

theorem kept_execSamplePreload (t : Nat) (cells : Nat) (sample : Nat) (s : State) : KeepsGoing s (execSamplePreload t cells sample s) := by
  unfold execSamplePreload
  repeat' (first
    | with_reducible exact Kept.refl _ | with_reducible refine KeepsGoing.ite (fun _ => ?_) (fun _ => ?_)
    | with_reducible apply KeepsGoing.next | with_reducible apply Kept.trans _ (kept_advance ..)
    | with_reducible apply Kept.trans _ (kept_tapTake ..) | with_reducible apply Kept.trans _ (kept_modTap ..))

theorem kept_execBypass (t : Nat) (opcode : Nat) (s : State) : KeepsGoing s (execBypass t opcode s) := by
  unfold execBypass
  repeat' (first
    | with_reducible exact Kept.refl _ | with_reducible apply KeepsGoing.next
    | with_reducible apply Kept.trans _ (kept_tapTake ..) | with_reducible apply Kept.trans _ (kept_advance ..))

theorem kept_execMailbox (t : Nat) (ctl : Nat) (data : Nat) (busy : Bool) (wait : Bool) (s : State) : KeepsGoing s (execMailbox t ctl data busy wait s) := by
  unfold execMailbox
  repeat' (first
    | with_reducible exact Kept.refl _ | with_reducible refine Kept.ite (fun _ => ?_) (fun _ => ?_)
    | with_reducible apply KeepsGoing.next | with_reducible apply Kept.trans _ (kept_mailboxCapture ..)
    | with_reducible apply Kept.trans _ (kept_advance ..) | with_reducible apply Kept.trans _ (kept_modTap ..)
    | with_reducible apply Kept.trans _ (kept_tapTake ..) | with_reducible apply Kept.trans _ (kept_mailboxTake ..))

theorem kept_execPeek (t : Nat) (valid : Bool) (write : Bool) (space : Nat) (addr : Nat) (data : Nat) (timely : Bool) (s : State) : KeepsGoing s (execPeek t valid write space addr data timely s) := by
  unfold execPeek
  repeat' (first
    | with_reducible exact Kept.refl _ | with_reducible refine Kept.ite (fun _ => ?_) (fun _ => ?_)
    | with_reducible refine KeepsGoing.ite (fun _ => ?_) (fun _ => ?_) | with_reducible apply KeepsGoing.next
    | with_reducible apply Kept.trans _ (kept_advance ..) | with_reducible apply Kept.trans _ (kept_tapTake ..)
    | with_reducible apply Kept.trans _ (kept_peek ..) | with_reducible apply Kept.trans _ (kept_modTap ..))

theorem kept_execDieReset (t : Nat) (s : State) : KeepsGoing s (execDieReset t s) := by
  unfold execDieReset
  repeat' (first
    | with_reducible exact Kept.refl _ | with_reducible refine KeepsGoing.ite (fun _ => ?_) (fun _ => ?_)
    | with_reducible apply KeepsGoing.next | with_reducible apply Kept.trans _ (kept_tapTake ..)
    | with_reducible apply Kept.trans _ (kept_advance ..) | with_reducible apply Kept.trans _ (kept_dieReset ..))

end Sys2Proof.Machine
end

