-- ==== Sys2Proof/Laws/Serve.lean ====
section
/-! SUPPORT. What an operation of a served session comes to, once for all rows of the host. -/

namespace Sys2Proof.Machine

theorem ofLE_toLE (n v : Nat) (h : v < 2 ^ (8 * n)) : ofLE (toLE n v) = v := by
  induction n generalizing v with
  | zero => simp only [Nat.mul_zero, Nat.pow_zero] at h; simp only [toLE, ofLE]; omega
  | succ n ih =>
    have h2 : v / 256 < 2 ^ (8 * n) := by
      rw [Nat.div_lt_iff_lt_mul (by omega), show (256 : Nat) = 2 ^ 8 from rfl, ← Nat.pow_add]
      exact h
    simp only [toLE, ofLE, ih _ h2, BitVec.toNat_ofNat]
    omega

theorem length_toLE (n v : Nat) : (toLE n v).length = n := by
  induction n generalizing v with
  | zero => rfl
  | succ n ih => simp only [toLE, List.length_cons, ih]

theorem leAt_toLE (n v : Nat) (h : v < 2 ^ (8 * n)) : leAt (toLE n v) 0 n = v := by
  have : slice (toLE n v) 0 n = toLE n v := by
    simp only [slice, List.drop_zero]
    exact List.take_of_length_le (Nat.le_of_eq (length_toLE n v))
  rw [leAt, this, ofLE_toLE n v h]

/-- A write of one number that passes every check: what it does, and what it answers. -/
theorem writeRow_served {s : State} {t sid obj sub w v : Nat} {x : Session} {d : Desc} (hs : s.Serves t sid x)
    (hd : leafOf obj sub = some d) (hw : d.ty.width = w) (hv : v < 2 ^ (8 * w))
    (ha : (s.served t sid x).Accepts sid x obj sub w v) :
    (s.advance t).writeRow sid obj sub w v =
      ((s.served t sid x).writeOne sid obj sub v).1.emit
        (.answer sid 0x02 ((s.served t sid x).writeOne sid obj sub v).2 []) := by
  obtain ⟨hr, ⟨h0, h1⟩, hx⟩ := hs
  have hl : leaves obj sub 1 = [d] := by simp [leaves, upTo, hd]
  have hn : numbered sub (splitVals (leaves obj sub 1) (toLE w v)) = [(sub, d, v)] := by
    simp [hl, splitVals, numbered, upTo, hw, leAt_toLE w v hv]
  unfold State.Accepts State.served at ha
  have hb : ∀ data, (⟨0x02, 0, obj, sub, 1, data⟩ : GOp).badFlags = false := by intro data; simp [GOp.badFlags, bit]
  simp only [State.writeRow, State.opRow, h1, hr, h0, hx, State.opExec, hb, if_false, Bool.not_true, ha, State.doWrite, hn,
    State.served, List.foldl]
  simp
  split <;> simp_all

/-- A command that passes every check: what it does, and the status it keeps and answers. -/
theorem writeRow_command {s : State} {t sid obj sub w v : Nat} {x : Session} {d : Desc} (hs : s.Serves t sid x)
    (hl : lookup obj sub = some d) (hd : leafOf obj sub = some d) (hc : d.acc = .wc) (hw : d.ty.width = w)
    (hv : v < 2 ^ (8 * w)) (ha : (s.served t sid x).Accepts sid x obj sub w v) :
    (s.advance t).writeRow sid obj sub w v =
      State.commandDone sid obj sub ((s.served t sid x).runCmd obj sub v).2 ((s.served t sid x).runCmd obj sub v).1 := by
  rw [writeRow_served hs hd hw hv ha, State.writeOne, hl]
  simp only [hc]
  rfl

theorem ofLE_lt (b : Bytes) : ofLE b < 2 ^ (8 * b.length) := by
  induction b with
  | nil => simp [ofLE]
  | cons x xs ih =>
    have h1 : x.toNat < 256 := x.isLt
    have h2 : (2 : Nat) ^ (8 * (x :: xs).length) = 256 * 2 ^ (8 * xs.length) := by
      rw [List.length_cons, Nat.mul_succ, Nat.pow_add, Nat.mul_comm]
    simp only [ofLE]
    omega

theorem reflect_fold_le (w v : Nat) (ks : List Nat) (a : Nat) :
    ks.foldl (fun a k => if v.testBit k then a + 2 ^ (w - 1 - k) else a) a ≤
      ks.foldl (fun a k => a + 2 ^ (w - 1 - k)) a := by
  induction ks generalizing a with
  | nil => exact Nat.le_refl _
  | cons k ks ih =>
    simp only [List.foldl_cons]
    split
    · exact ih _
    · refine Nat.le_trans (ih a) ?_
      have mono : ∀ (l : List Nat) (x y : Nat), x ≤ y →
          l.foldl (fun a k => a + 2 ^ (w - 1 - k)) x ≤ l.foldl (fun a k => a + 2 ^ (w - 1 - k)) y := by
        intro l
        induction l with
        | nil => intro x y h; exact h
        | cons m l ihl => intro x y h; exact ihl _ _ (Nat.add_le_add_right h _)
      exact mono _ _ _ (Nat.le_add_right _ _)

theorem reflect_lt (v : Nat) : reflect 32 v < 2 ^ 32 :=
  Nat.lt_of_le_of_lt (reflect_fold_le 32 v (upTo 32) 0) (by decide)

theorem crc32c_lt (b : Bytes) : crc32c b < 2 ^ 32 := Nat.xor_lt_two_pow (reflect_lt _) (by decide)
theorem leAt_front (n v : Nat) (b : Bytes) (h : v < 2 ^ (8 * n)) : leAt (toLE n v ++ b) 0 n = v := by
  have : slice (toLE n v ++ b) 0 n = toLE n v := by
    simp only [slice, List.drop_zero, List.take_append, length_toLE, Nat.sub_self, List.take_zero, List.append_nil]
    exact List.take_of_length_le (Nat.le_of_eq (length_toLE n v))
  rw [leAt, this, ofLE_toLE n v h]

theorem leAt_back (n v : Nat) (b : Bytes) (h : v < 2 ^ (8 * n)) : leAt (b ++ toLE n v) b.length n = v := by
  have : slice (b ++ toLE n v) b.length n = toLE n v := by
    simp only [slice, List.drop_left]
    exact List.take_of_length_le (Nat.le_of_eq (length_toLE n v))
  rw [leAt, this, ofLE_toLE n v h]

/-- What a stream that takes a chunk holds, and that nothing about the chunk is refused. -/
theorem takesChunk_facts {v : State} {sid obj sub : Nat} {x : Session} {d : Desc} {before chunk : Bytes}
    (h : v.TakesChunk sid x obj sub d before chunk) :
    ((v.stream (okey obj sub)).map BlobStream.data).getD [] = before ∧
    ((v.stream (okey obj sub)).any fun y => y.sid != sid) = false ∧
    (headerDone obj before (before ++ chunk) && !v.gfxHeaderOk sub ((before ++ chunk).take 32)) = false ∧
    (decide (obj = 0x6032) && v.hbm.beFailed) = false ∧
    ¬ (blobBounds d).2 < (before ++ chunk).length := by
  obtain ⟨h1, h2, h3, h4, h5, h6, h7, h8, h9⟩ := h
  refine ⟨?_, ?_, ?_, ?_, ?_⟩
  · cases hs : v.stream (okey obj sub) with
    | none => exact (h6 hs).symm
    | some y => exact (h5 y hs).2
  · cases hs : v.stream (okey obj sub) with
    | none => rfl
    | some y => simp [(h5 y hs).1]
  · cases hd : headerDone obj before (before ++ chunk)
    · rfl
    · simp only [h8 hd, Bool.not_true, Bool.and_false]
  · by_cases g : obj = 0x6032
    · simp only [h9 g, Bool.and_false]
    · simp only [g, decide_false, Bool.false_and]
  · rw [List.length_append]
    omega

theorem drop_toLE (n v : Nat) (b : Bytes) : (toLE n v ++ b).drop n = b := by
  have := List.drop_left (l₁ := toLE n v) (l₂ := b)
  rwa [length_toLE] at this

/-- A chunk that the stream of a BLOB takes and that is not its last: the stream keeps it. -/
theorem opBlobWrite_chunk {v : State} {sid obj sub : Nat} {x : Session} {d : Desc} {before chunk : Bytes}
    (h : v.TakesChunk sid x obj sub d before chunk) (hl : before.length < 2 ^ 32) :
    v.opBlobWrite ⟨sid, x.role⟩ ⟨0x05, 0, obj, sub, 1, toLE 4 before.length ++ chunk⟩ =
      (let w := v.headerArrives obj sub before (before ++ chunk)
       (w.keepStream ⟨okey obj sub, sid, before ++ chunk, w.now⟩, 0x00)) := by
  obtain ⟨hb, ho, hh, he, hn⟩ := takesChunk_facts h
  obtain ⟨h1, h2, h3, h4, -, -, -, -, -⟩ := h
  have hf : (⟨0x05, 0, obj, sub, 1, toLE 4 before.length ++ chunk⟩ : GOp).badFlags = false := by
    simp [GOp.badFlags, bit]
  have hoff : leAt (toLE 4 before.length ++ chunk) 0 4 = before.length := leAt_front 4 _ _ hl
  have hc : ((toLE 4 before.length ++ chunk).drop 4).take ((toLE 4 before.length ++ chunk).length - 4) = chunk := by
    rw [drop_toLE, List.take_of_length_le]
    rw [List.length_append, length_toLE]
    omega
  have hs : ¬ (toLE 4 before.length ++ chunk).length < 4 := by
    rw [List.length_append, length_toLE]
    omega
  have hbit : bit 0 1 = false := rfl
  have ht : first (checkObject obj sub 1) (first (checkRole x.role obj sub 1)
      (first (refuseIf (false || !(Option.any (fun d => decide (d.ty = .blob)) (some d)) ||
        decide ((toLE 4 before.length ++ chunk).length < 4)) 0x13) (refuseIf false 0x14))) = none := by
    simp only [h3, h4, h2, hs, first, refuseIf, Option.any_some, decide_true, decide_false, Bool.not_true, Bool.or_self,
      Bool.false_eq_true, if_false]
  unfold State.opBlobWrite
  simp only [h1, hf, hbit, Bool.false_eq_true, if_false, Nat.sub_zero, hb, hc, ho, hoff, bne_self_eq_false, Bool.or_self,
    Bool.not_false, if_true, hh, he]
  simp only [ht, hn, if_false]

/-- The last chunk of a stream: the whole BLOB takes effect. -/
theorem opBlobWrite_last {v : State} {sid obj sub : Nat} {x : Session} {d : Desc} {before chunk : Bytes}
    (h : v.TakesChunk sid x obj sub d before chunk)
    (hw : (v.headerArrives obj sub before (before ++ chunk)).TakesLast sid obj sub d (before ++ chunk))
    (hl : before.length < 2 ^ 32) :
    v.opBlobWrite ⟨sid, x.role⟩
        ⟨0x05, 2, obj, sub, 1, toLE 4 before.length ++ chunk ++ toLE 4 (crc32c (before ++ chunk))⟩ =
      ((v.headerArrives obj sub before (before ++ chunk)).closeStream (okey obj sub)).takeBlob sid obj sub d (before ++ chunk) := by
  obtain ⟨hb, ho, hh, he, hn⟩ := takesChunk_facts h
  obtain ⟨h1, h2, h3, h4, -, -, -, -, -⟩ := h
  have hf : (⟨0x05, 2, obj, sub, 1, toLE 4 before.length ++ chunk ++ toLE 4 (crc32c (before ++ chunk))⟩ : GOp).badFlags = false := by
    simp [GOp.badFlags, bit]
  have hoff : leAt (toLE 4 before.length ++ chunk ++ toLE 4 (crc32c (before ++ chunk))) 0 4 = before.length := by
    rw [List.append_assoc]
    exact leAt_front 4 _ _ hl
  have hlen : (toLE 4 before.length ++ chunk ++ toLE 4 (crc32c (before ++ chunk))).length = chunk.length + 8 := by
    simp only [List.length_append, length_toLE]
    omega
  have hc : ((toLE 4 before.length ++ chunk ++ toLE 4 (crc32c (before ++ chunk))).drop 4).take
      ((toLE 4 before.length ++ chunk ++ toLE 4 (crc32c (before ++ chunk))).length - 4 - 4) = chunk := by
    rw [hlen, List.append_assoc, drop_toLE, show chunk.length + 8 - 4 - 4 = chunk.length by omega]
    exact List.take_left
  have hcrc : leAt (toLE 4 before.length ++ chunk ++ toLE 4 (crc32c (before ++ chunk)))
      ((toLE 4 before.length ++ chunk ++ toLE 4 (crc32c (before ++ chunk))).length - 4) 4 = crc32c (before ++ chunk) := by
    have := leAt_back 4 (crc32c (before ++ chunk)) (toLE 4 before.length ++ chunk) (crc32c_lt _)
    rwa [show (toLE 4 before.length ++ chunk).length =
      (toLE 4 before.length ++ chunk ++ toLE 4 (crc32c (before ++ chunk))).length - 4 by
        rw [hlen, List.length_append, length_toLE]; omega] at this
  have hbit : bit 2 1 = true := rfl
  have ht : first (checkObject obj sub 1) (first (checkRole x.role obj sub 1)
      (first (refuseIf (false || !(Option.any (fun d => decide (d.ty = .blob)) (some d)) ||
        decide ((toLE 4 before.length ++ chunk ++ toLE 4 (crc32c (before ++ chunk))).length < 8)) 0x13)
          (refuseIf false 0x14))) = none := by
    have h8 : ¬ chunk.length + 8 < 8 := by omega
    simp only [hlen, h8, h3, h4, h2, first, refuseIf, Option.any_some, decide_true, decide_false, Bool.not_true, Bool.or_self,
      Bool.false_eq_true, if_false]
  have hmin : ¬ (before ++ chunk).length < (blobBounds d).1 := Nat.not_lt.mpr hw.length
  unfold State.opBlobWrite
  simp only [h1, hf, hbit, if_true, hb, hc, ho, hoff, hcrc, bne_self_eq_false, Bool.or_self, Bool.not_true,
    Bool.false_eq_true, if_false, hh, he]
  simp only [ht, hn, hmin, if_false, hw.value]

/-- Any operation of a served session but SESSION_CLOSE: it runs, and its answer is sent. -/
theorem opRow_served {s : State} {t sid : Nat} {x : Session} {o : GOp} (hs : s.Serves t sid x) (hc : o.code ≠ 0x11) :
    (s.advance t).opRow sid o =
      ((s.served t sid x).opExec ⟨sid, x.role⟩ o).1.emit (.answer sid o.code ((s.served t sid x).opExec ⟨sid, x.role⟩ o).2.1
        ((s.served t sid x).opExec ⟨sid, x.role⟩ o).2.2) := by
  obtain ⟨hr, ⟨h0, h1⟩, hx⟩ := hs
  simp only [State.opRow, h1, hr, h0, hx, if_false, Bool.not_true, Bool.false_eq_true, decide_false, hc, Bool.false_and, State.served]

/-- SESSION_CLOSE of a served session: it is answered, and then the session ends. -/
theorem opRow_close {s : State} {t sid : Nat} {x : Session} (hs : s.Serves t sid x) :
    (s.advance t).opRow sid ⟨0x11, 0, 0, 0, 1, []⟩ = ((s.served t sid x).emit (.answer sid 0x11 0 [])).endSession sid 0 := by
  obtain ⟨hr, ⟨h0, h1⟩, hx⟩ := hs
  simp [State.opRow, h1, hr, h0, hx, State.served, State.opExec, GOp.badFlags, GOp.plain, first, refuseIf, bit]

/-- A chunk of a BLOB that its stream takes and that is not its last. -/
theorem opRow_chunk {s : State} {t sid obj sub : Nat} {x : Session} {d : Desc} {before chunk : Bytes} (hs : s.Serves t sid x)
    (h : (s.served t sid x).TakesChunk sid x obj sub d before chunk) (hl : before.length < 2 ^ 32) :
    (s.advance t).opRow sid ⟨0x05, 0, obj, sub, 1, toLE 4 before.length ++ chunk⟩ =
      (let w := (s.served t sid x).headerArrives obj sub before (before ++ chunk)
       (w.keepStream ⟨okey obj sub, sid, before ++ chunk, w.now⟩).emit (.answer sid 0x05 0 [])) := by
  have hb := opBlobWrite_chunk h hl
  rw [opRow_served hs (show (0x05 : Nat) ≠ 0x11 by decide)]
  simp only [State.opExec, hb]

/-- The last chunk of a BLOB: the BLOB takes effect, and its status is answered. -/
theorem opRow_last {s : State} {t sid obj sub : Nat} {x : Session} {d : Desc} {before chunk : Bytes} (hs : s.Serves t sid x)
    (h : (s.served t sid x).TakesChunk sid x obj sub d before chunk)
    (hw : ((s.served t sid x).headerArrives obj sub before (before ++ chunk)).TakesLast sid obj sub d (before ++ chunk))
    (hl : before.length < 2 ^ 32) :
    (s.advance t).opRow sid ⟨0x05, 2, obj, sub, 1, toLE 4 before.length ++ chunk ++ toLE 4 (crc32c (before ++ chunk))⟩ =
      (let w := (((s.served t sid x).headerArrives obj sub before (before ++ chunk)).closeStream (okey obj sub)).takeBlob sid obj sub d
         (before ++ chunk)
       w.1.emit (.answer sid 0x05 w.2 [])) := by
  have hb := opBlobWrite_last h hw hl
  rw [opRow_served hs (show (0x05 : Nat) ≠ 0x11 by decide)]
  simp only [State.opExec, hb]

end Sys2Proof.Machine
end

