-- ==== Sys2Proof/WellFormed.lean ====
section
/-! DEFINITION. Well-formed commands: every operand that names a unit, an object or a field of fixed width lies in its range. The
block gives no meaning that is relied on to a command that is not well formed; nothing outside it can send one. -/

namespace Sys2Proof

/-- Whether a request names a port, an aligned start, 1 to 64 words and one pool (R115, R120). -/
def HbmRequest.wellFormed (r : HbmRequest) : Bool :=
  let last := r.addr + 32 * r.words
  decide (r.port < 9) && r.addr % 32 = 0 && decide (1 ≤ r.words) && decide (r.words ≤ 64) &&
    (decide (last ≤ 0x100000000) || (decide (0x100000000 ≤ r.addr) && decide (last ≤ 0x7FFC00000)) ||
      (decide (0x7FFC00000 ≤ r.addr) && decide (last ≤ 0x800000000)))

/-- Whether the traffic at the ports names ports and pseudo-channels that exist. -/
def HbmTraffic.wellFormed (io : HbmTraffic) : Bool :=
  io.issued.all HbmRequest.wellFormed && (io.turns.all fun x => decide (x.1 < 64)) && io.taken.all fun x => decide (x.1 < 9)

/-- Whether delays and levels lie in the ranges of R136's table. -/
def LaneFit.wellFormed (f : LaneFit) : Bool :=
  f.rd.length = 64 && f.wr.length = 64 && (f.rd ++ f.wr).all fun d => decide (d < 128)

/-- Whether a command is well formed; one that is not has no relied-on meaning (log entry 17, DESIGN CHOICE, safe). -/
def Instr.wellFormed : Instr → Bool
  | .gysolRequest _ _ _ port _ _ _ => decide (port < 65536)
  | .read _ sid obj sub count _ => decide (sid < 65536) && decide (obj < 65536) && decide (sub < 256) && decide (count < 256)
  | .write _ sid obj sub count _ => decide (sid < 65536) && decide (obj < 65536) && decide (sub < 256) && decide (count < 256)
  | .describe _ sid obj sub count => decide (sid < 65536) && decide (obj < 65536) && decide (sub < 256) && decide (count < 256)
  | .blobRead _ sid obj sub offset length => decide (sid < 65536) && decide (obj < 65536) && decide (sub < 256) && decide (offset < 4294967296) && decide (length < 4294967296)
  | .blobWrite _ sid obj sub offset _ _ crc => decide (sid < 65536) && decide (obj < 65536) && decide (sub < 256) && decide (offset < 4294967296) && decide (crc < 4294967296)
  | .logRead _ sid _ count => decide (sid < 65536) && decide (count < 256)
  | .subscribe _ sid _ => decide (sid < 65536)
  | .nop _ sid => decide (sid < 65536)
  | .sessionOpen _ _ _ role resume _ => decide (role < 256) && decide (resume < 65536)
  | .sessionClose _ sid => decide (sid < 65536)
  | .pendingSessionTimeout _ sid => decide (sid < 65536)
  | .sessionTimeout _ sid => decide (sid < 65536)
  | .blobStreamAbandon _ obj sub => decide (obj < 65536) && decide (sub < 256)
  | .eventPush _ sid => decide (sid < 65536)
  | .writeFrame _ _ _ _ => true
  | .readStatus _ => true
  | .readFrame _ => true
  | .arpRequest _ ip asker => decide (ip < 4294967296) && decide (asker < 4294967296)
  | .icmpEcho _ ip asker _ _ => decide (ip < 4294967296) && decide (asker < 4294967296)
  | .stateRequestMews _ sid => decide (sid < 65536)
  | .stateRequestStandby _ sid => decide (sid < 65536)
  | .stateRequestWarming _ sid => decide (sid < 65536)
  | .stateRequestSafe _ sid => decide (sid < 65536)
  | .unitCommand _ sid unit value => decide (sid < 65536) && decide (unit < 65536) && decide (value < 65536)
  | .unitForce _ sid unit => decide (sid < 65536) && decide (unit < 65536)
  | .mgmtUnitDisagree _ unit => decide (unit < 65536)
  | .disagreeAllowanceExpiry _ unit => decide (unit < 65536)
  | .profileSave _ sid => decide (sid < 65536)
  | .profileSaveComplete _ _ => true
  | .profileErase _ sid => decide (sid < 65536)
  | .profileEraseComplete _ => true
  | .stageDiscard _ sid => decide (sid < 65536)
  | .roleKeyWrite _ sid role _ => decide (sid < 65536) && decide (role < 256)
  | .commit _ sid => decide (sid < 65536)
  | .commitValidationEnd _ => true
  | .seqrStageReady _ => true
  | .hbmTrainFull _ sid => decide (sid < 65536)
  | .hbmTrainQuick _ sid => decide (sid < 65536)
  | .hbmTrainingDone _ _ chan _ _ fits => decide (chan < 32) && fits.all fun x => decide (x.1 < 32) && x.2.wellFormed
  | .arrayRegAccessRead _ sid ap _ => decide (sid < 65536) && decide (ap < 4)
  | .arrayRegAccessWrite _ sid ap _ _ => decide (sid < 65536) && decide (ap < 4)
  | .lampRegAccessRead _ sid driver _ => decide (sid < 65536) && decide (driver < 16)
  | .lampRegAccessWrite _ sid driver _ _ => decide (sid < 65536) && decide (driver < 16)
  | .arcdLaneSwapCmd _ sid ap no => decide (sid < 65536) && decide (ap < 4) && decide (no < 8)
  | .repClear _ sid band => decide (sid < 65536) && decide (band < 4)
  | .traceArm _ sid buffer => decide (sid < 65536) && decide (buffer < 4)
  | .chainCmdEnumerate _ sid chain => decide (sid < 65536) && decide (chain < 2)
  | .counterSnapshot _ sid => decide (sid < 65536)
  | .counterClear _ sid _ => decide (sid < 65536)
  | .counterSourceWrite _ sid counter _ => decide (sid < 65536) && decide (counter < 64)
  | .taskPendingEmpty _ sid input => decide (sid < 65536) && decide (input < 38)
  | .taskStickyClear _ sid _ => decide (sid < 65536)
  | .irqPendingClear _ sid block _ => decide (sid < 65536) && decide (block < 4)
  | .satStickyClear _ sid band _ => decide (sid < 65536) && decide (band < 4)
  | .gpioFunctionWrite _ sid gpio function => decide (sid < 65536) && decide (gpio < 16) && decide (function < 256)
  | .gfxLinesChunk _ sid gfx offset _ _ crc => decide (sid < 65536) && decide (gfx < 8) && decide (offset < 4294967296) && decide (crc < 4294967296)
  | .gfxPublish _ sid gfx number => decide (sid < 65536) && decide (gfx < 8) && decide (number < 4294967296)
  | .spareApprove _ sid area res => decide (sid < 65536) && decide (area < 16) && decide (res < 65536)
  | .spareReject _ sid area res => decide (sid < 65536) && decide (area < 16) && decide (res < 65536)
  | .spareRejectRecheck _ area resource => decide (area < 16) && decide (resource < 65536)
  | .sparePolicyWrite _ sid policy => decide (sid < 65536) && decide (policy < 256)
  | .stringCommission _ sid => decide (sid < 65536)
  | .resetCmd _ sid => decide (sid < 65536)
  | .sweepStart _ sid => decide (sid < 65536)
  | .sweepAbort _ sid => decide (sid < 65536)
  | .fwImageWrite _ sid _ => decide (sid < 65536)
  | .mgmtFwUpdate _ _ => true
  | .edidWrite _ sid port _ => decide (sid < 65536) && decide (port < 2)
  | .hpdReassert _ port => decide (port < 2)
  | .wallJoin _ sid id => decide (sid < 65536) && decide (id < 4294967296)
  | .wallCommitStart _ sid _ => decide (sid < 65536)
  | .ingsLinkUp _ port _ lanes _ => decide (port < 2) && decide (lanes < 5)
  | .dpSymbolLockLost _ port => decide (port < 2)
  | .dpRetrainTimeout _ port => decide (port < 2)
  | .ingsFormatChange _ port _ => decide (port < 2)
  | .currencySdp _ port _ => decide (port < 2)
  | .dpFrameStart _ port => decide (port < 2)
  | .dpLineReceived _ port _ => decide (port < 2)
  | .lineWriteAccepted _ layer _ => decide (layer < 8)
  | .dpFrameEnd _ port => decide (port < 2)
  | .versionComplete _ layer => decide (layer < 8)
  | .staticCopyComplete _ layer _ => decide (layer < 8)
  | .hbmReadReturn _ port severity io => decide (port < 9) && decide (severity < 3) && io.wellFormed
  | .rowShadowCopyDone _ shadow => decide (shadow < 32)
  | .hbmcReqTimeout _ port chan => decide (port < 9) && decide (chan < 32)
  | .hbmcParityReplay _ chan pc kind _ _ => decide (chan < 32) && decide (pc < 2) && decide (kind < 2)
  | .hbmRetrainDone _ chan _ _ => decide (chan < 32)
  | .hbmScrubPass _ severity => decide (severity < 3)
  | .hbmDriftTrack _ chan _ => decide (chan < 32)
  | .hbmRefresh _ pseudo _ => decide (pseudo < 64)
  | .hbmStackTempRead _ stack _ => decide (stack < 2)
  | .hbmRowTrackerExpiry _ stack _ => decide (stack < 2)
  | .frameBoundary _ _ _ => true
  | .signatureFinal _ region => decide (region < 32)
  | .bandEstimateLatch _ => true
  | .scheduleDelivery _ group _ _ => decide (group < 4)
  | .compileDeadline _ group => decide (group < 4)
  | .plgnPlaneLate _ _ => true
  | .slotReset _ group slot block => decide (group < 4) && decide (slot < 65536) && decide (block < 16)
  | .blockLoadWindow _ ap slot block _ _ => decide (ap < 4) && decide (slot < 65536) && decide (block < 16)
  | .epochClear _ group epoch block => decide (group < 4) && decide (epoch < 32) && decide (block < 16)
  | .globalReset _ group epoch => decide (group < 4) && decide (epoch < 32)
  | .pipWindow _ group _ => decide (group < 4)
  | .wheelMarkPass _ wheel => decide (wheel < 2)
  | .seqrWheelPhase _ wheel => decide (wheel < 2)
  | .fsyncEdge _ _ => true
  | .fsyncEdgeMissing _ => true
  | .fsyncLost _ => true
  | .ack _ ap _ => decide (ap < 4)
  | .status _ ap _ => decide (ap < 4)
  | .regData _ ap _ => decide (ap < 4)
  | .echo _ ap _ => decide (ap < 4)
  | .fault _ ap _ => decide (ap < 4)
  | .lane _ ap _ => decide (ap < 4)
  | .laneSwapSend _ ap _ => decide (ap < 4)
  | .laneSwapCodeword _ ap => decide (ap < 4)
  | .arcdLaneSpared _ ap => decide (ap < 4)
  | .arcdAckTimeout _ ap => decide (ap < 4)
  | .arcdReturnSilent _ ap => decide (ap < 4)
  | .keepaliveSend _ ap => decide (ap < 4)
  | .arrayTraining _ ap => decide (ap < 4)
  | .arrayTrainingDone _ ap _ _ _ _ => decide (ap < 4)
  | .loopTick _ _ => true
  | .loopFeedbackLost _ band => decide (band < 4)
  | .loopImplausible _ band => decide (band < 4)
  | .bandFrozen _ band => decide (band < 4)
  | .bandClose _ band => decide (band < 4)
  | .warmRampComplete _ band => decide (band < 4)
  | .calFreeze _ band => decide (band < 4)
  | .pilotRunEnd _ band => decide (band < 4)
  | .traceTrigger _ buffer => decide (buffer < 4)
  | .loopTraceDone _ buffer => decide (buffer < 4)
  | .applyLaunch _ bands => decide (bands < 16)
  | .setSend _ chain bands _ _ _ => decide (chain < 2) && decide (bands < 16)
  | .statusFrameSend _ chain => decide (chain < 2)
  | .lampFrameReturn _ chain _ => decide (chain < 2)
  | .lampDriverLost _ driver => decide (driver < 16)
  | .lampChainDown _ chain _ => decide (chain < 2)
  | .chainEnumerate _ chain count _ _ => decide (chain < 2) && decide (count < 256)
  | .lampInterlock _ input => decide (input < 2)
  | .interlockClose _ input => decide (input < 2)
  | .lampIntlkDiscrepancy _ => true
  | .slowConversion _ _ _ => true
  | .lampSensorLost _ channel => decide (channel < 24)
  | .lampRail _ channel => decide (channel < 24)
  | .wheelRun _ wheel => decide (wheel < 2)
  | .wheelStop _ wheel => decide (wheel < 2)
  | .whelCatch _ wheel _ => decide (wheel < 2)
  | .alignEnd _ wheel => decide (wheel < 2)
  | .openLoopHandover _ wheel => decide (wheel < 2)
  | .whelStartFail _ wheel => decide (wheel < 2)
  | .wheelLocked _ wheel => decide (wheel < 2)
  | .zeroCrossing _ wheel _ _ _ => decide (wheel < 2)
  | .pwmPeriodSample _ wheel _ => decide (wheel < 2)
  | .wheelFaultInput _ wheel _ => decide (wheel < 2)
  | .indexEdge _ wheel _ _ => decide (wheel < 2)
  | .indexMissing _ wheel => decide (wheel < 2)
  | .whelLockLost _ wheel _ => decide (wheel < 2)
  | .wheelRecoveryTimeout _ wheel => decide (wheel < 2)
  | .wheelStandstill _ wheel => decide (wheel < 2)
  | .wheelCoastTimeout _ wheel => decide (wheel < 2)
  | .hello _ port _ _ _ => decide (port < 4)
  | .helloSend _ _ => true
  | .helloTimeout _ port => decide (port < 4)
  | .uaneLockLost _ port no => decide (port < 4) && decide (no < 5)
  | .uanePortTraining _ port _ => decide (port < 4)
  | .uaneTrainingTimeout _ port => decide (port < 4)
  | .uaneLaneSwap _ port _ => decide (port < 4)
  | .topo _ src _ => decide (src < 65536)
  | .topoSend _ => true
  | .topoStale _ => true
  | .uaneTime _ port _ _ => decide (port < 4)
  | .timeSend _ => true
  | .uaneFrameForward _ port _ _ _ => decide (port < 4)
  | .voteReport _ _ => true
  | .agreement _ _ => true
  | .agreementIssue _ => true
  | .agreementRepeat _ => true
  | .lease _ _ => true
  | .leaseExpiry _ => true
  | .prepare _ src id => decide (src < 65536) && decide (id < 4294967296)
  | .ready _ node id => decide (node < 65536) && decide (id < 4294967296)
  | .refused _ id => decide (id < 4294967296)
  | .go _ src id _ => decide (src < 65536) && decide (id < 4294967296)
  | .commitAck _ node id => decide (node < 65536) && decide (id < 4294967296)
  | .abort _ id => decide (id < 4294967296)
  | .prepareRepeat _ => true
  | .goRepeat _ => true
  | .wallJoinTimeout _ => true
  | .wallJoinExpiry _ => true
  | .seqrWallCommit _ => true
  | .lumaReport _ node _ => decide (node < 65536)
  | .lumaSet _ _ => true
  | .lumaSetRepeat _ => true
  | .sweepStep _ master _ => decide (master < 65536)
  | .sweepResult _ node _ => decide (node < 65536)
  | .sweepCollect _ master sweep => decide (master < 65536) && decide (sweep < 65536)
  | .sweepEnd _ sweep => decide (sweep < 65536)
  | .sweepStepTimeout _ => true
  | .mgmtSweep _ => true
  | .pixel _ src _ _ => decide (src < 65536)
  | .pixelEnd _ src _ _ => decide (src < 65536)
  | .transitLineSend _ stream _ => decide (stream < 16)
  | .transitEndTimeout _ layer => decide (layer < 8)
  | .mgmt _ port src _ _ => decide (port < 4) && decide (src < 65536)
  | .ptpMessage _ _ => true
  | .ppsEdge _ _ => true
  | .eventOccurrence _ _ => true
  | .xrdsEventsLost _ => true
  | .taskActivation _ input => decide (input < 38)
  | .gpioPulseEnd _ gpio => decide (gpio < 16)
  | .dieTempConversion _ _ => true
  | .mewsThermalWarn _ => true
  | .mewsThermalThrottle _ => true
  | .mewsThermalShutdown _ => true
  | .thermalDieReset _ => true
  | .dieSensorExcluded _ sensor => decide (sensor < 12)
  | .throttleInterval _ => true
  | .lampBoardLevel _ channel => decide (channel < 24)
  | .lampThrottleInterval _ => true
  | .rcTrimUpdate _ _ => true
  | .crystalCheck _ _ => true
  | .crystalEdgeTimeout _ => true
  | .mewsWear _ area resource _ value => decide (area < 16) && decide (resource < 65536) && decide (value < 65536)
  | .bankSwapMirrored _ => true
  | .clksSpared _ => true
  | .stringRampEnd _ => true
  | .mgmtCoreSpared _ core _ _ => decide (core < 3)
  | .mgmtFwWatchdog _ _ _ _ _ => true
  | .busTransactionTimeout _ area _ => decide (area < 16)
  | .mewsWatchdog _ => true
  | .watchdogDieReset _ => true
  | .autoWarmRequest _ => true
  | .mgmtLeaseRevoked _ no _ => decide (no < 32)
  | .clksLocked _ pll band _ => decide (pll < 10) && decide (band < 64)
  | .clksBandMiss _ pll => decide (pll < 10)
  | .clksLockLost _ pll _ => decide (pll < 10)
  | .clksHoldoverLimit _ pll => decide (pll < 10)
  | .clksRefLost _ => true
  | .refGood _ => true
  | .domainGate _ domain _ => decide (domain < 26)
  | .powerOn _ => true
  | .resetNLow _ => true
  | .railOutOfRange _ rail => decide (rail < 7)
  | .railRecovered _ => true
  | .resetRelease _ _ _ _ _ _ => true
  | .bootComplete _ => true
  | .bootRetry _ _ => true
  | .wakeGpioEdge _ gpio _ => decide (gpio < 16)
  | .wakeTimer _ => true
  | .tapReset _ => true
  | .idcode _ => true
  | .extest _ _ _ => true
  | .samplePreload _ _ _ => true
  | .bypass _ opcode => decide (opcode < 256)
  | .mailbox _ ctl _ _ _ => decide (ctl < 4)
  | .peek _ _ _ _ _ _ _ => true
  | .dieReset _ => true
  | .uaneFramingLost _ port => decide (port < 4)
  | .vaonRemoved _ => true
  | .wakeResetNRise _ => true
  | .gpioInputEdge _ gpio _ => decide (gpio < 16)
  | .cyclesCounterCompare _ domain _ => decide (domain < 26)
  | .gatewayTagExpiry _ tag => decide (tag < 65536)
  | .dpLinkTrainingFail _ port _ lanes => decide (port < 2) && decide (lanes < 5)
  | .synthesiserSearchFailed _ pll => decide (pll < 10)

end Sys2Proof
end

