-- ==== Sys2Proof/Tests/Slice0.lean ====
section
/-! SUPPORT. The tests of the model: ill-formed commands that are refused, worked examples of the manual, and for every statement with
hypotheses a witness that meets them, clause by clause and at the edge of its range. A witness states the guards of its clauses on
states built here. -/

open Sys2Proof Sys2Proof.Machine

section

set_option Elab.async false

/-! ## Well-formedness: each check refuses a command, and takes the last value of its range -/

theorem test_wellFormed_refuses_1 : ([
    .gysolRequest 0 .udp 0 65536 false [] false, .read 0 65536 0 0 0 false, .read 0 0 65536 0 0 false, .read 0 0 0 256 0 false,
    .read 0 0 0 0 256 false, .write 0 65536 0 0 0 [], .write 0 0 65536 0 0 [], .write 0 0 0 256 0 [], .write 0 0 0 0 256 [],
    .describe 0 65536 0 0 0, .describe 0 0 65536 0 0, .describe 0 0 0 256 0, .describe 0 0 0 0 256, .blobRead 0 65536 0 0 0 0,
    .blobRead 0 0 65536 0 0 0, .blobRead 0 0 0 256 0 0, .blobRead 0 0 0 0 4294967296 0, .blobRead 0 0 0 0 0 4294967296,
    .blobWrite 0 65536 0 0 0 [] false 0, .blobWrite 0 0 65536 0 0 [] false 0, .blobWrite 0 0 0 256 0 [] false 0,
    .blobWrite 0 0 0 0 4294967296 [] false 0, .blobWrite 0 0 0 0 0 [] false 4294967296, .logRead 0 65536 0 0, .logRead 0 0 0 256,
    .subscribe 0 65536 [], .nop 0 65536, .sessionOpen 0 .udp 0 256 0 [], .sessionOpen 0 .udp 0 0 65536 [], .sessionClose 0 65536,
    .pendingSessionTimeout 0 65536, .sessionTimeout 0 65536, .blobStreamAbandon 0 65536 0, .blobStreamAbandon 0 0 256,
    .eventPush 0 65536, .arpRequest 0 4294967296 0, .arpRequest 0 0 4294967296, .icmpEcho 0 4294967296 0 false [],
    .icmpEcho 0 0 4294967296 false [], .stateRequestMews 0 65536, .stateRequestStandby 0 65536, .stateRequestWarming 0 65536,
    .stateRequestSafe 0 65536, .unitCommand 0 65536 0 0, .unitCommand 0 0 65536 0] : List Instr).all (fun i => !i.wellFormed) = true := by decide +kernel

theorem test_wellFormed_refuses_2 : ([
    .unitCommand 0 0 0 65536, .unitForce 0 65536 0, .unitForce 0 0 65536, .mgmtUnitDisagree 0 65536,
    .disagreeAllowanceExpiry 0 65536, .profileSave 0 65536, .profileErase 0 65536, .stageDiscard 0 65536,
    .roleKeyWrite 0 65536 0 [], .roleKeyWrite 0 0 256 [], .commit 0 65536, .hbmTrainFull 0 65536, .hbmTrainQuick 0 65536,
    .hbmTrainingDone 0 false 32 0 [] [], .hbmTrainingDone 0 false 0 0 [] [(32, {})],
    .hbmTrainingDone 0 false 0 0 [] [(0, { rd := [] })], .hbmTrainingDone 0 false 0 0 [] [(0, { wr := [] })],
    .hbmTrainingDone 0 false 0 0 [] [(0, { rd := List.replicate 64 128 })], .arrayRegAccessRead 0 65536 0 0,
    .arrayRegAccessRead 0 0 4 0, .arrayRegAccessWrite 0 65536 0 0 0, .arrayRegAccessWrite 0 0 4 0 0,
    .lampRegAccessRead 0 65536 0 0, .lampRegAccessRead 0 0 16 0, .lampRegAccessWrite 0 65536 0 0 0,
    .lampRegAccessWrite 0 0 16 0 0, .arcdLaneSwapCmd 0 65536 0 0, .arcdLaneSwapCmd 0 0 4 0, .arcdLaneSwapCmd 0 0 0 8,
    .repClear 0 65536 0, .repClear 0 0 4, .traceArm 0 65536 0, .traceArm 0 0 4, .chainCmdEnumerate 0 65536 0,
    .chainCmdEnumerate 0 0 2, .counterSnapshot 0 65536, .counterClear 0 65536 0, .counterSourceWrite 0 65536 0 0,
    .counterSourceWrite 0 0 64 0, .taskPendingEmpty 0 65536 0, .taskPendingEmpty 0 0 38, .taskStickyClear 0 65536 0,
    .irqPendingClear 0 65536 0 0, .irqPendingClear 0 0 4 0, .satStickyClear 0 65536 0 0] : List Instr).all (fun i => !i.wellFormed) = true := by decide +kernel

theorem test_wellFormed_refuses_3 : ([
    .satStickyClear 0 0 4 0, .gpioFunctionWrite 0 65536 0 0, .gpioFunctionWrite 0 0 16 0, .gpioFunctionWrite 0 0 0 256,
    .gfxLinesChunk 0 65536 0 0 [] false 0, .gfxLinesChunk 0 0 8 0 [] false 0, .gfxLinesChunk 0 0 0 4294967296 [] false 0,
    .gfxLinesChunk 0 0 0 0 [] false 4294967296, .gfxPublish 0 65536 0 0, .gfxPublish 0 0 8 0, .gfxPublish 0 0 0 4294967296,
    .spareApprove 0 65536 0 0, .spareApprove 0 0 16 0, .spareApprove 0 0 0 65536, .spareReject 0 65536 0 0, .spareReject 0 0 16 0,
    .spareReject 0 0 0 65536, .spareRejectRecheck 0 16 0, .spareRejectRecheck 0 0 65536, .sparePolicyWrite 0 65536 0,
    .sparePolicyWrite 0 0 256, .stringCommission 0 65536, .resetCmd 0 65536, .sweepStart 0 65536, .sweepAbort 0 65536,
    .fwImageWrite 0 65536 [], .edidWrite 0 65536 0 [], .edidWrite 0 0 2 [], .hpdReassert 0 2, .wallJoin 0 65536 0,
    .wallJoin 0 0 4294967296, .wallCommitStart 0 65536 [], .ingsLinkUp 0 2 0 0 ⟨0, 0, 0, 0, 0, 0, false, 0⟩,
    .ingsLinkUp 0 0 0 5 ⟨0, 0, 0, 0, 0, 0, false, 0⟩, .dpSymbolLockLost 0 2, .dpRetrainTimeout 0 2,
    .ingsFormatChange 0 2 ⟨0, 0, 0, 0, 0, 0, false, 0⟩, .currencySdp 0 2 [], .dpFrameStart 0 2, .dpLineReceived 0 2 ⟨[], [], []⟩,
    .lineWriteAccepted 0 8 0, .dpFrameEnd 0 2, .versionComplete 0 8, .staticCopyComplete 0 8 false,
    .hbmReadReturn 0 9 0 ⟨[], [], []⟩] : List Instr).all (fun i => !i.wellFormed) = true := by decide +kernel

theorem test_wellFormed_refuses_4 : ([
    .hbmReadReturn 0 0 3 ⟨[], [], []⟩, .hbmReadReturn 0 0 0 ⟨[⟨9, 0, 1, false, []⟩], [], []⟩,
    .hbmReadReturn 0 0 0 ⟨[⟨0, 1, 1, false, []⟩], [], []⟩, .hbmReadReturn 0 0 0 ⟨[⟨0, 0, 0, false, []⟩], [], []⟩,
    .hbmReadReturn 0 0 0 ⟨[⟨0, 0, 65, false, []⟩], [], []⟩, .hbmReadReturn 0 0 0 ⟨[⟨0, 0xFFFFFFE0, 2, false, []⟩], [], []⟩,
    .hbmReadReturn 0 0 0 ⟨[⟨0, 0x7FFBFFFE0, 2, false, []⟩], [], []⟩,
    .hbmReadReturn 0 0 0 ⟨[⟨0, 0x7FFFFFFE0, 2, false, []⟩], [], []⟩, .hbmReadReturn 0 0 0 ⟨[], [(64, false)], []⟩,
    .hbmReadReturn 0 0 0 ⟨[], [], [(9, 0)]⟩, .rowShadowCopyDone 0 32, .hbmcReqTimeout 0 9 0, .hbmcReqTimeout 0 0 32,
    .hbmcParityReplay 0 32 0 0 0 false, .hbmcParityReplay 0 0 2 0 0 false, .hbmcParityReplay 0 0 0 2 0 false,
    .hbmRetrainDone 0 32 0 false, .hbmScrubPass 0 3, .hbmDriftTrack 0 32 ⟨[], [], [], 0, 0⟩, .hbmRefresh 0 64 false,
    .hbmStackTempRead 0 2 0, .hbmRowTrackerExpiry 0 2 0, .signatureFinal 0 32, .scheduleDelivery 0 4 [] 0, .compileDeadline 0 4,
    .slotReset 0 4 0 0, .slotReset 0 0 65536 0, .slotReset 0 0 0 16, .blockLoadWindow 0 4 0 0 false false,
    .blockLoadWindow 0 0 65536 0 false false, .blockLoadWindow 0 0 0 16 false false, .epochClear 0 4 0 0, .epochClear 0 0 32 0,
    .epochClear 0 0 0 16, .globalReset 0 4 0, .globalReset 0 0 32, .pipWindow 0 4 [], .wheelMarkPass 0 2, .seqrWheelPhase 0 2,
    .ack 0 4 [], .status 0 4 [], .regData 0 4 [], .echo 0 4 [], .fault 0 4 [], .lane 0 4 []] : List Instr).all (fun i => !i.wellFormed) = true := by decide +kernel

theorem test_wellFormed_refuses_5 : ([
    .laneSwapSend 0 4 0, .laneSwapCodeword 0 4, .arcdLaneSpared 0 4, .arcdAckTimeout 0 4, .arcdReturnSilent 0 4,
    .keepaliveSend 0 4, .arrayTraining 0 4, .arrayTrainingDone 0 4 0 [] 0 0, .loopFeedbackLost 0 4, .loopImplausible 0 4,
    .bandFrozen 0 4, .bandClose 0 4, .warmRampComplete 0 4, .calFreeze 0 4, .pilotRunEnd 0 4, .traceTrigger 0 4,
    .loopTraceDone 0 4, .applyLaunch 0 16, .setSend 0 2 0 0 0 0, .setSend 0 0 16 0 0 0, .statusFrameSend 0 2,
    .lampFrameReturn 0 2 [], .lampDriverLost 0 16, .lampChainDown 0 2 0, .chainEnumerate 0 2 0 [] 0, .chainEnumerate 0 0 256 [] 0,
    .lampInterlock 0 2, .interlockClose 0 2, .lampSensorLost 0 24, .lampRail 0 24, .wheelRun 0 2, .wheelStop 0 2,
    .whelCatch 0 2 0, .alignEnd 0 2, .openLoopHandover 0 2, .whelStartFail 0 2, .wheelLocked 0 2, .zeroCrossing 0 2 0 0 false,
    .pwmPeriodSample 0 2 0, .wheelFaultInput 0 2 false, .indexEdge 0 2 0 0, .indexMissing 0 2, .whelLockLost 0 2 0,
    .wheelRecoveryTimeout 0 2, .wheelStandstill 0 2] : List Instr).all (fun i => !i.wellFormed) = true := by decide +kernel

theorem test_wellFormed_refuses_6 : ([
    .wheelCoastTimeout 0 2, .hello 0 4 false [] [], .helloTimeout 0 4, .uaneLockLost 0 4 0, .uaneLockLost 0 0 5,
    .uanePortTraining 0 4 false, .uaneTrainingTimeout 0 4, .uaneLaneSwap 0 4 false, .topo 0 65536 [], .uaneTime 0 4 [] 0,
    .uaneFrameForward 0 4 [] 0 false, .prepare 0 65536 0, .prepare 0 0 4294967296, .ready 0 65536 0, .ready 0 0 4294967296,
    .refused 0 4294967296, .go 0 65536 0 0, .go 0 0 4294967296 0, .commitAck 0 65536 0, .commitAck 0 0 4294967296,
    .abort 0 4294967296, .lumaReport 0 65536 [], .sweepStep 0 65536 [], .sweepResult 0 65536 [], .sweepCollect 0 65536 0,
    .sweepCollect 0 0 65536, .sweepEnd 0 65536, .pixel 0 65536 [] [], .pixelEnd 0 65536 [] [], .transitLineSend 0 16 0,
    .transitEndTimeout 0 8, .mgmt 0 4 0 [] [], .mgmt 0 0 65536 [] [], .taskActivation 0 38, .gpioPulseEnd 0 16,
    .dieSensorExcluded 0 12, .lampBoardLevel 0 24, .mewsWear 0 16 0 0 0, .mewsWear 0 0 65536 0 0, .mewsWear 0 0 0 0 65536,
    .mgmtCoreSpared 0 3 [] 0, .busTransactionTimeout 0 16 false, .mgmtLeaseRevoked 0 32 0, .clksLocked 0 10 0 0,
    .clksLocked 0 0 64 0] : List Instr).all (fun i => !i.wellFormed) = true := by decide +kernel

theorem test_wellFormed_refuses_7 : ([
    .clksBandMiss 0 10, .clksLockLost 0 10 0, .clksHoldoverLimit 0 10, .domainGate 0 26 false, .railOutOfRange 0 7,
    .wakeGpioEdge 0 16 false, .bypass 0 256, .mailbox 0 4 0 false false, .uaneFramingLost 0 4, .gpioInputEdge 0 16 false,
    .cyclesCounterCompare 0 26 0, .gatewayTagExpiry 0 65536, .dpLinkTrainingFail 0 2 0 0, .dpLinkTrainingFail 0 0 0 5,
    .synthesiserSearchFailed 0 10] : List Instr).all (fun i => !i.wellFormed) = true := by decide +kernel

theorem test_wellFormed_takes_1 : ([
    .gysolRequest 0 .udp 0 65535 false [] false, .read 0 65535 0 0 0 false, .read 0 0 65535 0 0 false, .read 0 0 0 255 0 false,
    .read 0 0 0 0 255 false, .write 0 65535 0 0 0 [], .write 0 0 65535 0 0 [], .write 0 0 0 255 0 [], .write 0 0 0 0 255 [],
    .describe 0 65535 0 0 0, .describe 0 0 65535 0 0, .describe 0 0 0 255 0, .describe 0 0 0 0 255, .blobRead 0 65535 0 0 0 0,
    .blobRead 0 0 65535 0 0 0, .blobRead 0 0 0 255 0 0, .blobRead 0 0 0 0 4294967295 0, .blobRead 0 0 0 0 0 4294967295,
    .blobWrite 0 65535 0 0 0 [] false 0, .blobWrite 0 0 65535 0 0 [] false 0, .blobWrite 0 0 0 255 0 [] false 0,
    .blobWrite 0 0 0 0 4294967295 [] false 0, .blobWrite 0 0 0 0 0 [] false 4294967295, .logRead 0 65535 0 0, .logRead 0 0 0 255,
    .subscribe 0 65535 [], .nop 0 65535, .sessionOpen 0 .udp 0 255 0 [], .sessionOpen 0 .udp 0 0 65535 [], .sessionClose 0 65535,
    .pendingSessionTimeout 0 65535, .sessionTimeout 0 65535, .blobStreamAbandon 0 65535 0, .blobStreamAbandon 0 0 255,
    .eventPush 0 65535, .writeFrame 0 [] false false, .readStatus 0, .readFrame 0, .arpRequest 0 4294967295 0,
    .arpRequest 0 0 4294967295, .icmpEcho 0 4294967295 0 false [], .icmpEcho 0 0 4294967295 false [], .stateRequestMews 0 65535,
    .stateRequestStandby 0 65535, .stateRequestWarming 0 65535] : List Instr).all (fun i => i.wellFormed) = true := by decide +kernel

theorem test_wellFormed_takes_2 : ([
    .stateRequestSafe 0 65535, .unitCommand 0 65535 0 0, .unitCommand 0 0 65535 0, .unitCommand 0 0 0 65535, .unitForce 0 65535 0,
    .unitForce 0 0 65535, .mgmtUnitDisagree 0 65535, .disagreeAllowanceExpiry 0 65535, .profileSave 0 65535,
    .profileSaveComplete 0 false, .profileErase 0 65535, .profileEraseComplete 0, .stageDiscard 0 65535,
    .roleKeyWrite 0 65535 0 [], .roleKeyWrite 0 0 255 [], .commit 0 65535, .commitValidationEnd 0, .seqrStageReady 0,
    .hbmTrainFull 0 65535, .hbmTrainQuick 0 65535, .hbmTrainingDone 0 false 31 0 [] [],
    .hbmTrainingDone 0 false 0 0 [] [(31, {})], .hbmTrainingDone 0 false 0 0 [] [(0, { rd := List.replicate 64 127 })],
    .arrayRegAccessRead 0 65535 0 0, .arrayRegAccessRead 0 0 3 0, .arrayRegAccessWrite 0 65535 0 0 0,
    .arrayRegAccessWrite 0 0 3 0 0, .lampRegAccessRead 0 65535 0 0, .lampRegAccessRead 0 0 15 0,
    .lampRegAccessWrite 0 65535 0 0 0, .lampRegAccessWrite 0 0 15 0 0, .arcdLaneSwapCmd 0 65535 0 0, .arcdLaneSwapCmd 0 0 3 0,
    .arcdLaneSwapCmd 0 0 0 7, .repClear 0 65535 0, .repClear 0 0 3, .traceArm 0 65535 0, .traceArm 0 0 3,
    .chainCmdEnumerate 0 65535 0, .chainCmdEnumerate 0 0 1, .counterSnapshot 0 65535, .counterClear 0 65535 0,
    .counterSourceWrite 0 65535 0 0, .counterSourceWrite 0 0 63 0, .taskPendingEmpty 0 65535 0] : List Instr).all (fun i => i.wellFormed) = true := by decide +kernel

theorem test_wellFormed_takes_3 : ([
    .taskPendingEmpty 0 0 37, .taskStickyClear 0 65535 0, .irqPendingClear 0 65535 0 0, .irqPendingClear 0 0 3 0,
    .satStickyClear 0 65535 0 0, .satStickyClear 0 0 3 0, .gpioFunctionWrite 0 65535 0 0, .gpioFunctionWrite 0 0 15 0,
    .gpioFunctionWrite 0 0 0 255, .gfxLinesChunk 0 65535 0 0 [] false 0, .gfxLinesChunk 0 0 7 0 [] false 0,
    .gfxLinesChunk 0 0 0 4294967295 [] false 0, .gfxLinesChunk 0 0 0 0 [] false 4294967295, .gfxPublish 0 65535 0 0,
    .gfxPublish 0 0 7 0, .gfxPublish 0 0 0 4294967295, .spareApprove 0 65535 0 0, .spareApprove 0 0 15 0,
    .spareApprove 0 0 0 65535, .spareReject 0 65535 0 0, .spareReject 0 0 15 0, .spareReject 0 0 0 65535,
    .spareRejectRecheck 0 15 0, .spareRejectRecheck 0 0 65535, .sparePolicyWrite 0 65535 0, .sparePolicyWrite 0 0 255,
    .stringCommission 0 65535, .resetCmd 0 65535, .sweepStart 0 65535, .sweepAbort 0 65535, .fwImageWrite 0 65535 [],
    .mgmtFwUpdate 0 false, .edidWrite 0 65535 0 [], .edidWrite 0 0 1 [], .hpdReassert 0 1, .wallJoin 0 65535 0,
    .wallJoin 0 0 4294967295, .wallCommitStart 0 65535 [], .ingsLinkUp 0 1 0 0 ⟨0, 0, 0, 0, 0, 0, false, 0⟩,
    .ingsLinkUp 0 0 0 4 ⟨0, 0, 0, 0, 0, 0, false, 0⟩, .dpSymbolLockLost 0 1, .dpRetrainTimeout 0 1,
    .ingsFormatChange 0 1 ⟨0, 0, 0, 0, 0, 0, false, 0⟩, .currencySdp 0 1 [], .dpFrameStart 0 1] : List Instr).all (fun i => i.wellFormed) = true := by decide +kernel

theorem test_wellFormed_takes_4 : ([
    .dpLineReceived 0 1 ⟨[], [], []⟩, .lineWriteAccepted 0 7 0, .dpFrameEnd 0 1, .versionComplete 0 7,
    .staticCopyComplete 0 7 false, .hbmReadReturn 0 8 0 ⟨[], [], []⟩, .hbmReadReturn 0 0 2 ⟨[], [], []⟩,
    .hbmReadReturn 0 0 0 ⟨[⟨8, 0, 1, false, []⟩], [], []⟩, .hbmReadReturn 0 0 0 ⟨[⟨0, 32, 64, false, []⟩], [], []⟩,
    .hbmReadReturn 0 0 0 ⟨[⟨0, 0xFFFFFFE0, 1, false, []⟩], [], []⟩,
    .hbmReadReturn 0 0 0 ⟨[⟨0, 0x7FFBFFFE0, 1, false, []⟩], [], []⟩,
    .hbmReadReturn 0 0 0 ⟨[⟨0, 0x7FFFFFFE0, 1, false, []⟩], [], []⟩, .hbmReadReturn 0 0 0 ⟨[], [(63, false)], []⟩,
    .hbmReadReturn 0 0 0 ⟨[], [], [(8, 0)]⟩, .rowShadowCopyDone 0 31, .hbmcReqTimeout 0 8 0, .hbmcReqTimeout 0 0 31,
    .hbmcParityReplay 0 31 0 0 0 false, .hbmcParityReplay 0 0 1 0 0 false, .hbmcParityReplay 0 0 0 1 0 false,
    .hbmRetrainDone 0 31 0 false, .hbmScrubPass 0 2, .hbmDriftTrack 0 31 ⟨[], [], [], 0, 0⟩, .hbmRefresh 0 63 false,
    .hbmStackTempRead 0 1 0, .hbmRowTrackerExpiry 0 1 0, .frameBoundary 0 0 false, .signatureFinal 0 31, .bandEstimateLatch 0,
    .scheduleDelivery 0 3 [] 0, .compileDeadline 0 3, .plgnPlaneLate 0 [], .slotReset 0 3 0 0, .slotReset 0 0 65535 0,
    .slotReset 0 0 0 15, .blockLoadWindow 0 3 0 0 false false, .blockLoadWindow 0 0 65535 0 false false,
    .blockLoadWindow 0 0 0 15 false false, .epochClear 0 3 0 0, .epochClear 0 0 31 0, .epochClear 0 0 0 15, .globalReset 0 3 0,
    .globalReset 0 0 31, .pipWindow 0 3 [], .wheelMarkPass 0 1] : List Instr).all (fun i => i.wellFormed) = true := by decide +kernel

theorem test_wellFormed_takes_5 : ([
    .seqrWheelPhase 0 1, .fsyncEdge 0 0, .fsyncEdgeMissing 0, .fsyncLost 0, .ack 0 3 [], .status 0 3 [], .regData 0 3 [],
    .echo 0 3 [], .fault 0 3 [], .lane 0 3 [], .laneSwapSend 0 3 0, .laneSwapCodeword 0 3, .arcdLaneSpared 0 3,
    .arcdAckTimeout 0 3, .arcdReturnSilent 0 3, .keepaliveSend 0 3, .arrayTraining 0 3, .arrayTrainingDone 0 3 0 [] 0 0,
    .loopTick 0 [], .loopFeedbackLost 0 3, .loopImplausible 0 3, .bandFrozen 0 3, .bandClose 0 3, .warmRampComplete 0 3,
    .calFreeze 0 3, .pilotRunEnd 0 3, .traceTrigger 0 3, .loopTraceDone 0 3, .applyLaunch 0 15, .setSend 0 1 0 0 0 0,
    .setSend 0 0 15 0 0 0, .statusFrameSend 0 1, .lampFrameReturn 0 1 [], .lampDriverLost 0 15, .lampChainDown 0 1 0,
    .chainEnumerate 0 1 0 [] 0, .chainEnumerate 0 0 255 [] 0, .lampInterlock 0 1, .interlockClose 0 1, .lampIntlkDiscrepancy 0,
    .slowConversion 0 0 0, .lampSensorLost 0 23, .lampRail 0 23, .wheelRun 0 1, .wheelStop 0 1] : List Instr).all (fun i => i.wellFormed) = true := by decide +kernel

theorem test_wellFormed_takes_6 : ([
    .whelCatch 0 1 0, .alignEnd 0 1, .openLoopHandover 0 1, .whelStartFail 0 1, .wheelLocked 0 1, .zeroCrossing 0 1 0 0 false,
    .pwmPeriodSample 0 1 0, .wheelFaultInput 0 1 false, .indexEdge 0 1 0 0, .indexMissing 0 1, .whelLockLost 0 1 0,
    .wheelRecoveryTimeout 0 1, .wheelStandstill 0 1, .wheelCoastTimeout 0 1, .hello 0 3 false [] [], .helloSend 0 0,
    .helloTimeout 0 3, .uaneLockLost 0 3 0, .uaneLockLost 0 0 4, .uanePortTraining 0 3 false, .uaneTrainingTimeout 0 3,
    .uaneLaneSwap 0 3 false, .topo 0 65535 [], .topoSend 0, .topoStale 0, .uaneTime 0 3 [] 0, .timeSend 0,
    .uaneFrameForward 0 3 [] 0 false, .voteReport 0 [], .agreement 0 [], .agreementIssue 0, .agreementRepeat 0, .lease 0 [],
    .leaseExpiry 0, .prepare 0 65535 0, .prepare 0 0 4294967295, .ready 0 65535 0, .ready 0 0 4294967295, .refused 0 4294967295,
    .go 0 65535 0 0, .go 0 0 4294967295 0, .commitAck 0 65535 0, .commitAck 0 0 4294967295, .abort 0 4294967295, .prepareRepeat 0] : List Instr).all (fun i => i.wellFormed) = true := by decide +kernel

theorem test_wellFormed_takes_7 : ([
    .goRepeat 0, .wallJoinTimeout 0, .wallJoinExpiry 0, .seqrWallCommit 0, .lumaReport 0 65535 [], .lumaSet 0 [],
    .lumaSetRepeat 0, .sweepStep 0 65535 [], .sweepResult 0 65535 [], .sweepCollect 0 65535 0, .sweepCollect 0 0 65535,
    .sweepEnd 0 65535, .sweepStepTimeout 0, .mgmtSweep 0, .pixel 0 65535 [] [], .pixelEnd 0 65535 [] [], .transitLineSend 0 15 0,
    .transitEndTimeout 0 7, .mgmt 0 3 0 [] [], .mgmt 0 0 65535 [] [], .ptpMessage 0 (.sync 0 0 0), .ppsEdge 0 false,
    .eventOccurrence 0 [], .xrdsEventsLost 0, .taskActivation 0 37, .gpioPulseEnd 0 15, .dieTempConversion 0 [],
    .mewsThermalWarn 0, .mewsThermalThrottle 0, .mewsThermalShutdown 0, .thermalDieReset 0, .dieSensorExcluded 0 11,
    .throttleInterval 0, .lampBoardLevel 0 23, .lampThrottleInterval 0, .rcTrimUpdate 0 0, .crystalCheck 0 0,
    .crystalEdgeTimeout 0, .mewsWear 0 15 0 0 0, .mewsWear 0 0 65535 0 0, .mewsWear 0 0 0 0 65535, .bankSwapMirrored 0,
    .clksSpared 0, .stringRampEnd 0, .mgmtCoreSpared 0 2 [] 0] : List Instr).all (fun i => i.wellFormed) = true := by decide +kernel

theorem test_wellFormed_takes_8 : ([
    .mgmtFwWatchdog 0 0 [] 0 false, .busTransactionTimeout 0 15 false, .mewsWatchdog 0, .watchdogDieReset 0, .autoWarmRequest 0,
    .mgmtLeaseRevoked 0 31 0, .clksLocked 0 9 0 0, .clksLocked 0 0 63 0, .clksBandMiss 0 9, .clksLockLost 0 9 0,
    .clksHoldoverLimit 0 9, .clksRefLost 0, .refGood 0, .domainGate 0 25 false, .powerOn 0, .resetNLow 0, .railOutOfRange 0 6,
    .railRecovered 0, .resetRelease 0 [] [] 0 false false, .bootComplete 0, .bootRetry 0 [], .wakeGpioEdge 0 15 false,
    .wakeTimer 0, .tapReset 0, .idcode 0, .extest 0 0 0, .samplePreload 0 0 0, .bypass 0 255, .mailbox 0 3 0 false false,
    .peek 0 false false 0 0 0 false, .dieReset 0, .uaneFramingLost 0 3, .vaonRemoved 0, .wakeResetNRise 0,
    .gpioInputEdge 0 15 false, .cyclesCounterCompare 0 25 0, .gatewayTagExpiry 0 65535, .dpLinkTrainingFail 0 1 0 0,
    .dpLinkTrainingFail 0 0 0 4, .synthesiserSearchFailed 0 9] : List Instr).all (fun i => i.wellFormed) = true := by decide +kernel


/-! ## The worked examples of the manual -/

/-- "One pixel of V0 on cube 0x0104": pseudo-channel 36, row 8,292, bank group and bank 0b1_11 over column 14. -/
theorem test_address_map : addrMap 12 0x206477DC0 = (36, 135863744) ∧ localPlace 135863744 = ⟨8292, 1, 3, 14⟩ := by
  decide +kernel

/-- "The hatch colour on cube 0x0100": S3 of the three primaries. -/
theorem test_gamut_rows :
    (upTo 3).map (fun k => gamutRow [5139, 2698, 355, 566, 7533, 93, 134, 721, 7337] k [262143, 84900, 0]) =
      [192409, 96182, 11760] := by decide +kernel

/-- "One frame of W24": Q = 13 fails, Q = 12 gives n = 201, L' = 39,581, η = 0.9512 and the safe schedule's epochs. -/
theorem test_scale_w24 :
    let v := (State.reset.setNum 0xB001 0 120000).live
    (tryScale v 1 2470 3000 13).isNone ∧
    (tryScale v 1 2470 3000 12).any (fun p => p.q = 12 && p.lp = 39581 && p.n = 201 && p.emin = 8 && p.eallow = 9 &&
      p.duty = 9512 && instants p.timing 0 p.safe =
        [(0, 3797245), (3802745, 3918957), (3924457, 4040669), (4046169, 4162381), (4167881, 4284093), (4289593, 4405805),
          (4411305, 4487936), (4493436, 8290681)] && slackOf p.timing 8333333 p.safe = 37152) := by decide +kernel

/-- "One tick of green on cube 0x0109". -/
theorem test_pid_tick :
    (pidStep (16384 + 65536) 4096 8192 16384 { i := -10485760, d := 524288 } 26496 393 58 (-40) 0 32767).i = -8876032 ∧
    (pidStep (16384 + 65536) 4096 8192 16384 { i := -10485760, d := 524288 } 26496 393 58 (-40) 0 32767).d = 737280 ∧
    (pidStep (16384 + 65536) 4096 8192 16384 { i := -10485760, d := 524288 } 26496 393 58 (-40) 0 32767).u = 26601 ∧
    sentValue 26601 2 = 13300 := by decide +kernel

/-- R382: a code of 26,214 of a 10 kΩ part with β 3,435 reads 574. -/
theorem test_ntc : ntcTemp (10000 * 2 ^ 40 + 10000 * 2 ^ 16 + 3435) 26214 65536 = 574 := by decide +kernel

/-- "Two descriptions on cube 0x0109". -/
theorem test_describe :
    State.reset.opDescribe ⟨3, 0, 0x8020, 1, 1, []⟩ = (0, [0x02, 0x0D, 0x03, 0x01, 0x12, 0x02, 0x00, 0x00, 0x0A, 0x32, 0x00, 0x00]) ∧
    State.reset.opDescribe ⟨3, 0, 0xC854, 2, 1, []⟩ = (0, [0x01, 0x0A, 0x01, 0x00, 0x10, 0x00, 0x00, 0x00]) ∧
    State.reset.opRead ⟨1, 1⟩ ⟨1, 0, 0xC854, 0, 1, []⟩ = (0, [6]) := by decide +kernel
/-! ## Witnesses: states that meet the hypotheses of the statements -/

/-- The state right after reset, with a unit commanded and observed. -/
def withUnit (w cmd obs : Nat) (s : State) : State := s.modUnits fun m => mapPut m w { cmd := cmd, obs := obs }

/-- A state as a command at local time `t` meets it. -/
abbrev meet (t : Nat) (s : State) : State := s.advance t

def litState : State := State.reset.modMews fun m => { m with dev := .serving }

def hbmState : State := meet 86400000000000 (State.reset.modHbm fun h => { h with
  training := 1
  status := 2
  shadows := setAt h.shadows 31 (some { at_ := ⟨0, 0, 0, 0⟩, copying := true })
  chans := setAt h.chans 31 { st := 2 }
  ports := setAt (setAt h.ports 8 { panicW := true }) 0 { queue := [{ word := 0, write := false, at_ := 0, served := true }] }
  postponed := setAt h.postponed 63 7
  trackers := [[], [⟨⟨0, 0, 0, 0⟩, 1, 0, false⟩]] })

/-- A read that has waited 20 µs to the nanosecond. -/
def waitState : State := meet 20000 (State.reset.modHbm fun h => { h with
  ports := setAt h.ports 8 { queue := [{ word := 0, write := true, at_ := 0 }] } })

theorem witness_FrameMemoryRowsComplete :
    hbmState.hbm.training = 1 ∧ hbmState.hbm.shadows.getD 31 none = some { at_ := ⟨0, 0, 0, 0⟩, copying := true } ∧
    (hbmState.hbm.chans.getD 31 {}).st = 2 ∧ (hbmState.hbm.ports.any fun p => p.panic || p.panicW) = true ∧
    natAt hbmState.hbm.postponed 63 < 8 ∧ (1360 : Int) < 1361 ∧ hbmState.hbm.hot.getD 1 false = false ∧
    (hbmState.hbm.trackers[1]? = some [⟨⟨0, 0, 0, 0⟩, 1, 0, false⟩] ∧ 0 + 86400000000000 ≤ hbmState.now) ∧
    (hbmState.hbm.turnedAway ⟨[], [], []⟩ = [] ∧ ((hbmState.hbmTraffic ⟨[], [], []⟩).hbm.ports.getD 0 {}).oldestRead.any (fun x =>
      !((hbmState.hbmTraffic ⟨[], [], []⟩).hbm.chans.getD (rowOf (hbmState.hbmTraffic ⟨[], [], []⟩).hbm.grain (x.word * 32)).chan {}).replay.contains
        (x.word, false)) = true) ∧
    ((hbmState.hbmTraffic ⟨[], [], []⟩).hbm.ports.getD 1 {}).oldestRead = none ∧
    (hbmState.hbm.status = 2 ∧ hbmState.hbm.scrubAt + hbmState.scrubGap ≤ hbmState.now ∧
      (hbmState.hbm.ports.any fun p => p.queue.any fun x => x.write && x.word = hbmState.hbm.scrubNext) = false) ∧
    ((hbmState.hbm.chans.getD 30 {}).st = 0 ∧ (hbmState.hbm.chans.getD 30 {}).driftAt + 100000000 ≤ hbmState.now) ∧
    waitState.overdue 8 (rowOf waitState.hbm.grain 0).chan = some 0 ∧ (waitState.hbm.ports.getD 8 {}).queue.length = 1 := by
  decide +kernel

def dpFormat : DpFormat := ⟨16, 2, 6, 0, 8, 0, false, 100⟩

def dpState : State := meet 1000000000 (((withUnit (wPort 1) 1 2 litState).modIngs fun g => { g with
  ports := setAt g.ports 1 { fmt := some dpFormat, active := true, good := true, lines := 1, advRate := 1 }
  layers := setAt g.layers 7 { versions := [{ num := 1, capture := 0, done := 0, buf := 0, epoch := 0 }],
                               writing := some { num := 2, capture := 0, buf := 1, copying := true } } }).setNum 0x4000 1 1)

def dpDown : State := meet 1000000000 (((withUnit (wPort 1) 1 1 litState).modIngs fun g => { g with
  ports := setAt g.ports 1 { lostAt := some 0, advRate := 1, advLanes := 1, hpd := true, hpdBackAt := some 1000000000 } }).setNum 0x4000 1 1)

theorem witness_IngestRowsComplete :
    (dpState.obs (wPort 1) = 2 ∧ (dpState.port 1).good = true ∧ (dpState.port 1).active = true ∧
      (dpState.port 1).fmt = some dpFormat ∧ (dpState.port 1).dropRest = false ∧ (dpState.port 1).lines < dpFormat.height ∧
      (dpState.modPort 1 fun p => { p with lines := p.lines + 1 }).lineBufferFull 1 = false ∧ (dpState.port 1).held = none ∧
      (dpState.vlayer 7).writing.any (fun w => w.copying) = true ∧ (dpState.vlayer 7).versions ≠ [] ∧
      (dpState.vlayer 7).finishing = none ∧ (dpState.port 1).sdp = none) ∧
    (dpDown.port 1).lostAt = some 0 ∧ dpDown.obs (wPort 1) = 1 ∧ 0 + 1000000000 ≤ dpDown.now ∧
    ((dpDown.port 1).advRate < 2 ∧ (dpDown.port 1).advLanes < 2) ∧ (dpDown.port 1).canTrain 1 1 = true ∧
    (dpDown.port 1).hpdBackAt = some 1000000000 ∧ dpDown.hpdWanted 1 = true := by decide +kernel

/-! ### The currency packet, whose OUI is the part's -/

/-- The bytes of a currency packet that its check value covers: a packet that claims nothing. -/
def sdpHead (oui : Nat) : Bytes := [0x00, 0x81, 0x01, 0x1C] ++ toLE 3 oui ++ [1] ++ List.replicate 16 0

def sdpPacket (oui crc : Nat) : Bytes := sdpHead oui ++ toLE 4 crc ++ List.replicate 4 0

theorem reflect_le (v w : Nat) (l : List Nat) (a : Nat) :
    l.foldl (fun a k => if v.testBit k then a + 2 ^ (w - 1 - k) else a) a ≤ a + (l.map fun k => 2 ^ (w - 1 - k)).sum := by
  induction l generalizing a with
  | nil => simp
  | cons k l ih =>
    simp only [List.foldl_cons, List.map_cons, List.sum_cons]
    refine Nat.le_trans (ih _) ?_
    generalize 2 ^ (w - 1 - k) = p
    split <;> omega

theorem crc32_lt (b : Bytes) : crc32 b < 2 ^ 32 :=
  Nat.xor_lt_two_pow (Nat.lt_of_le_of_lt (reflect_le _ 32 (upTo 32) 0) (by decide)) (by decide)

theorem currency_sdp (oui crc : Nat) (h : oui < 2 ^ 24) (g : crc < 2 ^ 32) (e : crc = crc32 (sdpHead oui)) :
    readSdp oui false (sdpPacket oui crc) = .good ⟨none, none⟩ := by
  have ho : leAt (sdpPacket oui crc) (4 + 0) 3 = oui := ofLE_toLE 3 oui (by omega)
  have hc : leAt (sdpPacket oui crc) (4 + 20) 4 = crc := ofLE_toLE 4 crc (by omega)
  have ht : (sdpPacket oui crc).take 24 = sdpHead oui := rfl
  have h1 : leAt (sdpPacket oui crc) 0 2 = 0x8100 := show ofLE [0x00, 0x81] = 0x8100 by decide +kernel
  have h2 : leAt (sdpPacket oui crc) 2 1 = 1 := rfl
  have h3 : leAt (sdpPacket oui crc) 3 1 = 0x1C := rfl
  have h4 : leAt (sdpPacket oui crc) (4 + 3) 1 = 1 := rfl
  have h5 : leAt (sdpPacket oui crc) (4 + 4) 1 = 0 := rfl
  have hl : (sdpPacket oui crc).length = 32 := rfl
  simp [readSdp, ho, hc, ht, h1, h2, h3, h4, h5, hl, ← e, fld, bit]

/-- A packet that the sink of the part takes. -/
theorem witness_IngestRows_sdp : ∃ packet, readSdp (Config.sdpOui % 2 ^ 24) false packet = .good ⟨none, none⟩ :=
  ⟨_, currency_sdp _ _ (Nat.mod_lt _ (by decide)) (crc32_lt _) rfl⟩

/-- One epoch with one slot of plane 0. -/
def oneEpoch : SchedEpoch := ⟨0, 0, [(0, 0)], false⟩

/-- Group 1 is a TRIO of arrays 1 to 3. Its frame has one slot of 100 ns, 10 ns for a block, and its plan is that of W24. -/
def groupState (t : Nat) : State :=
  let v := (litState.setNum 0xB030 0 6).setNum 0xB031 0 14
  meet t ((withUnit (wArray 3) 3 4 v).modPlgn fun p => { p with
    groups := setAt p.groups 1 {
      plan := tryScale v.live 1 2470 3000 12
      sched := some ⟨0, 1, ⟨100, 10, 10, 10⟩, 0, 0, 0, 0, [oneEpoch]⟩
      settings := [50] }
    arrays := setAt p.arrays 3 { planes := [[1]] } })

/-- The guards of a slot and of a block's load window that opens at an instant. -/
def windowOpen (s : State) (start : Int) : Prop :=
  (s.plgroup (portGroup s.live 3)).sched.any (fun sc => slotAt sc.epochs 0 0 = some (0, 0, 0, 0) &&
    ((instants sc.timing 0 sc.epochs)[0]? = some (0, 250)) && decide (start ≤ (s.wall : Int)) &&
    decide ((s.wall : Int) < start + (sc.timing.tblk + 1 : Nat)) && s.takesBlocks 3 sc.frame && decide (s.tF sc.frame = 0)) = true

theorem witness_ArrayScheduleRowsComplete_slots :
    (windowOpen (groupState 0) (-10) ∧ windowOpen (groupState 0) 0 ∧ windowOpen (groupState 10) 0 ∧ portGroup (groupState 0).live 3 = 1 ∧
      ((groupState 0).plarray 3).planes.getD (planeIndex ((groupState 0).arrayPrims 3).length 0 0) [] = [1] ∧
      ((groupState 0).plarray 3).missing = [] ∧ ((groupState 0).hbm.chans.any fun c => c.st = 3) = false) ∧
    (((groupState 109).epochOf 1 0).any (fun x => x.2.1 = 0 && x.2.2.1 = 250 &&
      decide ((groupState 109).tF (groupState 109).seqr.count + (resetAt x.2.2.2 0 0 1 : Int) + 10 = 110)) = true ∧
      (groupState 109).wall = 109 ∧ (groupState 259).wall = 259 ∧ (groupState 259).drivenOf 1 = [3]) ∧
    (groupState 9).seqr.status ≠ 4 ∧ (groupState 9).wall = 9 ∧ (groupState 19).wall = 19 := by
  unfold windowOpen; decide +kernel

theorem witness_ArrayScheduleRowsComplete_schedules :
    ((groupState 0).firm.restartUntil ≤ (groupState 0).now ∧ ((groupState 0).plgroup 1).settings ≠ [] ∧
      ((groupState 0).plgroup 1).next = none ∧ groupOf (groupState 0).live 1 = some (.trio, [1, 2, 3]) ∧
      ((groupState 50000).wall : Int) ≤ (groupState 50000).compileBy 1 1 ∧
      ((groupState 50000).plgroup 1).inputs ≠ ((groupState 50000).plgroup 1).prevInputs) ∧
    ((groupState 50000).compileBy 1 1 ≤ ((groupState 50000).wall : Int)) ∧
    (((groupState 50000).plgroup 1).plan.any (fun p => ((groupState 50000).searched 1 p .trio [1, 2, 3] [p.safe]).isSome &&
      ((groupState 50000).searched 1 p .trio [1, 2, 3] []).isNone) = true) ∧
    ((groupState 8323333).makesPlanes 1 3 = true ∧ (groupState 8323333).composes 1 = true ∧
      (groupState 8323333).tF 1 - 10000 = 8323333 ∧ (groupState 8323333).plgn.lateFor = none) := by
  decide +kernel

/-- A group whose inputs are those of the frame before. -/
def sameState : State := (groupState 0).modPlGroup 1 fun q => { q with delivered := q.sched, prevInputs := q.inputs }

theorem witness_ArrayScheduleRowsComplete_reuse : (sameState.plgroup 1).inputs = (sameState.plgroup 1).prevInputs ∧
    (sameState.plgroup 1).delivered.isSome = true ∧ (sameState.plgroup 1).next = none := by decide +kernel

/-- An array that waits to be trained, in training, and driven. -/
def arrayState (obs : Nat) : State := meet 0 (withUnit (wArray 3) 3 obs litState)

theorem witness_ArrayScheduleRowsComplete_links :
    (arrayState 4).obs (wArray 3) = 4 ∧ (arrayState 6).callsTraining 3 = true ∧ (arrayState 6).obs (wArray 3) ≠ 1 := by
  decide +kernel

/-- A training that ends READY: the registers it reads match the geometry of the array. -/
def trainState : State := meet 0 ((withUnit (wArray 3) 3 1 litState).modAport 3 fun p => { p with trainSince := 0 })

theorem witness_ArrayTrainingCompletes :
    trainState.obs (wArray 3) = 1 ∧
    (trainState.atrainEnd 3 0 [1, 1, 2 ^ 32 - 1, 0, 0, 0, 0, 0, 0, 64] 0 0).obs (wArray 3) = 2 := by decide +kernel

/-- A return message: 13 bytes and their check value. -/
def retMsg (code : Nat) (b : Bytes) : Bytes :=
  let m := (toLE 1 code ++ b ++ List.replicate 12 0).take 13
  m ++ toLE 2 (crc16 m)

def swapState : State := meet 100000 ((withUnit (wArray 3) 3 4 litState).modAport 3 fun p => { p with
  swap := some ⟨0, 8, 3, 0, none, false⟩, flags := 128, lastReturn := some 0, waiting := [(0, 98000, false)] })

theorem witness_ArrayReturnRowsComplete :
    ([0x10, 0x11, 0x12, 0x13, 0x14].all fun c => retOk (retMsg c []) && leAt (retMsg c []) 0 1 = c) = true ∧
    (swapState.aport 3).swap = some ⟨0, 8, 3, 0, none, false⟩ ∧ bit (swapState.aport 3).flags 7 = true ∧
    swapState.swapMay 3 2100 3 = true ∧
    ((swapState.modAport 3 fun p => { p with swap := some ⟨0, 8, 3, 0, some 9, false⟩ }).aport 3).swap =
      some ⟨0, 8, 3, 0, some 9, false⟩ ∧
    ((swapState.aport 3).waiting.filter fun w => decide (w.2.1 + 2000 ≤ swapState.now)) ≠ [] ∧
    (swapState.aport 3).lastReturn = some 0 ∧ 0 + 100000 ≤ swapState.now ∧ swapState.obs (wArray 3) = 4 ∧
    swapState.mews.dev.lit = true := by
  decide +kernel

def lightState (t : Nat) : State := meet t (((withUnit (wBand 3) 1 1 litState).modSeqr fun q => { q with status := 1 }).modLoop fun l => { l with
  bands := setAt l.bands 3 { miss := 2, impl := 32, plaus := 64, warm := some 600, failRun := 4, pilotTick := 64
                             readings := (List.range 256).map fun k => (0, if k % 2 = 0 then 0 else 32767) }
  traces := [{ state := 1 }, { state := 2, left := 0 }, {}, {}] })

/-- A pilot run that ends with as many valid ticks as count, and with one fewer. -/
def pilotState (n : Nat) : State := (lightState 0).modBand 3 fun x => { x with pilotN := n }

theorem witness_LightLoopRowsComplete :
    ((lightState 0).mews.dev.lit = true ∧
      (lightState 8283333).tF ((lightState 8283333).seqr.count + 1) ≤ ((lightState 8283333).wall : Int) + 50000 ∧
      ((lightState 8283333).loop.ests.any fun e => e.frame = (lightState 8283333).seqr.count + 2) = false) ∧
    ((lightState 0).mews.dev.counts = true ∧ (lightState 0).loop.tick + 1 ≤ loopK (lightState 0).live ∧
      (lightState 20000).tF (lightState 20000).seqr.count + (((lightState 20000).loop.tick + 1) * (lightState 20000).num 0xC006 : Nat) ≤
        ((lightState 20000).wall : Int)) ∧
    natAt (lightState 0).loop.pips 3 < 16 ∧ (2 ≤ ((lightState 0).lband 3).miss ∧ (lightState 0).obs (wBand 3) = 1) ∧
    32 ≤ ((lightState 0).lband 3).impl ∧ frozenVerdict ((lightState 0).lband 3).readings ((lightState 0).num 0xC050 3) = true ∧
    (64 ≤ ((lightState 0).lband 3).plaus ∧ ((withUnit (wBand 3) 1 2 (lightState 0)).unitRec (wBand 3)).cmd = 1 ∧
      (withUnit (wBand 3) 1 2 (lightState 0)).obs (wBand 3) = 2) ∧
    (((lightState 0).lband 3).warm = some 600 ∧ (lightState 0).num 0xC045 ≤ 600) ∧
    (4 ≤ ((lightState 0).lband 3).failRun ∧ bit ((lightState 0).lband 3).fault 4 = false) ∧ (64 ≤ ((pilotState 55).lband 3).pilotTick ∧ ((pilotState 55).lband 3).pilotN < 56) ∧
    (64 ≤ ((pilotState 56).lband 3).pilotTick ∧ 56 ≤ ((pilotState 56).lband 3).pilotN ∧ (pilotState 56).obs (wBand 3) = 1) ∧
    (fld ((lightState 0).num 0xC060 0) 39 32 = 0 ∧ ((lightState 0).loop.traces.getD 0 {}).state = 1) ∧
    (((lightState 0).loop.traces.getD 1 {}).state = 2 ∧ ((lightState 0).loop.traces.getD 1 {}).left = 0) := by decide +kernel

def closedBand : State := meet 0 ((withUnit (wBand 3) 1 0 litState).modBand 3 fun x => { x with plaus := 64, warmDone := true, goodCals := 8 })

theorem witness_LightLoopBandCloses :
    64 ≤ (closedBand.lband 3).plaus ∧ (closedBand.unitRec (wBand 3)).cmd = 1 ∧ closedBand.obs (wBand 3) = 0 ∧
    ((closedBand.lband 3).warm = none ∧ (closedBand.lband 3).warmDone = true) ∧ closedBand.calValid 3 = true := by decide +kernel

/-- A lamp-link frame with its check value. -/
def lampFrame (b : Bytes) : Bytes := b ++ toLE 2 (crc16 b)

def lampState : State := meet 100000000 (((withUnit (wDriver 13) 1 2 litState).modLamp fun l => { l with
  chains := [{ st := 1 }, { st := 2 }]
  differ := some 0
  intlkA := true
  slow := setAt (setAt l.slow 22 { st := 1, badKind := 2, bad := 3 }) 23 { rail := 0, railKind := 1, railRun := 3, value := 32767 }
  }).setNum 0xD002 1 6 |>.setNum 0xD040 22 1 |>.setNum 0xD040 23 2 |>.setNum 0xD024 0 50)

theorem witness_LampRowsComplete :
    ((lampState.chain 1).st = 2 ∧ (lampState.chain 0).st = 1) ∧
    (lampState.frameNs + 4 * setChars (lampState.num 0xD002 1) + 200 = 100000460 ∧ lampState.tickWithheld 3 100000460 = false ∧
      bit 8 3 = true) ∧ lampCrcOk (lampFrame [0x21, 2, 0x0F, 0]) = true ∧
    ((lampState.chainDrivers (13 / 8)).contains 13 = true ∧ lampState.obs (wDriver 13) ≠ 4 ∧
      (lampState.driver 13).lastAck + 100000 ≤ lampState.now) ∧
    (lampState.chain 1).lastFrame + 100000 ≤ lampState.now ∧
    (lampState.lamp.differ = some 0 ∧ 0 + lampState.num 0xD024 * 1000000 < lampState.now ∧ lampState.lamp.differTold = false) ∧
    (lampState.num 0xD040 22 = 1 ∧ (lampState.lamp.slow.getD 22 {}).st = 1 ∧ 3 ≤ (lampState.lamp.slow.getD 22 {}).bad) ∧
    (lampState.num 0xD040 23 = 2 ∧ (lampState.lamp.slow.getD 23 {}).railKind ≠ (lampState.lamp.slow.getD 23 {}).rail ∧
      3 ≤ (lampState.lamp.slow.getD 23 {}).railRun) ∧
    lampState.lamp.intlkA = true ∧ lampState.lamp.intlkB = false ∧
    ((lampState.modLamp fun l => { l with intlkA := false, intlkB := true }).lamp.intlkA = false) := by decide +kernel

def hotLamp : State := meet 0 ((litState.modTherm fun m => { m with lamp := setAt m.lamp 23 { up := [4, 4, 4] } }).modLamp fun l =>
  { l with slow := setAt l.slow 23 { st := 1, value := 3000 } })

theorem witness_LampBoardShutdown :
    (hotLamp.therm.lamp.getD 23 {}).lv.getD 2 false = false ∧
    (([2, 1, 0].foldl (fun (s : State) l => State.lampJudge 23 s l) hotLamp).therm.lamp.getD 23 {}).lv.getD 2 false = true := by
  decide +kernel

def wheelState (cmd obs : Nat) (w : Wheel) : State := (withUnit (wWheel 1) cmd obs litState).modWheel 1 fun _ => w

def listenState : State := meet 0 (wheelState 4 1 { listenEnd := some 0 })
def restState : State := meet 0 ((wheelState 4 0 {}).setNum 0xE001 1 1)
def alignState : State := meet 1000000000 ((wheelState 4 2 {}).setNum 0xE018 1 1000)
def openState : State := meet 1000000000 (((wheelState 4 3 { seen := 6 }).setNum 0xE019 1 1200).setNum 0xE01A 1 1000)
def lockState : State := meet 0 (wheelState 4 3 { closed := true, speed := 2000, good := 256, indexGood := 4 } |>.setNum 0xE003 1 2000)
def indexState : State := meet 86400000000000 (wheelState 4 4 { lastIndex := some 0, speed := 2000, tc := 1000000, bad := 8 } |>.setNum 0xE004 1 1)
def recoverState : State := meet 60000000000 (wheelState 4 1 { recovering := some 55000000000 })
def brakeState (al : Bool) : State := meet 5000000000 (wheelState 4 6 { toAlign := al })
def coastState : State := meet 5000000000 (wheelState 4 5 { toAlign := true })
def stopState : State := meet 0 (wheelState 0 4 {})

theorem witness_WheelRowsComplete :
    ((restState.unitRec (wWheel 1)).cmd = 4 ∧ restState.fitted 1 = true ∧ restState.obs (wWheel 1) = 0) ∧
    ((stopState.unitRec (wWheel 1)).cmd = 0 ∧ (stopState.wheel 1).fromStop = false ∧
      stopState.obs (wWheel 1) = 4) ∧
    ((listenState.wheel 1).listenEnd = some 0 ∧ listenState.num 0xE01E 1 ≠ 0) ∧
    (alignState.obs (wWheel 1) = 2 ∧ (alignState.wheel 1).alignSince + alignState.num 0xE018 1 * 1000000 ≤ alignState.now) ∧
    (openState.obs (wWheel 1) = 3 ∧ (openState.wheel 1).closed = false ∧ openState.num 0xE01A 1 ≤ openState.forcedSpeed 1 ∧
      6 ≤ (openState.wheel 1).seen ∧ 12 * openState.num 0xE01A 1 ≤ 10 * openState.forcedSpeed 1) ∧
    (recoverState.obs (wWheel 1) = 1 ∧ (recoverState.unitRec (wWheel 1)).cmd = 4 ∧
      (recoverState.wheel 1).trySince + 60000000000 ≤ recoverState.now) ∧
    (lockState.obs (wWheel 1) = 3 ∧ (lockState.wheel 1).closed = true ∧
      100 * (1000 * (lockState.wheel 1).speed - runSpeed lockState.live 1).natAbs ≤ runSpeed lockState.live 1 ∧
      256 ≤ (lockState.wheel 1).good ∧ (lockState.num 0xE004 1 = 0 ∨ 4 ≤ (lockState.wheel 1).indexGood)) ∧
    ((indexState.wheel 1).lastIndex = some 0 ∧ indexState.num 0xE004 1 ≠ 0 ∧ (indexState.wheel 1).speed ≠ 0 ∧
      (indexState.wheel 1).indexMissing = false ∧ 15 * indexState.predictedRev 1 ≤ 4 * (indexState.now - 0)) ∧
    (indexState.closedLoop 1 = true ∧ indexState.lossTest 1 1 = true) ∧
    ((recoverState.wheel 1).recovering = some 55000000000 ∧ 55000000000 + 5000000000 ≤ recoverState.now ∧
      recoverState.obs (wWheel 1) ≠ 4) ∧
    ((brakeState true).obs (wWheel 1) = 6 ∧
      (((brakeState true).modWheel 1 fun w => { w with speed := 0 }).wheel 1).toAlign = true ∧
      (((brakeState false).modWheel 1 fun w => { w with speed := 0 }).wheel 1).toAlign = false) ∧
    (coastState.obs (wWheel 1) = 5 ∧ (coastState.wheel 1).toAlign = true ∧ (coastState.wheel 1).listenEnd = none ∧
      (coastState.wheel 1).coastSince + 5000000000 ≤ coastState.now) := by decide +kernel

/-- The guards of a crossing, of a PWM period and of an index edge that takes 2 % longer than the run speed gives. -/
theorem witness_WheelRowsComplete_edges :
    (lockState.closedLoop 1 = true ∧ (lockState.wheel 1).tc ≤ 10 * 909091 ∧
      10000 * (crossingSpeed (lockState.num 0xE002 1) 909091 : Int) ≤ 11 * (runSpeed lockState.live 1 : Int) ∧
      crossingSpeed (lockState.num 0xE002 1) 909091 = 2200) ∧
    (((lockState.cutGates 1 false).forceStep 1).num 0xE013 1 ≠ 0 ∧
      2 * (3000 / ((lockState.cutGates 1 false).forceStep 1).num 0xE013 1) ≤ 3 * ((lockState.cutGates 1 false).forceStep 1).num 0xE012 1) ∧
    (indexState.num 0xE004 1 ≠ 0 ∧ (indexState.wheel 1).seekIndex = false ∧ (indexState.wheel 1).indexOk = true ∧
      indexState.predictedRev 1 = 12000000 ∧
      satS16 (divAway (((12240000 : Int) - 12000000) * 10000) 12000000) = 200) := by decide +kernel

def frameState : State := meet 1000000000 (((litState.modSeqr fun q => { q with
  status := 1, fsyncPeriod := 16666667, fsyncMiss := 16, stageReady := false
  staging := [{ key := okey 0x8000 0, total := 4, copied := 4 }] }).setNum 0xB040 1 1).setNum 0xB050 0 2)

/-- A slave whose last edge came at a wall time. -/
def edgeState (last : Nat) : State := frameState.modSeqr fun q => { q with fsyncEdge := last }

def signState : State := meet 0 (litState.setNum 0x6020 31 0xFFFFFFFFFFFFFFFF)

def landState : State := meet 0 (litState.modLayer 7 fun l => { l with
  writing := some { num := 1, capture := 0, buf := 0, got := 3, acc := 7, ended := true } })

theorem witness_TimingRowsComplete :
    (frameState.mews.dev.counts = true ∧ frameState.seqr.status ≠ 0 ∧
      frameState.tF (frameState.seqr.count + 1) ≤ (frameState.wall : Int)) ∧
    frameState.num 0xB040 1 = 1 ∧ (frameState.num 0xB050 = 2 ∧ frameState.seqr.fsyncEdge = 0 ∧
      frameState.seqr.fsyncRef + (frameState.seqr.fsyncMiss + 1) * frameState.fsyncPeriodNow + 2000 ≤ frameState.wall) ∧
    ((edgeState 991665000).seqr.fsyncEdge ≠ 0 ∧ fsyncInRate ((edgeState 991665000).wall - (edgeState 991665000).seqr.fsyncEdge) 120000 = true ∧
      fsyncInRate ((edgeState 991664999).wall - (edgeState 991664999).seqr.fsyncEdge) 120000 = false) ∧
    (16 ≤ frameState.seqr.fsyncMiss ∧ frameState.seqr.fsync ≠ 4) ∧
    (frameState.seqr.stageReady = false ∧ (frameState.seqr.staging.all fun j => decide (j.total ≤ j.copied)) = true) ∧
    (signState.sigOn 31 = true ∧ signState.composes (signState.seqr.count + 1) = true ∧
      (signState.plaz.groups.getD (signState.num 0x6021 31) {}).quiet = false) ∧
    ((landState.vlayer 7).first = some { num := 1, capture := 0, buf := 0, got := 3, acc := 7, ended := true } ∧
      3 &&& 7 = 3) := by decide +kernel

def hotDie : State := meet 0 (litState.modTherm fun m => { m with die := setAt m.die 11 { temp := 2047, up := [1000, 1000, 1000] } })

def excludedState : State := meet 0 (State.reset.modTherm fun m => { m with
  die := ((upTo 12).map fun k => { excluded := decide (k < 4), badRun := 1000 : DieSensor }) })

def wearState : State := meet 86400000000000 (((litState.modTherm fun m => { m with
  swaps := [(0xC, 47, 46, 256), (0xA, 0x108, 0x109, 0)]
  rejected := [(0xF, 4, 0)], lastStep := 0 }).modAport 3 fun p => { p with
    swap := some ⟨0, 8, 3, 0, some 9, true⟩ }).modMews fun m => { m with xtal := 1 })

theorem witness_ThermalAndWearRowsComplete :
    (hotDie.therm.lv.getD 2 false = false ∧ (hotDie.dieJudge 2).therm.lv.getD 2 false = true) ∧
    (wearState.therm.lastStep + wearState.num 0x0024 * 1000000 ≤ wearState.now) ∧
    (excludedState.exclusionThrottle = true ∧ excludedState.excludedCount < 12 ∧
      (excludedState.sensorExcluded 11).excludedCount < 12) ∧
    wearState.wearHolds 2 2 1 (2 ^ 31) = true ∧
    (retOk (retMsg 0x15 []) = true ∧ leAt (retMsg 0x15 []) 0 1 = 0x15 ∧
      (wearState.alane 3 (retMsg 0x15 [])).2 = none) ∧
    (wearState.alane 3 (retMsg 0x15 [2, 0, 0, 0, 0, 0, 0, 0, 0, 1])).2 = some (2, 1) ∧
    ((wearState.aport 3).swap = some ⟨0, 8, 3, 0, some 9, true⟩ ∧
      (wearState.therm.swaps.find? fun x => x.1 = 0xA && x.2.1 < 0x100 && x.2.1 / 16 = 3) = none) ∧
    (wearState.therm.swaps.find? fun w => w.1 = 0xA && 0x100 ≤ w.2.1) = some (0xA, 0x108, 0x109, 0) ∧
    (wearState.therm.swaps.find? fun w => w.1 = 0xC && w.2.2.2 = 256) = some (0xC, 47, 46, 256) ∧
    ((wearState.therm.rejected.find? fun q => q.1 = 0xF && q.2.1 = 4 && decide (q.2.2 + 86400000000000 ≤ wearState.now)) =
      some (0xF, 4, 0) ∧ wearState.wearOf 0xF 4 = none) ∧
    wearState.mews.xtal = 1 ∧ (15984000 ≤ 15984000 ∧ 16016000 ≤ 16016000) := by decide +kernel

def clockState : State := meet 86400000000000 ((State.reset.modClks fun c => { c with
  ref := 3
  plls := [{ st := 1 }, { st := 3, fullSearch := true }, { st := 2 }, { st := 3, coastSince := some 86399990000000 }] ++
    c.plls.drop 4 }).modMews fun m => { m with dev := .standby })

def bootState : State := meet 0 (State.reset.modMews fun m => { m with rails := 127 })
def bootRom : State := meet 0 (State.reset.modMews fun m => { m with bootStep := 3 })
def bootLast : State := meet 0 (State.reset.modMews fun m => { m with bootStep := 5 })
def reachBoot : State := meet 0 ((State.reset.modMews fun m => { m with
  dev := .standby, resetCause := 3, beforeWatchdog := .serving, bootStep := 7, rails := 127
  }).setNum 0x0050 0 1 |>.setNum 0x0051 0 3)
def dueState (cause : Nat) : State := meet 10000000 (litState.modMews fun m => { m with resetDue := some (cause, 10000000) })
def sleepState : State := meet 1000000000 ((State.reset.modMews fun m => { m with
  dev := .mews, wakeFn := [4, 5] }).setNum 0x0015 0 1)

theorem witness_ClockAndPowerRowsComplete :
    ((clockState.pll 0).st = 1 ∧ (clockState.pll 0).fullSearch = false) ∧
    ((clockState.pll 1).st = 3 ∧ (clockState.pll 1).fullSearch = true ∧
      (clockState.modClks fun c => { c with ref := 2 }).clks.ref = 2) ∧
    ((clockState.pll 2).st = 2 ∧ (meet 0 State.reset).clks.ref ≠ 3) ∧
    ((clockState.pll 3).coastSince = some 86399990000000 ∧ (clockState.pll 3).st = 3 ∧ (clockState.pll 3).limitSeen = false ∧
      86399990000000 + 10000000 ≤ clockState.now ∧ clockState.clks.ref = 3) ∧
    (clockState.clks.ref ≠ 2 ∧ clockState.mews.dev ≠ .mews) ∧
    ((4 ≤ 4 ∧ 4 ≤ 23 ∧ (meet 0 (litState.modClks fun c => { c with plls := c.plls.map fun p => { p with st := 2 } })).domainState 4 ≠ 0) ∧
      (meet 0 (litState.modClks fun c => { c with plls := c.plls.map fun p => { p with st := 2 } })).domainState 23 ≠ 0) ∧
    (bootState.mews.resetDue = none ∧ bootState.mews.dev = .boot ∧ bootState.mews.bootStep = 0 ∧ bootState.mews.vaon = true ∧
      bootState.mews.rails % 128 = 127) ∧
    (bootRom.mews.dev = .boot ∧ bootRom.mews.bootStep = 3 ∧ bootRom.firm.running = false ∧
      bootRom.mews.bootReadAt + 10000000000 ≤ (meet 10000000000 bootRom).now) ∧
    (bootLast.mews.dev = .boot ∧ bootLast.mews.bootStep = 5 ∧ bootLast.trained = true ∧ bootLast.coolEnough = true) ∧
    (reachBoot.mews.dev = .standby ∧ reachBoot.mews.resetCause = 3 ∧ reachBoot.flag 0x0050 = true ∧
      reachBoot.mews.beforeWatchdog.lit = true ∧
      (reachBoot.mews.autoWarm.filter fun x => decide (reachBoot.now < x + 3600000000000)).length < reachBoot.num 0x0051 ∧
      reachBoot.warmRefused = false ∧ reachBoot.hbm.status ≠ 4) ∧
    ((dueState 4).mews.resetDue = some (4, 10000000) ∧ (dueState 3).mews.resetDue = some (3, 10000000) ∧
      10000000 ≤ (dueState 4).now) ∧
    (reachBoot.mews.dev ≠ .mews ∧ reachBoot.mews.held = false ∧ reachBoot.mews.bootStep ≠ 0 ∧ reachBoot.mews.vaon = true) ∧
    (sleepState.num 0x0015 ≠ 0 ∧ sleepState.mews.mewsSince + sleepState.num 0x0015 * 1000000000 ≤ sleepState.now ∧
      natAt sleepState.mews.wakeFn 0 = 4 ∧ natAt sleepState.mews.wakeFn 1 = 5 ∧ sleepState.mews.dev = .mews) := by
  decide +kernel

def wallState : State := meet 50000000 (((withUnit (wUane 3) 1 2 (withUnit (wUane 2) 1 1 litState)).modUane fun w => { w with
  timeState := 1, ptpState := 1
  ports := setAt w.ports 3 { swap := some ⟨0, 4, 1, some 9⟩, rxSwap := some ⟨0, 4, 1, none⟩, lastHello := 49990000 } })
  |>.setNum 0xF001 0 1 |>.setNum 0xF030 0 1 |>.setNum 0xF028 0 1 |>.setNum 0xB064 0 1)

def relayState : State := meet 50000000 ((wallState.setNum 0xF042 7 1).modIngs fun g => { g with
  layers := setAt g.layers 7 { writing := some { num := 1, capture := 0, buf := 0, width := 16, rows := 16 } } })

/-- A node that streams the lower 8 lines of a complete version. -/
def streamState : State := ((wallState.setNum 0xF040 15 (7 * 2 ^ 24)).setNum 0xF041 15 (8 * 2 ^ 32 + 16 * 2 ^ 16 + 8)).modIngs fun g =>
  { g with layers := setAt g.layers 7 { versions := [{ num := 9, capture := 0, done := 0, buf := 0, epoch := 0, width := 16, rows := 16, map := 2 ^ 15 }] } }

/-- A port that may be trained, and a broadcast that passes its checks. -/
def downState : State := withUnit (wUane 3) 2 0 wallState |>.setNum 0xF001 0 2

/-- The last 6 pixels of the last line. -/
def pixSpec : Bytes := pixelSpec 0 0 1 15 10 6

def goodFrame : Bytes := uFrame ⟨0x03, true, false, 0xFFFF, 9, 0, 255, 0, 1, List.replicate 12 0⟩ [1]

/-- The same node with the routes that its map gives. -/
def routedState : State := wallState.modUane fun w => { w with topo := wallState.freshTopo, routes := wallState.computeRoutes }

theorem witness_FabricRowsComplete :
    (3 < 4 ∧ wallState.uaneOn = true ∧ [0, 1, 2, 3, 4].length = 5) ∧
    (wallState.portUp 3 = true ∧ (wallState.uport 3).lastHello + 10000 ≤ wallState.now) ∧
    (((wallState.uport 3).rxMap.take 4).contains 3 = true ∧ (wallState.uport 3).lostAt = none) ∧
    (((wallState.modUport 3 fun p => { p with lostAt := some 49998000 }).uport 3).lostAt = some 49998000 ∧
      49998000 + 2000 ≤ wallState.now) ∧
    (wallState.obs (wUane 2) = 1 ∧ (wallState.uport 2).trainSince + 50000000 ≤ wallState.now) ∧
    ((wallState.uport 3).rxSwap = some ⟨0, 4, 1, none⟩ ∧ (wallState.uport 3).swap = some ⟨0, 4, 1, some 9⟩ ∧
      wallState.therm.swaps = []) ∧
    (routedState.modUane fun w => { w with
      topo := routedState.freshTopo, dupAt := w.dupAt.filter fun e => decide (routedState.now < e + 3000000) }).routesStale = false ∧
    (wallState.num 0xF030 ≠ 0 ∧ (meet 1000000005 wallState).flag 0xF028 = true ∧
      ((meet 1000000005 wallState).wall + 5) % 1000000000 = 10 ∧ ((meet 1000100005 wallState).wall + 999900005) % 1000000000 = 10) ∧
    (9 ≤ codewordAt wallState.now ∧ leAt (List.replicate 16 0) 8 8 = 0) ∧
    (((downState.uport 3).downAt.all fun e => decide (e + 1000000 ≤ downState.now)) = true ∧ downState.obs (wUane 3) = 0 ∧
      downState.unitCmd (wUane 3) = 2 ∧ downState.portUsed 3 = true) ∧
    (transitFed relayState.live 7 = true ∧ (relayState.vlayer 7).writing.isSome = true ∧
      (relayState.rxLayer 7).lastAt + 50000000 ≤ relayState.now) := by decide +kernel

theorem witness_FabricRowsComplete_frame :
    (wallState.uaneFlush.uaneOn = true ∧ wallState.uaneFlush.obs (wUane 3) ≠ 0 ∧
      (wallState.uaneFlush.modUport 3 fun p => { p with framingLost := false }).portUp 3 = true ∧ uHdrOk goodFrame = true ∧
      uClass (readUHdr goodFrame).typ = some 1 ∧ uLocal (readUHdr goodFrame).typ = false ∧ payCheck goodFrame = .good) := by decide +kernel

theorem witness_FabricRowsComplete_pixels :
    (relayState.rxLayerOf 0 (leAt pixSpec 0 1) = some 7 ∧ (relayState.vlayer 7).writing.any (fun w => w.num = leAt pixSpec 2 4 &&
        decide (leAt pixSpec 6 2 < w.rows) && decide (leAt pixSpec 8 2 + leAt pixSpec 10 2 ≤ w.width)) = true ∧
      bit (leAt pixSpec 1 1) 1 = false ∧ bit (leAt (pixelSpec 0 4 1 0 0 0) 1 1) 2 = true) ∧
    (fld (streamState.num 0xF040 15) 31 24 < 8 ∧ streamState.streamVersion 15 = 9 ∧ 7 < rectH (streamState.num 0xF041 15) ∧
      (((streamState.vlayer 7).versions.find? fun v => v.num = streamState.streamVersion 15).any fun v =>
        bit v.map (rectY (streamState.num 0xF041 15) + 7)) = true) ∧
    (leAt (pixelSpec 0 0 0 0 0 0) 2 1 = 0 ∧ wallState.unisonGroup = none) := by decide +kernel

def leadState : State := (wallState.modCoh fun w => { w with
  holder := wallState.uane.node, lastSet := some ⟨1, 2, 3⟩, setAge := 64 }).modSeqr fun q => { q with status := 1 }

/-- Layer 15 is of window 9; the instant of B(7) is 8,332 ns away. -/
def windowState : State := (((wallState.setNum 0x6000 15 1).setNum 0x6001 15 1).setNum 0x7104 15 9)

def soloState : State := wallState.modUane fun w => { w with routes := [] }

def record : WCommit := ⟨7, 0, [], [1, 2], [], [], 0, none, false⟩

def joinState (go : Option Nat) (ready : Bool) (st : Nat) : State := ((wallState.modCoh fun w => { w with
  join := some { id := 7, at_ := 0, ready := ready, go := go } }).modSeqr fun q => { q with cState := st }).modFirm fun f =>
  { f with running := true }

def commitState (c : WCommit) : State := wallState.modCoh fun w => { w with commit := some c }

theorem witness_WallRowsComplete :
    (leadState.isCoord = true ∧ leadState.seqr.status ≠ 0 ∧
      (leadState.coh.issued.any fun p => leAt p.2 4 4 = low32 leadState.issueFrame) = false) ∧
    (soloState.coordEligible = true ∧ soloState.isCoord = false ∧ soloState.turnToLead = true) ∧
    ((readSet (toLE 1 1 ++ [0] ++ toLE 2 5 ++ toLE 2 6 ++ toLE 4 0 ++ toLE 8 0)).target ≠ leadState.num 0xC030 2 ∧
      leadState.coh.pendingSets = []) ∧
    ((windowState.windowLayer 9 = some 15 ∧ windowState.agreementInTime 8 = true ∧ windowState.curg.agreements = []) ∧
      leadState.coh.repeated ≠ leadState.issueFrame ∧
      leadState.issueAt leadState.issueFrame + 50000 ≤ (leadState.wall : Int)) ∧
    (leadState.coh.lastSet = some ⟨1, 2, 3⟩ ∧ 64 ≤ leadState.coh.setAge) ∧
    ((joinState none false 1).seqr.cState = 1 ∧ (joinState none false 1).firm.running = true ∧
      (joinState none false 1).firm.restartUntil ≤ wallState.now ∧ ((joinState none false 1).modCoh fun w => { w with join := none }).coh.join = none) ∧
    ((joinState none false 1).coh.join = some { id := 7, at_ := 0 } ∧ (joinState none false 1).joined = some { id := 7, at_ := 0 }) ∧
    ((commitState record).runningCommit 7 = some record ∧ record.parts.contains 2 = true ∧
      (record.parts.all fun p => ([2] : List Nat).contains p) = false) ∧
    ((joinState none true 2).coh.join = some { id := 7, at_ := 0, ready := true } ∧
      (joinState none true 2).seqr.cState = 2 ∧ (joinState none true 2).inTimeFor 1000 = true ∧
      3 ≠ (joinState none true 2).uane.node) ∧
    ((commitState { record with go := some 1000, acks := [1] }).runningCommit 7 = some { record with go := some 1000, acks := [1] } ∧
      (record.parts.all fun p => ([1, 2] : List Nat).contains p) = true ∧
      (commitState { record with go := some 1000 }).inTimeFor 1000 = true) ∧
    record.started + 0 * 1000000 ≤ wallState.now ∧
    (((meet 20000000000 (commitState record)).coh.commit = some record ∧
      record.started + wallState.num 0xB062 * 1000000 ≤ 20000000000) ∧
      ((meet 20000000000 (joinState none false 1)).joined = some { id := 7, at_ := 0 } ∧
        0 + 2 * wallState.num 0xB062 * 1000000 ≤ (meet 20000000000 (joinState none false 1)).now)) ∧
    ((commitState { record with go := some 1 }).coh.commit = some { record with go := some 1 } ∧
      (commitState { record with go := some 1 }).tF 1 ≤ ((commitState { record with go := some 1 }).wall : Int) + 200000) := by
  decide +kernel

def sweepProgram : Bytes := toLE 2 1 ++ toLE 2 1 ++ toLE 2 2 ++ toLE 2 1 ++ toLE 4 0 ++ toLE 4 0 ++ toLE 4 0

def sweepState : State := meet 1000000000 ((wallState.setVal 0x2050 0 (.bytes sweepProgram)).modCoh fun w => { w with
  master := { state := 1, sweep := 1, step := 0, first := 1, parts := [1], missing := [(1, 0)] }, node := { endedAt := some 0 } })

def stepPayload : Bytes := stepBytes ⟨1, 0, 1, 2, 1, [0, 0, 0], 1⟩ []

theorem witness_SweepRowsComplete :
    ((readStep 1 stepPayload).2 = [] ∧ sweepState.seqr.count + 1 < (readStep 1 stepPayload).1.first + (readStep 1 stepPayload).1.dwell ∧
      sweepState.coh.node.cur = none) ∧
    ((sweepState.modNode fun m => { m with cur := some ⟨1, 0, 1, 2, 1, [0, 0, 0], 1⟩ }).coh.node.cur ≠ none) ∧
    (sweepState.coh.master.stepDone = false ∧ (sweepState.modMaster fun m => { m with missing := [] }).coh.master.stepDone = true) ∧
    (sweepState.coh.master.running = true ∧
      sweepState.tF (sweepState.coh.master.first + (progStep (sweepState.blob 0x2050) sweepState.coh.master.step).1) + 100000000 ≤
        (sweepState.wall : Int)) ∧
    (sweepState.coh.node.endedAt = some 0 ∧ 0 + sweepState.num 0x2055 * 1000000 ≤ (meet 60000000000 sweepState).now) := by
  decide +kernel

/-- An image of one byte, with its header and digest. -/
def tinyImage : Bytes :=
  toLE 4 0x4E544556 ++ toLE 4 1 ++ toLE 4 5 ++ toLE 4 1 ++ List.replicate 16 0 ++ sha256 [7] ++ List.replicate 192 0 ++ [7]

def fwState : State := meet 300000000 (State.reset.modFirm fun f => { f with
  running := true, verifying := some 1, slots := [{}, { image := tinyImage }], busPort := setAt f.busPort 15 2
  misses := [(1, 290000000)] })

def profState (j : ProfJob) : State := meet 0 (State.reset.modGysol fun g => { g with profJob := some j, profStatus := 1 })

def compileState (t : Nat) : State := meet t litState

theorem witness_FirmwareRowsComplete :
    (fwState.firm.verifying = some 1 ∧ imageHeaderOk (fwState.slotImage 1) = true ∧ imageDigestOk (fwState.slotImage 1) = true ∧
      fwState.firm.running = true) ∧
    (1 < 3 ∧ natAt fwState.firm.cores 1 = 0) ∧ fwState.firm.restartUntil ≤ fwState.now ∧
    ((fwState.firm.misses.any fun m => m.1 = 2 && decide (fwState.now ≤ m.2 + 10000000000)) = false ∧
      (fwState.firm.misses.any fun m => m.1 = 1 && decide (fwState.now ≤ m.2 + 10000000000)) = true) ∧
    (natAt fwState.firm.busPort 14 ≠ 2 ∧ natAt fwState.firm.busPort 15 = 2) ∧
    ((fwState.firm.leases.getD 0 {}).renewed + leasePeriod 0 ≤ fwState.now) ∧
    ((profState (.save [])).gysol.profJob = some (.save []) ∧ entriesBytes [] ≤ 65512 ∧ (profState .erase).gysol.profJob = some .erase) ∧
    ((compileState 8233333).tF ((compileState 8233333).seqr.count + 1) - 100000 ≤ ((compileState 8233333).wall : Int) ∧
      ((compileState 8233333).firm.leases.getD 10 {}).renewed ≤ (compileState 8233333).now) ∧
    9 < 10 := by
  decide +kernel

def portState : State := meet 0 (litState.modGysol fun g => { g with mbResp := [[1, 2, 3, 4, 5]] })

theorem witness_JtagRowsComplete :
    (portState.mews.dev ≠ .mews ∧ portState.mews.vaon = true) ∧ portState.mailboxCapture.1 = 2 ^ 32 + 0x04030201 ∧ 3 % 4 ≠ 0 := by
  decide +kernel

def eventState : State := meet 3000000000 (((withUnit (wWheel 1) 4 0 (litState.modClks fun c => { c with
  plls := c.plls.map fun p => { p with st := 2 } })).modXrds fun x => { x with
    lostPending := 1, pending := setAt x.pending 35 1, pulseEnd := setAt x.pulseEnd 14 (some 3000000001)
  }).setNum 0x3041 15 3 |>.setNum 0x3041 14 3)

def lateUnit (dis : Bool) : State := meet 300000000000 ((eventState.modUnit (wArray 3) fun _ =>
  { cmd := 3, obs := 0, dis := dis, disSince := 297000000000 }))

theorem witness_EventRowsComplete :
    (eventState.xrds.lostPending ≠ 0 ∧ eventState.xrds.queue.length < 240) ∧
    (35 < 38 ∧ natAt eventState.xrds.pending 35 ≠ 0 ∧ eventState.num 0x3041 (35 - 20) = 3 ∧ eventState.pulseRuns (35 - 20) = false) ∧
    (20 ≤ 34 ∧ eventState.num 0x3041 (34 - 20) = 3 ∧ eventState.pulseRuns (34 - 20) = true) ∧
    eventState.pulseRuns 15 = false ∧ (15 < 16 ∧ eventState.mews.dev ≠ .mews ∧ eventState.mews.held = false) ∧
    eventState.domainState 4 = 2 ∧
    (((lateUnit true).unitRec (wArray 3)).dis = true ∧ ((lateUnit true).unitRec (wArray 3)).evt = false ∧
      ((lateUnit true).unitRec (wArray 3)).disSince + 3000000000 ≤ (lateUnit true).now) ∧
    ((lateUnit false).agrees (wArray 3) = false ∧ (lateUnit false).darkExempt (wArray 3) = false ∧
      ((lateUnit false).unitRec (wArray 3)).dis = false ∧
      ((lateUnit false).unitRec (wArray 3)).chg + (lateUnit false).allowance (wArray 3) (lateUnit false).period ≤
        (lateUnit false).now) := by decide +kernel

/-- Session 1, of the calibration role. -/
def user : Session := { id := 1, role := 3, key := [], isPending := false }

def host (s : State) : State := (s.modFirm fun f => { f with running := true }).modGysol fun g => { g with
  sessions := [user], roleKeys := List.replicate 3 (List.replicate 32 1) }

/-- A state as an operation of session 1 meets it. -/
def operating (s : State) : State := (host s).served 0 1 user

theorem witness_Serves : (host litState).Serves 0 1 user := ⟨by decide +kernel, by decide +kernel, by decide +kernel⟩

def accepts (s : State) (obj sub w v : Nat) : Bool := (operating s).checkWrite ⟨1, 3⟩ obj sub 1 (toLE w v) = none

theorem accepts_iff (s : State) (obj sub w v : Nat) : accepts s obj sub w v = true ↔ (operating s).Accepts 1 user obj sub w v := by
  simp [accepts, State.Accepts, user]

theorem witness_OperationsComplete :
    ((operating litState).opRead ⟨1, 3⟩ ⟨0x01, 0, 0x0010, 0, 1, []⟩).1 = 0 ∧
    (operating litState).checkWrite ⟨1, 3⟩ 0xC030 2 1 (toLE 2 5) = none ∧
    ((operating litState).opDescribe ⟨0x03, 0, 0x0010, 0, 1, []⟩).1 = 0 ∧
    ((operating litState).opBlobRead ⟨0x04, 0, 0x4020, 1, 1, toLE 4 0 ++ toLE 4 8⟩).1 = 0 ∧
    ((operating litState).opLogRead ⟨0x06, 0, 0, 0, 1, toLE 4 0 ++ toLE 1 64 ++ [0, 0, 0]⟩).1 = 0 ∧
    (List.replicate 32 0 : Bytes).length = 32 := by decide +kernel


def descOf (obj sub : Nat) : Desc := (leafOf obj sub).getD ⟨0, .scalar, 0, 0, 0, .blob, .ro, false, 0, .any⟩

/-- A first chunk of a BLOB is taken where its object's checks pass. -/
theorem takes_first {s : State} {obj sub : Nat} {chunk : Bytes}
    (h : leafOf obj sub = some (descOf obj sub) ∧ (descOf obj sub).ty = .blob ∧ checkObject obj sub 1 = none ∧
      checkRole 3 obj sub 1 = none ∧ s.stream (okey obj sub) = none ∧ chunk.length ≤ (blobBounds (descOf obj sub)).2)
    (hd : headerDone obj [] chunk = true → s.gfxHeaderOk sub (chunk.take 32) = true) (hw : s.hbm.beFailed = false) :
    s.TakesChunk 1 user obj sub (descOf obj sub) [] chunk := by
  obtain ⟨h1, h2, h3, h4, h5, h6⟩ := h
  exact ⟨h1, h2, h3, h4, by simp [h5], fun _ => rfl, by simpa using h6, hd, fun _ => hw⟩

theorem takes_last {s : State} {obj sub : Nat} {whole : Bytes}
    (h : (blobBounds (descOf obj sub)).1 ≤ whole.length ∧
      first (s.blobRefuses obj sub whole) (s.checkStage 1 obj ((descOf obj sub).acc = .rs)) = none) :
    s.TakesLast 1 obj sub (descOf obj sub) whole := ⟨h.1, h.2⟩

def keyBlob : Bytes := List.replicate 32 9

theorem witness_blob_chunk : (operating litState).TakesChunk 1 user 0x2040 3 (descOf 0x2040 3) [] keyBlob :=
  takes_first (by decide +kernel) (by decide +kernel) (by decide +kernel)

theorem witness_blob_last : (operating litState).TakesLast 1 0x2040 3 (descOf 0x2040 3) keyBlob :=
  takes_last (by decide +kernel)

def lineHead : Bytes := toLE 2 0 ++ toLE 2 1 ++ [1] ++ List.replicate 27 0

def gfxState : State := (litState.setNum 0x6030 7 (7 + 65536)).setNum 0x6031 7 2

def lineBlob : Bytes := lineHead ++ List.replicate 32 0

theorem witness_StoreCommandsComplete :
    (∀ p ∈ [(0x2030, 1), (0x2032, 1), (0x2021, 1), (0xB010, 1), (0x2051, 2)], accepts litState p.1 0 1 p.2 = true) ∧
    accepts litState 0xB060 0 4 (2 ^ 32 - 1) = true ∧ accepts (litState.setVal 0x2050 0 (.bytes sweepProgram)) 0x2051 0 1 1 = true ∧
    accepts gfxState 0x6034 7 4 1 = true := by decide +kernel

theorem witness_store_blobs :
    (operating litState).TakesChunk 1 user 0x2071 0 (descOf 0x2071 0) [] tinyImage ∧
    (operating litState).TakesLast 1 0x2071 0 (descOf 0x2071 0) tinyImage ∧
    (operating litState).TakesChunk 1 user 0x4020 1 (descOf 0x4020 1) [] (List.replicate 128 0) ∧
    (operating litState).TakesLast 1 0x4020 1 (descOf 0x4020 1) (List.replicate 128 0) ∧
    (operating leadState).TakesChunk 1 user 0xB061 0 (descOf 0xB061 0) [] (toLE 4 1 ++ List.replicate 10 0) ∧
    (operating leadState).TakesLast 1 0xB061 0 (descOf 0xB061 0) (toLE 4 1 ++ List.replicate 10 0) ∧
    (operating gfxState).TakesChunk 1 user 0x6032 7 (descOf 0x6032 7) [] lineBlob ∧
    ((operating gfxState).headerArrives 0x6032 7 [] lineBlob).TakesLast 1 0x6032 7 (descOf 0x6032 7) lineBlob := by
  refine ⟨takes_first ?_ ?_ ?_, takes_last ?_, takes_first ?_ ?_ ?_, takes_last ?_, takes_first ?_ ?_ ?_, takes_last ?_,
    takes_first ?_ ?_ ?_, takes_last ?_⟩
  all_goals decide +kernel

/-- The last 32 bytes of the same stream, which end the line, sent in a chunk of their own. -/
def midState : State := gfxState.modGysol fun g => { g with streams := [⟨okey 0x6032 7, 1, lineHead, 0⟩] }

theorem witness_blob_middle :
    (operating midState).TakesChunk 1 user 0x6032 7 (descOf 0x6032 7) lineHead (List.replicate 32 0) :=
  ⟨by decide +kernel, by decide +kernel, by decide +kernel, by decide +kernel,
    fun y h => by
      have e : (operating midState).stream (okey 0x6032 7) = some ⟨okey 0x6032 7, 1, lineHead, 0⟩ := by decide +kernel
      obtain rfl : ⟨okey 0x6032 7, 1, lineHead, 0⟩ = y := by simpa [e] using h
      exact ⟨rfl, rfl⟩,
    fun h => by
      have e : (operating midState).stream (okey 0x6032 7) ≠ none := by decide +kernel
      exact absurd h e,
    by decide +kernel, by decide +kernel, fun _ => by decide +kernel⟩

theorem witness_StateCommandsComplete :
    (accepts (litState.modMews fun m => { m with dev := .standby }) 0x0011 0 1 0 = true ∧
      accepts (litState.modMews fun m => { m with dev := .standby }) 0x0011 0 1 3 = true) ∧
    (accepts litState 0x0011 0 1 2 = true ∧ accepts litState 0x0011 0 1 6 = true) ∧
    (accepts litState 0x0016 0 1 1 = true ∧ (operating litState).mews.resetDue = none) ∧
    (viewOf (wWheel 1) = some (0xE000, 1) ∧ accepts litState (wWheel 1) 1 1 4 = true) ∧
    (accepts (litState.modUnit (wArray 3) fun r => { r with held := 0 }) (wArray 3) 6 1 1 = true ∧
      ((operating (litState.modUnit (wArray 3) fun r => { r with held := 0 })).unitRec (wArray 3)).held ≠ 0xFF) ∧
    (accepts (litState.modTherm fun m => { m with pending := [(0xF, 0x34)] }) 0x0042 0 4 (2 ^ 31 + 0xF * 65536 + 0x34) = true ∧
      ((operating (litState.modTherm fun m => { m with pending := [(0xF, 0x34)] })).spareDecide (2 ^ 31 + 0xF * 65536 + 0x34)).isSome = true) ∧
    (accepts (litState.modTherm fun m => { m with pending := [(0xF, 0x34)] }) 0x0042 0 4 (0xF * 65536 + 0x34) = true ∧
      ((operating (litState.modTherm fun m => { m with pending := [(0xF, 0x34)] })).spareDecide (0xF * 65536 + 0x34)).isSome = true) ∧
    accepts litState 0x0040 0 1 1 = true ∧ accepts litState 0x0044 0 1 1 = true := by decide +kernel

theorem witness_EngineCommandsComplete :
    (∀ v ∈ [1, 2], accepts (litState.modMews fun m => { m with dev := .standby }) 0x5051 0 1 v = true) ∧
    (∀ w ∈ [0x1FF * 2 ^ 32, 2 ^ 63 + 0x1FF * 2 ^ 32 + (2 ^ 32 - 1)], accepts (withUnit (wArray 3) 3 2 litState) 0xA009 3 8 w = true) ∧
    (∀ w ∈ [255 * 2 ^ 32, 2 ^ 63 + 255 * 2 ^ 32 + (2 ^ 32 - 1)], accepts (withUnit (wDriver 13) 1 1 litState) 0xD009 13 8 w = true) ∧
    accepts (withUnit (wArray 3) 3 4 litState) 0xA014 3 1 7 = true ∧ accepts litState 0xC019 3 1 1 = true ∧
    accepts litState 0xC061 3 1 1 = true ∧ accepts litState 0xC053 3 2 65535 = true ∧ accepts litState 0xD000 1 1 1 = true ∧
    accepts litState 0x3023 0 1 1 = true ∧ accepts litState 0x3026 0 8 (2 ^ 64 - 1) = true ∧
    accepts litState 0x3020 63 8 0 = true ∧ accepts litState 0x3012 37 1 0 = true ∧ accepts litState 0x3014 0 8 (2 ^ 38 - 1) = true ∧
    accepts litState 0x3031 3 8 (2 ^ 64 - 1) = true ∧ accepts litState 0x3041 15 1 3 = true := by decide +kernel

def listening : State := meet 2000000000 ((host litState).modGysol fun g => { g with
  sessions := [{ user with pushes := [⟨⟨0, 0, 0, 0, 0⟩, 1999000000⟩] }, { user with id := 2, isPending := true },
    { user with id := 3, newKey := some [] }, { user with id := 4, isPending := true, newKey := some [5], resumedAt := 1 }]
  mbPushes := [⟨⟨0, 0, 0, 0, 0⟩, 1999000000⟩]
  streams := [⟨okey 0x4020 1, 1, [], 0⟩], spiResp := [[1]], spiPush := [[2]] })

theorem witness_SessionRowsComplete :
    listening.firm.running = true ∧
    ((listening.session 2).any fun x => x.isPending && decide (x.openedAt + 2000000000 ≤ listening.now)) = true ∧
    ((listening.session 3).any fun x => !x.isPending && x.newKey.isSome && decide (x.resumedAt + 2000000000 ≤ listening.now)) = true ∧
    ((listening.session 4).any fun x => x.isPending && x.newKey = some [5] && decide (listening.now = x.resumedAt + 2000000000 - 1)) = true ∧
    (((meet 2000000001 listening).session 4).any fun x => decide (x.resumedAt + 2000000000 = 2000000001)) = true ∧
    (listening.gysol.netPort = 45504 ∧ listening.nextHop (listening.gysol.netIp + 1) = some (listening.gysol.netIp + 1)) ∧
    (((meet 86400000000000 listening).session 1).any fun x => !x.isPending &&
      decide (x.lastValid + listening.num 0x2013 * 1000000 ≤ 86400000000000)) = true ∧
    ((meet 10000000000 listening).gysol.streams.any fun y => y.key = okey 0x4020 1 && decide (y.lastAt + 10000000000 ≤ 10000000000)) = true ∧
    ((listening.session 1).any fun x => pushDue listening.now x.pushes) = true ∧ pushDue listening.now listening.gysol.mbPushes = true ∧
    leAt ([0, 0, 0, 0, 0, 0, 0, 0, 0, 0, 0] : Bytes) 8 2 = 0 ∧ listening.rxBusy = false ∧
    (listening.modGysol fun g => { g with queue := [⟨.spi, 0, []⟩] }).rxBusy = true ∧
    (State.reset.firm.running = false ∧ listening.gysol.spiResp = [[1]]) ∧
    ((listening.modGysol fun g => { g with spiResp := [] }).gysol.spiPush = [[2]] ∧ listening.uane.tags = []) := by
  decide +kernel

theorem witness_EmptyQueueIdles : State.reset.pending = [] := rfl

/-- A state with every part of the invariant at its bound. -/
def fullState : State := ((State.reset.modXrds fun x => { x with
  log := List.replicate 4096 ⟨0, 0, 0, 0, 0⟩, queue := List.replicate 256 ⟨0, 0, 0, 0, 0⟩ }).modGysol fun g => { g with
  sessions := List.replicate 8 user, queue := List.replicate 32 ⟨.udp, 0, []⟩ }).modHbm fun h => { h with words := [(5, 1)] }

theorem witness_StepKeepsInvariant : fullState.Ok := by
  refine ⟨?_, ?_, ?_, ?_⟩
  · unfold Hbm.Ok Canon
    decide +kernel
  · unfold Dict.Ok
    decide +kernel
  · unfold Xrds.Ok
    decide +kernel
  · unfold Gysol.Ok
    decide +kernel

theorem witness_StepKeepsInvariant_goes : ∃ t, step { fullState with pending := [.tapReset 0] } = .next t := ⟨_, rfl⟩

/-! ### The numbered rules -/

def frameTo (n : Nat) : Bytes := List.replicate 8 0 ++ toLE 2 n

def queueState (n dropped : Nat) : State := host (litState.modGysol fun g => { g with
  queue := List.replicate n ⟨.udp, 0, []⟩, rxDropped := dropped })

theorem witness_FullQueueDropsTheFrame :
    (queueState 31 0).firm.running = true ∧ (queueState 31 0).gysol.netPort = 45504 ∧ leAt (frameTo 0) 8 2 = 0 ∧ leAt (frameTo 0x0100) 8 2 = litState.uane.node ∧
    (queueState 31 0).gysol.queue.length < 32 ∧
    (32 ≤ (queueState 32 (2 ^ 32 - 2)).gysol.queue.length ∧ (queueState 32 (2 ^ 32 - 2)).gysol.rxDropped + 1 < 2 ^ 32) := by
  decide +kernel

def openers (n : Nat) : State := (host litState).modGysol fun g => { g with sessions := List.replicate n user }

theorem witness_SessionsStartPendingAndAreEight :
    ((openers 7).firm.running = true ∧ (openers 7).keyBlank 1 = false ∧ (openers 7).keyBlank 3 = false ∧
      (List.replicate 8 0 : Bytes).length = 8 ∧ (openers 7).session 65535 = none ∧ (openers 7).gysol.sessions.length < 8) ∧
    8 ≤ (openers 8).gysol.sessions.length ∧
    ((listening.session 2).any fun x => x.isPending && decide (x.openedAt + 2000000000 ≤ listening.now)) = true := by
  decide +kernel

theorem witness_SubscribersQueueEachEvent :
    (List.replicate 32 255 : Bytes).length = 32 ∧ (⟨0, 0xFF, 0, 0, true⟩ : Occ).rcd = true := by decide +kernel

theorem witness_WritesNeedTheirRole :
    objExists 0x0003 = true ∧ objExists 0x0FFF = false ∧ leafOf 0xC030 255 = none ∧
    ((leafOf 0x0010 0).any fun d => noWrite d 0) = true ∧ (64 ≤ 64 ∧ ((upTo 64).all fun k => (leafOf 0x3020 k).isSome) = true) ∧
    ((leafOf 0xE001 0).any fun d => !noWrite d 0) = true ∧ 2 < writeRole 0xE001 := by decide +kernel

theorem witness_FourTimeoutsRetrainAChannel :
    waitState.hbm.chans.length = 32 ∧ waitState.overdue 8 (rowOf waitState.hbm.grain 0).chan = some 0 ∧
    waitState.overdue 7 (rowOf waitState.hbm.grain 0).chan = none ∧
    (waitState.hbm.ports[8]?).any (fun p => decide (p.timeouts + 1 < 2 ^ 32)) = true ∧
    (waitState.hbm.chans.getD (rowOf waitState.hbm.grain 0).chan {}).st = 0 := by decide +kernel

theorem witness_EveryRecordTakesTheNextNumber :
    fullState.xrds.seqNext < 2 ^ 32 ∧ State.reset.xrds.queue.length < 240 ∧
    (({ State.reset.xrds with queue := List.replicate 255 ⟨0, 0, 0, 0, 0⟩ } : Xrds).queue.length < 256 ∧ 0xE3 ≤ 0xE3) ∧
    ¬ (fullState.xrds.queue.length < 240 ∨ fullState.xrds.queue.length < 256) := by decide +kernel

theorem witness_TaskCountersStayAtFifteen :
    (∀ n ∈ List.replicate 38 15, n ≤ 15) ∧ (∀ n ∈ List.replicate 64 (2 ^ 48 - 1), n < 2 ^ 48) := by decide +kernel

theorem witness_DictionaryReadsBack : mapRising (litState.setNum 0xC030 2 9).dict.vals = true ∧ 2 ^ 64 - 1 < 2 ^ 64 := by
  decide +kernel

/-- A node with one buffer of layer 0, and none of its channels out of use. -/
def pixelHbm : Hbm := { State.reset.hbm with regions := [⟨1, 2 ^ 24, 1, 8⟩] }

theorem witness_PixelsReadBack :
    fullState.hbm.Ok ∧ 2 ^ 36 - 1 < 2 ^ 36 ∧ (8 ≤ pixelHbm.grain ∧ pixelHbm.grain ≤ 16) ∧
    (pixelHbm.chans.all fun c => c.st ≠ 3) = true ∧
    pixelHbm.addrOf (wkey 1 0 7) = some (2 ^ 27 + 7) ∧ pixelHbm.addrOf (wkey 1 0 6) = some (2 ^ 27 + 6) :=
  ⟨witness_StepKeepsInvariant.hbm, by decide, by decide +kernel, by decide +kernel, by decide +kernel⟩

theorem witness_AddressMapIsOneToOne : 2 ^ 35 - 1 < 2 ^ 35 ∧ 0 < 2 ^ 35 := by decide

/-- Channel 31 at the ends of its delays, its drift tracking due to the nanosecond or not. -/
def driftState (t : Nat) : State := meet t (State.reset.modHbm fun h => { h with
  status := 2
  chans := setAt h.chans 31 { fit := { rd := [127, 0], wr := [0, 127] } } })

theorem witness_DriftMovesOneStep :
    ((driftState 0).hbm.chans[31]?).any (fun c => decide (c.fit.rd.length ≤ 64) && (c.fit.rd ++ c.fit.wr).all (· ≤ 127) &&
      decide (c.st = 0)) = true ∧
    (driftState 99999999).driftDue 31 0 = false ∧ (driftState 100000000).driftDue 31 0 = true ∧
    (driftState 100000000).hbm.status = 2 := by decide +kernel

/-- The size of graphics layer 7, which is staged. -/
def stageDesc : Desc := descOf 0x6030 7

def stagers (owner : Nat) (closed : Bool) : State := litState.modDict fun d => { d with owner := owner, isSealed := closed }

theorem witness_StagedWritesWait :
    (objExists 0x6030 = true ∧ leafOf 0x6030 7 = some stageDesc ∧ lookup 0x6030 7 = some stageDesc ∧ viewOf 0x6030 = none ∧
      stageDesc.acc = .rs ∧ stageDesc.ty ≠ .blob ∧ noWrite stageDesc 7 = false ∧ writeRole 0x6030 ≤ 3 ∧
      valueOk stageDesc.ty (7 + 65536) = true ∧ stageDesc.accepts 7 (7 + 65536) = true ∧
      7 + 65536 < 2 ^ (8 * stageDesc.ty.width) ∧ (operating (stagers 0 false)).stateRefuses 0x6030 7 (7 + 65536) = none) ∧
    ((operating (stagers 0 false)).dict.isSealed = false ∧ (operating (stagers 1 false)).dict.owner = 1) ∧
    ((operating (stagers 2 false)).dict.isSealed = false ∧ (operating (stagers 2 false)).dict.owner = 2 ∧
      (operating (stagers 2 false)).seqr.trans = none) ∧
    (operating (stagers 0 true)).dict.isSealed = true := by decide +kernel

/-- A request frame as R49 lays it out: flags, session, number, die, operations and their bytes. -/
def reqFrame (flags sid seq die n : Nat) (ops : Bytes) : Bytes :=
  toLE 2 0x5947 ++ [1] ++ toLE 1 flags ++ toLE 2 sid ++ toLE 2 seq ++ toLE 2 0 ++ toLE 1 die ++ toLE 1 n ++ toLE 2 ops.length ++
    toLE 2 0 ++ ops

/-- A NOP, and a DESCRIBE of a number that no object has. -/
def opNop : Bytes := [8, 0, 0, 0, 0, 1, 0, 0]
def opBad : Bytes := [3, 0, 0xFF, 0x0F, 0, 1, 0, 0]

/-- Session 1 with request 64 behind it, its response held. -/
def heard (crc : Nat) : State := (host litState).modGysol fun g => { g with
  sessions := [{ user with last := 64, executed := [64, 1], cache := [(64, crc, [1]), (1, crc, [1])] }] }

theorem getsOf {s : State} {f : Bytes} {q : GReq} (h : s.firm.running = true ∧ s.firm.restartUntil ≤ s.now ∧ s.gysol.queue = [] ∧
    readReq f = some q ∧ (q.node = 0 ∧ q.version = 1 ∧ q.len ≤ 1400) ∧ (q.ops.all fun o => o.code != 0x10) = true ∧
    s.unisonView = none ∧ s.atomicWaits f = false) : s.Gets f q :=
  ⟨h.1, h.2.1, h.2.2.1, h.2.2.2.1, .inl h.2.2.2.2.1.1, by simp [h.2.2.2.2.1.1], h.2.2.2.2.1.2.1, h.2.2.2.2.1.2.2,
    by simpa using h.2.2.2.2.2.1, h.2.2.2.2.2.2.1, h.2.2.2.2.2.2.2⟩

def asked (f : Bytes) : GReq := (readReq f).getD ⟨0, 0, 0, 0, 0, 0, 0, [], [], [], false⟩

def tagged (key : Bytes) (e : Nat) (f : Bytes) : Bytes := f ++ frameTag key e f

/-- Frames without a tag in a session, with a tag in none, and with a tag under another key. -/
def forged : List Bytes :=
  [reqFrame 0 1 65 0xFF 1 opNop, tagged [] 65 (reqFrame 0x20 0 65 0xFF 1 opNop), tagged [1] 65 (reqFrame 0x20 1 65 0xFF 1 opNop)]

theorem witness_forged_untagged : (heard 0).Gets (reqFrame 0 1 65 0xFF 1 opNop) (asked (reqFrame 0 1 65 0xFF 1 opNop)) ∧
    (heard 0).Forged (asked (reqFrame 0 1 65 0xFF 1 opNop)) :=
  ⟨getsOf (by decide +kernel), .inl (by decide +kernel)⟩

theorem witness_forged_no_session : (heard 0).Gets (tagged [] 65 (reqFrame 0x20 0 65 0xFF 1 opNop))
    (asked (tagged [] 65 (reqFrame 0x20 0 65 0xFF 1 opNop))) ∧
    (heard 0).Forged (asked (tagged [] 65 (reqFrame 0x20 0 65 0xFF 1 opNop))) :=
  ⟨getsOf (by decide +kernel), .inr (.inl (by decide +kernel))⟩

theorem witness_forged_key : (heard 0).Gets (tagged [1] 65 (reqFrame 0x20 1 65 0xFF 1 opNop))
    (asked (tagged [1] 65 (reqFrame 0x20 1 65 0xFF 1 opNop))) ∧
    (heard 0).Forged (asked (tagged [1] 65 (reqFrame 0x20 1 65 0xFF 1 opNop))) := by
  refine ⟨getsOf (by decide +kernel), .inr (.inr ⟨by decide +kernel, by decide +kernel,
    { user with last := 64, executed := [64, 1], cache := [(64, 0, [1]), (1, 0, [1])] }, by decide +kernel, ?_⟩)⟩
  rintro k (h | h)
  · subst h
    decide +kernel
  · cases h

def nowFrame (seq flags n : Nat) (ops : Bytes) : Bytes := tagged [] seq (reqFrame (0x20 + flags) 1 seq 0xFF n ops)

theorem getsInOf {s : State} {f : Bytes} {q : GReq} {x : Session} {e : Int} (h : s.Gets f q)
    (g : q.tagged = true ∧ q.sid ≠ 0 ∧ s.session q.sid = some x ∧ x.newKey = none ∧ extend x.last q.seq = e ∧
      frameTag x.key (tagNum e) q.body = q.tag) : s.GetsIn f q x e :=
  ⟨h, g.1, g.2.1, g.2.2.1, g.2.2.2.1, g.2.2.2.2.1, g.2.2.2.2.2⟩

/-- A sender on the same network. -/
theorem witness_next_hop : (heard 0).nextHop (((heard 0).gysol.netIp + 1) * 65536 / 65536) = some ((heard 0).gysol.netIp + 1) := by
  decide +kernel

/-- A request that runs again, at the newest number and at the edge of the window. -/
theorem witness_ReplayedRequestsRunOnce (e : Nat) (he : e = 64 ∨ e = 1) :
    (heard (asked (nowFrame e 0 1 opNop)).crc).GetsIn (nowFrame e 0 1 opNop) (asked (nowFrame e 0 1 opNop))
      { user with last := 64, executed := [64, 1], cache := [(64, (asked (nowFrame e 0 1 opNop)).crc, [1]),
        (1, (asked (nowFrame e 0 1 opNop)).crc, [1])] } e ∧ (64 : Int) - 63 ≤ e ∧ (e : Int) ≤ 64 ∧ (e : Int) ∈ ([64, 1] : List Int) := by
  rcases he with rfl | rfl <;>
    exact ⟨getsInOf (getsOf (by decide +kernel)) (by decide +kernel), by decide, by decide, by decide⟩

theorem witness_replay_other_crc : (heard (2 ^ 32)).GetsIn (nowFrame 64 0 1 opNop) (asked (nowFrame 64 0 1 opNop))
      { user with last := 64, executed := [64, 1], cache := [(64, 2 ^ 32, [1]), (1, 2 ^ 32, [1])] } 64 ∧
    2 ^ 32 ≠ (asked (nowFrame 64 0 1 opNop)).crc :=
  ⟨getsInOf (getsOf (by decide +kernel)) (by decide +kernel), by decide +kernel⟩

theorem witness_replay_too_old : (heard 0).GetsIn (nowFrame 0 0 1 opNop) (asked (nowFrame 0 0 1 opNop))
      { user with last := 64, executed := [64, 1], cache := [(64, 0, [1]), (1, 0, [1])] } 0 ∧ (0 : Int) < 64 - 63 :=
  ⟨getsInOf (getsOf (by decide +kernel)) (by decide +kernel), by decide⟩

theorem witness_AtomicRequestsChangeAllOrNothing :
    (heard 0).GetsIn (nowFrame 65 0x10 2 (opNop ++ opBad)) (asked (nowFrame 65 0x10 2 (opNop ++ opBad)))
      { user with last := 64, executed := [64, 1], cache := [(64, 0, [1]), (1, 0, [1])] } 65 ∧ 64 < 65 ∧
    (asked (nowFrame 65 0x10 2 (opNop ++ opBad))).die = 0xFF ∧ (asked (nowFrame 65 0x10 2 (opNop ++ opBad))).atomic = true ∧
    ((asked (nowFrame 65 0x10 2 (opNop ++ opBad))).ops.any fun o => atomicFails o (((heard 0).opened
      { user with last := 64, executed := [64, 1], cache := [(64, 0, [1]), (1, 0, [1])] } 65 0).opExec ⟨1, 3⟩ o).2.1) = true :=
  ⟨getsInOf (getsOf (by decide +kernel)) (by decide +kernel), by decide, by decide +kernel,
    by decide +kernel, by decide +kernel⟩

theorem witness_BadBlobsLeaveTheValue : 1 ≠ ([] : Bytes).length ∧ (0 : Nat) = ([] : Bytes).length ∧ 0 ≠ crc32c keyBlob := by
  decide +kernel

theorem witness_StateRequestsFollowTheTable :
    ((operating litState).mews.dev ≠ .standby ∧ (operating reachBoot).mews.dev ≠ .serving ∧ (operating reachBoot).mews.dev ≠ .degraded ∧
      (operating reachBoot).mews.dev ≠ .safe) ∧
    ((operating (litState.modMews fun m => { m with dev := .safe, safeCause := 1 })).latchClearable = false) ∧
    (255 < 256 ∧ 255 ∉ [0, 2, 3, 6]) ∧ ((operating litState).mews.dev ≠ .mews ∧ (operating litState).mews.held = false) := by
  decide +kernel

def closedLocks : State := meet 0 (litState.modLamp fun l => { l with intlkA := true, intlkB := true })

theorem witness_InterlocksEndInSafe :
    closedLocks.mews.held = false ∧ closedLocks.mews.dev.lit = true ∧ closedLocks.lamp.intlkA = true ∧
    closedLocks.lamp.intlkB = true ∧ closedLocks.lamp.latch = 0 ∧ (mapGet closedLocks.units (wBand 3)).isSome = true := by
  decide +kernel

theorem witness_FaultInputStopsTheWheel :
    (∃ x, indexState.whel[1]? = some x) ∧ (mapGet indexState.units (wWheel 1)).isSome = true ∧
    (wheelState 4 7 { faultIn := true }).obs (wWheel 1) = 7 ∧ ((wheelState 4 7 { faultIn := true }).wheel 1).faultIn = true :=
  ⟨⟨_, rfl⟩, by decide +kernel, by decide +kernel, by decide +kernel⟩

theorem witness_LostFeedbackHoldsTheModel :
    (2 ≤ ((lightState 0).lband 3).miss ∧ (lightState 0).obs (wBand 3) = 1) ∧ closedBand.obs (wBand 3) ≠ 1 := by decide +kernel

theorem witness_DieResetKeepsTheMews : closedLocks.mews.dev ≠ .mews ∧ closedLocks.mews.vaon = true := by decide +kernel

end
end

section
/-! PROOFS. Frames that reach the request queue (R56, R58), and subscriptions with their queues of pushes (R67). -/

namespace Sys2Proof.Machine

/-! ## The request queue (R56, R58) -/

/-- A frame whose transport MGMT listens to reaches it: a UDP datagram to the port of 0x2003, plain, or any other transport (R77). -/
theorem exec_gysolRequest_heard {s : State} {t addr port : Nat} {tr : Transport} {plain wait : Bool} {frame : Bytes}
    (h : tr = .udp → port = (s.advance t).gysol.netPort ∧ plain = true) :
    exec (.gysolRequest t tr addr port plain frame wait) s = .next ((s.advance t).request tr addr frame wait) := by
  change Host.Outcome.next _ = _
  by_cases hu : tr = .udp
  · obtain ⟨hp, hq⟩ := h hu
    simp [hp, hq]
  · simp [hu]

/-- A frame for node 0 or for this node joins the queue, and what can be served is served unless it is to wait. -/
theorem request_own_node {s : State} {tr : Transport} {addr : Nat} {frame : Bytes} {wait : Bool} (hr : s.firm.running = true)
    (hn : leAt frame 8 2 = 0 ∨ leAt frame 8 2 = s.uane.node) :
    s.request tr addr frame wait =
      if wait then s.enqueue ⟨tr, addr, frame⟩ else (s.enqueue ⟨tr, addr, frame⟩).pump := by
  rcases hn with hn | hn <;> simp [State.request, hr, hn]

theorem enqueue_of_room {s : State} {f : QFrame} (h : s.gysol.queue.length < 32) :
    s.enqueue f = s.modGysol fun g => { g with queue := g.queue ++ [f] } :=
  if_neg (Nat.not_le.mpr h)

theorem enqueue_of_full {s : State} {f : QFrame} (h : 32 ≤ s.gysol.queue.length) :
    s.enqueue f = s.modGysol fun g => { g with rxDropped := (g.rxDropped + 1) % 2 ^ 32 } :=
  if_pos h

/-- Below its wrap the counter of dropped frames goes up by one (log entry 13). -/
theorem enqueue_of_full_counts {s : State} {f : QFrame} (h : 32 ≤ s.gysol.queue.length) (hd : s.gysol.rxDropped + 1 < 2 ^ 32) :
    s.enqueue f = s.modGysol fun g => { g with rxDropped := g.rxDropped + 1 } := by
  rw [enqueue_of_full h, State.modGysol, State.modGysol, Nat.mod_eq_of_lt hd]

/-- 0x2016 is a scalar of its own and no field of a unit record. -/
theorem viewOf_rxDropped : viewOf 0x2016 = none := by decide

theorem objKind_rxDropped : objKind 0x2016 = .scalar := by decide

theorem readNum_rxDropped (s : State) (sid : Nat) : s.readNum sid 0x2016 0 = s.gysol.rxDropped := by
  simp [State.readNum, viewOf_rxDropped, objKind_rxDropped, State.readLive, State.readMgmt]

/-- Settles O38: the frame reaches `State.enqueue`, which tells a full queue from one with room. -/
theorem fullQueueDropsTheFrame : Obligations.FullQueueDropsTheFrame := by
  rintro s u t tr addr port plain frame rfl hr hn hu
  have hrow (wait : Bool) : exec (.gysolRequest t tr addr port plain frame wait) s = .next
      (if wait then (s.advance t).enqueue ⟨tr, addr, frame⟩ else ((s.advance t).enqueue ⟨tr, addr, frame⟩).pump) := by
    rw [exec_gysolRequest_heard hu, request_own_node hr hn]
  refine ⟨fun hroom => ?_, fun hfull hcount => ?_, readNum_rxDropped _⟩
  · rw [hrow, hrow, enqueue_of_room hroom]
    exact ⟨rfl, rfl⟩
  · rw [hrow, hrow, enqueue_of_full_counts hfull hcount]
    exact ⟨rfl, rfl⟩

/-! ## Subscriptions (R67) -/

@[simp] theorem emit_gysol (o : Out) (s : State) : (s.emit o).gysol = s.gysol := rfl

/-- SUBSCRIBE runs where its data is a mask of 32 bytes (R53). -/
theorem opExec_subscribe {s : State} {c : Caller} {mask : Bytes} (h : mask.length = 32) :
    s.opExec c ⟨0x07, 0, 0, 0, 1, mask⟩ = (s.subscribe c.sid mask, 0x00, []) := by
  have hp : (⟨0x07, 0, 0, 0, 1, mask⟩ : GOp).plain 32 = none := by
    simp [GOp.plain, GOp.badFlags, h, first, refuseIf, bit]
  simp only [State.opExec, hp]

theorem subscribe_sessions {s : State} {sid : Nat} {mask : Bytes} (h : sid ≠ 0xFFFF) :
    (s.subscribe sid mask).gysol.sessions =
      s.gysol.sessions.map fun x => if x.id = sid then { x with mask := ofLE mask } else x := by
  rw [State.subscribe, modGysol_gysol, if_neg h]

/-- A SUBSCRIBE of a served session is done and answered. -/
theorem exec_subscribe_served {s : State} {t sid : Nat} {x : Session} {mask : Bytes} (hs : s.Serves t sid x)
    (h : mask.length = 32) :
    exec (.subscribe t sid mask) s = .next (((s.served t sid x).subscribe sid mask).emit (.answer sid 0x07 0x00 [])) := by
  change Host.Outcome.next _ = _
  rw [opRow_served hs (show (0x07 : Nat) ≠ 0x11 by decide), opExec_subscribe h]

/-- A captured record is pushed, and XRDS takes it. -/
theorem captureRecord_of_rcd {s : State} {o : Occ} (h : o.rcd = true) :
    s.captureRecord o =
      (s.modGysol (·.push s.now ⟨s.xrds.seqNext, o.time, o.code, o.inst, o.data⟩)).modXrds (·.record o) :=
  if_pos h

theorem push_sessions (now : Nat) (r : EvRec) (g : Gysol) :
    (g.push now r).sessions = g.sessions.map fun y =>
      if y.mask.testBit r.code = true ∧ y.pushes.length < 256 then { y with pushes := y.pushes ++ [⟨r, now⟩] } else y := by
  simp only [Gysol.push, Bool.and_eq_true, decide_eq_true_eq]

/-- Settles O40: SUBSCRIBE maps its mask over the sessions; capture maps the record over them and gives XRDS the occurrence alone. -/
theorem subscribersQueueEachEvent : Obligations.SubscribersQueueEachEvent := by
  refine ⟨?_, fun s o ho => ⟨?_, fun g => ?_⟩⟩
  · rintro s v t sid x mask hs rfl hm
    refine ⟨_, exec_subscribe_served hs hm, ?_⟩
    rw [emit_gysol, subscribe_sessions hs.numbered.2]
  · rw [captureRecord_of_rcd ho, modXrds_gysol, modGysol_gysol, push_sessions]
  · rw [captureRecord_of_rcd ho, captureRecord_of_rcd ho]
    rfl

end Sys2Proof.Machine
end

section
/-! PROOFS. Requests of the frame memory that do not complete in time (R126, R521). -/

namespace Sys2Proof.Machine

/-! ## A list changed at one place -/

theorem modAt_eq_modify {α : Type} (l : List α) (i : Nat) (f : α → α) : modAt l i f = l.modify i f := by
  induction l generalizing i with
  | nil => simp [modAt]
  | cons a l ih => cases i <;> simp [modAt, ih]

theorem getElem?_modAt_self {α : Type} (l : List α) (i : Nat) (f : α → α) : (modAt l i f)[i]? = l[i]?.map f := by
  rw [modAt_eq_modify, List.getElem?_modify_eq]
  rfl

theorem getElem?_modAt_ne {α : Type} (l : List α) {i j : Nat} (f : α → α) (h : j ≠ i) : (modAt l i f)[j]? = l[j]? := by
  simp [modAt_eq_modify, h.symm]

theorem getD_of_getElem? {α : Type} {l : List α} {i : Nat} {a : α} (h : l[i]? = some a) (d : α) : l.getD i d = a := by
  rw [List.getD_eq_getElem?_getD, h, Option.getD_some]

/-! ## Event capture takes no time and moves no frame memory -/

theorem captureRecord_now (s : State) (o : Occ) : (s.captureRecord o).now = s.now := by
  unfold State.captureRecord
  split <;> rfl

theorem captureCycle_now (os : List Occ) (s : State) : (s.captureCycle os).1.now = s.now := by
  have hrecords : (os.foldl State.captureRecord s).now = s.now :=
    List.foldlRecOn (motive := fun w => w.now = s.now) os _ rfl fun w hw o _ => (captureRecord_now w o).trans hw
  have htasks : ((upTo 38).foldl (State.captureTask os) (os.foldl State.captureRecord s, [], [])).1.now = s.now :=
    List.foldlRecOn (motive := fun p : State × List Occ × List Nat => p.1.now = s.now) (upTo 38) _ hrecords fun _ hp _ _ => hp
  unfold State.captureCycle
  dsimp only
  refine List.foldlRecOn (motive := fun p : State × List Occ => p.1.now = s.now) (upTo 64) _ htasks fun p hp i _ => ?_
  split
  · exact hp
  · exact hp

theorem captureFor_now (n : Nat) (os : List Occ) (s : State) : (s.captureFor n os).now = s.now := by
  induction n generalizing os s with
  | zero => rfl
  | succ n ih =>
    cases os with
    | nil => rfl
    | cons o os => exact (ih _ _).trans (captureCycle_now _ s)

@[simp] theorem raise_now (code inst data : Nat) (s : State) : (s.raise code inst data).now = s.now := captureFor_now _ _ s

@[simp] theorem raise_hbm (code inst data : Nat) (s : State) : (s.raise code inst data).hbm = s.hbm :=
  onlyMoves_raise [] code inst data s .hbm List.not_mem_nil

/-! ## What the clients of a port and its levels leave alone -/

/-- What a request timeout changes at a port: the words that wait, and the count of timeouts. -/
def HPort.requests (p : HPort) : List HWord × Nat := (p.queue, p.timeouts)

/-- The same time, channels, waiting words and timeouts. -/
structure SameRequests (s w : State) : Prop where
  now : w.now = s.now
  chans : w.hbm.chans = s.hbm.chans
  ports : ∀ n : Nat, w.hbm.ports[n]?.map HPort.requests = s.hbm.ports[n]?.map HPort.requests

theorem SameRequests.of_hbm {s w : State} (hn : w.now = s.now) (hh : w.hbm = s.hbm) : SameRequests s w :=
  ⟨hn, congrArg Hbm.chans hh, fun _ => by rw [hh]⟩

theorem SameRequests.refl (s : State) : SameRequests s s := .of_hbm rfl rfl

theorem SameRequests.trans {r s w : State} (h : SameRequests r s) (k : SameRequests s w) : SameRequests r w :=
  ⟨k.now.trans h.now, k.chans.trans h.chans, fun n => (k.ports n).trans (h.ports n)⟩

theorem SameRequests.foldl {α : Type} {f : State → α → State} (h : ∀ s a, SameRequests s (f s a)) (l : List α) (s : State) :
    SameRequests s (l.foldl f s) :=
  List.foldlRecOn (motive := SameRequests s) l f (.refl s) fun w hw a _ => hw.trans (h w a)

theorem SameRequests.port {s w : State} {n : Nat} {p : HPort} (h : SameRequests s w) (hp : s.hbm.ports[n]? = some p) :
    ∃ q, w.hbm.ports[n]? = some q ∧ q.queue = p.queue ∧ q.timeouts = p.timeouts := by
  have hq := h.ports n
  rw [hp, Option.map_some, Option.map_eq_some_iff] at hq
  obtain ⟨q, hq, hr⟩ := hq
  exact ⟨q, hq, congrArg Prod.fst hr, congrArg Prod.snd hr⟩

theorem SameRequests.modHbm {f : Hbm → Hbm} (hc : ∀ h, (f h).chans = h.chans) (hp : ∀ h, (f h).ports = h.ports) (s : State) :
    SameRequests s (s.modHbm f) :=
  ⟨rfl, hc s.hbm, fun n => by rw [modHbm_hbm, hp]⟩

theorem sameRequests_raise (code inst data : Nat) (s : State) : SameRequests s (s.raise code inst data) :=
  .of_hbm (raise_now ..) (raise_hbm ..)

theorem sameRequests_findRuns (n : Nat) (s : State) : SameRequests s (s.findRuns n) := by
  unfold State.findRuns
  dsimp only
  split
  · exact .of_hbm rfl rfl
  · exact .of_hbm (raise_now ..) (raise_hbm ..)

theorem sameRequests_dropFrame (cause n : Nat) (s : State) : SameRequests s (s.dropFrame cause n) :=
  .of_hbm (raise_now ..) (raise_hbm ..)

theorem sameRequests_discardWriting (s : State) (n : Nat) : SameRequests s (s.discardWriting n) := by
  unfold State.discardWriting
  split
  · exact .refl s
  · exact .of_hbm rfl rfl

theorem sameRequests_discardFinishing (s : State) (n : Nat) : SameRequests s (s.discardFinishing n) := .of_hbm rfl rfl

theorem sameRequests_modRx (n : Nat) (f : RxLayer → RxLayer) (s : State) : SameRequests s (s.modRx n f) := .of_hbm rfl rfl

/-- A client that is told of a failed word marks its own data bad, and touches no request: BE, a word outside the regions, planes, a
region without a client, a read, received lines, and the versions being written and finishing, as R126 lists them. -/
theorem sameRequests_clientFailed (port word : Nat) (write : Bool) (s : State) :
    SameRequests s (s.clientFailed port word write) := by
  unfold State.clientFailed
  split
  · refine .modHbm ?_ ?_ s <;> exact fun _ => rfl
  · split
    · exact .refl s
    · dsimp only
      split
      · exact .of_hbm rfl rfl
      · split
        · exact .refl s
        · split
          · refine .trans (.modHbm ?_ ?_ s) (sameRequests_findRuns _ _) <;> exact fun _ => rfl
          · split
            · exact .foldl (fun _ _ => sameRequests_modRx ..) _ s
            · split
              · exact (sameRequests_discardWriting ..).trans (sameRequests_dropFrame ..)
              · split
                · exact (sameRequests_discardFinishing ..).trans (sameRequests_dropFrame ..)
                · exact .refl s

theorem setLevels_requests (n th level levelW : Nat) (p : HPort) : (p.setLevels n th level levelW).requests = p.requests := by
  unfold HPort.setLevels
  split
  · rfl
  · split <;> rfl

/-- A port replaced by one with the same requests. -/
theorem sameRequests_setPort {n : Nat} {p : HPort} {s : State} (h : p.requests = (s.hbm.ports.getD n {}).requests) :
    SameRequests s (s.modHbm fun h => { h with ports := setAt h.ports n p }) := by
  refine ⟨rfl, rfl, fun m => ?_⟩
  rw [modHbm_hbm, setAt, List.getElem?_set]
  split
  · next hm =>
    subst hm
    split
    · next hlt => rw [Option.map_some, h, List.getD_eq_getElem _ _ hlt, List.getElem?_eq_getElem hlt, Option.map_some]
    · next hlt => rw [List.getElem?_eq_none (Nat.not_lt.mp hlt)]
  · rfl

theorem sameRequests_hbmLevels (n level levelW : Nat) (s : State) : SameRequests s (s.hbmLevels n level levelW) := by
  have hset := sameRequests_setPort (setLevels_requests n (s.num 0x5031 n) level levelW (s.hbm.ports.getD n {}))
  unfold State.hbmLevels
  dsimp only
  split
  · exact hset.trans (sameRequests_raise ..)
  · exact hset

theorem sameRequests_portLevels (s : State) : SameRequests s s.portLevels := by
  refine SameRequests.foldl (fun s n => ?_) (upTo 9) s
  dsimp only
  split
  · exact sameRequests_hbmLevels ..
  · split <;> exact sameRequests_hbmLevels ..

/-! ## One request timeout (R126, R521) -/

/-- A retraining touches its own channel of the frame memory only, and no port. -/
theorem hbmRetrain_ports (ch : Nat) (s : State) : (s.hbmRetrain ch).hbm.ports = s.hbm.ports := by
  unfold State.hbmRetrain
  split <;> rfl

theorem hbmRetrain_chans_ne {ch m : Nat} (h : m ≠ ch) (s : State) : (s.hbmRetrain ch).hbm.chans[m]? = s.hbm.chans[m]? := by
  unfold State.hbmRetrain
  split
  · rfl
  · exact getElem?_modAt_ne _ _ h

/-- A channel that is not quarantined goes to RETRAINING (R130). -/
theorem hbmRetrain_st {ch : Nat} {s : State} {c : HChan} (hc : s.hbm.chans[ch]? = some c) (h : c.st ≠ 3) :
    ∃ d, (s.hbmRetrain ch).hbm.chans[ch]? = some d ∧ d.st = 2 := by
  have hget : s.hbm.chans.getD ch {} = c := getD_of_getElem? hc {}
  refine ⟨{ c with st := 2, recur := 0, timeouts := [], replay := [] }, ?_, rfl⟩
  rw [State.hbmRetrain, if_neg (by rwa [hget]), modHbm_hbm, getElem?_modAt_self, hc]
  rfl

/-- The timeouts of a channel within the last 100 µs (R521). -/
def HChan.recent (now : Nat) (c : HChan) : List Nat := c.timeouts.filter fun x => decide (now ≤ x + 100000)

/-- A timeout counted at its port and at its channel, with event 0x4C. -/
def State.timeoutCounted (port ch : Nat) (s : State) : State :=
  (s.modHbm fun h => { h with
    ports := modAt h.ports port fun p => { p with timeouts := (p.timeouts + 1) % 2 ^ 32 }
    chans := modAt h.chans ch fun c => { c with timeouts := (s.hbm.chans.getD ch {}).recent s.now ++ [s.now] } }).raise 0x4C port ch

/-- The fourth timeout within 100 µs of an ACTIVE channel is the one that three recent ones precede. -/
theorem hbmTimeout_eq {port ch : Nat} {s : State} {c : HChan} (hc : s.hbm.chans[ch]? = some c) :
    s.hbmTimeout port ch =
      if c.st = 0 ∧ 3 ≤ (c.recent s.now).length then (s.timeoutCounted port ch).hbmRetrain ch else s.timeoutCounted port ch := by
  have hget : s.hbm.chans.getD ch {} = c := getD_of_getElem? hc {}
  simp only [State.hbmTimeout, State.timeoutCounted, HChan.recent, hget, Bool.and_eq_true, decide_eq_true_eq, List.length_append,
    List.length_singleton, Nat.reduceLeDiff]

theorem timeoutCounted_ports (port ch : Nat) (s : State) : (s.timeoutCounted port ch).hbm.ports =
    modAt s.hbm.ports port fun p => { p with timeouts := (p.timeouts + 1) % 2 ^ 32 } := by
  rw [State.timeoutCounted, raise_hbm, modHbm_hbm]

theorem timeoutCounted_chans_ne {ch m : Nat} (h : m ≠ ch) (port : Nat) (s : State) :
    (s.timeoutCounted port ch).hbm.chans[m]? = s.hbm.chans[m]? := by
  rw [State.timeoutCounted, raise_hbm, modHbm_hbm]
  exact getElem?_modAt_ne _ _ h

theorem timeoutCounted_st {port ch : Nat} {s : State} {c : HChan} (hc : s.hbm.chans[ch]? = some c) :
    ∃ d, (s.timeoutCounted port ch).hbm.chans[ch]? = some d ∧ d.st = c.st := by
  refine ⟨{ c with timeouts := (s.hbm.chans.getD ch {}).recent s.now ++ [s.now] }, ?_, rfl⟩
  rw [State.timeoutCounted, raise_hbm, modHbm_hbm, getElem?_modAt_self, hc]
  rfl

/-- The port counts the timeout whether the channel retrains or not. -/
theorem hbmTimeout_ports {port ch : Nat} {s : State} {c : HChan} (hc : s.hbm.chans[ch]? = some c) :
    (s.hbmTimeout port ch).hbm.ports = modAt s.hbm.ports port fun p => { p with timeouts := (p.timeouts + 1) % 2 ^ 32 } := by
  rw [hbmTimeout_eq hc]
  split
  · rw [hbmRetrain_ports, timeoutCounted_ports]
  · exact timeoutCounted_ports port ch s

theorem hbmTimeout_chans_ne {port ch m : Nat} {s : State} {c : HChan} (hc : s.hbm.chans[ch]? = some c) (h : m ≠ ch) :
    (s.hbmTimeout port ch).hbm.chans[m]? = s.hbm.chans[m]? := by
  rw [hbmTimeout_eq hc]
  split
  · rw [hbmRetrain_chans_ne h, timeoutCounted_chans_ne h]
  · exact timeoutCounted_chans_ne h port s

/-- An ACTIVE channel retrains at its fourth timeout within 100 µs and stays ACTIVE before (R521). -/
theorem hbmTimeout_st {port ch : Nat} {s : State} {c : HChan} (hc : s.hbm.chans[ch]? = some c) (ha : c.st = 0) :
    ∃ d, (s.hbmTimeout port ch).hbm.chans[ch]? = some d ∧ d.st = if 3 ≤ (c.recent s.now).length then 2 else 0 := by
  obtain ⟨d, hd, hst⟩ := timeoutCounted_st (port := port) hc
  rw [hbmTimeout_eq hc]
  by_cases h4 : 3 ≤ (c.recent s.now).length
  · rw [if_pos ⟨ha, h4⟩, if_pos h4]
    exact hbmRetrain_st hd (by omega)
  · rw [if_neg fun h => h4 h.2, if_neg h4]
    exact ⟨d, hd, hst.trans ha⟩

/-! ## The row HBMC_REQ_TIMEOUT -/

/-- Without a word that is overdue the row does nothing. -/
theorem exec_hbmcReqTimeout_idle {s : State} {t port ch : Nat} (h : (s.advance t).overdue port ch = none) :
    exec (.hbmcReqTimeout t port ch) s = .next (s.advance t) := by
  change execHbmcReqTimeout t port ch s = _
  simp only [execHbmcReqTimeout, h]

/-- A word taken out of the queue of its port. -/
def State.wordDropped (port i : Nat) (s : State) : State :=
  s.modHbm fun h => { h with ports := modAt h.ports port fun p => { p with queue := p.queue.eraseIdx i } }

/-- An overdue word leaves its port; its client hears of it, the timeout is counted, and the panic levels are judged. -/
theorem exec_hbmcReqTimeout_overdue {s : State} {t port ch i : Nat} (h : (s.advance t).overdue port ch = some i) :
    ∃ word write, exec (.hbmcReqTimeout t port ch) s =
      .next (((((s.advance t).wordDropped port i).clientFailed port word write).hbmTimeout port ch).portLevels) := by
  change ∃ word write, execHbmcReqTimeout t port ch s = _
  simp only [execHbmcReqTimeout, h]
  exact ⟨_, _, rfl⟩

/-- 0x5035 is an array of its own and no field of a unit record. -/
theorem readNum_portTimeouts {s : State} {m : Nat} {p : HPort} (h : s.hbm.ports[m]? = some p) (sid : Nat) :
    s.readNum sid 0x5035 m = p.timeouts := by
  have hview : viewOf 0x5035 = none := by decide
  have hkind : objKind 0x5035 = .array := by decide
  simp [State.readNum, hview, hkind, State.readLive, State.readHbm, h]

/-- Settles O42: between the loss of the word and the end of the row only `State.hbmTimeout` moves the channels and the counts. -/
theorem fourTimeoutsRetrainAChannel : Obligations.FourTimeoutsRetrainAChannel := by
  rintro s u t port n c rfl hc
  refine ⟨exec_hbmcReqTimeout_idle, fun i hi => ?_⟩
  obtain ⟨word, write, hrow⟩ := exec_hbmcReqTimeout_overdue hi
  have hv := sameRequests_clientFailed port word write ((s.advance t).wordDropped port i)
  generalize ((s.advance t).wordDropped port i).clientFailed port word write = v at hrow hv
  have hend := sameRequests_portLevels (v.hbmTimeout port n)
  have hvc : v.hbm.chans[n]? = some c := by rw [hv.chans]; exact hc
  refine ⟨_, hrow, fun p hp hcount => ?_, fun ha => ?_, fun m hm => ?_, fun sid m p hp => readNum_portTimeouts hp sid⟩
  · have hdropped : ((s.advance t).wordDropped port i).hbm.ports[port]? = some { p with queue := p.queue.eraseIdx i } := by
      rw [State.wordDropped, modHbm_hbm, getElem?_modAt_self, hp]
      rfl
    obtain ⟨q, hq, hqueue, htimeouts⟩ := hv.port hdropped
    have hcounted : (v.hbmTimeout port n).hbm.ports[port]? = some { q with timeouts := (q.timeouts + 1) % 2 ^ 32 } := by
      rw [hbmTimeout_ports hvc, getElem?_modAt_self, hq]
      rfl
    obtain ⟨r, hr, hrqueue, hrtimeouts⟩ := hend.port hcounted
    refine ⟨r, hr, ?_, hrqueue.trans hqueue⟩
    rw [hrtimeouts, htimeouts, Nat.mod_eq_of_lt hcount]
  · rw [hend.chans]
    have hnow : v.now = (s.advance t).now := hv.now
    rw [← hnow]
    exact hbmTimeout_st hvc ha
  · rw [hend.chans, hbmTimeout_chans_ne hvc hm, hv.chans]
    rfl

end Sys2Proof.Machine
end

section
/-! PROOFS. The checks that a write meets before all others: its object, its subindices and its role (R55, R57, R605). -/

namespace Sys2Proof.Machine

/-! ## The check of the object and the check of the role -/

@[simp] theorem first_some (st : Nat) (b : Option Nat) : first (some st) b = some st := rfl

@[simp] theorem first_none (b : Option Nat) : first none b = b := rfl

theorem first_assoc (a b c : Option Nat) : first (first a b) c = first a (first b c) := by cases a <;> rfl

theorem upTo_all {n : Nat} {p : Nat → Bool} : (upTo n).all p = true ↔ ∀ k, k < n → p k = true := by
  simp [upTo, List.all_eq_true]

theorem checkObject_unknown {obj : Nat} (h : objExists obj = false) (sub count : Nat) : checkObject obj sub count = some 0x10 := by
  simp [checkObject, refuseIf, h]

theorem checkObject_exists {obj : Nat} (h : objExists obj = true) (sub count : Nat) :
    checkObject obj sub count = refuseIf (!(upTo (max count 1)).all fun k => (leafOf obj (sub + k)).isSome) 0x11 := by
  simp [checkObject, refuseIf, h]

/-- One subindex that does not exist is enough. -/
theorem checkObject_gap {obj sub count k : Nat} (he : objExists obj = true) (hk : k < max count 1)
    (h : leafOf obj (sub + k) = none) : checkObject obj sub count = some 0x11 := by
  have hgap : ((upTo (max count 1)).all fun k => (leafOf obj (sub + k)).isSome) = false := by
    rw [Bool.eq_false_iff, ne_eq, upTo_all]
    intro hall
    simpa [h] using hall k hk
  rw [checkObject_exists he, hgap]
  rfl

theorem checkObject_whole {obj sub count : Nat} (he : objExists obj = true)
    (h : ∀ k, k < max count 1 → (leafOf obj (sub + k)).isSome = true) : checkObject obj sub count = none := by
  rw [checkObject_exists he, upTo_all.mpr h]
  rfl

/-- No role may write the subindex: it has no row, or one that answers ACCESS. -/
def subShut (obj sub : Nat) : Bool := match leafOf obj sub with
  | some d => noWrite d sub
  | none => true

theorem subShut_of_leaf {obj sub : Nat} {d : Desc} (h : leafOf obj sub = some d) : subShut obj sub = noWrite d sub := by
  rw [subShut, h]

theorem checkRole_eq (role obj sub count : Nat) : checkRole role obj sub count =
    if (upTo count).all (fun k => subShut obj (sub + k)) then some 0x12
    else first (refuseIf (decide (role < writeRole obj)) 0x15) (refuseIf ((upTo count).any fun k => subShut obj (sub + k)) 0x12) := by
  simp only [checkRole, List.all_map, List.any_map]
  rfl

theorem checkRole_shut {obj sub count : Nat} (h : ∀ k, k < count → subShut obj (sub + k) = true) (role : Nat) :
    checkRole role obj sub count = some 0x12 := by
  rw [checkRole_eq, if_pos (upTo_all.mpr h)]

/-- Where some role may write one of the subindices, a role below that of the object answers ROLE. -/
theorem checkRole_low {role obj sub count k : Nat} (hk : k < count) (hopen : subShut obj (sub + k) = false)
    (hr : role < writeRole obj) : checkRole role obj sub count = some 0x15 := by
  have hsome : ¬ (upTo count).all (fun k => subShut obj (sub + k)) = true := by
    rw [upTo_all]
    intro hall
    simpa [hopen] using hall k hk
  rw [checkRole_eq, if_neg hsome, decide_eq_true hr]
  rfl

/-! ## What these two checks refuse, the write answers -/

/-- What bars a write whatever its data, its values and the state: its object, a subindex, or the role of its sender. -/
def writeBar (role obj sub count : Nat) : Option Nat := first (checkObject obj sub count) (checkRole role obj sub (max count 1))

theorem writeBar_unknown {obj : Nat} (h : objExists obj = false) (role sub count : Nat) : writeBar role obj sub count = some 0x10 := by
  rw [writeBar, checkObject_unknown h, first_some]

theorem writeBar_gap {obj sub count k : Nat} (he : objExists obj = true) (hk : k < max count 1) (h : leafOf obj (sub + k) = none)
    (role : Nat) : writeBar role obj sub count = some 0x11 := by
  rw [writeBar, checkObject_gap he hk h, first_some]

theorem writeBar_shut {obj sub count : Nat} (he : objExists obj = true)
    (h : ∀ k, k < max count 1 → ∃ d, leafOf obj (sub + k) = some d ∧ noWrite d (sub + k) = true) (role : Nat) :
    writeBar role obj sub count = some 0x12 := by
  have hwhole : checkObject obj sub count = none := checkObject_whole he fun k hk => by
    obtain ⟨d, hd, -⟩ := h k hk
    rw [hd, Option.isSome_some]
  have hshut : checkRole role obj sub (max count 1) = some 0x12 := checkRole_shut (fun k hk => by
    obtain ⟨d, hd, hno⟩ := h k hk
    rw [subShut_of_leaf hd, hno]) role
  rw [writeBar, hwhole, hshut, first_none]

theorem writeBar_low {role obj sub count k : Nat} {d : Desc} (he : objExists obj = true)
    (h : ∀ k, k < max count 1 → (leafOf obj (sub + k)).isSome = true) (hk : k < max count 1) (hd : leafOf obj (sub + k) = some d)
    (hopen : noWrite d (sub + k) = false) (hr : role < writeRole obj) : writeBar role obj sub count = some 0x15 := by
  rw [writeBar, checkObject_whole he h, first_none]
  exact checkRole_low hk ((subShut_of_leaf hd).trans hopen) hr

theorem checkWrite_of_bar {c : Caller} {obj sub count st : Nat} (h : writeBar c.role obj sub count = some st) (s : State)
    (data : Bytes) (bad : Bool) : s.checkWrite c obj sub count data bad = some st := by
  rw [State.checkWrite, ← first_assoc, ← writeBar, h, first_some]

theorem opBlobWrite_of_bar {c : Caller} {o : GOp} {st : Nat} (h : writeBar c.role o.obj o.sub 1 = some st) (s : State) :
    s.opBlobWrite c o = (s, st) := by
  have h1 : first (checkObject o.obj o.sub 1) (checkRole c.role o.obj o.sub 1) = some st := h
  rw [State.opBlobWrite, ← first_assoc, h1, first_some]

/-- A barred WRITE of a served session changes nothing else (R57). HELD, 0x01, is no bar: it lets the write run. -/
theorem exec_write_barred {s : State} {t sid obj sub count st : Nat} {x : Session} (hs : s.Serves t sid x)
    (h : writeBar x.role obj sub count = some st) (hst : st ≠ 0x01) (data : Bytes) :
    exec (.write t sid obj sub count data) s = .next ((s.served t sid x).emit (.answer sid 0x02 st [])) := by
  have hop : (s.served t sid x).opExec ⟨sid, x.role⟩ ⟨0x02, 0, obj, sub, count, data⟩ = (s.served t sid x, st, []) := by
    simp only [State.opExec, checkWrite_of_bar (c := ⟨sid, x.role⟩) h]
  change Host.Outcome.next _ = _
  rw [opRow_served hs (show (0x02 : Nat) ≠ 0x11 by decide), hop]

/-- A barred chunk of a BLOB changes nothing else (R54). -/
theorem exec_blobWrite_barred {s : State} {t sid obj sub st : Nat} {x : Session} (hs : s.Serves t sid x)
    (h : writeBar x.role obj sub 1 = some st) (offset : Nat) (chunk : Bytes) (last : Bool) (crc : Nat) :
    exec (.blobWrite t sid obj sub offset chunk last crc) s = .next ((s.served t sid x).emit (.answer sid 0x05 st [])) := by
  change Host.Outcome.next _ = _
  rw [opRow_served hs (show (0x05 : Nat) ≠ 0x11 by decide)]
  simp only [State.opExec, opBlobWrite_of_bar (c := ⟨sid, x.role⟩) (o := ⟨0x05, _, obj, sub, 1, _⟩) h]

/-- For one subindex the bar is found by cases on the object, its row and its access (R55, R605). -/
theorem writeBar_one {role obj sub st : Nat}
    (h : if objExists obj = false then st = 0x10 else match leafOf obj sub with
      | none => st = 0x11
      | some d => if noWrite d sub = true then st = 0x12 else role < writeRole obj ∧ st = 0x15) :
    writeBar role obj sub 1 = some st := by
  have hone {k : Nat} (hk : k < max 1 1) : k = 0 := by omega
  cases he : objExists obj with
  | false =>
    rw [if_pos he] at h
    rw [h, writeBar_unknown he]
  | true =>
    rw [if_neg (by simp [he])] at h
    cases hd : leafOf obj sub with
    | none =>
      rw [hd] at h
      rw [show st = 0x11 from h, writeBar_gap (k := 0) he (by decide) hd]
    | some d =>
      simp only [hd] at h
      split at h
      next hno =>
        rw [h]
        exact writeBar_shut he (fun k hk => by obtain rfl := hone hk; exact ⟨d, hd, hno⟩) role
      next hopen =>
        obtain ⟨hr, rfl⟩ := h
        exact writeBar_low (k := 0) he (fun k hk => by obtain rfl := hone hk; exact Option.isSome_of_eq_some hd) (by decide) hd
          (by simpa using hopen) hr

/-! ## The roles of R605 -/

/-- Settles O41: the check of the object and then that of the role come before all others, for any count. -/
theorem writesNeedTheirRole : Obligations.WritesNeedTheirRole := by
  refine ⟨fun obj => ?_, ?_⟩
  · simp only [writeRole, serviceOnly, List.contains_iff_mem]
  rintro s v t sid obj sub count x data hs rfl
  refine ⟨fun he => ?_, fun he ⟨k, hk, hgap⟩ => ?_, fun he _ hshut => ?_, fun he _ hwhole ⟨k, d, hk, hd, hopen⟩ hr => ?_,
    fun offset crc chunk last st h => exec_blobWrite_barred hs (writeBar_one h) offset chunk last crc⟩
  · exact exec_write_barred hs (writeBar_unknown he x.role sub count) (by decide) data
  · exact exec_write_barred hs (writeBar_gap he (Nat.lt_of_lt_of_le hk (Nat.min_le_left ..)) hgap x.role) (by decide) data
  · exact exec_write_barred hs (writeBar_shut he hshut x.role) (by decide) data
  · exact exec_write_barred hs (writeBar_low he hwhole hk hd hopen hr) (by decide) data

end Sys2Proof.Machine
end

section
set_option Elab.async false
/-! PROOFS. Every command goes on within the bounds of Safety.lean, and so does every run (log entry 3). -/

namespace Sys2Proof.Machine

/-- Each row of the table goes on within the bounds. -/
theorem keepsGoing_exec : ∀ (c : Instr) (s : State), KeepsGoing s (exec c s)
  | .gysolRequest .., _ => kept_execGysolRequest ..
  | .read .., _ => kept_execRead ..
  | .write .., _ => kept_execWrite ..
  | .describe .., _ => kept_execDescribe ..
  | .blobRead .., _ => kept_execBlobRead ..
  | .blobWrite .., _ => kept_execBlobWrite ..
  | .logRead .., _ => kept_execLogRead ..
  | .subscribe .., _ => kept_execSubscribe ..
  | .nop .., _ => kept_execNop ..
  | .sessionOpen .., _ => kept_execSessionOpen ..
  | .sessionClose .., _ => kept_execSessionClose ..
  | .pendingSessionTimeout .., _ => kept_execPendingSessionTimeout ..
  | .sessionTimeout .., _ => kept_execSessionTimeout ..
  | .blobStreamAbandon .., _ => kept_execBlobStreamAbandon ..
  | .eventPush .., _ => kept_execEventPush ..
  | .writeFrame .., _ => kept_execWriteFrame ..
  | .readStatus .., _ => kept_execReadStatus ..
  | .readFrame .., _ => kept_execReadFrame ..
  | .arpRequest .., _ => kept_execArpRequest ..
  | .icmpEcho .., _ => kept_execIcmpEcho ..
  | .stateRequestMews .., _ => kept_execStateRequestMews ..
  | .stateRequestStandby .., _ => kept_execStateRequestStandby ..
  | .stateRequestWarming .., _ => kept_execStateRequestWarming ..
  | .stateRequestSafe .., _ => kept_execStateRequestSafe ..
  | .unitCommand .., _ => kept_execUnitCommand ..
  | .unitForce .., _ => kept_execUnitForce ..
  | .mgmtUnitDisagree .., _ => kept_execMgmtUnitDisagree ..
  | .disagreeAllowanceExpiry .., _ => kept_execDisagreeAllowanceExpiry ..
  | .profileSave .., _ => kept_execProfileSave ..
  | .profileSaveComplete .., _ => kept_execProfileSaveComplete ..
  | .profileErase .., _ => kept_execProfileErase ..
  | .profileEraseComplete .., _ => kept_execProfileEraseComplete ..
  | .stageDiscard .., _ => kept_execStageDiscard ..
  | .roleKeyWrite .., _ => kept_execRoleKeyWrite ..
  | .commit .., _ => kept_execCommit ..
  | .commitValidationEnd .., _ => kept_execCommitValidationEnd ..
  | .seqrStageReady .., _ => kept_execSeqrStageReady ..
  | .hbmTrainFull .., _ => kept_execHbmTrainFull ..
  | .hbmTrainQuick .., _ => kept_execHbmTrainQuick ..
  | .hbmTrainingDone .., _ => kept_execHbmTrainingDone ..
  | .arrayRegAccessRead .., _ => kept_execArrayRegAccessRead ..
  | .arrayRegAccessWrite .., _ => kept_execArrayRegAccessWrite ..
  | .lampRegAccessRead .., _ => kept_execLampRegAccessRead ..
  | .lampRegAccessWrite .., _ => kept_execLampRegAccessWrite ..
  | .arcdLaneSwapCmd .., _ => kept_execArcdLaneSwapCmd ..
  | .repClear .., _ => kept_execRepClear ..
  | .traceArm .., _ => kept_execTraceArm ..
  | .chainCmdEnumerate .., _ => kept_execChainCmdEnumerate ..
  | .counterSnapshot .., _ => kept_execCounterSnapshot ..
  | .counterClear .., _ => kept_execCounterClear ..
  | .counterSourceWrite .., _ => kept_execCounterSourceWrite ..
  | .taskPendingEmpty .., _ => kept_execTaskPendingEmpty ..
  | .taskStickyClear .., _ => kept_execTaskStickyClear ..
  | .irqPendingClear .., _ => kept_execIrqPendingClear ..
  | .satStickyClear .., _ => kept_execSatStickyClear ..
  | .gpioFunctionWrite .., _ => kept_execGpioFunctionWrite ..
  | .gfxLinesChunk .., _ => kept_execGfxLinesChunk ..
  | .gfxPublish .., _ => kept_execGfxPublish ..
  | .spareApprove .., _ => kept_execSpareApprove ..
  | .spareReject .., _ => kept_execSpareReject ..
  | .spareRejectRecheck .., _ => kept_execSpareRejectRecheck ..
  | .sparePolicyWrite .., _ => kept_execSparePolicyWrite ..
  | .stringCommission .., _ => kept_execStringCommission ..
  | .resetCmd .., _ => kept_execResetCmd ..
  | .sweepStart .., _ => kept_execSweepStart ..
  | .sweepAbort .., _ => kept_execSweepAbort ..
  | .fwImageWrite .., _ => kept_execFwImageWrite ..
  | .mgmtFwUpdate .., _ => kept_execMgmtFwUpdate ..
  | .edidWrite .., _ => kept_execEdidWrite ..
  | .hpdReassert .., _ => kept_execHpdReassert ..
  | .wallJoin .., _ => kept_execWallJoin ..
  | .wallCommitStart .., _ => kept_execWallCommitStart ..
  | .ingsLinkUp .., _ => kept_execIngsLinkUp ..
  | .dpSymbolLockLost .., _ => kept_execDpSymbolLockLost ..
  | .dpRetrainTimeout .., _ => kept_execDpRetrainTimeout ..
  | .ingsFormatChange .., _ => kept_execIngsFormatChange ..
  | .currencySdp .., _ => kept_execCurrencySdp ..
  | .dpFrameStart .., _ => kept_execDpFrameStart ..
  | .dpLineReceived .., _ => kept_execDpLineReceived ..
  | .lineWriteAccepted .., _ => kept_execLineWriteAccepted ..
  | .dpFrameEnd .., _ => kept_execDpFrameEnd ..
  | .versionComplete .., _ => kept_execVersionComplete ..
  | .staticCopyComplete .., _ => kept_execStaticCopyComplete ..
  | .hbmReadReturn .., _ => kept_execHbmReadReturn ..
  | .rowShadowCopyDone .., _ => kept_execRowShadowCopyDone ..
  | .hbmcReqTimeout .., _ => kept_execHbmcReqTimeout ..
  | .hbmcParityReplay .., _ => kept_execHbmcParityReplay ..
  | .hbmRetrainDone .., _ => kept_execHbmRetrainDone ..
  | .hbmScrubPass .., _ => kept_execHbmScrubPass ..
  | .hbmDriftTrack .., _ => kept_execHbmDriftTrack ..
  | .hbmRefresh .., _ => kept_execHbmRefresh ..
  | .hbmStackTempRead .., _ => kept_execHbmStackTempRead ..
  | .hbmRowTrackerExpiry .., _ => kept_execHbmRowTrackerExpiry ..
  | .frameBoundary .., _ => kept_execFrameBoundary ..
  | .signatureFinal .., _ => kept_execSignatureFinal ..
  | .bandEstimateLatch .., _ => kept_execBandEstimateLatch ..
  | .scheduleDelivery .., _ => kept_execScheduleDelivery ..
  | .compileDeadline .., _ => kept_execCompileDeadline ..
  | .plgnPlaneLate .., _ => kept_execPlgnPlaneLate ..
  | .slotReset .., _ => kept_execSlotReset ..
  | .blockLoadWindow .., _ => kept_execBlockLoadWindow ..
  | .epochClear .., _ => kept_execEpochClear ..
  | .globalReset .., _ => kept_execGlobalReset ..
  | .pipWindow .., _ => kept_execPipWindow ..
  | .wheelMarkPass .., _ => kept_execWheelMarkPass ..
  | .seqrWheelPhase .., _ => kept_execSeqrWheelPhase ..
  | .fsyncEdge .., _ => kept_execFsyncEdge ..
  | .fsyncEdgeMissing .., _ => kept_execFsyncEdgeMissing ..
  | .fsyncLost .., _ => kept_execFsyncLost ..
  | .ack .., _ => kept_execAck ..
  | .status .., _ => kept_execStatus ..
  | .regData .., _ => kept_execRegData ..
  | .echo .., _ => kept_execEcho ..
  | .fault .., _ => kept_execFault ..
  | .lane .., _ => kept_execLane ..
  | .laneSwapSend .., _ => kept_execLaneSwapSend ..
  | .laneSwapCodeword .., _ => kept_execLaneSwapCodeword ..
  | .arcdLaneSpared .., _ => kept_execArcdLaneSpared ..
  | .arcdAckTimeout .., _ => kept_execArcdAckTimeout ..
  | .arcdReturnSilent .., _ => kept_execArcdReturnSilent ..
  | .keepaliveSend .., _ => kept_execKeepaliveSend ..
  | .arrayTraining .., _ => kept_execArrayTraining ..
  | .arrayTrainingDone .., _ => kept_execArrayTrainingDone ..
  | .loopTick .., _ => kept_execLoopTick ..
  | .loopFeedbackLost .., _ => kept_execLoopFeedbackLost ..
  | .loopImplausible .., _ => kept_execLoopImplausible ..
  | .bandFrozen .., _ => kept_execBandFrozen ..
  | .bandClose .., _ => kept_execBandClose ..
  | .warmRampComplete .., _ => kept_execWarmRampComplete ..
  | .calFreeze .., _ => kept_execCalFreeze ..
  | .pilotRunEnd .., _ => kept_execPilotRunEnd ..
  | .traceTrigger .., _ => kept_execTraceTrigger ..
  | .loopTraceDone .., _ => kept_execLoopTraceDone ..
  | .applyLaunch .., _ => kept_execApplyLaunch ..
  | .setSend .., _ => kept_execSetSend ..
  | .statusFrameSend .., _ => kept_execStatusFrameSend ..
  | .lampFrameReturn .., _ => kept_execLampFrameReturn ..
  | .lampDriverLost .., _ => kept_execLampDriverLost ..
  | .lampChainDown .., _ => kept_execLampChainDown ..
  | .chainEnumerate .., _ => kept_execChainEnumerate ..
  | .lampInterlock .., _ => kept_execLampInterlock ..
  | .interlockClose .., _ => kept_execInterlockClose ..
  | .lampIntlkDiscrepancy .., _ => kept_execLampIntlkDiscrepancy ..
  | .slowConversion .., _ => kept_execSlowConversion ..
  | .lampSensorLost .., _ => kept_execLampSensorLost ..
  | .lampRail .., _ => kept_execLampRail ..
  | .wheelRun .., _ => kept_execWheelRun ..
  | .wheelStop .., _ => kept_execWheelStop ..
  | .whelCatch .., _ => kept_execWhelCatch ..
  | .alignEnd .., _ => kept_execAlignEnd ..
  | .openLoopHandover .., _ => kept_execOpenLoopHandover ..
  | .whelStartFail .., _ => kept_execWhelStartFail ..
  | .wheelLocked .., _ => kept_execWheelLocked ..
  | .zeroCrossing .., _ => kept_execZeroCrossing ..
  | .pwmPeriodSample .., _ => kept_execPwmPeriodSample ..
  | .wheelFaultInput .., _ => kept_execWheelFaultInput ..
  | .indexEdge .., _ => kept_execIndexEdge ..
  | .indexMissing .., _ => kept_execIndexMissing ..
  | .whelLockLost .., _ => kept_execWhelLockLost ..
  | .wheelRecoveryTimeout .., _ => kept_execWheelRecoveryTimeout ..
  | .wheelStandstill .., _ => kept_execWheelStandstill ..
  | .wheelCoastTimeout .., _ => kept_execWheelCoastTimeout ..
  | .hello .., _ => kept_execHello ..
  | .helloSend .., _ => kept_execHelloSend ..
  | .helloTimeout .., _ => kept_execHelloTimeout ..
  | .uaneLockLost .., _ => kept_execUaneLockLost ..
  | .uanePortTraining .., _ => kept_execUanePortTraining ..
  | .uaneTrainingTimeout .., _ => kept_execUaneTrainingTimeout ..
  | .uaneLaneSwap .., _ => kept_execUaneLaneSwap ..
  | .topo .., _ => kept_execTopo ..
  | .topoSend .., _ => kept_execTopoSend ..
  | .topoStale .., _ => kept_execTopoStale ..
  | .uaneTime .., _ => kept_execUaneTime ..
  | .timeSend .., _ => kept_execTimeSend ..
  | .uaneFrameForward .., _ => kept_execUaneFrameForward ..
  | .voteReport .., _ => kept_execVoteReport ..
  | .agreement .., _ => kept_execAgreement ..
  | .agreementIssue .., _ => kept_execAgreementIssue ..
  | .agreementRepeat .., _ => kept_execAgreementRepeat ..
  | .lease .., _ => kept_execLease ..
  | .leaseExpiry .., _ => kept_execLeaseExpiry ..
  | .prepare .., _ => kept_execPrepare ..
  | .ready .., _ => kept_execReady ..
  | .refused .., _ => kept_execRefused ..
  | .go .., _ => kept_execGo ..
  | .commitAck .., _ => kept_execCommitAck ..
  | .abort .., _ => kept_execAbort ..
  | .prepareRepeat .., _ => kept_execPrepareRepeat ..
  | .goRepeat .., _ => kept_execGoRepeat ..
  | .wallJoinTimeout .., _ => kept_execWallJoinTimeout ..
  | .wallJoinExpiry .., _ => kept_execWallJoinExpiry ..
  | .seqrWallCommit .., _ => kept_execSeqrWallCommit ..
  | .lumaReport .., _ => kept_execLumaReport ..
  | .lumaSet .., _ => kept_execLumaSet ..
  | .lumaSetRepeat .., _ => kept_execLumaSetRepeat ..
  | .sweepStep .., _ => kept_execSweepStep ..
  | .sweepResult .., _ => kept_execSweepResult ..
  | .sweepCollect .., _ => kept_execSweepCollect ..
  | .sweepEnd .., _ => kept_execSweepEnd ..
  | .sweepStepTimeout .., _ => kept_execSweepStepTimeout ..
  | .mgmtSweep .., _ => kept_execMgmtSweep ..
  | .pixel .., _ => kept_execPixel ..
  | .pixelEnd .., _ => kept_execPixelEnd ..
  | .transitLineSend .., _ => kept_execTransitLineSend ..
  | .transitEndTimeout .., _ => kept_execTransitEndTimeout ..
  | .mgmt .., _ => kept_execMgmt ..
  | .ptpMessage .., _ => kept_execPtpMessage ..
  | .ppsEdge .., _ => kept_execPpsEdge ..
  | .eventOccurrence .., _ => kept_execEventOccurrence ..
  | .xrdsEventsLost .., _ => kept_execXrdsEventsLost ..
  | .taskActivation .., _ => kept_execTaskActivation ..
  | .gpioPulseEnd .., _ => kept_execGpioPulseEnd ..
  | .dieTempConversion .., _ => kept_execDieTempConversion ..
  | .mewsThermalWarn .., _ => kept_execMewsThermalWarn ..
  | .mewsThermalThrottle .., _ => kept_execMewsThermalThrottle ..
  | .mewsThermalShutdown .., _ => kept_execMewsThermalShutdown ..
  | .thermalDieReset .., _ => kept_execThermalDieReset ..
  | .dieSensorExcluded .., _ => kept_execDieSensorExcluded ..
  | .throttleInterval .., _ => kept_execThrottleInterval ..
  | .lampBoardLevel .., _ => kept_execLampBoardLevel ..
  | .lampThrottleInterval .., _ => kept_execLampThrottleInterval ..
  | .rcTrimUpdate .., _ => kept_execRcTrimUpdate ..
  | .crystalCheck .., _ => kept_execCrystalCheck ..
  | .crystalEdgeTimeout .., _ => kept_execCrystalEdgeTimeout ..
  | .mewsWear .., _ => kept_execMewsWear ..
  | .bankSwapMirrored .., _ => kept_execBankSwapMirrored ..
  | .clksSpared .., _ => kept_execClksSpared ..
  | .stringRampEnd .., _ => kept_execStringRampEnd ..
  | .mgmtCoreSpared .., _ => kept_execMgmtCoreSpared ..
  | .mgmtFwWatchdog .., _ => kept_execMgmtFwWatchdog ..
  | .busTransactionTimeout .., _ => kept_execBusTransactionTimeout ..
  | .mewsWatchdog .., _ => kept_execMewsWatchdog ..
  | .watchdogDieReset .., _ => kept_execWatchdogDieReset ..
  | .autoWarmRequest .., _ => kept_execAutoWarmRequest ..
  | .mgmtLeaseRevoked .., _ => kept_execMgmtLeaseRevoked ..
  | .clksLocked .., _ => kept_execClksLocked ..
  | .clksBandMiss .., _ => kept_execClksBandMiss ..
  | .clksLockLost .., _ => kept_execClksLockLost ..
  | .clksHoldoverLimit .., _ => kept_execClksHoldoverLimit ..
  | .clksRefLost .., _ => kept_execClksRefLost ..
  | .refGood .., _ => kept_execRefGood ..
  | .domainGate .., _ => kept_execDomainGate ..
  | .powerOn .., _ => kept_execPowerOn ..
  | .resetNLow .., _ => kept_execResetNLow ..
  | .railOutOfRange .., _ => kept_execRailOutOfRange ..
  | .railRecovered .., _ => kept_execRailRecovered ..
  | .resetRelease .., _ => kept_execResetRelease ..
  | .bootComplete .., _ => kept_execBootComplete ..
  | .bootRetry .., _ => kept_execBootRetry ..
  | .wakeGpioEdge .., _ => kept_execWakeGpioEdge ..
  | .wakeTimer .., _ => kept_execWakeTimer ..
  | .tapReset .., _ => kept_execTapReset ..
  | .idcode .., _ => kept_execIdcode ..
  | .extest .., _ => kept_execExtest ..
  | .samplePreload .., _ => kept_execSamplePreload ..
  | .bypass .., _ => kept_execBypass ..
  | .mailbox .., _ => kept_execMailbox ..
  | .peek .., _ => kept_execPeek ..
  | .dieReset .., _ => kept_execDieReset ..
  | .uaneFramingLost .., _ => kept_execUaneFramingLost ..
  | .vaonRemoved .., _ => kept_execVaonRemoved ..
  | .wakeResetNRise .., _ => kept_execWakeResetNRise ..
  | .gpioInputEdge .., _ => kept_execGpioInputEdge ..
  | .cyclesCounterCompare .., _ => kept_execCyclesCounterCompare ..
  | .gatewayTagExpiry .., _ => kept_execGatewayTagExpiry ..
  | .dpLinkTrainingFail .., _ => kept_execDpLinkTrainingFail ..
  | .synthesiserSearchFailed .., _ => kept_execSynthesiserSearchFailed ..

/-- Settles O6: each row's meaning keeps the bounds, so every command does. -/
theorem everyCommandGoesOn : Obligations.EveryCommandGoesOn := keepsGoing_exec

/-! ## One step, and runs -/

theorem step_nil {s : State} (h : s.pending = []) : step s = .next s := by
  rw [step, h]

theorem step_cons {s : State} {c : Instr} {rest : List Instr} (h : s.pending = c :: rest) :
    step s = exec c { s with pending := rest } := by
  rw [step, h]

theorem ok_pending {s : State} (h : s.Ok) (q : List Instr) : State.Ok { s with pending := q } :=
  ⟨h.hbm, h.dict, h.xrds, h.gysol⟩

/-- Settles O5: a step idles, or runs one command, which keeps the invariant (R58, R65, R74, R477). -/
theorem stepKeepsInvariant : Obligations.StepKeepsInvariant := by
  intro s t hok hstep
  cases hq : s.pending with
  | nil =>
    obtain rfl : s = t := by simpa [step_nil hq] using hstep
    exact hok
  | cons c rest =>
    obtain ⟨u, hu, hkept⟩ := keepsGoing_exec c { s with pending := rest }
    obtain rfl : u = t := by simpa [step_cons hq, hu] using hstep
    exact hkept.ok (ok_pending hok rest)

/-- A run as long as its queue ends with the queue empty: each step takes one command and leaves the others as they wait. -/
theorem runSteps_drains (q : List Instr) (s : State) (hq : s.pending = q) :
    ∃ t, runSteps q.length s = some t ∧ t.pending = [] ∧ s.now ≤ t.now ∧ s.outs <+: t.outs ∧ (s.Ok → t.Ok) := by
  induction q generalizing s with
  | nil => exact ⟨s, rfl, hq, le_refl _, List.prefix_refl _, id⟩
  | cons c rest ih =>
    obtain ⟨u, hu, hkept⟩ := keepsGoing_exec c { s with pending := rest }
    obtain ⟨t, hrun, hnil, hnow, houts, hok⟩ := ih u hkept.queue
    refine ⟨t, ?_, hnil, le_trans hkept.clock hnow, hkept.sent.trans houts, fun h => hok (hkept.ok (ok_pending h rest))⟩
    rw [List.length_cons, runSteps, step_cons hq, hu]
    exact hrun

/-- Settles O7: induction over the queue, each command within the bounds (log entry 3). -/
theorem queueDrains : Obligations.QueueDrains := fun s => runSteps_drains s.pending s rfl

/-- Settles O1: the front of the queue is the command that runs (log entry 3). -/
theorem stepRunsFront : Obligations.StepRunsFront := fun _ _ _ => step_cons rfl

/-- Settles O2: an empty queue idles, and the table of words is empty (log entry 3). -/
theorem emptyQueueIdles : Obligations.EmptyQueueIdles := ⟨fun _ => step_nil, fun _ _ _ => ⟨rfl, rfl⟩⟩

end Sys2Proof.Machine
end

section
set_option Elab.async false
/-! PROOFS. Event capture (R65, R474, R477, R484, R488, R491). -/

namespace Sys2Proof.Machine

/-! ## The order of a cycle (R474) -/

/-- `a` is captured no later than `b`: by code, then by instance. -/
def NotAfter (a b : Occ) : Prop := a.code < b.code ∨ (a.code = b.code ∧ a.inst ≤ b.inst)

theorem NotAfter.trans {a b c : Occ} (h : NotAfter a b) (k : NotAfter b c) : NotAfter a c := by
  unfold NotAfter at *
  omega

theorem occInsert_perm (o : Occ) (l : List Occ) : (occInsert o l).Perm (o :: l) := by
  induction l with
  | nil => exact .refl _
  | cons p ps ih =>
    unfold occInsert
    split
    · exact .refl _
    · exact (ih.cons p).trans (.swap o p ps)

theorem occSort_perm (l : List Occ) : (occSort l).Perm l := by
  induction l with
  | nil => exact .refl _
  | cons o os ih => exact (occInsert_perm o _).trans (ih.cons o)

theorem occInsert_ordered {o : Occ} {l : List Occ} (h : l.Pairwise NotAfter) : (occInsert o l).Pairwise NotAfter := by
  induction l with
  | nil => exact List.pairwise_singleton _ o
  | cons p ps ih =>
    obtain ⟨hp, hps⟩ := List.pairwise_cons.mp h
    unfold occInsert
    split
    next hlt =>
      have ho : NotAfter o p := by
        simp at hlt
        unfold NotAfter
        omega
      exact List.pairwise_cons.mpr ⟨List.forall_mem_cons.mpr ⟨ho, fun x hx => ho.trans (hp x hx)⟩, h⟩
    next hge =>
      have ho : NotAfter p o := by
        simp at hge
        unfold NotAfter
        omega
      refine List.pairwise_cons.mpr ⟨fun x hx => ?_, ih hps⟩
      obtain rfl | hx := List.mem_cons.mp ((occInsert_perm o ps).mem_iff.mp hx)
      · exact ho
      · exact hp x hx

theorem occSort_ordered (l : List Occ) : (occSort l).Pairwise NotAfter := by
  induction l with
  | nil => exact .nil
  | cons o os ih => exact occInsert_ordered ih

/-- Settles O43: insertion keeps the order and the occurrences. -/
theorem captureOrder : Obligations.CaptureOrder := fun os => ⟨occSort_perm os, occSort_ordered os⟩

/-! ## Records (R65, R477, R491) -/

theorem reservedCode_iff (c : Nat) : reservedCode c = true ↔ c ≤ 0x0F ∨ (0xE0 ≤ c ∧ c ≤ 0xE3) ∨ c = 0x31 ∨ c = 0x34 := by
  simp [reservedCode, or_assoc]

/-- A record takes the next number, sets its code's pending bit, and joins the queue or counts as lost. -/
theorem record_irqPending (x : Xrds) (o : Occ) : (x.record o).irqPending = x.irqPending ||| 2 ^ o.code := by
  unfold Xrds.record
  dsimp only
  split <;> rfl

theorem record_seqNext (x : Xrds) (o : Occ) : (x.record o).seqNext = (x.seqNext + 1) % 2 ^ 32 := by
  unfold Xrds.record
  dsimp only
  split <;> rfl

theorem record_pending_own (x : Xrds) (o : Occ) : (x.record o).irqPending.testBit o.code = true := by
  simp [record_irqPending]

theorem record_pending_stays (x : Xrds) (o : Occ) {k : Nat} (h : x.irqPending.testBit k = true) :
    (x.record o).irqPending.testBit k = true := by
  simp [record_irqPending, h]

/-- The queue has room for a record of the code (R477). -/
def Xrds.HasRoom (x : Xrds) (o : Occ) : Prop := x.queue.length < 240 ∨ (x.queue.length < 256 ∧
  (o.code ≤ 0x0F ∨ (0xE0 ≤ o.code ∧ o.code ≤ 0xE3) ∨ o.code = 0x31 ∨ o.code = 0x34))

theorem hasRoom_iff (x : Xrds) (o : Occ) :
    (decide (x.queue.length < 240) || (decide (x.queue.length < 256) && reservedCode o.code)) = true ↔ x.HasRoom o := by
  simp [Xrds.HasRoom, reservedCode_iff]

theorem record_kept {x : Xrds} {o : Occ} (h : x.HasRoom o) :
    (x.record o).queue = x.queue ++ [⟨x.seqNext, o.time, o.code, o.inst, o.data⟩] ∧ (x.record o).lost = x.lost := by
  unfold Xrds.record
  simp only [(hasRoom_iff x o).mpr h, if_true, and_self]

theorem record_lost {x : Xrds} {o : Occ} (h : ¬ x.HasRoom o) :
    (x.record o).queue = x.queue ∧ (x.record o).lost = (x.lost + 1) % 2 ^ 32 := by
  have hfull := mt (hasRoom_iff x o).mp h
  unfold Xrds.record
  simp only [hfull]
  exact ⟨rfl, rfl⟩

theorem captureRecord_seqNext (s : State) (o : Occ) :
    (s.captureRecord o).xrds.seqNext = if o.rcd then (s.xrds.seqNext + 1) % 2 ^ 32 else s.xrds.seqNext := by
  unfold State.captureRecord
  split
  · exact record_seqNext s.xrds o
  · rfl

theorem captureRecords_seqNext (os : List Occ) (s : State) (h : s.xrds.seqNext < 2 ^ 32) :
    (os.foldl State.captureRecord s).xrds.seqNext = (s.xrds.seqNext + (os.filter fun o => o.rcd).length) % 2 ^ 32 := by
  induction os generalizing s with
  | nil => exact (Nat.mod_eq_of_lt h).symm
  | cons o os ih =>
    have hnext := captureRecord_seqNext s o
    cases hr : o.rcd
    · rw [hr] at hnext
      simp only [List.foldl_cons, List.filter_cons, hr]
      rw [ih _ (by simpa [hnext] using h), hnext]
      rfl
    · rw [hr] at hnext
      simp only [List.foldl_cons, List.filter_cons, hr, if_true, List.length_cons]
      rw [ih _ (by rw [hnext]; exact Nat.mod_lt _ (by decide)), hnext]
      simp only [if_true, Nat.mod_add_mod]
      congr 1
      omega

/-- Settles O44: the numbers by induction on the occurrences, the rest by what one record does. -/
theorem everyRecordTakesTheNextNumber : Obligations.EveryRecordTakesTheNextNumber :=
  ⟨captureRecords_seqNext, fun x o => ⟨record_pending_own x o, fun _ h => record_pending_stays x o h, record_kept, record_lost⟩⟩

/-! ## Relations that capture keeps -/

/-- What every record, every task input's addition and every count keeps, the capture of any occurrences keeps. -/
theorem captureFor_keeps {R : State → State → Prop} (refl : ∀ s, R s s) (trans : ∀ {s t u}, R s t → R t u → R s u)
    (hrecord : ∀ s o, R s (s.captureRecord o)) (htask : ∀ os acc i, R acc.1 (State.captureTask os acc i).1)
    (hcount : ∀ i a s, R s (s.countOn i a).1) (n : Nat) (os : List Occ) (s : State) : R s (s.captureFor n os) := by
  have hcycle (os : List Occ) (s : State) : R s (s.captureCycle os).1 := by
    have hrecords : R s (os.foldl State.captureRecord s) :=
      List.foldlRecOn (motive := R s) os _ (refl s) fun t ht o _ => trans ht (hrecord t o)
    have htasks := List.foldlRecOn (motive := fun acc : State × List Occ × List Nat => R s acc.1) (upTo 38)
      (State.captureTask os) (b := (os.foldl State.captureRecord s, [], [])) hrecords fun acc h i _ => trans h (htask os acc i)
    unfold State.captureCycle
    dsimp only
    refine List.foldlRecOn (motive := fun acc : State × List Occ => R s acc.1) (upTo 64) _ htasks fun acc h i _ => ?_
    split
    · exact h
    · exact trans h (hcount ..)
  induction n generalizing os s with
  | zero => exact refl s
  | succ n ih =>
    unfold State.captureFor
    split
    · exact refl s
    · exact trans (hcycle ..) (ih ..)

/-! ## Bounds of the counters (R484, R488) -/

/-- Task counters fit in 4 bits and counters in 48. -/
def Xrds.Counts (x : Xrds) : Prop := (∀ n ∈ x.pending, n ≤ 15) ∧ ∀ n ∈ x.counters, n < 2 ^ 48

theorem forall_mem_setAt {α : Type} {p : α → Prop} {l : List α} {i : Nat} {a : α} (h : ∀ x ∈ l, p x) (ha : p a) :
    ∀ x ∈ setAt l i a, p x := fun x hx => (List.mem_or_eq_of_mem_set hx).elim (h x) (· ▸ ha)

theorem record_counts {x : Xrds} (o : Occ) (h : x.Counts) : (x.record o).Counts := by
  unfold Xrds.record
  dsimp only
  split <;> exact h

theorem captureRecord_counts (s : State) (o : Occ) (h : s.xrds.Counts) : (s.captureRecord o).xrds.Counts := by
  unfold State.captureRecord
  split
  · exact record_counts o h
  · exact h

theorem captureTask_counts (os : List Occ) (acc : State × List Occ × List Nat) (i : Nat) (h : acc.1.xrds.Counts) :
    (State.captureTask os acc i).1.xrds.Counts := ⟨forall_mem_setAt h.1 (Nat.min_le_left ..), h.2⟩

theorem countOn_counts (i a : Nat) (s : State) (h : s.xrds.Counts) : (s.countOn i a).1.xrds.Counts :=
  ⟨h.1, forall_mem_setAt h.2 (Nat.mod_lt _ (by decide))⟩

/-- Settles O45: each part of a cycle keeps both bounds. -/
theorem taskCountersStayAtFifteen : Obligations.TaskCountersStayAtFifteen := fun os s hpending hcounters =>
  captureFor_keeps (R := fun s t => s.xrds.Counts → t.xrds.Counts) (fun _ => id) (fun h k => k ∘ h) captureRecord_counts
    captureTask_counts countOn_counts _ os s ⟨hpending, hcounters⟩

/-! ## Pending interrupt bits (R491) -/

/-- Every pending bit is still set. -/
def PendingStays (s t : State) : Prop := ∀ k, s.xrds.irqPending.testBit k = true → t.xrds.irqPending.testBit k = true

theorem PendingStays.of_xrds {s t : State} (h : t.xrds = s.xrds) : PendingStays s t := fun k hk => by rwa [h]

theorem PendingStays.refl (s : State) : PendingStays s s := .of_xrds rfl

theorem PendingStays.trans {s t u : State} (h : PendingStays s t) (k : PendingStays t u) : PendingStays s u := fun n hn => k n (h n hn)

theorem pendingStays_captureRecord (s : State) (o : Occ) : PendingStays s (s.captureRecord o) := by
  unfold State.captureRecord
  split
  · exact fun _ h => record_pending_stays s.xrds o h
  · exact .refl s

theorem pendingStays_captureFor (n : Nat) (os : List Occ) (s : State) : PendingStays s (s.captureFor n os) :=
  captureFor_keeps .refl .trans pendingStays_captureRecord (fun _ _ _ _ h => h) (fun _ _ _ _ h => h) n os s

theorem pendingStays_raise {code inst data : Nat} {s : State} : PendingStays s (s.raise code inst data) := pendingStays_captureFor _ _ s

theorem pendingStays_raiseLimited {rcd : Bool} {code inst data : Nat} {s : State} :
    PendingStays s (s.raiseLimited rcd code inst data) := pendingStays_captureFor _ _ s

theorem captureCycle_pending_own (o : Occ) (h : o.rcd = true) (s : State) :
    (s.captureCycle [o]).1.xrds.irqPending.testBit o.code = true := by
  have hrecord : (s.captureRecord o).xrds.irqPending.testBit o.code = true := by
    unfold State.captureRecord
    rw [if_pos h]
    exact record_pending_own s.xrds o
  have htasks := List.foldlRecOn (motive := fun a : State × List Occ × List Nat => a.1.xrds.irqPending.testBit o.code = true)
    (upTo 38) (State.captureTask [o]) (b := (s.captureRecord o, [], [])) hrecord fun _ h _ _ => h
  unfold State.captureCycle
  dsimp only
  refine List.foldlRecOn (motive := fun a : State × List Occ => a.1.xrds.irqPending.testBit o.code = true) (upTo 64) _ htasks
    fun acc h i _ => ?_
  split <;> exact h

/-- An event's bit is pending after it. -/
theorem raise_pending (code inst data : Nat) (s : State) : (s.raise code inst data).xrds.irqPending.testBit code = true :=
  pendingStays_captureFor 160 _ _ code (captureCycle_pending_own ⟨s.stamp, code, inst, data % 65536, true⟩ rfl s)

end Sys2Proof.Machine
end

section
set_option Elab.async false
/-! PROOFS. Frames of the operations and of the rows: each operation moves the parts that the updates it is made of move, and clears no
pending interrupt bit. -/

namespace Sys2Proof.Machine

/-- Only these parts and event capture may differ, and every pending interrupt bit is still set. -/
def Moves (ps : List Part) (s t : State) : Prop := OnlyMoves ps s t ∧ PendingStays s t

theorem Moves.frame {ps : List Part} {s t : State} (h : Moves ps s t) : OnlyMoves ps s t := h.1

theorem Moves.pending {ps : List Part} {s t : State} (h : Moves ps s t) : PendingStays s t := h.2

theorem Moves.refl (ps : List Part) (s : State) : Moves ps s s := ⟨.refl ps s, .refl s⟩

theorem Moves.trans {ps : List Part} {s t u : State} (h : Moves ps s t) (k : Moves ps t u) : Moves ps s u :=
  ⟨h.frame.trans k.frame, h.pending.trans k.pending⟩

theorem Moves.sub {ps qs : List Part} {s t : State} (h : Moves ps s t) (k : ∀ p ∈ ps, p ∈ qs := by decide) : Moves qs s t :=
  ⟨h.frame.mono k, h.pending⟩

theorem Moves.ite {ps : List Part} {c : Prop} [Decidable c] {s t u : State} (h : c → Moves ps s t) (k : ¬c → Moves ps s u) :
    Moves ps s (if c then t else u) := by
  split
  · exact h ‹_›
  · exact k ‹_›

theorem Moves.foldl {α : Type} {ps : List Part} {f : State → α → State} (h : ∀ s a, Moves ps s (f s a)) (l : List α) (s : State) :
    Moves ps s (l.foldl f s) :=
  List.foldlRecOn (motive := Moves ps s) l f (.refl ps s) fun t ht a _ => ht.trans (h t a)

theorem Moves.foldlFst {α β : Type} {ps : List Part} {f : State × β → α → State × β} (h : ∀ p x, Moves ps p.1 (f p x).1)
    (l : List α) (p : State × β) : Moves ps p.1 (l.foldl f p).1 :=
  List.foldlRecOn (motive := fun q : State × β => Moves ps p.1 q.1) l f (.refl ps p.1) fun q hq a _ => hq.trans (h q a)

theorem Moves.foldlPair {α β : Type} {ps : List Part} {f : State × β → α → State × β} (h : ∀ p x, Moves ps p.1 (f p x).1)
    (l : List α) (s : State) (b : β) : Moves ps s (l.foldl f (s, b)).1 := Moves.foldlFst h l (s, b)

/-- Draining the capture queue clears no pending bit. -/
theorem drain_irqPending (awake : Bool) (dt : Nat) (x : Xrds) : (x.drain awake dt).irqPending = x.irqPending := by
  unfold Xrds.drain
  split
  rfl

theorem moves_advance {ps : List Part} {t : Nat} {s : State} : Moves ps s (s.advance t) :=
  ⟨onlyMoves_advance ps t s, fun _ h => (drain_irqPending ..).symm ▸ h⟩

theorem moves_raise {ps : List Part} {code inst data : Nat} {s : State} : Moves ps s (s.raise code inst data) :=
  ⟨onlyMoves_raise ps code inst data s, pendingStays_raise⟩

theorem moves_raiseLimited {ps : List Part} {rcd : Bool} {code inst data : Nat} {s : State} :
    Moves ps s (s.raiseLimited rcd code inst data) :=
  ⟨onlyMoves_raiseLimited ps rcd code inst data s, pendingStays_raiseLimited⟩

theorem moves_emit {ps : List Part} {o : Out} {s : State} (hp : Part.outs ∈ ps) : Moves ps s (s.emit o) :=
  ⟨onlyMoves_emit hp o s, .refl s⟩

theorem moves_emits {ps : List Part} {os : List Out} {s : State} (hp : Part.outs ∈ ps) : Moves ps s (s.emits os) :=
  ⟨onlyMoves_emits hp os s, .refl s⟩

theorem Moves.raise {ps : List Part} {s t : State} {code inst data : Nat} (h : Moves ps s t) : Moves ps s (t.raise code inst data) :=
  h.trans moves_raise

theorem Moves.raiseLimited {ps : List Part} {s t : State} {rcd : Bool} {code inst data : Nat} (h : Moves ps s t) :
    Moves ps s (t.raiseLimited rcd code inst data) := h.trans moves_raiseLimited

theorem Moves.emit {ps : List Part} {s t : State} {o : Out} (h : Moves ps s t) (hp : Part.outs ∈ ps := by decide) :
    Moves ps s (t.emit o) := h.trans (moves_emit hp)

theorem MovesOnly.next {ps : List Part} {s t : State} (h : Moves ps s t) : MovesOnly ps s (.next t) := ⟨t, rfl, h.frame⟩

theorem MovesOnly.ite {ps : List Part} {c : Prop} [Decidable c] {s : State} {a b : Host.Outcome State Fault Refusal}
    (h : c → MovesOnly ps s a) (k : ¬c → MovesOnly ps s b) : MovesOnly ps s (if c then a else b) := by
  split
  · exact h ‹_›
  · exact k ‹_›

theorem MovesOnly.sub {ps qs : List Part} {s : State} {o : Host.Outcome State Fault Refusal} (h : MovesOnly ps s o)
    (k : ∀ p ∈ ps, p ∈ qs := by decide) : MovesOnly qs s o := by
  obtain ⟨t, ht, hm⟩ := h
  exact ⟨t, ht, hm.mono k⟩

/-! ## Updates of one field (Machine/Mods.lean) -/

theorem moves_modDict {ps : List Part} {f : Dict → Dict} {s : State} (hp : Part.dict ∈ ps) : Moves ps s (s.modDict f) :=
  ⟨onlyMoves_modDict hp f s, .refl s⟩

theorem moves_modUnits {ps : List Part} {f : List (Nat × UnitRec) → List (Nat × UnitRec)} {s : State} (hp : Part.units ∈ ps) : Moves ps s (s.modUnits f) :=
  ⟨onlyMoves_modUnits hp f s, .refl s⟩

theorem moves_modMews {ps : List Part} {f : Mews → Mews} {s : State} (hp : Part.mews ∈ ps) : Moves ps s (s.modMews f) :=
  ⟨onlyMoves_modMews hp f s, .refl s⟩

theorem moves_modClks {ps : List Part} {f : Clks → Clks} {s : State} (hp : Part.clks ∈ ps) : Moves ps s (s.modClks f) :=
  ⟨onlyMoves_modClks hp f s, .refl s⟩

theorem moves_modFirm {ps : List Part} {f : Firm → Firm} {s : State} (hp : Part.firm ∈ ps) : Moves ps s (s.modFirm f) :=
  ⟨onlyMoves_modFirm hp f s, .refl s⟩

theorem moves_modIngs {ps : List Part} {f : Ings → Ings} {s : State} (hp : Part.ings ∈ ps) : Moves ps s (s.modIngs f) :=
  ⟨onlyMoves_modIngs hp f s, .refl s⟩

theorem moves_modHbm {ps : List Part} {f : Hbm → Hbm} {s : State} (hp : Part.hbm ∈ ps) : Moves ps s (s.modHbm f) :=
  ⟨onlyMoves_modHbm hp f s, .refl s⟩

theorem moves_modCurg {ps : List Part} {f : Curg → Curg} {s : State} (hp : Part.curg ∈ ps) : Moves ps s (s.modCurg f) :=
  ⟨onlyMoves_modCurg hp f s, .refl s⟩

theorem moves_modSeqr {ps : List Part} {f : Seqr → Seqr} {s : State} (hp : Part.seqr ∈ ps) : Moves ps s (s.modSeqr f) :=
  ⟨onlyMoves_modSeqr hp f s, .refl s⟩

theorem moves_modUane {ps : List Part} {f : Uane → Uane} {s : State} (hp : Part.uane ∈ ps) : Moves ps s (s.modUane f) :=
  ⟨onlyMoves_modUane hp f s, .refl s⟩

theorem moves_modCoh {ps : List Part} {f : Wall → Wall} {s : State} (hp : Part.coh ∈ ps) : Moves ps s (s.modCoh f) :=
  ⟨onlyMoves_modCoh hp f s, .refl s⟩

theorem moves_modColr {ps : List Part} {f : List CGroup → List CGroup} {s : State} (hp : Part.colr ∈ ps) : Moves ps s (s.modColr f) :=
  ⟨onlyMoves_modColr hp f s, .refl s⟩

theorem moves_modPlgn {ps : List Part} {f : Plgn → Plgn} {s : State} (hp : Part.plgn ∈ ps) : Moves ps s (s.modPlgn f) :=
  ⟨onlyMoves_modPlgn hp f s, .refl s⟩

theorem moves_modArcd {ps : List Part} {f : Arcd → Arcd} {s : State} (hp : Part.arcd ∈ ps) : Moves ps s (s.modArcd f) :=
  ⟨onlyMoves_modArcd hp f s, .refl s⟩

theorem moves_modLoop {ps : List Part} {f : Loop → Loop} {s : State} (hp : Part.loop ∈ ps) : Moves ps s (s.modLoop f) :=
  ⟨onlyMoves_modLoop hp f s, .refl s⟩

theorem moves_modLamp {ps : List Part} {f : Lamp → Lamp} {s : State} (hp : Part.lamp ∈ ps) : Moves ps s (s.modLamp f) :=
  ⟨onlyMoves_modLamp hp f s, .refl s⟩

theorem moves_modWhel {ps : List Part} {f : List Wheel → List Wheel} {s : State} (hp : Part.whel ∈ ps) : Moves ps s (s.modWhel f) :=
  ⟨onlyMoves_modWhel hp f s, .refl s⟩

theorem moves_modTherm {ps : List Part} {f : Therm → Therm} {s : State} (hp : Part.therm ∈ ps) : Moves ps s (s.modTherm f) :=
  ⟨onlyMoves_modTherm hp f s, .refl s⟩

theorem moves_modTap {ps : List Part} {f : Tap → Tap} {s : State} (hp : Part.tap ∈ ps) : Moves ps s (s.modTap f) :=
  ⟨onlyMoves_modTap hp f s, .refl s⟩

theorem moves_modWallOff {ps : List Part} {f : Int → Int} {s : State} : Moves ps s (s.modWallOff f) := ⟨onlyMoves_modWallOff ps f s, .refl s⟩

theorem moves_modWallTrim {ps : List Part} {f : Int → Int} {s : State} : Moves ps s (s.modWallTrim f) := ⟨onlyMoves_modWallTrim ps f s, .refl s⟩

theorem moves_modFreeCtr {ps : List Part} {f : Nat → Nat} {s : State} : Moves ps s (s.modFreeCtr f) := ⟨onlyMoves_modFreeCtr ps f s, .refl s⟩

/-! ## The shared operations (Machine/Ops.lean) -/

theorem moves_drawn {s : State} : Moves [] s (s.drawn) :=
  moves_modFreeCtr

theorem moves_takeLeaseOf {n : Nat} {s : State} : Moves [.firm] s (s.takeLeaseOf n) :=
  moves_modFirm (by decide)

theorem moves_dropLease {n : Nat} {s : State} : Moves [.firm] s (s.dropLease n) :=
  moves_modFirm (by decide)

/-! ## Unit records (Machine/Units.lean) -/

theorem moves_modUnit {w : Nat} {f : UnitRec → UnitRec} {s : State} : Moves [.units] s (s.modUnit w f) :=
  moves_modUnits (by decide)

theorem moves_setObs {w v : Nat} {s : State} : Moves [.units] s (s.setObs w v) :=
  .ite (fun _ => .refl _ _) fun _ => moves_modUnit

theorem moves_setCmd {w v : Nat} {s : State} : Moves [.units] s (s.setCmd w v) :=
  moves_modUnit

theorem moves_recommand {old s : State} : Moves [.units] s (State.recommand old s) :=
  moves_modUnits (by decide)

/-! ## Frame memory (Machine/Hbm.lean) -/

theorem moves_hbmLevels {n level levelW : Nat} {s : State} : Moves [.hbm] s (s.hbmLevels n level levelW) :=
  (moves_modHbm (by decide)).trans (.ite (fun _ => moves_raise) fun _ => .refl _ _)

theorem moves_shadowRow {r : HRow} {s : State} : Moves [.hbm] s (s.shadowRow r) := by
  unfold State.shadowRow
  refine .ite (fun _ => .refl _ _) fun _ => ?_
  split
  · exact moves_modHbm (by decide)
  · exact moves_raise

theorem moves_hbmCorrected {a : Nat} {s : State} : Moves [.hbm] s (s.hbmCorrected a) :=
  (moves_modHbm (by decide)).trans (.ite (fun _ => moves_shadowRow.raise) fun _ => .refl _ _)

theorem moves_hbmUncorrectable {a : Nat} {s : State} : Moves [.hbm] s (s.hbmUncorrectable a) :=
  (moves_modHbm (by decide)).trans (moves_raiseLimited.trans moves_shadowRow)

theorem moves_hbmSeverity {a sev : Nat} {s : State} : Moves [.hbm] s (s.hbmSeverity a sev) := by
  unfold State.hbmSeverity
  refine .ite (fun _ => .refl _ _) fun _ => ?_
  split
  · exact .refl _ _
  · exact moves_hbmCorrected
  · exact moves_hbmUncorrectable

theorem moves_fuseShadow {s : State} {i : Nat} : Moves [.hbm] s (s.fuseShadow i) := by
  unfold State.fuseShadow
  dsimp only
  split
  · exact .refl _ _
  · exact .ite (fun _ => (moves_modHbm (by decide)).raise) fun _ => moves_raise

theorem moves_hbmSelfRefresh {approved : HRow → Bool} {s : State} : Moves [.hbm] s (s.hbmSelfRefresh approved) :=
  .ite (fun _ => .refl _ _) fun _ => (((moves_modHbm (by decide)).trans (.foldl (fun _ _ => moves_fuseShadow) _ _)).trans
    (moves_modHbm (by decide))).raise

theorem moves_hbmRetrain {ch : Nat} {s : State} : Moves [.hbm] s (s.hbmRetrain ch) :=
  .ite (fun _ => .refl _ _) fun _ => moves_modHbm (by decide)

theorem moves_hbmReplay {ch pc kind n : Nat} {onReplay : Bool} {s : State} : Moves [.hbm] s (s.hbmReplay ch pc kind n onReplay) :=
  (moves_modHbm (by decide)).raiseLimited.trans (.ite (fun _ => moves_hbmRetrain) fun _ => .refl _ _)

theorem moves_hbmTimeout {port ch : Nat} {s : State} : Moves [.hbm] s (s.hbmTimeout port ch) :=
  (moves_modHbm (by decide)).raise.trans (.ite (fun _ => moves_hbmRetrain) fun _ => .refl _ _)

theorem moves_hbmRetrainDone {ch step : Nat} {ok : Bool} {s : State} : Moves [.hbm] s (s.hbmRetrainDone ch step ok) :=
  .ite (fun _ => .refl _ _) fun _ => .ite (fun _ => moves_modHbm (by decide)) fun _ => (moves_modHbm (by decide)).raise

theorem moves_hbmTurn {p : Nat} {pass : Bool} {s : State} : Moves [.hbm] s (s.hbmTurn p pass) := by
  unfold State.hbmTurn
  split
  · exact moves_modHbm (by decide)
  · exact moves_modHbm (by decide)
  · exact moves_modHbm (by decide)
  · exact .refl _ _
  · exact .refl _ _
  · exact .refl _ _

theorem moves_creditGrow {s : State} : Moves [.hbm] s (s.creditGrow) :=
  moves_modHbm (by decide)

theorem moves_portLevels {s : State} : Moves [.hbm] s (s.portLevels) :=
  .foldl (fun _ _ => .ite (fun _ => moves_hbmLevels) fun _ => .ite (fun _ => moves_hbmLevels) fun _ => moves_hbmLevels) _ _

theorem moves_hbmTraffic {io : HbmTraffic} {s : State} : Moves [.hbm] s (s.hbmTraffic io) :=
  (moves_creditGrow.trans (moves_modHbm (by decide))).trans (.trans (.foldl (fun _ _ => moves_hbmTurn) _ _)
    (moves_modHbm (by decide)))

theorem movesOnly_execRowShadowCopyDone {t shadow : Nat} {s : State} : MovesOnly [.hbm] s (execRowShadowCopyDone t shadow s) := by
  unfold execRowShadowCopyDone
  dsimp only
  split
  · exact .ite (fun _ => .next (moves_advance.trans ((moves_modHbm (by decide)).raise))) fun _ => .next moves_advance
  · exact .next moves_advance

theorem movesOnly_execHbmcParityReplay {t chan pc kind replayed : Nat} {onReplay : Bool} {s : State} : MovesOnly [.hbm] s
    (execHbmcParityReplay t chan pc kind replayed onReplay s) :=
  .next (moves_advance.trans moves_hbmReplay)

theorem movesOnly_execHbmRetrainDone {t chan step : Nat} {ok : Bool} {s : State} : MovesOnly [.hbm] s
    (execHbmRetrainDone t chan step ok s) :=
  .next (moves_advance.trans moves_hbmRetrainDone)

theorem movesOnly_execHbmScrubPass {t severity : Nat} {s : State} : MovesOnly [.hbm] s (execHbmScrubPass t severity s) :=
  .ite (fun _ => .next (moves_advance.trans (moves_hbmSeverity.trans (moves_modHbm (by decide))))) fun _ => .next moves_advance

theorem movesOnly_execHbmDriftTrack {t chan : Nat} {look : DriftLook} {s : State} : MovesOnly [.hbm] s
    (execHbmDriftTrack t chan look s) :=
  .ite (fun _ => .next (moves_advance.trans (moves_modHbm (by decide)))) fun _ => .next moves_advance

theorem movesOnly_execHbmRefresh {t pseudo : Nat} {postpone : Bool} {s : State} : MovesOnly [.hbm] s
    (execHbmRefresh t pseudo postpone s) :=
  .next (moves_advance.trans (moves_modHbm (by decide)))

theorem movesOnly_execHbmStackTempRead {t stack : Nat} {temp : Int} {s : State} : MovesOnly [.hbm] s
    (execHbmStackTempRead t stack temp s) :=
  .next ((moves_advance.trans (moves_modHbm (by decide))).trans (.ite (fun _ => .refl _ _) fun _ => moves_raise))

theorem movesOnly_execHbmRowTrackerExpiry {t stack entry : Nat} {s : State} : MovesOnly [.hbm] s
    (execHbmRowTrackerExpiry t stack entry s) :=
  .next (moves_advance.trans (moves_modHbm (by decide)))

/-! ## Video ingest (Machine/Ingest.lean) -/

theorem moves_modPort {n : Nat} {f : DpPort → DpPort} {s : State} : Moves [.ings] s (s.modPort n f) :=
  moves_modIngs (by decide)

theorem moves_modLayer {n : Nat} {f : VLayer → VLayer} {s : State} : Moves [.ings] s (s.modLayer n f) :=
  moves_modIngs (by decide)

theorem moves_takeNext {n : Nat} {s : State} : Moves [.ings] s (s.takeNext n) :=
  moves_modLayer

theorem moves_leaveStatic {n : Nat} {s : State} : Moves [.ings] s (s.leaveStatic n) :=
  .ite (fun _ => moves_modLayer.raise) fun _ => .refl _ _

theorem moves_discardWriting {s : State} {n : Nat} : Moves [.ings] s (s.discardWriting n) := by
  unfold State.discardWriting
  split
  · exact .refl _ _
  · exact moves_modLayer

theorem moves_discardFinishing {s : State} {n : Nat} : Moves [.ings] s (s.discardFinishing n) :=
  moves_modLayer

theorem moves_discardBoth {s : State} {n : Nat} : Moves [.ings] s (s.discardBoth n) :=
  moves_discardWriting.trans moves_discardFinishing

theorem moves_dropFrame {cause n : Nat} {s : State} : Moves [.ings] s (s.dropFrame cause n) :=
  moves_modLayer.raise

theorem moves_abortPort {port : Nat} {s : State} : Moves [.ings] s (s.abortPort port) :=
  .trans (.foldl (fun _ _ => moves_leaveStatic.trans moves_discardBoth) _ _) moves_modPort

theorem moves_assertHpd {port : Nat} {s : State} : Moves [.units, .ings, .outs] s (s.assertHpd port) :=
  (moves_modPort.sub.trans moves_setObs.sub).emit

theorem moves_dropHpd {port : Nat} {back : Option Nat} {s : State} : Moves [.units, .ings, .outs] s (s.dropHpd port back) :=
  ((moves_abortPort.sub.trans moves_modPort.sub).trans moves_setObs.sub).emit.trans (.ite (fun _ => moves_raise) fun _ => .refl _ _)

theorem moves_updateHpd {s : State} {port : Nat} : Moves [.units, .ings, .outs] s (s.updateHpd port) :=
  .ite (fun _ => .ite (fun _ => .refl _ _) fun _ => moves_assertHpd) fun _ => .ite (fun _ => moves_dropHpd) fun _ => .refl _ _

theorem moves_checkFormat {port : Nat} {f : DpFormat} {s : State} : Moves [.units, .ings] s (s.checkFormat port f) :=
  moves_modPort.sub.trans (moves_setObs.sub.trans (.ite (fun _ => moves_raise) fun _ => .ite (fun _ => moves_raise)
    fun _ => .refl _ _))

theorem moves_trainFails {port : Nat} {s : State} : Moves [.ings] s (s.trainFails port) :=
  .ite (fun _ => moves_modPort) fun _ => .refl _ _

theorem moves_linkUp {port rate lanes : Nat} {f : DpFormat} {s : State} : Moves [.units, .ings] s (s.linkUp port rate lanes f) :=
  .ite (fun _ => moves_trainFails.sub) fun _ => (moves_abortPort.sub.trans moves_modPort.sub).raise.trans moves_checkFormat

theorem moves_lockLost {port : Nat} {s : State} : Moves [.units, .ings, .outs] s (s.lockLost port) :=
  .ite (fun _ => ((moves_abortPort.sub.trans moves_modPort.sub).trans moves_setObs.sub).raise.emit) fun _ => .refl _ _

theorem moves_retrainTimeout {port : Nat} {s : State} : Moves [.units, .ings, .outs] s (s.retrainTimeout port) := by
  unfold State.retrainTimeout
  split
  · exact .ite (fun _ => moves_dropHpd) fun _ => .refl _ _
  · exact .refl _ _

theorem moves_sdpError {port reason : Nat} {s : State} : Moves [.ings] s (s.sdpError port reason) :=
  moves_modPort.raise

theorem moves_currencySdp {port : Nat} {b : Bytes} {s : State} : Moves [.ings] s (s.currencySdp port b) := by
  unfold State.currencySdp
  dsimp only
  split
  · exact .refl _ _
  · exact moves_sdpError
  · exact .trans (.ite (fun _ => moves_sdpError) fun _ => .refl _ _) moves_modPort

theorem moves_setAside {s : State} {n : Nat} : Moves [.ings] s (s.setAside n) := by
  unfold State.setAside
  split
  · exact .refl _ _
  · exact .ite (fun _ => moves_modLayer) fun _ => moves_discardWriting

theorem moves_frameBuffer {n : Nat} {s : State} : Moves [.ings] s (s.frameBuffer n) :=
  .ite (fun _ => .refl _ _) fun _ => .ite (fun _ => moves_takeNext) fun _ => .refl _ _

theorem moves_layerFrameStart {port : Nat} {d : Option Sdp} {arrival : Nat} {s : State} {n : Nat} : Moves [.ings] s
    (s.layerFrameStart port d arrival n) := by
  unfold State.layerFrameStart
  dsimp only
  split
  · exact moves_frameBuffer.trans (moves_modLayer.trans moves_dropFrame)
  · split
    · exact moves_frameBuffer.trans (.ite (fun _ => moves_dropFrame) fun _ => moves_modLayer.trans (.ite (fun _ => moves_raise)
        fun _ => .refl _ _))
    · exact moves_frameBuffer.trans moves_dropFrame

theorem moves_frameStart {port : Nat} {s : State} : Moves [.ings] s (s.frameStart port) :=
  .ite (fun _ => .trans (.foldl (fun _ _ => moves_setAside) _ _) (moves_modPort.trans (.ite (fun _ => .foldl
    (fun _ _ => moves_layerFrameStart) _ _) fun _ => .refl _ _))) fun _ => .refl _ _

theorem moves_layerLine {row : Nat} {pxs : List Nat} {s : State} {n : Nat} : Moves [.ings, .hbm] s (s.layerLine row pxs n) := by
  unfold State.layerLine
  dsimp only
  split
  · exact .refl _ _
  · exact .ite (fun _ => .refl _ _) fun _ => .ite (fun _ => moves_modLayer.sub) fun _ => moves_leaveStatic.sub.trans
      (moves_modLayer.sub.trans (moves_modHbm (by decide)))

theorem moves_imageLine {port row : Nat} {f : DpFormat} {ls : LineSamples} {other : List Nat × List Nat} {s : State}
    : Moves [.ings, .hbm] s (s.imageLine port row f ls other) :=
  .foldl (fun _ _ => moves_layerLine) _ _

theorem moves_heldLine {port : Nat} {f : DpFormat} {below : List Nat × List Nat} {s : State} : Moves [.ings, .hbm] s
    (s.heldLine port f below) := by
  unfold State.heldLine
  split
  · exact .refl _ _
  · exact moves_modPort.sub.trans moves_imageLine

theorem moves_pairLine {port row : Nat} {f : DpFormat} {ls : LineSamples} {s : State} : Moves [.ings, .hbm] s
    (s.pairLine port row f ls) :=
  .ite (fun _ => (moves_heldLine.trans moves_modPort.sub).trans moves_imageLine) fun _ => moves_modPort.sub.trans (.ite
    (fun _ => moves_heldLine) fun _ => .refl _ _)

theorem moves_lineReceived {port : Nat} {ls : LineSamples} {s : State} : Moves [.ings, .hbm] s (s.lineReceived port ls) := by
  unfold State.lineReceived
  dsimp only
  split
  · exact moves_modPort.sub.trans (.ite (fun _ => .refl _ _) fun _ => .ite (fun _ => .trans (.foldl
      (fun _ _ => moves_discardWriting.sub.trans moves_dropFrame.sub) _ _) moves_modPort.sub) fun _ => .ite
      (fun _ => moves_pairLine) fun _ => moves_imageLine)
  · exact .refl _ _

theorem moves_lineAccepted {n y : Nat} {s : State} : Moves [.ings] s (s.lineAccepted n y) :=
  moves_modLayer

theorem moves_zeroTail {n : Nat} {s : State} : Moves [.hbm] s (s.zeroTail n) := by
  unfold State.zeroTail
  dsimp only
  split
  · exact .refl _ _
  · split
    · exact .refl _ _
    · exact moves_modHbm (by decide)

theorem moves_layerFrameEnd {lines height : Nat} {s : State} {n : Nat} : Moves [.ings, .hbm] s (s.layerFrameEnd lines height n) :=
  .ite (fun _ => moves_modLayer.sub.raise.trans (moves_leaveStatic.sub.trans (.ite (fun _ => moves_discardWriting.sub)
    fun _ => moves_zeroTail.sub.trans moves_modLayer.sub))) fun _ => moves_modLayer.sub.trans (.ite
    (fun _ => moves_modLayer.sub.raise) fun _ => .refl _ _)

theorem moves_frameEnd {port : Nat} {s : State} : Moves [.ings, .hbm] s (s.frameEnd port) := by
  unfold State.frameEnd
  dsimp only
  split
  · exact .trans (.ite (fun _ => moves_heldLine) fun _ => .refl _ _) (moves_modPort.sub.trans (.ite (fun _ => .refl _ _) fun _ =>
      .foldl (fun _ _ => moves_layerFrameEnd) _ _))
  · exact .refl _ _

theorem moves_staticCopyDone {n : Nat} {ok : Bool} {s : State} : Moves [.ings, .hbm] s (s.staticCopyDone n ok) := by
  unfold State.staticCopyDone
  dsimp only
  split
  · exact .ite (fun _ => .refl _ _) fun _ => .ite (fun _ => .trans (.ite (fun _ => moves_discardFinishing.sub)
      fun _ => moves_discardWriting.sub) moves_dropFrame.sub) fun _ => (moves_modHbm (by decide)).trans moves_modLayer.sub
  · exact .refl _ _

theorem movesOnly_execIngsLinkUp {t port rate lanes : Nat} {fmt : DpFormat} {s : State} : MovesOnly [.units, .ings] s
    (execIngsLinkUp t port rate lanes fmt s) :=
  .next (moves_advance.trans moves_linkUp)

theorem movesOnly_execDpSymbolLockLost {t port : Nat} {s : State} : MovesOnly [.units, .ings, .outs] s
    (execDpSymbolLockLost t port s) :=
  .next (moves_advance.trans moves_lockLost)

theorem movesOnly_execDpRetrainTimeout {t port : Nat} {s : State} : MovesOnly [.units, .ings, .outs] s
    (execDpRetrainTimeout t port s) :=
  .next (moves_advance.trans moves_retrainTimeout)

theorem movesOnly_execIngsFormatChange {t port : Nat} {fmt : DpFormat} {s : State} : MovesOnly [.units, .ings] s
    (execIngsFormatChange t port fmt s) :=
  .next ((moves_advance.trans moves_abortPort.sub).raise.trans moves_checkFormat)

theorem movesOnly_execCurrencySdp {t port : Nat} {packet : Bytes} {s : State} : MovesOnly [.ings] s
    (execCurrencySdp t port packet s) :=
  .next (moves_advance.trans moves_currencySdp)

theorem movesOnly_execDpFrameStart {t port : Nat} {s : State} : MovesOnly [.ings] s (execDpFrameStart t port s) :=
  .next (moves_advance.trans moves_frameStart)

theorem movesOnly_execDpLineReceived {t port : Nat} {samples : LineSamples} {s : State} : MovesOnly [.ings, .hbm] s
    (execDpLineReceived t port samples s) :=
  .next (moves_advance.trans moves_lineReceived)

theorem movesOnly_execLineWriteAccepted {t layer line : Nat} {s : State} : MovesOnly [.ings] s
    (execLineWriteAccepted t layer line s) :=
  .next (moves_advance.trans moves_lineAccepted)

theorem movesOnly_execDpFrameEnd {t port : Nat} {s : State} : MovesOnly [.ings, .hbm] s (execDpFrameEnd t port s) :=
  .next (moves_advance.trans moves_frameEnd)

theorem movesOnly_execStaticCopyComplete {t layer : Nat} {ok : Bool} {s : State} : MovesOnly [.ings, .hbm] s
    (execStaticCopyComplete t layer ok s) :=
  .next (moves_advance.trans moves_staticCopyDone)

theorem movesOnly_execDpLinkTrainingFail {t port rate lanes : Nat} {s : State} : MovesOnly [.ings] s
    (execDpLinkTrainingFail t port rate lanes s) :=
  .next (moves_advance.trans (.ite (fun _ => .refl _ _) fun _ => moves_trainFails))

theorem movesOnly_execHpdReassert {t port : Nat} {s : State} : MovesOnly [.units, .ings, .outs] s (execHpdReassert t port s) := by
  unfold execHpdReassert
  dsimp only
  split
  · exact .next (moves_advance.trans (.ite (fun _ => .refl _ _) fun _ => .ite (fun _ => moves_assertHpd)
      fun _ => moves_modPort.sub))
  · exact .next moves_advance

/-! ## Frame timing (Machine/Seqr.lean) -/

theorem moves_stepEvent {d : Int} {s : State} : Moves [] s (s.stepEvent d) :=
  .ite (fun _ => .refl _ _) fun _ => moves_raise

theorem moves_stepWall {d : Int} {s : State} : Moves [] s (s.stepWall d) :=
  moves_modWallOff.trans moves_stepEvent

theorem moves_clearBlocks {ports : List Nat} {s : State} : Moves [.plgn] s (s.clearBlocks ports) :=
  moves_modPlgn (by decide)

theorem moves_startRephase {cause : Nat} {s : State} : Moves [.seqr, .plgn, .outs] s (s.startRephase cause) :=
  .ite (fun _ => .refl _ _) fun _ => (((moves_emits (by decide)).trans moves_clearBlocks.sub).trans
    (moves_modSeqr (by decide))).raise

theorem moves_setPhase {n : Nat} {v : Bool} {s : State} : Moves [.seqr] s (s.setPhase n v) :=
  .ite (fun _ => .refl _ _) fun _ => (moves_modSeqr (by decide)).raise

theorem moves_losePhase {n : Nat} {s : State} : Moves [.seqr] s (s.losePhase n) :=
  moves_setPhase.trans (moves_modSeqr (by decide))

theorem moves_judgePhase {n : Nat} {locked : Bool} {s : State} : Moves [.seqr] s (s.judgePhase n locked) :=
  .ite (fun _ => moves_losePhase) fun _ => .ite (fun _ => .ite (fun _ => moves_setPhase) fun _ => .refl _ _) fun _ => .ite
    (fun _ => moves_setPhase) fun _ => .refl _ _

/-! ## Uane links (Machine/Uane.lean) -/

theorem moves_modUport {n : Nat} {f : UPort → UPort} {s : State} : Moves [.uane] s (s.modUport n f) :=
  moves_modUane (by decide)

theorem moves_setUaneLane {n phys mode lane : Nat} {s : State} : Moves [.uane, .outs] s (s.setUaneLane n phys mode lane) :=
  moves_modUport.sub.emit

theorem moves_uaneFlush {s : State} : Moves [.uane, .outs] s (s.uaneFlush) :=
  .foldl (fun _ _ => moves_modUport.sub.trans (moves_emits (by decide))) _ _

theorem moves_uaneOut {port cls : Nat} {unicast : Bool} {b : Bytes} {s : State} : Moves [.uane, .outs] s
    (s.uaneOut port cls unicast b) :=
  moves_uaneFlush.trans (.ite (fun _ => moves_modUport.sub.emit) fun _ => .ite (fun _ => moves_modUport.sub)
    fun _ => moves_modUport.sub)

theorem moves_uaneRoute {b : Bytes} {s : State} : Moves [.uane, .outs] s (s.uaneRoute b) := by
  unfold State.uaneRoute
  dsimp only
  split
  · exact .refl _ _
  · exact .ite (fun _ => moves_uaneOut) fun _ => .ite (fun _ => moves_uaneOut) fun _ => .refl _ _

theorem moves_uaneFlood {except_ : Option Nat} {b : Bytes} {s : State} : Moves [.uane, .outs] s (s.uaneFlood except_ b) :=
  .foldl (fun _ _ => .ite (fun _ => moves_uaneOut) fun _ => .refl _ _) _ _

theorem moves_uaneSend {typ dst port : Nat} {spec payload : Bytes} {s : State} : Moves [.uane, .outs] s
    (s.uaneSend typ dst port spec payload) :=
  .ite (fun _ => .refl _ _) fun _ => (moves_modUane (by decide)).trans (.ite (fun _ => moves_uaneOut) fun _ => .ite
    (fun _ => moves_uaneFlood) fun _ => moves_uaneRoute)

theorem moves_setUane {n v : Nat} {s : State} : Moves [.units] s (s.setUane n v) :=
  moves_setObs

theorem moves_setTimeState {v : Nat} {s : State} : Moves [.uane] s (s.setTimeState v) :=
  .ite (fun _ => .refl _ _) fun _ => (moves_modUane (by decide)).raise

theorem moves_updateWrap {s : State} : Moves [.units] s (s.updateWrap) :=
  .foldl (fun _ _ => .ite (fun _ => moves_setUane.raise) fun _ => .ite (fun _ => moves_setUane.raise) fun _ => .refl _ _) _ _

theorem moves_moveQueue {n : Nat} {s : State} : Moves [.uane, .outs] s (s.moveQueue n) :=
  moves_modUport.sub.trans (.ite (fun _ => .foldl (fun _ _ => moves_uaneOut) _ _) fun _ => .refl _ _)

theorem moves_uaneDown {n cause : Nat} {s : State} : Moves [.units, .uane, .outs] s (s.uaneDown n cause) :=
  .ite (fun _ => .refl _ _) fun _ => (moves_setUane.sub.trans moves_modUport.sub).raise.trans
    ((moves_updateWrap.sub.trans moves_moveQueue.sub).trans (.ite (fun _ =>
    (moves_modUane (by decide)).trans moves_setTimeState.sub) fun _ => .refl _ _))

theorem moves_uaneUp {n : Nat} {s : State} : Moves [.units] s (s.uaneUp n) :=
  moves_setUane.raise.trans moves_updateWrap

theorem moves_uaneSwapStart {n logical cause : Nat} {s : State} : Moves [.uane, .outs] s (s.uaneSwapStart n logical cause) :=
  .ite (fun _ => .refl _ _) fun _ => moves_modUport.sub.trans moves_setUaneLane

theorem moves_updateMaster {s : State} : Moves [.uane] s (s.updateMaster) := by
  unfold State.updateMaster
  dsimp only
  split
  · exact (moves_modUane (by decide)).trans moves_setTimeState
  · refine .ite (fun _ => (moves_modUane (by decide)).trans moves_setTimeState) fun _ => ?_
    split
    · exact .refl _ _
    · exact (moves_modUane (by decide)).trans (.ite (fun _ => .refl _ _) fun _ => .trans (.ite (fun _ => moves_setTimeState)
        fun _ => .refl _ _) moves_setTimeState)

theorem moves_setPtp {v : Nat} {s : State} : Moves [.uane] s (s.setPtp v) :=
  .ite (fun _ => .refl _ _) fun _ => (moves_modUane (by decide)).raise.trans moves_updateMaster

theorem moves_recompute {s : State} : Moves [.uane] s (s.recompute) :=
  (moves_modUane (by decide)).trans (moves_raise.trans moves_updateMaster)

theorem moves_takeTopo {src : Nat} {p : Bytes} {s : State} : Moves [.uane] s (s.takeTopo src p) :=
  .ite (fun _ => (moves_modUane (by decide)).trans (.ite (fun _ => moves_raise) fun _ => .refl _ _)) fun _ =>
    (moves_modUane (by decide)).trans (.ite (fun _ => moves_recompute) fun _ => .ite (fun _ => moves_updateMaster)
    fun _ => .refl _ _)

/-! ## The currency guard (Machine/Curg.lean) -/

theorem moves_modCLayer {n : Nat} {f : CLayer → CLayer} {s : State} : Moves [.curg] s (s.modCLayer n f) :=
  moves_modCurg (by decide)

theorem moves_findRuns {s : State} {n : Nat} : Moves [.curg] s (s.findRuns n) :=
  moves_modCLayer.trans (.ite (fun _ => .refl _ _) fun _ => moves_modCLayer.raise)

theorem moves_observeLayers {f : Nat} {shows : Bool} {s : State} : Moves [.units] s (s.observeLayers f shows) :=
  moves_modUnits (by decide)

theorem moves_noteReport {n : Nat} {s : State} : Moves [.curg] s (s.noteReport n) :=
  moves_modCLayer

theorem moves_takeAgreement {b : Bytes} {s : State} : Moves [.curg] s (s.takeAgreement b) := by
  unfold State.takeAgreement
  dsimp only
  split
  · exact .refl _ _
  · refine .ite (fun _ => moves_modCLayer) fun _ => ?_
    split
    · exact .ite (fun _ => .refl _ _) fun _ => moves_modCurg (by decide)
    · exact (moves_modCurg (by decide)).trans moves_modCLayer

/-! ## Wall coherence (Machine/Wall.lean) -/

theorem moves_sendLease {s : State} : Moves [.uane, .outs] s (s.sendLease) :=
  .ite (fun _ => moves_uaneSend) fun _ => .refl _ _

theorem moves_takeRole {s : State} : Moves [.uane, .coh, .outs] s (s.takeRole) :=
  (moves_modCoh (by decide)).raise.trans moves_sendLease.sub

theorem moves_checkTable {crc : Nat} {s : State} : Moves [.curg] s (s.checkTable crc) :=
  .ite (fun _ => .refl _ _) fun _ => (moves_modCurg (by decide)).raise

theorem moves_adoptOrigin {holder rate t0 f0 : Nat} {s : State} : Moves [.seqr, .coh, .plgn, .outs] s
    (s.adoptOrigin holder rate t0 f0) :=
  .ite (fun _ => .refl _ _) fun _ => .ite (fun _ => .ite (fun _ => .refl _ _) fun _ => (moves_modCoh (by decide)).raise) fun _ =>
    (moves_modCoh (by decide)).trans (.ite (fun _ => ((moves_modSeqr (by decide)).trans moves_startRephase.sub).raise)
    fun _ => .refl _ _)

theorem moves_takeReport {b : Bytes} {s : State} : Moves [.coh] s (s.takeReport b) :=
  moves_modCoh (by decide)

theorem moves_sendReport {s : State} {n : Nat} : Moves [.curg, .uane, .coh, .outs] s (s.sendReport n) :=
  .ite (fun _ => .refl _ _) fun _ => moves_noteReport.sub.trans (.ite (fun _ => moves_takeReport.sub) fun _ => .ite
    (fun _ => .refl _ _) fun _ => moves_uaneSend.sub)

theorem moves_sendReports {s : State} : Moves [.curg, .uane, .coh, .outs] s (s.sendReports) :=
  .foldl (fun _ _ => moves_sendReport) _ _

theorem moves_takeLease {b : Bytes} {s : State} : Moves [.curg, .seqr, .uane, .coh, .plgn, .outs] s (s.takeLease b) :=
  (moves_modCoh (by decide)).trans (.ite (fun _ =>
    ((moves_modCoh (by decide)).trans moves_adoptOrigin.sub).trans moves_checkTable.sub) fun _ => .ite (fun _ => .refl _ _) fun _ =>
    (moves_modCoh (by decide)).raise.trans ((moves_adoptOrigin.sub.trans moves_checkTable.sub).trans moves_sendReports.sub))

theorem moves_noteExcluded {w f : Nat} {s : State} : Moves [.coh] s (s.noteExcluded w f) :=
  .trans (.foldl (fun _ _ => moves_raise) _ _) (moves_modCoh (by decide))

theorem moves_issueAgreements {f : Nat} {s : State} : Moves [.curg, .uane, .coh, .outs] s (s.issueAgreements f) :=
  .foldl (fun _ _ => moves_noteExcluded.sub.trans
    (((moves_modCoh (by decide)).trans moves_uaneSend.sub).trans moves_takeAgreement.sub)) _ _

theorem moves_repeatAgreements {f : Nat} {s : State} : Moves [.uane, .coh, .outs] s (s.repeatAgreements f) :=
  .ite (fun _ => .refl _ _) fun _ => (moves_modCoh (by decide)).trans (.foldl (fun _ _ => moves_uaneSend.sub) _ _)

theorem moves_takeLuma {node : Nat} {b : Bytes} {s : State} : Moves [.coh] s (s.takeLuma node b) :=
  moves_modCoh (by decide)

theorem moves_takeSet {b : Bytes} {s : State} : Moves [.coh] s (s.takeSet b) :=
  .ite (fun _ => .refl _ _) fun _ => moves_modCoh (by decide)

/-! ## Colour matrices (Machine/Colr.lean) -/

theorem moves_modCGroup {g : Nat} {f : CGroup → CGroup} {s : State} : Moves [.colr] s (s.modCGroup g f) :=
  moves_modColr (by decide)

/-! ## Bit planes and schedules (Machine/Plgn.lean) -/

theorem moves_modPlGroup {g : Nat} {f : PlGroup → PlGroup} {s : State} : Moves [.plgn] s (s.modPlGroup g f) :=
  moves_modPlgn (by decide)

theorem moves_modPlArray {ap : Nat} {f : PlArray → PlArray} {s : State} : Moves [.plgn] s (s.modPlArray ap f) :=
  moves_modPlgn (by decide)

theorem moves_fallback {g f cause : Nat} {s : State} : Moves [.plgn] s (s.fallback g f cause) := by
  unfold State.fallback
  split
  · exact .refl _ _
  · exact moves_modPlGroup

theorem moves_deliver {g f : Nat} {found : List (List SchedEpoch)} {us : Nat} {s : State} : Moves [.plgn] s
    (s.deliver g f found us) := by
  unfold State.deliver
  dsimp only
  refine .ite (fun _ => .refl _ _) fun _ => ?_
  split
  · exact .refl _ _
  · exact moves_modPlGroup
  · refine .ite (fun _ => moves_fallback) fun _ => ?_
    split
    · exact moves_modPlGroup.trans moves_modPlGroup
    · exact moves_modPlGroup.trans moves_fallback
  · exact moves_fallback

theorem moves_compilerLease {s : State} : Moves [.firm] s (s.compilerLease) :=
  .ite (fun _ => .ite (fun _ => .refl _ _) fun _ => moves_takeLeaseOf) fun _ => .ite (fun _ => moves_dropLease) fun _ => .refl _ _

/-! ## Array links (Machine/Arcd.lean) -/

theorem moves_modAport {n : Nat} {f : APort → APort} {s : State} : Moves [.arcd] s (s.modAport n f) :=
  moves_modArcd (by decide)

theorem moves_alaunch {ap from_ : Nat} {block : Bool} {mk : Nat → Nat → Bytes} {s : State} : Moves [.arcd, .outs] s
    (s.alaunch ap from_ block mk) :=
  moves_modAport.sub.emit

theorem moves_acontrol {ap : Nat} {cmds : List Bytes} {s : State} : Moves [.arcd, .outs] s (s.acontrol ap cmds) := by
  unfold State.acontrol
  exact moves_alaunch

theorem moves_setLane {ap phys mode lane : Nat} {s : State} : Moves [.arcd, .outs] s (s.setLane ap phys mode lane) :=
  moves_modAport.sub.emit

theorem moves_akeep {ap : Nat} {s : State} : Moves [.arcd, .outs] s (s.akeep ap) :=
  moves_modAport.sub.trans moves_acontrol

theorem moves_setArray {ap v : Nat} {s : State} : Moves [.units] s (s.setArray ap v) :=
  .ite (fun _ => .refl _ _) fun _ => moves_setObs.raise

theorem moves_ablank {ap cause : Nat} {s : State} : Moves [.arcd] s (s.ablank ap cause) :=
  .ite (fun _ => .refl _ _) fun _ => moves_modAport.raise

theorem moves_apark {ap cause : Nat} {s : State} : Moves [.units, .arcd, .outs] s (s.apark ap cause) :=
  .ite (fun _ => .refl _ _) fun _ => (moves_acontrol.sub.trans moves_modAport.sub).trans moves_setArray.sub.raise

theorem moves_atrain {ap : Nat} {s : State} : Moves [.units, .arcd, .outs] s (s.atrain ap) :=
  .ite (fun _ => .refl _ _) fun _ => ((moves_setArray.sub.trans moves_modAport.sub).trans moves_drawn.sub).trans (.foldl
    (fun _ _ => moves_setLane.sub) _ _)

theorem moves_aretrain {ap cause : Nat} {s : State} : Moves [.units, .arcd, .outs] s (s.aretrain ap cause) :=
  .ite (fun _ => .refl _ _) fun _ => .ite (fun _ => moves_apark.trans moves_atrain) fun _ => moves_apark

theorem moves_zeroBlock {ap b : Nat} {start : Int} {tblk : Nat} {s : State} : Moves [.plgn, .arcd, .outs] s
    (s.zeroBlock ap b start tblk) :=
  moves_acontrol.sub.trans moves_modPlArray.sub

theorem moves_loadWindow {ap slot b : Nat} {next inRing : Bool} {s : State} : Moves [.plgn, .arcd, .outs] s
    (s.loadWindow ap slot b next inRing) := by
  unfold State.loadWindow
  dsimp only
  split
  · split
    · exact .refl _ _
    · exact .ite (fun _ => .refl _ _) fun _ => .ite (fun _ => moves_zeroBlock) fun _ => .ite (fun _ =>
        ((moves_zeroBlock.trans moves_modAport.sub).trans moves_modPlGroup.sub).trans (.ite (fun _ => .refl _ _)
        fun _ => moves_raise)) fun _ => moves_alaunch.sub.trans moves_modPlArray.sub
  · exact .refl _ _

theorem moves_epochClear {g e b : Nat} {s : State} : Moves [.plgn, .arcd, .outs] s (s.epochClear g e b) := by
  unfold State.epochClear
  dsimp only
  split
  · exact .ite (fun _ => .foldl (fun _ _ => moves_acontrol.sub.trans moves_modPlArray.sub) _ _) fun _ => .refl _ _
  · exact .refl _ _

theorem moves_globalReset {g e : Nat} {s : State} : Moves [.plgn, .arcd, .outs] s (s.globalReset g e) := by
  unfold State.globalReset
  dsimp only
  split
  · exact .ite (fun _ => .foldl (fun _ _ => (moves_acontrol.sub.trans moves_modPlArray.sub).trans moves_modAport.sub) _ _)
      fun _ => .refl _ _
  · exact .refl _ _

theorem moves_slotReset {g slot b : Nat} {s : State} : Moves [.plgn] s (s.slotReset g slot b) := by
  unfold State.slotReset
  dsimp only
  split
  · exact .refl _ _
  · exact .ite (fun _ => .refl _ _) fun _ => .trans (.foldl (fun _ _ => moves_modPlArray) _ _) (.ite (fun _ => moves_modPlGroup)
      fun _ => .refl _ _)

/-- A return message moves what its taking in moves, beside the port itself. -/
theorem moves_areturn {ps : List Part} (hp : Part.arcd ∈ ps) {k : State → State} (hk : ∀ s, Moves ps s (k s)) {ap typ : Nat}
    {b : Bytes} {s : State} : Moves ps s (s.areturn ap typ b k) :=
  .ite (fun _ => moves_modArcd hp) fun _ => .ite (fun _ => .refl _ _) fun _ => (moves_modArcd hp).trans (hk _)

theorem moves_areport {ap st : Nat} {s : State} : Moves [.units, .arcd, .outs] s (s.areport ap st) :=
  .ite (fun _ => .refl _ _) fun _ => .ite (fun _ => moves_setArray.sub) fun _ => .ite (fun _ => moves_apark) fun _ => .refl _ _

theorem moves_aack {ap : Nat} {b : Bytes} {s : State} : Moves [.units, .arcd, .outs] s (s.aack ap b) :=
  moves_modAport.sub.trans (moves_areport.trans (.ite (fun _ => moves_ablank.sub) fun _ => .ite (fun _ => moves_ablank.sub)
    fun _ => .refl _ _))

theorem moves_aswapStart {ap logical cause : Nat} {s : State} : Moves [.arcd, .outs] s (s.aswapStart ap logical cause) :=
  .ite (fun _ => .refl _ _) fun _ => moves_modAport.sub.trans moves_setLane

theorem moves_astatus {ap : Nat} {b : Bytes} {s : State} : Moves [.units, .arcd, .outs] s (s.astatus ap b) := by
  unfold State.astatus
  dsimp only
  refine .ite (fun _ => (moves_modAport.sub.trans moves_areport).trans (.ite (fun _ => moves_ablank.sub) fun _ => .ite
    (fun _ => moves_ablank.sub) fun _ => .ite (fun _ => moves_ablank.sub) fun _ => .refl _ _)) fun _ => ?_
  split
  · exact (moves_modAport.sub.trans moves_areport).trans (.ite (fun _ => moves_ablank.sub) fun _ => .ite (fun _ => moves_ablank.sub)
      fun _ => .ite (fun _ => moves_ablank.sub) fun _ => .refl _ _)
  · exact ((moves_modAport.sub.trans moves_areport).trans (.ite (fun _ => moves_ablank.sub) fun _ => .ite
      (fun _ => moves_ablank.sub) fun _ => .ite (fun _ => moves_ablank.sub) fun _ => .refl _ _)).trans (.ite
      (fun _ => moves_aretrain) fun _ => moves_aswapStart.sub)

theorem moves_afault {ap : Nat} {b : Bytes} {s : State} : Moves [.units, .arcd, .outs] s (s.afault ap b) :=
  moves_raise.trans moves_apark

theorem moves_aregData {ap : Nat} {b : Bytes} {s : State} : Moves [.firm, .arcd] s (s.aregData ap b) :=
  moves_modAport.sub.trans moves_dropLease.sub

theorem moves_alane {ap : Nat} {b : Bytes} {s : State} : Moves [.arcd] s (s.alane ap b).1 := by
  unfold State.alane
  dsimp only
  split
  · exact moves_modAport
  · exact (moves_modAport.trans moves_modAport).raise

theorem moves_aswapSend {ap n : Nat} {s : State} : Moves [.arcd, .outs] s (s.aswapSend ap n) := by
  unfold State.aswapSend
  split
  · exact .ite (fun _ => moves_modAport.sub.trans moves_acontrol) fun _ => .refl _ _
  · exact .refl _ _

theorem moves_aswapMove {ap : Nat} {s : State} : Moves [.arcd, .outs] s (s.aswapMove ap) := by
  unfold State.aswapMove
  dsimp only
  split
  · exact .ite (fun _ => (moves_modAport.sub.trans moves_setLane).trans moves_setLane) fun _ => .refl _ _
  · exact .refl _ _

theorem moves_aswapEnd {ap : Nat} {s : State} : Moves [.arcd, .outs] s (s.aswapEnd ap) := by
  unfold State.aswapEnd
  dsimp only
  split
  · exact .ite (fun _ => (moves_modAport.sub.trans moves_setLane).raise) fun _ => .refl _ _
  · exact .refl _ _

theorem moves_aackTimeout {ap : Nat} {s : State} : Moves [.arcd] s (s.aackTimeout ap) :=
  .ite (fun _ => .refl _ _) fun _ => moves_modAport.raiseLimited

theorem moves_asilent {ap : Nat} {s : State} : Moves [.units, .arcd, .outs] s (s.asilent ap) := by
  unfold State.asilent
  dsimp only
  split
  · exact .ite (fun _ => moves_modAport.sub.raise.trans moves_aretrain) fun _ => .refl _ _
  · exact .refl _ _

theorem movesOnly_execAck {t ap : Nat} {msg : Bytes} {s : State} : MovesOnly [.units, .arcd, .outs] s (execAck t ap msg s) :=
  .next (moves_advance.trans (moves_areturn (by decide) fun _ => moves_aack))

theorem movesOnly_execStatus {t ap : Nat} {msg : Bytes} {s : State} : MovesOnly [.units, .arcd, .outs] s (execStatus t ap msg s) :=
  .next (moves_advance.trans (moves_areturn (by decide) fun _ => moves_astatus))

theorem movesOnly_execRegData {t ap : Nat} {msg : Bytes} {s : State} : MovesOnly [.firm, .arcd] s (execRegData t ap msg s) :=
  .next (moves_advance.trans (moves_areturn (by decide) fun _ => moves_aregData))

theorem movesOnly_execEcho {t ap : Nat} {msg : Bytes} {s : State} : MovesOnly [.arcd] s (execEcho t ap msg s) :=
  .next (moves_advance.trans (moves_areturn (by decide) fun _ => .refl _ _))

theorem movesOnly_execFault {t ap : Nat} {msg : Bytes} {s : State} : MovesOnly [.units, .arcd, .outs] s (execFault t ap msg s) :=
  .next (moves_advance.trans (moves_areturn (by decide) fun _ => moves_afault))

theorem movesOnly_execLaneSwapSend {t ap codeword : Nat} {s : State} : MovesOnly [.arcd, .outs] s
    (execLaneSwapSend t ap codeword s) :=
  .next (moves_advance.trans moves_aswapSend)

theorem movesOnly_execLaneSwapCodeword {t ap : Nat} {s : State} : MovesOnly [.arcd, .outs] s (execLaneSwapCodeword t ap s) :=
  .next (moves_advance.trans moves_aswapMove)

theorem movesOnly_execArcdAckTimeout {t ap : Nat} {s : State} : MovesOnly [.arcd] s (execArcdAckTimeout t ap s) :=
  .next (moves_advance.trans moves_aackTimeout)

theorem movesOnly_execArcdReturnSilent {t ap : Nat} {s : State} : MovesOnly [.units, .arcd, .outs] s
    (execArcdReturnSilent t ap s) :=
  .next (moves_advance.trans moves_asilent)

theorem movesOnly_execKeepaliveSend {t ap : Nat} {s : State} : MovesOnly [.arcd, .outs] s (execKeepaliveSend t ap s) :=
  .next (moves_advance.trans (.ite (fun _ => .refl _ _) fun _ => moves_akeep))

theorem movesOnly_execArrayTraining {t ap : Nat} {s : State} : MovesOnly [.units, .arcd, .outs] s (execArrayTraining t ap s) :=
  .next (moves_advance.trans (.ite (fun _ => moves_atrain) fun _ => .refl _ _))

theorem movesOnly_execBlockLoadWindow {t ap slot block : Nat} {next inRing : Bool} {s : State} : MovesOnly [.plgn, .arcd, .outs] s
    (execBlockLoadWindow t ap slot block next inRing s) :=
  .next (moves_advance.trans moves_loadWindow)

theorem movesOnly_execEpochClear {t group epoch block : Nat} {s : State} : MovesOnly [.plgn, .arcd, .outs] s
    (execEpochClear t group epoch block s) :=
  .next (moves_advance.trans moves_epochClear)

theorem movesOnly_execGlobalReset {t group epoch : Nat} {s : State} : MovesOnly [.plgn, .arcd, .outs] s
    (execGlobalReset t group epoch s) :=
  .next (moves_advance.trans moves_globalReset)

theorem movesOnly_execSlotReset {t group slot block : Nat} {s : State} : MovesOnly [.plgn] s (execSlotReset t group slot block s) :=
  .next (moves_advance.trans moves_slotReset)

theorem movesOnly_execScheduleDelivery {t group : Nat} {found : List (List SchedEpoch)} {us : Nat} {s : State}
    : MovesOnly [.firm, .plgn] s (execScheduleDelivery t group found us s) :=
  .next (moves_advance.trans (.ite (fun _ => .refl _ _) fun _ => moves_deliver.sub.trans moves_compilerLease.sub))

theorem moves_compileExpires {g : Nat} {s : State} : Moves [.plgn] s (s.compileExpires g) :=
  .ite (fun _ => moves_fallback) fun _ => .refl _ _

theorem movesOnly_execCompileDeadline {t group : Nat} {s : State} : MovesOnly [.firm, .plgn] s (execCompileDeadline t group s) :=
  .next ((moves_advance.trans moves_compileExpires.sub).trans moves_compilerLease.sub)

theorem moves_planesLate {late : List (Nat × Nat × Nat)} {s : State} : Moves [.plgn] s (s.planesLate late) := by
  unfold State.planesLate
  dsimp only
  refine .ite (fun _ => .refl _ _) fun _ => ?_
  split
  · exact .trans (.foldl (fun _ _ => moves_modPlArray) _ _) (.ite (fun _ => .refl _ _) fun _ => (moves_modPlgn (by decide)).raise)
  · exact .foldl (fun _ _ => moves_modPlArray) _ _

theorem movesOnly_execPlgnPlaneLate {t : Nat} {late : List (Nat × Nat × Nat)} {s : State} : MovesOnly [.plgn] s
    (execPlgnPlaneLate t late s) :=
  .next (moves_advance.trans moves_planesLate)

/-! ## The lamp link (Machine/Lamp.lean) -/

theorem moves_modChain {n : Nat} {f : Chain → Chain} {s : State} : Moves [.lamp] s (s.modChain n f) :=
  moves_modLamp (by decide)

theorem moves_modDriver {n : Nat} {f : LDriver → LDriver} {s : State} : Moves [.lamp] s (s.modDriver n f) :=
  moves_modLamp (by decide)

theorem moves_lampSend {n ty addr : Nat} {body : Bytes} {s0 : State} : Moves [.firm, .lamp, .outs] s0
    (s0.lampSend n ty addr body) :=
  .trans (.ite (fun _ => moves_takeLeaseOf.sub.trans moves_modChain.sub) fun _ => .refl _ _)
    ((moves_emit (by decide)).trans moves_modChain.sub)

theorem moves_driveKill {s : State} : Moves [.outs] s (s.driveKill) :=
  .ite (fun _ => moves_emits (by decide)) fun _ => moves_emits (by decide)

theorem moves_setLatch {causes : Nat} {s : State} : Moves [.lamp, .outs] s (s.setLatch causes) :=
  ((moves_modLamp (by decide)).trans moves_driveKill.sub).trans (moves_emits (by decide))

theorem moves_intlkLevel {b high : Bool} {s : State} : Moves [.lamp] s (s.intlkLevel b high) :=
  moves_modLamp (by decide)

theorem moves_fastMean {c n : Nat} {w : Int × Bool} {s : State} : Moves [.lamp] s (s.fastMean c n w).1 := by
  unfold State.fastMean
  dsimp only
  split
  · exact (moves_modLamp (by decide)).raiseLimited
  · exact .refl _ _

theorem moves_fastWindow {c : Nat} {w : Int × Bool} {s : State} : Moves [.lamp] s (s.fastWindow c w).1 := by
  have hmean : Moves [.lamp] s (s.fastMean c (s.num 0xC006 / 40) w).1 := moves_fastMean
  unfold State.fastWindow
  split
  next s1 m h =>
    rw [h] at hmean
    exact hmean.trans (moves_modLamp (by decide))
  · exact hmean

theorem moves_learnOffset {c : Nat} {sum : Int} {s : State} : Moves [.lamp] s (s.learnOffset c sum) :=
  moves_modLamp (by decide)

theorem moves_sensorJudge {c : Nat} {s : State} : Moves [.lamp] s (s.sensorJudge c) :=
  .ite (fun _ => .refl _ _) fun _ => .ite (fun _ => (moves_modLamp (by decide)).raise) fun _ => .ite (fun _ =>
    (moves_modLamp (by decide)).raise) fun _ => .refl _ _

theorem moves_railJudge {c : Nat} {s : State} : Moves [.lamp] s (s.railJudge c) :=
  .ite (fun _ => (moves_modLamp (by decide)).raise) fun _ => .refl _ _

theorem moves_setChain {n v : Nat} {s : State} : Moves [.lamp, .outs] s (s.setChain n v) :=
  moves_modChain.sub.trans moves_driveKill.sub

theorem moves_startEnum {n : Nat} {s : State} : Moves [.lamp, .outs] s (s.startEnum n) :=
  moves_modChain.sub.trans moves_setChain

theorem moves_setDriver {n v : Nat} {s : State} : Moves [.units] s (s.setDriver n v) :=
  moves_setObs

theorem moves_keepRegs {n : Nat} {r : List Nat} {s : State} : Moves [.lamp] s (s.keepRegs n r) :=
  moves_modDriver

theorem moves_readRegs {n k : Nat} {s : State} : Moves [.firm, .lamp, .outs] s (s.readRegs n k) :=
  .foldl (fun _ _ => moves_lampSend) _ _

theorem moves_writeRegs {n k lead : Nat} {s : State} : Moves [.firm, .lamp, .outs] s (s.writeRegs n k lead) :=
  .foldl (fun _ _ => moves_lampSend) _ _

theorem moves_enumerate {n count : Nat} {regs : List (List Nat)} {loop : Nat} {s : State} : Moves [.units, .firm, .lamp, .outs] s
    (s.enumerate n count regs loop) :=
  ((moves_lampSend.sub.trans moves_modChain.sub).trans moves_startEnum.sub).trans (.ite (fun _ => moves_setChain.sub.raise)
    fun _ => .trans (.foldl (fun _ _ => moves_readRegs.sub.trans moves_keepRegs.sub) _ _) (.ite (fun _ => moves_setChain.sub.raise)
    fun _ => .trans (.trans (.foldl (fun _ _ => moves_writeRegs.sub) _ _) moves_lampSend.sub) (.trans (.foldl
    (fun _ _ => moves_setDriver.sub.trans moves_modDriver.sub) _ _)
    ((((moves_modLamp (by decide)).trans moves_modChain.sub).trans moves_setChain.sub).trans (.trans (.ite (fun _ => moves_raise)
    fun _ => .refl _ _) moves_raise)))))

theorem moves_chainDown {n cause : Nat} {s : State} : Moves [.units, .lamp, .outs] s (s.chainDown n cause) :=
  .ite (fun _ => .refl _ _) fun _ => (moves_modChain.sub.trans (.foldl
    (fun _ _ => moves_setDriver.sub) _ _)).trans moves_setChain.sub.emit.raise

/-! ## The light loop (Machine/Loop.lean) -/

theorem moves_modBand {b : Nat} {f : LBand → LBand} {s : State} : Moves [.loop] s (s.modBand b f) :=
  moves_modLoop (by decide)

theorem moves_modString {k : Nat} {f : LString → LString} {s : State} : Moves [.loop] s (s.modString k f) :=
  moves_modLoop (by decide)

theorem moves_modStrings {ks : List Nat} {f : LString → LString} {s : State} : Moves [.loop] s (s.modStrings ks f) :=
  .foldl (fun _ _ => moves_modString) _ _

theorem moves_setStringObs {k v : Nat} {s : State} : Moves [.units] s (s.setStringObs k v) :=
  .ite (fun _ => .refl _ _) fun _ => moves_setObs.raise

theorem moves_followStrings {b : Nat} {s : State} : Moves [.units] s (s.followStrings b) :=
  .foldl (fun _ _ => moves_setStringObs) _ _

theorem moves_judgeDead {s : State} : Moves [.loop] s (s.judgeDead) :=
  moves_modLoop (by decide)

theorem moves_setBand {b v : Nat} {s : State} : Moves [.units, .loop] s (s.setBand b v) :=
  .ite (fun _ => .refl _ _) fun _ =>
    ((moves_setObs.sub.trans moves_modBand.sub).raise.trans moves_followStrings.sub).trans moves_judgeDead.sub

theorem moves_killBand {b : Nat} {s : State} : Moves [.units, .loop] s (s.killBand b) :=
  (moves_setBand.trans moves_modStrings.sub).trans moves_modBand.sub

theorem moves_derate {b : Nat} {s : State} : Moves [.units, .loop] s (s.derate b) :=
  moves_modBand.sub.trans moves_setBand

theorem moves_enterHold {b flag : Nat} {s : State} : Moves [.units, .loop] s (s.enterHold b flag) :=
  moves_modBand.sub.trans (.ite (fun _ => moves_derate) fun _ => moves_setBand)

theorem moves_bandTempJudge {b : Nat} {s : State} : Moves [.units, .loop] s (s.bandTempJudge b) :=
  .ite (fun _ => .refl _ _) fun _ => moves_modBand.sub.raise.trans (.ite (fun _ => moves_derate) fun _ => .ite
    (fun _ => moves_modBand.sub.trans moves_setBand) fun _ => .refl _ _)

theorem moves_stick {b flags : Nat} {s : State} : Moves [.loop] s (s.stick b flags) :=
  .ite (fun _ => .refl _ _) fun _ => moves_modBand.raise

theorem moves_envEvent {inst obj old new : Nat} {s : State} : Moves [] s (s.envEvent inst obj old new) :=
  .ite (fun _ => .refl _ _) fun _ => moves_raise

theorem moves_pinBand {b : Nat} {vs : List Int} {s : State} : Moves [.loop] s (s.pinBand b vs) :=
  moves_modBand.trans moves_envEvent.sub

theorem moves_openBand {b : Nat} {ff rp : Int} {s : State} : Moves [.loop] s (s.openBand b ff rp) :=
  .trans (.foldl (fun _ _ => moves_modString) _ _) moves_pinBand

theorem moves_closedBand {b : Nat} {ff rp eg dy : Int} {s : State} : Moves [.loop] s (s.closedBand b ff rp eg dy) :=
  .trans (.foldl (fun _ _ => moves_modString) _ _) moves_pinBand

theorem moves_validTick {b j i : Nat} {y : Int} {s : State} : Moves [.loop] s (s.validTick b j i y) :=
  (moves_stick.trans moves_modBand).trans (.trans (.ite (fun _ => moves_closedBand) fun _ => moves_openBand) moves_modBand)

theorem moves_invalidTick {b : Nat} {s : State} : Moves [.loop] s (s.invalidTick b) :=
  moves_modBand

theorem moves_shiftStrings {i : Nat} {old : List (Nat × Int)} {s : State} : Moves [.loop] s (s.shiftStrings i old) :=
  (moves_modLoop (by decide)).trans (.foldl (fun _ _ => .ite (fun _ => .refl _ _) fun _ => .foldl
    (fun _ _ => moves_modString) _ _) _ _)

theorem moves_pilotTick {b i : Nat} {s : State} : Moves [.loop] s (s.pilotTick b i) :=
  .ite (fun _ => .refl _ _) fun _ => .trans (.ite (fun _ => .foldl (fun _ _ => moves_modString) _ _)
    fun _ => .refl _ _) moves_modBand

theorem moves_learnEta {b k : Nat} {num : Int} {den : Nat} {s : State} : Moves [.loop] s (s.learnEta b k num den) :=
  .ite (fun _ => .refl _ _) fun _ => moves_modString

theorem moves_pilotEnd {b : Nat} {s : State} : Moves [.loop] s (s.pilotEnd b) :=
  .ite (fun _ => .refl _ _) fun _ => .trans (.ite (fun _ => .trans (.ite (fun _ => .refl _ _) fun _ => .foldl
    (fun _ _ => moves_learnEta) _ _) moves_modBand) fun _ => .refl _ _) (moves_modStrings.trans moves_modBand)

theorem moves_pipBand {b : Nat} {d p : Option Int} {probe : Bool} {s : State} : Moves [.loop] s (s.pipBand b d p probe) := by
  unfold State.pipBand
  dsimp only
  split
  · exact moves_modBand.trans (.ite (fun _ => moves_modBand) fun _ => moves_modBand)
  · exact .refl _ _

theorem moves_latchEstimate {f : Nat} {s : State} : Moves [.colr, .loop] s (s.latchEstimate f) := by
  unfold State.latchEstimate
  dsimp only
  refine (moves_modLoop (by decide)).trans (.trans (.foldl (fun _ _ => moves_modBand.sub) _ _) (.foldl (fun _ _ => ?_) _ _))
  split
  · exact moves_modCGroup.sub
  · exact .refl _ _

theorem moves_warmEnd {b : Nat} {s : State} : Moves [.loop] s (s.warmEnd b) := by
  unfold State.warmEnd
  split
  · exact .ite (fun _ => moves_modBand) fun _ => .refl _ _
  · exact .refl _ _

theorem moves_preload {b : Nat} {s : State} : Moves [.loop] s (s.preload b) :=
  .foldl (fun _ _ => moves_modString) _ _

theorem moves_closeBand {b : Nat} {s : State} : Moves [.units, .loop] s (s.closeBand b) :=
  .ite (fun _ => (moves_preload.sub.trans moves_setBand).trans moves_modBand.sub) fun _ => .refl _ _

theorem moves_modTrace {n : Nat} {f : LTrace → LTrace} {s : State} : Moves [.loop] s (s.modTrace n f) :=
  moves_modLoop (by decide)

theorem moves_padEntries {n want : Nat} {s : State} : Moves [.loop] s (s.padEntries n want) :=
  .ite (fun _ => .refl _ _) fun _ => moves_modFreeCtr.trans moves_modTrace

theorem moves_traceTrigger {n : Nat} {s : State} : Moves [.loop] s (s.traceTrigger n) :=
  .ite (fun _ => .refl _ _) fun _ => moves_padEntries.trans moves_modTrace

theorem moves_traceTick {n : Nat} {s : State} : Moves [.loop] s (s.traceTick n) :=
  .ite (fun _ => .refl _ _) fun _ => .ite (fun _ => moves_modTrace) fun _ => moves_modTrace

theorem moves_traceDone {n : Nat} {s : State} : Moves [.loop] s (s.traceDone n) :=
  .ite (fun _ => moves_modTrace.raise) fun _ => .refl _ _

/-! ## Drive and light (Machine/Drive.lean) -/

theorem moves_modSweepBand {b : Nat} {f : SBand → SBand} {s : State} : Moves [.coh] s (s.modSweepBand b f) :=
  moves_modCoh (by decide)

theorem moves_meansBy {ps : List Part} {f : Nat → Int × Bool → State → State × Option Int}
    (hf : ∀ c w s, Moves ps s (f c w s).1) {sums : List (Int × Bool)} {s : State} : Moves ps s (s.meansBy f sums).1 := by
  refine .foldlPair (fun p c => ?_) _ _ _
  split
  · exact .refl _ _
  · exact hf _ _ _

theorem moves_learnOffsets {sums : List (Int × Bool)} {s : State} : Moves [.lamp] s (s.learnOffsets sums) := by
  unfold State.learnOffsets
  refine .foldl (fun _ _ => ?_) _ _
  split
  · exact .ite (fun _ => moves_learnOffset) fun _ => .refl _ _
  · exact .refl _ _

theorem moves_bandTick {i : Nat} {means : List (Option Int)} {s : State} {b : Nat} : Moves [.coh, .loop] s
    (s.bandTick i means b) := by
  unfold State.bandTick
  dsimp only
  refine .ite (fun _ => .refl _ _) fun _ => ?_
  split
  · exact moves_modBand.sub.trans moves_invalidTick.sub
  · split
    · exact moves_validTick.sub.trans (.ite (fun _ => moves_modSweepBand.sub) fun _ => .refl _ _)
    · exact moves_modBand.sub.trans moves_invalidTick.sub

theorem moves_loopTick {sums : List (Int × Bool)} {s : State} : Moves [.coh, .loop, .lamp] s (s.loopTick sums) := by
  have hmeans : Moves [.coh, .loop, .lamp] s (s.meansBy State.fastWindow sums).1 :=
    moves_meansBy fun _ _ _ => moves_fastWindow.sub
  unfold State.loopTick
  generalize s.meansBy State.fastWindow sums = m at hmeans ⊢
  exact .ite (fun _ => .refl _ _) fun _ => .trans (.trans (.trans (.trans (.trans (hmeans.trans moves_learnOffsets.sub)
    (moves_modLoop (by decide))) (.foldl (fun _ _ => moves_bandTick.sub) _ _)) moves_shiftStrings.sub)
    (.foldl (fun _ _ => moves_pilotTick.sub) _ _)) (.foldl (fun _ _ => moves_traceTick.sub) _ _)

theorem moves_pipWindow {g : Nat} {sums : List (Int × Bool)} {s : State} :
    Moves [.coh, .loop, .lamp] s (s.pipWindow g sums) := by
  have hmeans : Moves [.coh, .loop, .lamp] s (s.meansBy (fun c => State.fastMean c 50) sums).1 :=
    moves_meansBy fun _ _ _ => moves_fastMean.sub
  unfold State.pipWindow
  generalize s.meansBy (fun c => State.fastMean c 50) sums = m at hmeans ⊢
  refine .ite (fun _ => .refl _ _) fun _ => .trans (hmeans.trans (.foldl (fun _ _ => ?_) _ _)) (moves_modLoop (by decide))
  refine .ite (fun _ => .refl _ _) fun _ => ?_
  dsimp only
  split
  · exact moves_pipBand.sub.trans moves_modSweepBand.sub
  · exact moves_pipBand.sub

theorem moves_sendSet' {n bands ahead bank at_ : Nat} {s : State} : Moves [.firm, .lamp, .outs] s
    (s.sendSet' n bands ahead bank at_) :=
  .ite (fun _ => .refl _ _) fun _ => moves_lampSend.trans moves_modChain.sub

theorem moves_applyLive {n bands : Nat} {s : State} : Moves [.lamp, .outs] s (s.applyLive n bands).1 := by
  unfold State.applyLive
  dsimp only
  split
  · exact .refl _ _
  · have happly (o : Out) (f : Chain → Chain) : Moves [.lamp, .outs] s ((s.emit o).modChain n f) :=
      (moves_emit (by decide)).trans moves_modChain.sub
    split
    · exact happly _ _
    · exact (happly _ _).trans (.trans (moves_modLamp (by decide)) (.foldl (fun _ _ => moves_raise) _ _))

theorem moves_applyGate {n bands : Nat} {s : State} : Moves [.lamp, .outs] s (s.applyGate n bands) :=
  .ite (fun _ => .refl _ _) fun _ => (moves_emit (by decide)).trans moves_modChain.sub

theorem moves_launch {bands : Nat} {s : State} : Moves [.loop, .lamp, .outs] s (s.launch bands) :=
  .trans (.trans (.trans (moves_applyLive.sub.trans moves_applyLive.sub) moves_applyGate.sub) moves_applyGate.sub)
    (.foldl (fun _ _ => .ite (fun _ => moves_modBand.sub) fun _ => .ite (fun _ => moves_modBand.sub) fun _ => .refl _ _) _ _)

theorem moves_followAll {s : State} : Moves [.units, .loop] s (s.followAll) :=
  .trans (.foldl (fun _ _ => moves_followStrings.sub) _ _) moves_judgeDead.sub

theorem moves_resume {d : Nat} {s : State} : Moves [.units, .firm, .lamp, .outs] s (s.resume d) :=
  moves_lampSend.sub.trans moves_setDriver.sub

theorem moves_takeSlot {d v : Nat} {s : State} : Moves [.units, .firm, .lamp, .outs] s (s.takeSlot d v) :=
  moves_modDriver.sub.trans (.trans (.ite (fun _ => moves_raise) fun _ => .refl _ _) (.ite (fun _ => .trans (.ite
    (fun _ => .refl _ _) fun _ => moves_setDriver.sub.raise) moves_resume) fun _ => moves_setDriver.sub))

/-- What every frame that comes back does first: its acks count, and drivers that were lost resume. -/
theorem moves_takeLampFrame {n : Nat} {b : Bytes} {s : State} :
    Moves [.units, .firm, .loop, .lamp, .outs] s (s.takeLampFrame n b) := by
  unfold State.takeLampFrame
  dsimp only
  refine .trans ?_ moves_followAll.sub
  split
  · exact .trans (.trans (.trans (.trans (.ite (fun _ => moves_dropLease.sub) fun _ => .refl _ _) moves_modChain.sub)
      (.foldl (fun _ _ => moves_modDriver.sub) _ _)) (.ite (fun _ => .foldl (fun _ _ => .ite (fun _ => moves_resume.sub)
      fun _ => .refl _ _) _ _) fun _ => .refl _ _)) (.foldl (fun _ _ => moves_takeSlot.sub) _ _)
  · exact .trans (.trans (.trans (.trans (.ite (fun _ => moves_dropLease.sub) fun _ => .refl _ _) moves_modChain.sub)
      (.foldl (fun _ _ => moves_modDriver.sub) _ _)) (.ite (fun _ => .foldl (fun _ _ => .ite (fun _ => moves_resume.sub)
      fun _ => .refl _ _) _ _) fun _ => .refl _ _)) moves_modDriver.sub
  · exact .trans (.trans (.trans (.ite (fun _ => moves_dropLease.sub) fun _ => .refl _ _) moves_modChain.sub)
      (.foldl (fun _ _ => moves_modDriver.sub) _ _)) (.ite (fun _ => .foldl (fun _ _ => .ite (fun _ => moves_resume.sub)
      fun _ => .refl _ _) _ _) fun _ => .refl _ _)

theorem moves_lampReturn {n : Nat} {b : Bytes} {s : State} : Moves [.units, .firm, .loop, .lamp, .outs] s (s.lampReturn n b) :=
  .ite (fun _ => moves_takeLampFrame) fun _ => moves_modChain.sub.raiseLimited

theorem movesOnly_execBandEstimateLatch {t : Nat} {s : State} : MovesOnly [.colr, .loop] s (execBandEstimateLatch t s) :=
  .ite (fun _ => .next (moves_advance.trans moves_latchEstimate)) fun _ => .next moves_advance

theorem movesOnly_execLoopFeedbackLost {t band : Nat} {s : State} : MovesOnly [.units, .loop] s (execLoopFeedbackLost t band s) :=
  .ite (fun _ => .next (moves_advance.trans (moves_raise.trans moves_enterHold))) fun _ => .next moves_advance

theorem movesOnly_execLoopImplausible {t band : Nat} {s : State} : MovesOnly [.units, .loop] s (execLoopImplausible t band s) :=
  .ite (fun _ => .next (moves_advance.raise.trans (.ite (fun _ => moves_enterHold) fun _ => moves_modBand.sub)))
    fun _ => .next moves_advance

theorem movesOnly_execBandFrozen {t band : Nat} {s : State} : MovesOnly [.units, .loop] s (execBandFrozen t band s) :=
  .ite (fun _ => .next (moves_advance.raise.trans (.ite (fun _ => moves_enterHold) fun _ => moves_modBand.sub)))
    fun _ => .next moves_advance

theorem movesOnly_execBandClose {t band : Nat} {s : State} : MovesOnly [.units, .loop] s (execBandClose t band s) :=
  .next (moves_advance.trans moves_closeBand)

theorem movesOnly_execWarmRampComplete {t band : Nat} {s : State} : MovesOnly [.loop] s (execWarmRampComplete t band s) :=
  .next (moves_advance.trans moves_warmEnd)

theorem movesOnly_execCalFreeze {t band : Nat} {s : State} : MovesOnly [.loop] s (execCalFreeze t band s) :=
  .ite (fun _ => .next (moves_advance.trans moves_modBand.raise)) fun _ => .next moves_advance

theorem movesOnly_execPilotRunEnd {t band : Nat} {s : State} : MovesOnly [.loop] s (execPilotRunEnd t band s) :=
  .next (moves_advance.trans moves_pilotEnd)

theorem movesOnly_execTraceTrigger {t buffer : Nat} {s : State} : MovesOnly [.loop] s (execTraceTrigger t buffer s) :=
  .ite (fun _ => .next (moves_advance.trans moves_traceTrigger)) fun _ => .next moves_advance

theorem movesOnly_execLoopTraceDone {t buffer : Nat} {s : State} : MovesOnly [.loop] s (execLoopTraceDone t buffer s) :=
  .next (moves_advance.trans moves_traceDone)

theorem movesOnly_execApplyLaunch {t bands : Nat} {s : State} : MovesOnly [.loop, .lamp, .outs] s (execApplyLaunch t bands s) :=
  .next (moves_advance.trans moves_launch)

theorem movesOnly_execSetSend {t chain bands ahead bank at_ : Nat} {s : State} : MovesOnly [.firm, .lamp, .outs] s
    (execSetSend t chain bands ahead bank at_ s) :=
  .next (moves_advance.trans moves_sendSet')

theorem movesOnly_execStatusFrameSend {t chain : Nat} {s : State} : MovesOnly [.firm, .lamp, .outs] s
    (execStatusFrameSend t chain s) :=
  .ite (fun _ => .next (moves_advance.trans moves_lampSend)) fun _ => .next moves_advance

theorem movesOnly_execLampFrameReturn {t chain : Nat} {frame : Bytes} {s : State} : MovesOnly [.units, .firm, .loop, .lamp, .outs] s
    (execLampFrameReturn t chain frame s) :=
  .next (moves_advance.trans moves_lampReturn)

theorem movesOnly_execLampDriverLost {t driver : Nat} {s : State} : MovesOnly [.units, .loop] s (execLampDriverLost t driver s) :=
  .ite (fun _ => .next (moves_advance.trans (moves_setDriver.sub.raise.trans moves_followAll))) fun _ => .next moves_advance

theorem movesOnly_execLampChainDown {t chain cause : Nat} {s : State} : MovesOnly [.units, .loop, .lamp, .outs] s
    (execLampChainDown t chain cause s) :=
  .ite (fun _ => .next (moves_advance.trans (moves_chainDown.sub.trans moves_followAll.sub))) fun _ => .next moves_advance

theorem movesOnly_execChainEnumerate {t chain count : Nat} {regs : List (List Nat)} {loop : Nat} {s : State}
    : MovesOnly [.units, .firm, .loop, .lamp, .outs] s (execChainEnumerate t chain count regs loop s) :=
  .ite (fun _ => .next (moves_advance.trans (moves_enumerate.sub.trans moves_followAll.sub))) fun _ => .next moves_advance

theorem movesOnly_execLampIntlkDiscrepancy {t : Nat} {s : State} : MovesOnly [.lamp] s (execLampIntlkDiscrepancy t s) := by
  unfold execLampIntlkDiscrepancy
  dsimp only
  split
  · exact .ite (fun _ => .next (moves_advance.trans ((moves_modLamp (by decide)).raise))) fun _ => .next moves_advance
  · exact .next moves_advance

theorem movesOnly_execLampSensorLost {t channel : Nat} {s : State} : MovesOnly [.units, .loop, .lamp] s
    (execLampSensorLost t channel s) :=
  .next ((moves_advance.trans moves_sensorJudge.sub).trans (.foldl (fun _ _ => moves_bandTempJudge.sub) _ _))

theorem movesOnly_execLampRail {t channel : Nat} {s : State} : MovesOnly [.lamp] s (execLampRail t channel s) :=
  .next (moves_advance.trans moves_railJudge)

theorem movesOnly_execInterlockClose {t input : Nat} {s : State} : MovesOnly [.lamp] s (execInterlockClose t input s) :=
  .ite (fun _ => .next moves_advance) fun _ => .next (moves_advance.trans moves_intlkLevel.raise)

/-! ## Wheel motors (Machine/Whel.lean) -/

theorem moves_modWheel {n : Nat} {f : Wheel → Wheel} {s : State} : Moves [.whel] s (s.modWheel n f) :=
  moves_modWhel (by decide)

theorem moves_bridgeTo {n : Nat} {m : BridgeMode} {k after : Nat} {s : State} : Moves [.whel, .outs] s (s.bridgeTo n m k after) :=
  moves_modWheel.sub.trans (moves_emits (by decide))

theorem moves_gates {n : Nat} {on : Bool} {s : State} : Moves [.whel, .outs] s (s.gates n on) :=
  moves_bridgeTo

theorem moves_cutGates {n : Nat} {v : Bool} {s : State} : Moves [.whel, .outs] s (s.cutGates n v) :=
  .ite (fun _ => .refl _ _) fun _ => moves_modWheel.sub.trans (moves_emits (by decide))

theorem moves_setDuty {n : Nat} {duty : Int} {s : State} : Moves [.whel, .outs] s (s.setDuty n duty) :=
  moves_modWheel.sub.emit

theorem moves_unlockWheel {n : Nat} {s : State} : Moves [.seqr, .loop] s (s.unlockWheel n) :=
  (moves_modLoop (by decide)).trans moves_losePhase.sub

theorem moves_setWheel {n v : Nat} {s : State} : Moves [.units, .seqr, .loop] s (s.setWheel n v) :=
  .ite (fun _ => .refl _ _) fun _ => moves_setObs.sub.raise.trans (.ite (fun _ => moves_unlockWheel.sub) fun _ => .refl _ _)

theorem moves_wheelFault {n cause : Nat} {s : State} : Moves [.units, .seqr, .loop, .whel, .outs] s (s.wheelFault n cause) :=
  (moves_gates.sub.trans moves_modWheel.sub).trans (.ite (fun _ => .refl _ _) fun _ => moves_raise.trans moves_setWheel.sub)

theorem moves_listen {n : Nat} {s : State} : Moves [.units, .seqr, .loop, .whel, .outs] s (s.listen n) :=
  (moves_gates.sub.trans moves_modWheel.sub).trans moves_setWheel.sub

theorem moves_brake {n : Nat} {align : Bool} {s : State} : Moves [.units, .seqr, .loop, .whel, .outs] s (s.brake n align) :=
  (moves_bridgeTo.sub.trans moves_modWheel.sub).trans moves_setWheel.sub

theorem moves_align {n : Nat} {s : State} : Moves [.units, .seqr, .loop, .whel, .outs] s (s.align n) :=
  (moves_bridgeTo.sub.trans moves_modWheel.sub).trans moves_setWheel.sub

theorem moves_rampSpeed {n : Nat} {s : State} : Moves [.whel] s (s.rampSpeed n) :=
  moves_modWheel

theorem moves_rampClosed {n : Nat} {s : State} : Moves [.units, .seqr, .loop, .whel, .outs] s (s.rampClosed n) :=
  (((moves_gates.sub.trans moves_setDuty.sub).trans moves_rampSpeed.sub).trans moves_modWheel.sub).trans moves_setWheel.sub

theorem moves_startDecide {n : Nat} {speed : Int} {s : State} : Moves [.units, .seqr, .loop, .whel, .outs] s
    (s.startDecide n speed) :=
  .ite (fun _ => moves_rampClosed) fun _ => .ite (fun _ => moves_align) fun _ => .ite (fun _ => .ite (fun _ => moves_brake) fun _ =>
    (moves_gates.sub.trans moves_modWheel.sub).trans moves_setWheel.sub) fun _ => moves_brake

theorem moves_wheelRun {n : Nat} {s : State} : Moves [.units, .seqr, .loop, .whel, .outs] s (s.wheelRun n) := by
  unfold State.wheelRun
  dsimp only
  refine .ite (fun _ => .refl _ _) fun _ => ?_
  split
  · exact moves_modWheel.sub.trans moves_listen
  · exact .ite (fun _ => moves_modWheel.sub.trans moves_startDecide) fun _ => .ite (fun _ => .refl _ _)
      fun _ => moves_modWheel.sub.trans moves_listen
  · exact .ite (fun _ => moves_modWheel.sub.trans moves_startDecide) fun _ => .refl _ _
  · exact .ite (fun _ => moves_modWheel.sub.trans moves_listen) fun _ => .refl _ _
  · exact .refl _ _

theorem moves_wheelStop {n : Nat} {s : State} : Moves [.units, .seqr, .loop, .whel, .outs] s (s.wheelStop n) := by
  unfold State.wheelStop
  dsimp only
  split
  · exact moves_modWheel.sub
  · exact moves_modWheel.sub
  · exact moves_modWheel.sub.trans (.ite (fun _ => moves_brake) fun _ =>
      (moves_gates.sub.trans moves_modWheel.sub).trans moves_setWheel.sub)

theorem moves_wheelSafe {n : Nat} {s : State} : Moves [.units, .seqr, .loop, .whel, .outs] s (s.wheelSafe n) := by
  unfold State.wheelSafe
  dsimp only
  split
  · exact (moves_gates.sub.trans moves_modWheel.sub).trans moves_setCmd.sub
  · exact (moves_gates.sub.trans moves_modWheel.sub).trans moves_setCmd.sub
  · exact ((moves_gates.sub.trans moves_modWheel.sub).trans moves_setCmd.sub).trans moves_setWheel.sub

theorem moves_startFail {n cause : Nat} {s : State} : Moves [.units, .seqr, .loop, .whel, .outs] s (s.startFail n cause) :=
  (moves_gates.sub.trans moves_modWheel.sub).raise.trans (.ite (fun _ => moves_wheelFault) fun _ => moves_listen)

theorem moves_commutate {n tc : Nat} {back : Bool} {s : State} : Moves [.whel, .outs] s (s.commutate n tc back) :=
  moves_bridgeTo

theorem moves_crossing {n tc : Nat} {late : Int} {back : Bool} {s : State} : Moves [.units, .seqr, .loop, .whel, .outs] s
    (s.crossing n tc late back) :=
  .ite (fun _ => .refl _ _) fun _ => moves_modWheel.sub.trans (.ite (fun _ => moves_wheelFault) fun _ => .ite (fun _ => moves_align)
    fun _ => .ite (fun _ => (moves_modWheel.sub.trans moves_setDuty.sub).trans moves_commutate.sub) fun _ => .ite
    (fun _ => moves_commutate.sub) fun _ => .refl _ _)

theorem moves_forceStep {n : Nat} {s : State} : Moves [.whel, .outs] s (s.forceStep n) :=
  .ite (fun _ => moves_bridgeTo) fun _ => .refl _ _

theorem moves_pwmSample {n uv : Nat} {s0 : State} : Moves [.units, .seqr, .loop, .whel, .outs] s0 (s0.pwmSample n uv) :=
  (moves_cutGates.sub.trans moves_forceStep.sub).trans (moves_modWheel.sub.trans (.ite (fun _ => moves_wheelFault) fun _ => .ite
    (fun _ => moves_cutGates.sub) fun _ => .refl _ _))

theorem moves_indexEdge {n period width : Nat} {s : State} : Moves [.units, .seqr, .loop, .whel, .outs] s
    (s.indexEdge n period width) :=
  .ite (fun _ => .refl _ _) fun _ => moves_modWheel.sub.trans (.trans (.ite (fun _ => .refl _ _) fun _ => moves_modWheel.sub.trans
    (.ite (fun _ => moves_modWheel.sub.raise) fun _ => .ite (fun _ => moves_modWheel.sub.raise) fun _ => .refl _ _)) (.ite
    (fun _ => moves_modWheel.sub.trans moves_rampClosed) fun _ => .refl _ _))

theorem moves_loseRotor {n cause : Nat} {s : State} : Moves [.units, .seqr, .loop, .whel, .outs] s (s.loseRotor n cause) :=
  (moves_gates.sub.trans moves_modWheel.sub).raise.trans (.ite (fun _ => moves_modWheel.sub.trans moves_setWheel.sub)
    fun _ => moves_modWheel.sub.trans moves_setWheel.sub)

theorem movesOnly_execWheelRun {t wheel : Nat} {s : State} : MovesOnly [.units, .seqr, .loop, .whel, .outs] s
    (execWheelRun t wheel s) :=
  .ite (fun _ => .next (moves_advance.trans moves_wheelRun)) fun _ => .next moves_advance

theorem movesOnly_execWheelStop {t wheel : Nat} {s : State} : MovesOnly [.units, .seqr, .loop, .whel, .outs] s
    (execWheelStop t wheel s) :=
  .ite (fun _ => .next (moves_advance.trans moves_wheelStop)) fun _ => .next moves_advance

theorem movesOnly_execWhelCatch {t wheel : Nat} {amp : Int} {s : State} : MovesOnly [.units, .seqr, .loop, .whel, .outs] s
    (execWhelCatch t wheel amp s) := by
  unfold execWhelCatch
  dsimp only
  split
  · exact .ite (fun _ => .next moves_advance) fun _ => .next
      ((moves_advance.trans moves_modWheel.sub.raise).trans moves_startDecide)
  · exact .next moves_advance

theorem movesOnly_execAlignEnd {t wheel : Nat} {s : State} : MovesOnly [.units, .seqr, .loop, .whel, .outs] s
    (execAlignEnd t wheel s) :=
  .ite (fun _ => .next (moves_advance.trans ((moves_modWheel.sub.trans moves_bridgeTo.sub).trans moves_setWheel.sub)))
    fun _ => .next moves_advance

theorem movesOnly_execOpenLoopHandover {t wheel : Nat} {s : State} : MovesOnly [.whel] s (execOpenLoopHandover t wheel s) :=
  .ite (fun _ => .next (moves_advance.trans (moves_modWheel.trans moves_rampSpeed))) fun _ => .next moves_advance

theorem movesOnly_execWhelStartFail {t wheel : Nat} {s : State} : MovesOnly [.units, .seqr, .loop, .whel, .outs] s
    (execWhelStartFail t wheel s) :=
  .ite (fun _ => .next (moves_advance.trans moves_startFail)) fun _ => .ite (fun _ => .next (moves_advance.trans moves_startFail))
    fun _ => .next moves_advance

theorem movesOnly_execWheelLocked {t wheel : Nat} {s : State} : MovesOnly [.units, .seqr, .loop, .whel] s
    (execWheelLocked t wheel s) :=
  .ite (fun _ => .next (moves_advance.trans (moves_modWheel.sub.trans moves_setWheel.sub))) fun _ => .next moves_advance

theorem movesOnly_execZeroCrossing {t wheel period : Nat} {late : Int} {backward : Bool} {s : State}
    : MovesOnly [.units, .seqr, .loop, .whel, .outs] s (execZeroCrossing t wheel period late backward s) :=
  .next (moves_advance.trans moves_crossing)

theorem movesOnly_execPwmPeriodSample {t wheel micro : Nat} {s : State} : MovesOnly [.units, .seqr, .loop, .whel, .outs] s
    (execPwmPeriodSample t wheel micro s) :=
  .next (moves_advance.trans moves_pwmSample)

theorem movesOnly_execWheelFaultInput {t wheel : Nat} {low : Bool} {s : State} : MovesOnly [.units, .seqr, .loop, .whel, .outs] s
    (execWheelFaultInput t wheel low s) :=
  .next ((moves_advance.trans moves_modWheel.sub).trans (.ite (fun _ => moves_wheelFault) fun _ => .refl _ _))

theorem movesOnly_execIndexEdge {t wheel period width : Nat} {s : State} : MovesOnly [.units, .seqr, .loop, .whel, .outs] s
    (execIndexEdge t wheel period width s) :=
  .next (moves_advance.trans moves_indexEdge)

theorem movesOnly_execIndexMissing {t wheel : Nat} {s : State} : MovesOnly [.whel] s (execIndexMissing t wheel s) := by
  unfold execIndexMissing
  dsimp only
  split
  · exact .ite (fun _ => .next (moves_advance.trans moves_modWheel.raise)) fun _ => .next moves_advance
  · exact .next moves_advance

theorem movesOnly_execWhelLockLost {t wheel cause : Nat} {s : State} : MovesOnly [.units, .seqr, .loop, .whel, .outs] s
    (execWhelLockLost t wheel cause s) :=
  .ite (fun _ => .next (moves_advance.trans moves_loseRotor)) fun _ => .next moves_advance

theorem movesOnly_execWheelRecoveryTimeout {t wheel : Nat} {s : State} : MovesOnly [.units, .seqr, .loop, .whel, .outs] s
    (execWheelRecoveryTimeout t wheel s) := by
  unfold execWheelRecoveryTimeout
  dsimp only
  split
  · exact .ite (fun _ => .next (moves_advance.trans moves_startFail)) fun _ => .next moves_advance
  · exact .next moves_advance

theorem movesOnly_execWheelStandstill {t wheel : Nat} {s : State} : MovesOnly [.units, .seqr, .loop, .whel, .outs] s
    (execWheelStandstill t wheel s) :=
  .ite (fun _ => .ite (fun _ => .next ((moves_advance.trans moves_modWheel.sub).trans moves_align)) fun _ => .next
    ((moves_advance.trans moves_modWheel.sub).trans ((moves_gates.sub.trans moves_modWheel.sub).trans moves_setWheel.sub)))
    fun _ => .next moves_advance

theorem movesOnly_execWheelCoastTimeout {t wheel : Nat} {s : State} : MovesOnly [.units, .seqr, .loop, .whel, .outs] s
    (execWheelCoastTimeout t wheel s) :=
  .ite (fun _ => .next (moves_advance.trans moves_brake)) fun _ => .next moves_advance

theorem movesOnly_execWheelMarkPass {t wheel : Nat} {s : State} : MovesOnly [.seqr] s (execWheelMarkPass t wheel s) :=
  .ite (fun _ => .next (moves_advance.trans (moves_modSeqr (by decide)))) fun _ => .next moves_advance

theorem movesOnly_execSeqrWheelPhase {t wheel : Nat} {s : State} : MovesOnly [.seqr] s (execSeqrWheelPhase t wheel s) :=
  .ite (fun _ => .next (moves_advance.trans moves_judgePhase)) fun _ => .next moves_advance

/-! ## Wear and spares (Machine/Wear.lean) -/

theorem moves_dieConvert {ts : List Int} {s : State} : Moves [.therm] s (s.dieConvert ts) :=
  moves_modTherm (by decide)

theorem moves_throttleEntry {s : State} : Moves [.therm] s (s.throttleEntry) :=
  moves_modTherm (by decide)

theorem moves_setDieLevel {l : Nat} {v : Bool} {inst : Nat} {temp : Int} {s : State} : Moves [.therm] s
    (s.setDieLevel l v inst temp) :=
  .ite (fun _ => .refl _ _) fun _ => (moves_modTherm (by decide)).raise.trans (.ite (fun _ => .ite (fun _ => moves_throttleEntry)
    fun _ => moves_modTherm (by decide)) fun _ => .refl _ _)

theorem moves_dieJudge {l : Nat} {s : State} : Moves [.therm] s (s.dieJudge l) := by
  unfold State.dieJudge
  refine .ite (fun _ => .ite (fun _ => ?_) fun _ => .refl _ _) fun _ => ?_
  · split
    · exact moves_setDieLevel
    · exact .refl _ _
  · split
    · exact .foldl (fun _ _ => moves_setDieLevel) _ _
    · exact .refl _ _

theorem moves_throttleStep {s : State} : Moves [.therm] s (s.throttleStep) := by
  unfold State.throttleStep
  dsimp only
  refine (moves_modTherm (by decide)).trans (.ite (fun _ => moves_modTherm (by decide)) fun _ => .ite (fun _ => .trans (.ite
    (fun _ => .ite (fun _ => moves_modTherm (by decide)) fun _ => ?_) fun _ => .refl _ _) (moves_modTherm (by decide))) fun _ =>
    .ite (fun _ => moves_modTherm (by decide)) fun _ => moves_modTherm (by decide))
  split
  · exact moves_modTherm (by decide)
  · exact .refl _ _

theorem moves_modLampLevel {c : Nat} {f : LampLevel → LampLevel} {s : State} : Moves [.therm] s (s.modLampLevel c f) :=
  moves_modTherm (by decide)

theorem moves_lampStep {c : Nat} {s : State} : Moves [.therm] s (s.lampStep c) :=
  .ite (fun _ => .refl _ _) fun _ => .ite (fun _ => moves_modLampLevel) fun _ => moves_modLampLevel

theorem moves_swapUndo {w : Nat × Nat × Nat × Nat} {s : State} : Moves [.clks, .arcd, .loop] s (s.swapUndo w) :=
  .ite (fun _ => moves_modString.sub.trans moves_modString.sub) fun _ => .ite (fun _ => moves_modClks (by decide)) fun _ => .ite
    (fun _ => moves_modAport.sub) fun _ => .refl _ _

theorem moves_swapFail {area res : Nat} {s : State} : Moves [.firm, .therm] s (s.swapFail area res) :=
  ((moves_modTherm (by decide)).trans moves_dropLease.sub).raise

theorem moves_swapDone {area res : Nat} {s : State} : Moves [.firm, .therm] s (s.swapDone area res) :=
  ((moves_modTherm (by decide)).trans moves_dropLease.sub).raise

theorem moves_swapBegin {area res spare : Nat} {s : State} : Moves [.clks, .uane, .arcd, .outs] s (s.swapBegin area res spare) := by
  unfold State.swapBegin
  dsimp only
  split
  · exact moves_modClks (by decide)
  · refine .ite (fun _ => .refl _ _) fun _ => ?_
    split
    · exact moves_aswapStart.sub
    · exact .refl _ _
  · split
    · exact moves_uaneSwapStart.sub
    · exact .refl _ _
  · exact .refl _ _

theorem moves_swapStart {s : State} {q : Nat × Nat} : Moves [.clks, .firm, .uane, .arcd, .therm, .outs] s (s.swapStart q) := by
  unfold State.swapStart
  dsimp only
  refine .ite (fun _ => .refl _ _) fun _ => ?_
  split
  · exact (moves_modTherm (by decide)).trans moves_swapFail.sub
  · exact (moves_modTherm (by decide)).trans (((moves_modTherm (by decide)).trans moves_takeLeaseOf.sub).trans moves_swapBegin.sub)

theorem moves_pumpSwaps {s : State} : Moves [.clks, .firm, .uane, .arcd, .therm, .outs] s (s.pumpSwaps) :=
  .foldl (fun _ _ => moves_swapStart) _ _

theorem moves_queueSwap {area res : Nat} {s : State} : Moves [.clks, .firm, .uane, .arcd, .therm, .outs] s (s.queueSwap area res) :=
  .ite (fun _ => .refl _ _) fun _ => (moves_modTherm (by decide)).trans moves_pumpSwaps

theorem moves_pend {area res : Nat} {s : State} : Moves [.therm] s (s.pend area res) :=
  .ite (fun _ => (moves_modTherm (by decide)).raise) fun _ => moves_modTherm (by decide)

theorem moves_refill {s : State} : Moves [.therm] s (s.refill) := by
  unfold State.refill
  split
  · exact .refl _ _
  · exact .ite (fun _ => (moves_modTherm (by decide)).trans moves_pend) fun _ => .refl _ _

theorem moves_spareLost {area res : Nat} {s : State} : Moves [.clks, .firm, .uane, .arcd, .loop, .therm, .outs] s
    (s.spareLost area res) := by
  unfold State.spareLost
  split
  · exact (moves_swapUndo.sub.trans moves_swapFail.sub).trans moves_pumpSwaps.sub
  · exact .refl _ _

theorem moves_wearOut {area res st val : Nat} {s : State} : Moves [.clks, .firm, .uane, .arcd, .loop, .therm, .outs] s
    (s.wearOut area res st val) :=
  .ite (fun _ => .refl _ _) fun _ => (moves_modTherm (by decide)).raise.trans (.trans (.ite (fun _ => moves_spareLost)
    fun _ => .refl _ _) (.ite (fun _ => moves_queueSwap.sub.trans moves_refill.sub) fun _ => moves_pend.sub))

theorem moves_selfRefresh {s : State} : Moves [.firm, .hbm, .therm] s (s.selfRefresh) :=
  moves_hbmSelfRefresh.sub.trans (.foldl (fun _ _ => .ite (fun _ => (moves_modTherm (by decide)).trans (.ite (fun _ =>
    (moves_modTherm (by decide)).trans moves_swapDone.sub) fun _ => .refl _ _)) fun _ => .refl _ _) _ _)

theorem moves_swapsBackOf {areas : Nat → Bool} {s : State} : Moves [.clks, .firm, .arcd, .loop, .therm] s (s.swapsBackOf areas) :=
  (moves_modTherm (by decide)).trans (.trans (.foldl (fun _ _ => moves_swapUndo.sub) _ _) (.foldl (fun _ _ => .ite
    (fun _ => .refl _ _) fun _ => moves_dropLease.sub) _ _))

theorem moves_swapsBack {s : State} : Moves [.clks, .firm, .arcd, .loop, .therm] s (s.swapsBack) :=
  moves_swapsBackOf

theorem movesOnly_execMewsThermalWarn {t : Nat} {s : State} : MovesOnly [.therm] s (execMewsThermalWarn t s) :=
  .next (moves_advance.trans moves_dieJudge)

theorem movesOnly_execMewsThermalThrottle {t : Nat} {s : State} : MovesOnly [.therm] s (execMewsThermalThrottle t s) :=
  .next (moves_advance.trans moves_dieJudge)

theorem movesOnly_execThrottleInterval {t : Nat} {s : State} : MovesOnly [.therm] s (execThrottleInterval t s) :=
  .ite (fun _ => .next (moves_advance.trans moves_throttleStep)) fun _ => .next moves_advance

theorem movesOnly_execLampThrottleInterval {t : Nat} {s : State} : MovesOnly [.therm] s (execLampThrottleInterval t s) :=
  .next (moves_advance.trans (.foldl (fun _ _ => moves_lampStep) _ _))

theorem movesOnly_execMewsWear {t area resource state value : Nat} {s : State}
    : MovesOnly [.clks, .firm, .uane, .arcd, .loop, .therm, .outs] s (execMewsWear t area resource state value s) :=
  .ite (fun _ => .next (moves_advance.trans (moves_modTherm (by decide)))) fun _ => .ite (fun _ => .next
    (moves_advance.trans moves_wearOut)) fun _ => .next moves_advance

theorem movesOnly_execLane {t ap : Nat} {msg : Bytes} {s : State} :
    MovesOnly [.clks, .firm, .uane, .arcd, .loop, .therm, .outs] s (execLane t ap msg s) := by
  refine .next (moves_advance.trans (moves_areturn (by decide) fun s => ?_))
  have hgraded : Moves [.arcd] s (s.alane ap msg).1 := moves_alane
  dsimp only
  split
  · exact hgraded.sub.trans moves_wearOut
  · exact hgraded.sub

theorem movesOnly_execArcdLaneSpared {t ap : Nat} {s : State} : MovesOnly [.clks, .firm, .uane, .arcd, .therm, .outs] s
    (execArcdLaneSpared t ap s) := by
  unfold execArcdLaneSpared
  dsimp only
  split
  · exact .ite (fun _ => .next ((moves_advance.trans moves_aswapEnd.sub).trans (moves_swapDone.sub.trans moves_pumpSwaps)))
      fun _ => .next (moves_advance.trans moves_aswapEnd.sub)
  · exact .next (moves_advance.trans moves_aswapEnd.sub)

theorem movesOnly_execBankSwapMirrored {t : Nat} {s : State} : MovesOnly [.clks, .firm, .uane, .arcd, .therm, .outs] s
    (execBankSwapMirrored t s) := by
  unfold execBankSwapMirrored
  dsimp only
  split
  · exact .next (moves_advance.trans (((moves_modArcd (by decide)).raise.trans moves_swapDone.sub).trans moves_pumpSwaps))
  · exact .next moves_advance

theorem movesOnly_execSpareRejectRecheck {t area resource : Nat} {s : State}
    : MovesOnly [.clks, .firm, .uane, .arcd, .loop, .therm, .outs] s (execSpareRejectRecheck t area resource s) := by
  unfold execSpareRejectRecheck
  dsimp only
  split
  · refine .next ?_
    split
    · exact (moves_advance.trans (moves_modTherm (by decide))).trans (.ite (fun _ => moves_wearOut) fun _ => .refl _ _)
    · exact moves_advance.trans (moves_modTherm (by decide))
  · exact .next moves_advance

theorem movesOnly_execRcTrimUpdate {t : Nat} {error : Int} {s : State} : MovesOnly [.mews] s (execRcTrimUpdate t error s) :=
  .ite (fun _ => .next (moves_advance.trans (moves_modMews (by decide)))) fun _ => .next moves_advance

theorem movesOnly_execCrystalCheck {t cycles : Nat} {s : State} : MovesOnly [.mews] s (execCrystalCheck t cycles s) :=
  .next (moves_advance.trans (moves_modMews (by decide)))

theorem movesOnly_execCrystalEdgeTimeout {t : Nat} {s : State} : MovesOnly [.mews] s (execCrystalEdgeTimeout t s) :=
  .next (moves_advance.trans (moves_modMews (by decide)))

/-! ## Clocks (Machine/Clks.lean) -/

theorem moves_modPll {n : Nat} {f : Pll → Pll} {s : State} : Moves [.clks] s (s.modPll n f) :=
  moves_modClks (by decide)

theorem moves_stopTarget {target : Nat} {s : State} : Moves [.clks] s (s.stopTarget target) := by
  unfold State.stopTarget
  split
  · exact .ite (fun _ => .refl _ _) fun _ => moves_modPll
  · exact .refl _ _

theorem moves_pllCoast {n : Nat} {s : State} : Moves [.clks] s (s.pllCoast n) :=
  moves_modPll

theorem moves_pllFail {n : Nat} {s : State} : Moves [.clks, .firm, .uane, .arcd, .loop, .therm, .outs] s (s.pllFail n) :=
  moves_modPll.sub.trans moves_wearOut

theorem moves_pllSwapsBack {s : State} : Moves [.clks, .firm, .arcd, .loop, .therm] s (s.pllSwapsBack) :=
  moves_swapsBackOf

theorem moves_pllSwitch {s : State} : Moves [.clks, .firm, .uane, .arcd, .therm, .outs] s (s.pllSwitch) := by
  unfold State.pllSwitch
  dsimp only
  split
  · exact .ite (fun _ => .refl _ _) fun _ => moves_modPll.sub.trans ((moves_raise.trans moves_swapDone.sub).trans moves_pumpSwaps)
  · exact .refl _ _

theorem movesOnly_execClksBandMiss {t pll : Nat} {s : State} : MovesOnly [.clks] s (execClksBandMiss t pll s) :=
  .ite (fun _ => .next (moves_advance.trans moves_modPll.raise)) fun _ => .next moves_advance

theorem movesOnly_execSynthesiserSearchFailed {t pll : Nat} {s : State}
    : MovesOnly [.clks, .firm, .uane, .arcd, .loop, .therm, .outs] s (execSynthesiserSearchFailed t pll s) :=
  .ite (fun _ => .next ((moves_advance.trans moves_modPll.sub).trans (.ite (fun _ => .refl _ _) fun _ => moves_pllFail)))
    fun _ => .next moves_advance

theorem movesOnly_execClksLockLost {t pll : Nat} {err : Int} {s : State} : MovesOnly [.clks] s (execClksLockLost t pll err s) :=
  .ite (fun _ => .next (moves_advance.trans ((moves_pllCoast.trans moves_modPll).raise))) fun _ => .next moves_advance

theorem movesOnly_execClksHoldoverLimit {t pll : Nat} {s : State} : MovesOnly [.clks, .firm, .uane, .arcd, .loop, .therm, .outs] s
    (execClksHoldoverLimit t pll s) := by
  unfold execClksHoldoverLimit
  dsimp only
  split
  · exact .ite (fun _ => .next ((moves_advance.trans moves_modPll.sub.raise).trans (.ite (fun _ => .refl _ _)
      fun _ => moves_pllFail))) fun _ => .next moves_advance
  · exact .next moves_advance

theorem movesOnly_execClksRefLost {t : Nat} {s : State} : MovesOnly [.clks, .firm, .arcd, .loop, .therm] s (execClksRefLost t s) :=
  .ite (fun _ => .next (((moves_advance.trans ((moves_modClks (by decide)).trans moves_pllSwapsBack)).trans (.foldl (fun _ _ => .ite
    (fun _ => moves_pllCoast.sub) fun _ => .refl _ _) _ _)).raise)) fun _ => .next moves_advance

theorem movesOnly_execDomainGate {t domain : Nat} {idle : Bool} {s : State} : MovesOnly [.clks] s
    (execDomainGate t domain idle s) :=
  .ite (fun _ => .next (moves_advance.trans (moves_modClks (by decide)))) fun _ => .next moves_advance

theorem movesOnly_execClksSpared {t : Nat} {s : State} : MovesOnly [.clks, .firm, .uane, .arcd, .therm, .outs] s
    (execClksSpared t s) :=
  .next (moves_advance.trans moves_pllSwitch)

/-! ## The device state (Machine/Device.lean) -/

/-- The state that `recommand` answers is its second argument's: the Mews keeps its device state. -/
theorem moves_setDev {d : DevState} {s : State} : Moves [.units, .ings, .outs] s (s.setDev d) :=
  .ite (fun _ => .refl _ _) fun _ => (moves_recommand.sub.trans moves_driveKill.sub).raise.trans
    (.foldl (fun _ _ => moves_updateHpd.sub) _ _)

theorem moves_parkDark {ap : Nat} {s : State} : Moves [.units, .arcd, .outs] s (s.parkDark ap) :=
  .trans (.ite (fun _ => (moves_modAport.sub.trans moves_setArray.sub).raise) fun _ => moves_apark) moves_modAport.sub

theorem moves_darkBands {s : State} : Moves [.units, .loop] s (s.darkBands) :=
  .foldl (fun _ _ => .ite (fun _ => moves_killBand) fun _ => .ite (fun _ => .refl _ _) fun _ =>
    (moves_setBand.trans moves_modStrings.sub).trans moves_modBand.sub) _ _

/-- The entry to a dark state ends with the marks of the Mews; what comes before leaves the Mews alone. -/
theorem goDark_eq (s : State) : ∃ t, s.goDark = t.modMews (fun m => { m with warmOk := false, rampDown := none }) ∧
    Moves [.units, .clks, .firm, .hbm, .curg, .plgn, .arcd, .loop, .therm, .outs] s t := by
  refine ⟨_, rfl, .trans (.trans (.trans (.trans (.trans (.trans (.trans (.trans (.trans moves_swapsBack.sub
    (.foldl (fun _ _ => moves_parkDark.sub) _ _)) moves_darkBands.sub) moves_selfRefresh.sub)
    (.foldl (fun _ _ => moves_stopTarget.sub) _ _)) moves_observeLayers.sub) moves_clearBlocks.sub)
    (moves_modPlgn (by decide))) moves_compilerLease.sub) (moves_modCurg (by decide))⟩

theorem moves_killPath {b : Nat} {s : State} : Moves [.units, .loop, .lamp, .outs] s (s.killPath b) :=
  moves_setLatch.sub.trans (.trans (.ite (fun _ => moves_raise) fun _ => .refl _ _) (.foldl (fun _ _ => moves_killBand.sub) _ _))

/-! ## Commits (Machine/Commit.lean) -/

theorem moves_emptyShadow {s : State} : Moves [.dict, .seqr] s (s.emptyShadow) :=
  (moves_modDict (by decide)).trans (moves_modSeqr (by decide))

theorem moves_dropOrphan {s : State} : Moves [.dict, .seqr] s (s.dropOrphan) :=
  .ite (fun _ => moves_emptyShadow.raise) fun _ => .refl _ _

theorem moves_refuseCommit {reason obj : Nat} {s : State} : Moves [.dict, .seqr] s (s.refuseCommit reason obj) :=
  ((moves_modDict (by decide)).trans (moves_modSeqr (by decide))).raise.trans moves_dropOrphan

theorem moves_pendCommit {c : Nat} {wall : Bool} {s : State} : Moves [.seqr] s (s.pendCommit c wall) :=
  (moves_modSeqr (by decide)).trans (.ite (fun _ => moves_raise) fun _ => .refl _ _)

/-! ## Commits of the wall (Machine/WallCommit.lean) -/

theorem moves_commitAck {node id : Nat} {s : State} : Moves [.coh] s (s.commitAck node id) := by
  unfold State.commitAck
  dsimp only
  split
  · exact .refl _ _
  · exact moves_modCoh (by decide)

theorem moves_refuseJoin {reason obj : Nat} {s : State} : Moves [.dict, .seqr, .coh] s (s.refuseJoin reason obj) :=
  moves_refuseCommit.sub.trans (moves_modCoh (by decide))

theorem moves_takeGo {src id g : Nat} {s : State} : Moves [.dict, .seqr, .uane, .coh, .outs] s (s.takeGo src id g) := by
  unfold State.takeGo
  dsimp only
  split
  · exact .refl _ _
  · exact .ite (fun _ => .refl _ _) fun _ => .ite (fun _ => .ite (fun _ => moves_commitAck.sub) fun _ => moves_uaneSend.sub)
      fun _ => .ite (fun _ => .refl _ _) fun _ => .ite (fun _ => moves_refuseJoin.sub) fun _ => (moves_modDict (by decide)).trans
      (.ite (fun _ => (moves_pendCommit.sub.trans (moves_modCoh (by decide))).trans moves_commitAck.sub) fun _ =>
      (moves_pendCommit.sub.trans (moves_modCoh (by decide))).trans moves_uaneSend.sub)

theorem moves_takeAbort {id : Nat} {s : State} : Moves [.dict, .seqr, .coh] s (s.takeAbort id) := by
  unfold State.takeAbort
  split
  · exact .ite (fun _ => moves_refuseJoin) fun _ => .refl _ _
  · exact .refl _ _

theorem moves_sendGo {s : State} : Moves [.dict, .seqr, .uane, .coh, .outs] s (s.sendGo) := by
  unfold State.sendGo
  split
  · split
    · exact moves_uaneSend.sub.trans moves_takeGo
    · exact .refl _ _
  · exact .refl _ _

theorem moves_abortCommit {s : State} : Moves [.dict, .seqr, .uane, .coh, .outs] s (s.abortCommit) := by
  unfold State.abortCommit
  dsimp only
  split
  · exact .refl _ _
  · exact (moves_modCoh (by decide)).raise.trans (moves_uaneSend.sub.trans moves_takeAbort.sub)

theorem moves_commitReady {node id : Nat} {s : State} : Moves [.dict, .seqr, .uane, .coh, .outs] s (s.commitReady node id) := by
  unfold State.commitReady
  dsimp only
  split
  · exact .refl _ _
  · exact .ite (fun _ => .refl _ _) fun _ => (moves_modCoh (by decide)).trans (.ite (fun _ => .refl _ _) fun _ =>
      (moves_modCoh (by decide)).raise.trans moves_sendGo)

theorem moves_commitRefused {id : Nat} {s : State} : Moves [.dict, .seqr, .uane, .coh, .outs] s (s.commitRefused id) := by
  unfold State.commitRefused
  split
  · exact .ite (fun _ => moves_abortCommit) fun _ => .refl _ _
  · exact .refl _ _

theorem moves_sendAnswer {dst : Nat} {s : State} : Moves [.dict, .seqr, .uane, .coh, .outs] s (s.sendAnswer dst) := by
  unfold State.sendAnswer
  split
  · exact .refl _ _
  · exact .ite (fun _ => .ite (fun _ => moves_commitReady) fun _ => moves_commitRefused) fun _ => .ite (fun _ => .refl _ _)
      fun _ => moves_uaneSend.sub

theorem moves_takePrepare {src id : Nat} {s : State} : Moves [.dict, .seqr, .uane, .coh, .outs] s (s.takePrepare src id) :=
  .ite (fun _ => moves_sendAnswer) fun _ => .refl _ _

theorem moves_sendPrepare {s : State} : Moves [.dict, .seqr, .uane, .coh, .outs] s (s.sendPrepare) := by
  unfold State.sendPrepare
  split
  · exact .ite (fun _ => .refl _ _) fun _ => moves_uaneSend.sub.trans moves_takePrepare
  · exact .refl _ _

theorem moves_newTerm {before : Nat × Nat} {s : State} : Moves [.dict, .seqr, .coh] s (s.newTerm before) := by
  unfold State.newTerm
  dsimp only
  refine .ite (fun _ => .refl _ _) fun _ => ?_
  split
  · exact .trans (.ite (fun _ => moves_modCoh (by decide)) fun _ => .refl _ _) moves_refuseJoin
  · exact .ite (fun _ => moves_modCoh (by decide)) fun _ => .refl _ _

theorem movesOnly_execPrepare {t src id : Nat} {s : State} : MovesOnly [.dict, .seqr, .uane, .coh, .outs] s
    (execPrepare t src id s) :=
  .next (moves_advance.trans moves_takePrepare)

theorem movesOnly_execReady {t node id : Nat} {s : State} : MovesOnly [.dict, .seqr, .uane, .coh, .outs] s
    (execReady t node id s) :=
  .next (moves_advance.trans moves_commitReady)

theorem movesOnly_execRefused {t id : Nat} {s : State} : MovesOnly [.dict, .seqr, .uane, .coh, .outs] s (execRefused t id s) :=
  .next (moves_advance.trans moves_commitRefused)

theorem movesOnly_execGo {t src id g : Nat} {s : State} : MovesOnly [.dict, .seqr, .uane, .coh, .outs] s (execGo t src id g s) :=
  .next (moves_advance.trans moves_takeGo)

theorem movesOnly_execCommitAck {t node id : Nat} {s : State} : MovesOnly [.coh] s (execCommitAck t node id s) :=
  .next (moves_advance.trans moves_commitAck)

theorem movesOnly_execAbort {t id : Nat} {s : State} : MovesOnly [.dict, .seqr, .coh] s (execAbort t id s) :=
  .next (moves_advance.trans moves_takeAbort)

theorem movesOnly_execPrepareRepeat {t : Nat} {s : State} : MovesOnly [.dict, .seqr, .uane, .coh, .outs] s
    (execPrepareRepeat t s) :=
  .next (moves_advance.trans moves_sendPrepare)

theorem movesOnly_execGoRepeat {t : Nat} {s : State} : MovesOnly [.dict, .seqr, .uane, .coh, .outs] s (execGoRepeat t s) :=
  .ite (fun _ => .next (moves_advance.trans moves_sendGo)) fun _ => .next moves_advance

theorem movesOnly_execWallJoinTimeout {t : Nat} {s : State} : MovesOnly [.dict, .seqr, .uane, .coh, .outs] s
    (execWallJoinTimeout t s) := by
  unfold execWallJoinTimeout
  dsimp only
  split
  · exact .ite (fun _ => .next (moves_advance.trans moves_abortCommit)) fun _ => .next moves_advance
  · exact .next moves_advance

theorem movesOnly_execWallJoinExpiry {t : Nat} {s : State} : MovesOnly [.dict, .seqr, .coh] s (execWallJoinExpiry t s) := by
  unfold execWallJoinExpiry
  dsimp only
  split
  · exact .ite (fun _ => .next (moves_advance.trans moves_refuseJoin)) fun _ => .next moves_advance
  · exact .next moves_advance

theorem movesOnly_execSeqrWallCommit {t : Nat} {s : State} : MovesOnly [.coh] s (execSeqrWallCommit t s) := by
  unfold execSeqrWallCommit
  dsimp only
  split
  · split
    · exact .ite (fun _ => .next ((moves_advance.trans (moves_modCoh (by decide))).trans (.foldl (fun _ _ => moves_raise) _ _)))
        fun _ => .next moves_advance
    · exact .next moves_advance
  · exact .next moves_advance

/-! ## Sweeps (Machine/Sweep.lean) -/

theorem moves_modMaster {f : SMaster → SMaster} {s : State} : Moves [.coh] s (s.modMaster f) :=
  moves_modCoh (by decide)

theorem moves_modNode {f : SNode → SNode} {s : State} : Moves [.coh] s (s.modNode f) :=
  moves_modCoh (by decide)

theorem moves_takeStep {x : SStep} {nodes : List Nat} {s : State} : Moves [.coh] s (s.takeStep x nodes) :=
  .ite (fun _ => .refl _ _) fun _ => .ite (fun _ => moves_modNode) fun _ => moves_modNode

theorem moves_sendResult {master : Nat} {r : SResult} {s : State} : Moves [.uane, .coh, .outs] s (s.sendResult master r) :=
  .ite (fun _ => moves_modMaster.sub) fun _ => moves_uaneSend.sub

theorem moves_takeCollect {master sweep : Nat} {s : State} : Moves [.uane, .coh, .outs] s (s.takeCollect master sweep) :=
  .foldl (fun _ _ => moves_sendResult) _ _

theorem moves_takeEnd {sweep : Nat} {s : State} : Moves [.coh] s (s.takeEnd sweep) :=
  moves_modNode

theorem moves_sendStep {k after_ : Nat} {named : List Nat} {s : State} : Moves [.uane, .coh, .outs] s (s.sendStep k after_ named) :=
  moves_modMaster.sub.trans ((moves_raise.trans moves_uaneSend.sub).trans moves_takeStep.sub)

theorem moves_sendEnd {st : Nat} {s : State} : Moves [.uane, .coh, .outs] s (s.sendEnd st) :=
  moves_modMaster.sub.raise.trans (moves_uaneSend.sub.trans moves_takeEnd.sub)

theorem moves_nextStep {s : State} : Moves [.uane, .coh, .outs] s (s.nextStep) := by
  unfold State.nextStep
  dsimp only
  refine .ite (fun _ => .ite (fun _ => moves_sendStep) fun _ => ?_) fun _ => .ite (fun _ => ?_) fun _ => .refl _ _
  · split
    · exact moves_modMaster.sub.trans moves_sendStep
    · exact moves_sendEnd
  · split
    · exact moves_modMaster.sub.trans moves_sendStep
    · exact moves_sendEnd

theorem moves_stepGathered {s : State} : Moves [.uane, .coh, .outs] s (s.stepGathered) :=
  .ite (fun _ => moves_raise.trans moves_nextStep) fun _ => .refl _ _

theorem moves_takeResult {r : SResult} {s : State} : Moves [.uane, .coh, .outs] s (s.takeResult r) :=
  moves_modMaster.sub.trans (.ite (fun _ => .refl _ _) fun _ => moves_stepGathered)

theorem moves_sendCollect {s : State} : Moves [.uane, .coh, .outs] s (s.sendCollect) :=
  moves_uaneSend.sub.trans moves_takeCollect

theorem moves_sweepReturned {before : List Nat} {s : State} : Moves [.uane, .coh, .outs] s (s.sweepReturned before) :=
  .ite (fun _ => moves_sendCollect) fun _ => .refl _ _

theorem movesOnly_execSweepStep {t master : Nat} {payload : Bytes} {s : State} : MovesOnly [.coh] s
    (execSweepStep t master payload s) :=
  .next (moves_advance.trans moves_takeStep)

theorem movesOnly_execSweepResult {t node : Nat} {payload : Bytes} {s : State} : MovesOnly [.uane, .coh, .outs] s
    (execSweepResult t node payload s) :=
  .next (moves_advance.trans moves_takeResult)

theorem movesOnly_execSweepCollect {t master sweep : Nat} {s : State} : MovesOnly [.uane, .coh, .outs] s
    (execSweepCollect t master sweep s) :=
  .next (moves_advance.trans moves_takeCollect)

theorem movesOnly_execSweepEnd {t sweep : Nat} {s : State} : MovesOnly [.coh] s (execSweepEnd t sweep s) :=
  .next (moves_advance.trans moves_takeEnd)

theorem movesOnly_execSweepStepTimeout {t : Nat} {s : State} : MovesOnly [.uane, .coh, .outs] s (execSweepStepTimeout t s) :=
  .ite (fun _ => .next (moves_advance.trans (.trans (.foldl (fun _ _ => moves_sendCollect) _ _) moves_nextStep)))
    fun _ => .next moves_advance

theorem movesOnly_execMgmtSweep {t : Nat} {s : State} : MovesOnly [.coh] s (execMgmtSweep t s) := by
  unfold execMgmtSweep
  dsimp only
  split
  · exact .ite (fun _ => .next (moves_advance.trans moves_modNode.raise)) fun _ => .next moves_advance
  · exact .next moves_advance

/-! ## The fabric (Machine/Fabric.lean) -/

theorem moves_uaneLostLanes {n : Nat} {s : State} : Moves [.uane, .outs] s (s.uaneLostLanes n) := by
  unfold State.uaneLostLanes
  dsimp only
  split
  · exact .ite (fun _ => moves_uaneSwapStart) fun _ => .refl _ _
  · exact .refl _ _

theorem moves_uaneHelloSwaps {n : Nat} {p : Bytes} {s : State} : Moves [.uane] s (s.uaneHelloSwaps n p) :=
  .trans (.ite (fun _ => moves_drawn.sub.trans moves_modUport) fun _ => .refl _ _) (.ite (fun _ => moves_modUport)
    fun _ => .refl _ _)

theorem moves_takeHello {n : Nat} {p : Bytes} {s : State} : Moves [.units, .uane, .outs] s (s.takeHello n p) :=
  .ite (fun _ => moves_modUport.sub.trans (.ite (fun _ => moves_uaneUp.sub) fun _ => .refl _ _)) fun _ => .ite (fun _ => .ite
    (fun _ => moves_uaneDown) fun _ => (moves_modUport.sub.trans moves_uaneHelloSwaps.sub).trans moves_uaneLostLanes.sub)
    fun _ => .refl _ _

theorem moves_discipline {steps : Bool} {o : Int} {s : State} : Moves [.seqr, .plgn, .outs] s (s.discipline steps o) :=
  .ite (fun _ => moves_stepWall.sub.trans moves_startRephase) fun _ => ((moves_drawn.sub.trans moves_modWallOff).trans
    (moves_modSeqr (by decide))).trans (moves_drawn.sub.trans moves_modWallTrim)

theorem moves_judgeLock {o : Int} {s : State} : Moves [.uane] s (s.judgeLock o) :=
  (moves_modUane (by decide)).trans (.ite (fun _ => moves_setTimeState) fun _ => .ite (fun _ => moves_setTimeState)
    fun _ => .refl _ _)

theorem moves_takeTime {n tenths : Nat} {b : Bytes} {s : State} : Moves [.seqr, .uane, .plgn, .outs] s (s.takeTime n tenths b) :=
  moves_modUport.sub.trans (.ite (fun _ => .refl _ _) fun _ => moves_modUport.sub.trans (.ite (fun _ => .refl _ _) fun _ =>
    (moves_modUane (by decide)).trans (.ite (fun _ => moves_discipline.sub.trans moves_judgeLock.sub) fun _ => .refl _ _)))

theorem moves_ptpMeasure {t4 : Nat} {s : State} : Moves [.seqr, .uane, .plgn, .outs] s (s.ptpMeasure t4) := by
  unfold State.ptpMeasure
  dsimp only
  split
  · exact .refl _ _
  · exact ((moves_modUane (by decide)).trans moves_setPtp.sub).trans (.ite (fun _ => .refl _ _) fun _ => moves_discipline.sub.trans
      (moves_modUane (by decide)))

theorem moves_takePtp {m : PtpMsg} {s : State} : Moves [.seqr, .uane, .plgn, .outs] s (s.takePtp m) := by
  unfold State.takePtp
  dsimp only
  split
  · exact .ite (fun _ => .refl _ _) fun _ => .ite (fun _ => (moves_modUane (by decide)).trans (.ite (fun _ => .refl _ _)
      fun _ => moves_setPtp.sub)) fun _ => .refl _ _
  · exact .ite (fun _ => moves_modUane (by decide)) fun _ => .refl _ _
  · exact .ite (fun _ => (moves_modUane (by decide)).emit) fun _ => .refl _ _
  · exact .ite (fun _ => moves_ptpMeasure) fun _ => .refl _ _

theorem moves_modRx {n : Nat} {f : RxLayer → RxLayer} {s : State} : Moves [.uane] s (s.modRx n f) :=
  moves_modUane (by decide)

theorem moves_lease {b : Bytes} {s : State} : Moves [.dict, .curg, .seqr, .uane, .coh, .plgn, .outs] s (s.lease b) :=
  moves_takeLease.sub.trans moves_newTerm.sub

theorem moves_topoFrame {src : Nat} {b : Bytes} {s : State} : Moves [.uane, .coh, .outs] s (s.topoFrame src b) :=
  moves_takeTopo.sub.trans moves_sweepReturned

theorem movesOnly_execHello {t port : Nat} {intact : Bool} {payload : Bytes} {ser : List Nat} {s : State}
    : MovesOnly [.units, .uane, .outs] s (execHello t port intact payload ser s) :=
  .ite (fun _ => .next moves_advance) fun _ => .ite (fun _ => .next (moves_advance.trans moves_modUport.sub)) fun _ => .next
    ((moves_advance.trans (.ite (fun _ => moves_modUport.sub) fun _ => .refl _ _)).trans moves_takeHello)

theorem movesOnly_execHelloSend {t aligned : Nat} {s : State} : MovesOnly [.uane, .outs] s (execHelloSend t aligned s) :=
  .next (moves_advance.trans (.foldl (fun _ _ => .ite (fun _ => .refl _ _) fun _ => moves_uaneSend) _ _))

theorem movesOnly_execHelloTimeout {t port : Nat} {s : State} : MovesOnly [.units, .uane, .outs] s (execHelloTimeout t port s) :=
  .ite (fun _ => .next (moves_advance.trans moves_uaneDown)) fun _ => .next moves_advance

theorem movesOnly_execTopo {t src : Nat} {payload : Bytes} {s : State} : MovesOnly [.uane, .coh, .outs] s
    (execTopo t src payload s) :=
  .ite (fun _ => .next (moves_advance.trans moves_topoFrame)) fun _ => .next moves_advance

theorem movesOnly_execTopoSend {t : Nat} {s : State} : MovesOnly [.uane, .coh, .outs] s (execTopoSend t s) :=
  .ite (fun _ => .next moves_advance) fun _ => .next (moves_advance.trans (.trans (.ite
    (fun _ => moves_uaneSend.sub.trans moves_recompute.sub)
    fun _ => moves_uaneSend.sub.trans moves_updateMaster.sub) moves_sweepReturned))

theorem movesOnly_execTopoStale {t : Nat} {s : State} : MovesOnly [.uane] s (execTopoStale t s) :=
  .next ((moves_advance.trans (moves_modUane (by decide))).trans (.ite (fun _ => moves_recompute) fun _ => .refl _ _))

theorem movesOnly_execUaneTime {t port : Nat} {payload : Bytes} {tenths : Nat} {s : State}
    : MovesOnly [.seqr, .uane, .plgn, .outs] s (execUaneTime t port payload tenths s) :=
  .ite (fun _ => .next (moves_advance.trans moves_takeTime)) fun _ => .next moves_advance

theorem movesOnly_execTimeSend {t : Nat} {s : State} : MovesOnly [.uane, .outs] s (execTimeSend t s) :=
  .next (moves_advance.trans (.foldl (fun _ _ => .ite (fun _ => moves_uaneSend) fun _ => .refl _ _) _ _))

theorem movesOnly_execPtpMessage {t : Nat} {msg : PtpMsg} {s : State} : MovesOnly [.seqr, .uane, .plgn, .outs] s
    (execPtpMessage t msg s) :=
  .ite (fun _ => .next moves_advance) fun _ => .next (moves_advance.trans moves_takePtp)

theorem movesOnly_execVoteReport {t : Nat} {report : Bytes} {s : State} : MovesOnly [.coh] s (execVoteReport t report s) :=
  .ite (fun _ => .next (moves_advance.trans moves_takeReport)) fun _ => .next moves_advance

theorem movesOnly_execAgreement {t : Nat} {agreement : Bytes} {s : State} : MovesOnly [.curg] s (execAgreement t agreement s) :=
  .next (moves_advance.trans moves_takeAgreement)

theorem movesOnly_execAgreementIssue {t : Nat} {s : State} : MovesOnly [.curg, .uane, .coh, .outs] s (execAgreementIssue t s) :=
  .ite (fun _ => .next moves_advance) fun _ => .next (moves_advance.trans moves_issueAgreements)

theorem movesOnly_execAgreementRepeat {t : Nat} {s : State} : MovesOnly [.uane, .coh, .outs] s (execAgreementRepeat t s) :=
  .ite (fun _ => .next (moves_advance.trans moves_repeatAgreements)) fun _ => .next moves_advance

theorem movesOnly_execLease {t : Nat} {lease : Bytes} {s : State} : MovesOnly [.dict, .curg, .seqr, .uane, .coh, .plgn, .outs] s
    (execLease t lease s) :=
  .next (moves_advance.trans moves_lease)

theorem movesOnly_execLeaseExpiry {t : Nat} {s : State} : MovesOnly [.dict, .curg, .seqr, .uane, .coh, .outs] s
    (execLeaseExpiry t s) :=
  .ite (fun _ => .next (moves_advance.trans
    (((moves_takeRole.sub.trans moves_newTerm.sub).trans moves_checkTable.sub).trans moves_sendReports.sub)))
    fun _ => .next moves_advance

theorem movesOnly_execLumaReport {t node : Nat} {report : Bytes} {s : State} : MovesOnly [.coh] s
    (execLumaReport t node report s) :=
  .ite (fun _ => .next (moves_advance.trans moves_takeLuma)) fun _ => .next moves_advance

theorem movesOnly_execLumaSet {t : Nat} {set : Bytes} {s : State} : MovesOnly [.coh] s (execLumaSet t set s) :=
  .next (moves_advance.trans moves_takeSet)

theorem movesOnly_execLumaSetRepeat {t : Nat} {s : State} : MovesOnly [.uane, .coh, .outs] s (execLumaSetRepeat t s) := by
  unfold execLumaSetRepeat
  dsimp only
  split
  · exact .ite (fun _ => .next (moves_advance.trans
      (((moves_modCoh (by decide)).trans moves_uaneSend.sub).trans moves_takeSet.sub))) fun _ => .next moves_advance
  · exact .next moves_advance

/-! ## Rows of frames and of frame memory (Machine/Boundary.lean) -/

theorem moves_clientFailed {port w : Nat} {write : Bool} {s : State} : Moves [.ings, .hbm, .curg, .uane, .plgn] s
    (s.clientFailed port w write) := by
  unfold State.clientFailed
  dsimp only
  refine .ite (fun _ => moves_modHbm (by decide)) fun _ => ?_
  split
  · exact .refl _ _
  · exact .ite (fun _ => moves_modPlArray.sub) fun _ => .ite (fun _ => .refl _ _) fun _ => .ite (fun _ =>
      (moves_modHbm (by decide)).trans moves_findRuns.sub) fun _ => .ite (fun _ => .foldl (fun _ _ => moves_modRx.sub) _ _) fun _ =>
      .ite (fun _ => moves_discardWriting.sub.trans moves_dropFrame.sub) fun _ => .ite
      (fun _ => moves_discardFinishing.sub.trans moves_dropFrame.sub) fun _ => .refl _ _

theorem movesOnly_execHbmReadReturn {t port severity : Nat} {io : HbmTraffic} {s : State}
    : MovesOnly [.ings, .hbm, .curg, .uane, .plgn] s (execHbmReadReturn t port severity io s) := by
  unfold execHbmReadReturn
  dsimp only
  split
  · exact .next ((moves_advance.trans (.trans (.foldl
      (fun _ _ => moves_clientFailed) _ _) moves_hbmTraffic.sub)).trans moves_portLevels.sub)
  · exact .ite (fun _ => .next ((moves_advance.trans (.trans (.foldl
      (fun _ _ => moves_clientFailed) _ _) moves_hbmTraffic.sub)).trans moves_portLevels.sub)) fun _ => .next (((moves_advance.trans
      (.trans (.foldl (fun _ _ => moves_clientFailed) _ _) moves_hbmTraffic.sub)).trans
      ((moves_modHbm (by decide)).trans moves_hbmSeverity.sub)).trans (.ite (fun _ => moves_clientFailed.trans moves_portLevels.sub)
      fun _ => moves_portLevels.sub))

theorem movesOnly_execHbmcReqTimeout {t port chan : Nat} {s : State} : MovesOnly [.ings, .hbm, .curg, .uane, .plgn] s
    (execHbmcReqTimeout t port chan s) := by
  unfold execHbmcReqTimeout
  dsimp only
  split
  · exact .next moves_advance
  · exact .next ((moves_advance.trans (moves_modHbm (by decide))).trans
      ((moves_clientFailed.trans moves_hbmTimeout.sub).trans moves_portLevels.sub))

/-! ## The JTAG port (Machine/Jtag.lean) -/

/-- A PEEK's read moves no part: at most it draws a free value (log entry 104). -/
theorem moves_peekRead {s : State} {a : Nat} : Moves [] s (s.peekRead a).2 := by
  unfold State.peekRead
  dsimp only
  split
  · split
    · exact moves_drawn
    · exact .refl _ _
  · exact .refl _ _
  · exact .refl _ _

theorem moves_peekWrite {a d : Nat} {s : State} : Moves [.hbm, .plgn] s (s.peekWrite a d) := by
  unfold State.peekWrite
  dsimp only
  split
  · exact moves_modHbm (by decide)
  · exact (moves_modHbm (by decide)).trans moves_modPlArray.sub
  · exact .refl _ _

theorem moves_peek {write : Bool} {space a d : Nat} {timely : Bool} {s : State} :
    Moves [.hbm, .plgn, .tap] s (s.peek write space a d timely) :=
  .ite (fun _ => moves_modTap (by decide)) fun _ => .ite
    (fun _ => .ite (fun _ => moves_modTap (by decide)) fun _ => moves_drawn.sub.trans (moves_modTap (by decide)))
    fun _ => .ite (fun _ => moves_peekWrite.sub.trans (moves_modTap (by decide)))
      fun _ => moves_peekRead.sub.trans (moves_modTap (by decide))

theorem moves_tapTake {ir captured : Nat} {s : State} : Moves [.tap] s (s.tapTake ir captured) :=
  moves_modTap (by decide)

theorem movesOnly_execTapReset {t : Nat} {s : State} : MovesOnly [.tap] s (execTapReset t s) :=
  .next (moves_advance.trans (moves_modTap (by decide)))

theorem movesOnly_execIdcode {t : Nat} {s : State} : MovesOnly [.tap] s (execIdcode t s) :=
  .next (moves_advance.trans moves_tapTake)

theorem movesOnly_execExtest {t cells sample : Nat} {s : State} : MovesOnly [.tap, .outs] s (execExtest t cells sample s) :=
  .ite (fun _ => .next (moves_advance.trans moves_tapTake.sub)) fun _ => .next (moves_advance.trans ((moves_tapTake.sub.trans
    (moves_modTap (by decide))).emit))

theorem movesOnly_execSamplePreload {t cells sample : Nat} {s : State} : MovesOnly [.tap] s (execSamplePreload t cells sample s) :=
  .ite (fun _ => .next (moves_advance.trans moves_tapTake)) fun _ => .next (moves_advance.trans (moves_tapTake.trans
    (moves_modTap (by decide))))

theorem movesOnly_execBypass {t opcode : Nat} {s : State} : MovesOnly [.tap] s (execBypass t opcode s) :=
  .next (moves_advance.trans moves_tapTake)

theorem movesOnly_execPeek {t : Nat} {valid write : Bool} {space addr data : Nat} {timely : Bool} {s : State}
    : MovesOnly [.hbm, .plgn, .tap] s (execPeek t valid write space addr data timely s) :=
  .ite (fun _ => .next (moves_advance.trans moves_tapTake.sub)) fun _ => .next ((moves_advance.trans moves_tapTake.sub).trans (.ite
    (fun _ => moves_peek) fun _ => moves_modTap (by decide)))

end Sys2Proof.Machine
end

section
set_option Elab.async false
/-! PROOFS. What the rows of each family leave alone (R87–R140, R195–R251, R273–R412, R426–R472, R494–R551, R616–R622). -/

namespace Sys2Proof.Machine

/-! ## The stored words of the frame memory (R114, R119) -/

/-- The words that the stacks hold are the same. -/
def SameCells (s t : State) : Prop := t.hbm.words = s.hbm.words ∧ t.hbm.raw = s.hbm.raw

theorem SameCells.of_hbm {s t : State} (h : t.hbm = s.hbm) : SameCells s t := ⟨congrArg Hbm.words h, congrArg Hbm.raw h⟩

theorem SameCells.refl (s : State) : SameCells s s := .of_hbm rfl

theorem SameCells.trans {s t u : State} (h : SameCells s t) (k : SameCells t u) : SameCells s u :=
  ⟨k.1.trans h.1, k.2.trans h.2⟩

theorem SameCells.ite {c : Prop} [Decidable c] {s t u : State} (h : c → SameCells s t) (k : ¬c → SameCells s u) :
    SameCells s (if c then t else u) := by
  split
  · exact h ‹_›
  · exact k ‹_›

theorem SameCells.foldl {α : Type} {f : State → α → State} (h : ∀ s a, SameCells s (f s a)) (l : List α) (s : State) :
    SameCells s (l.foldl f s) :=
  List.foldlRecOn (motive := SameCells s) l f (.refl s) fun t ht a _ => ht.trans (h t a)

/-- What leaves the frame memory alone leaves its words alone. -/
theorem Moves.sameCells {ps : List Part} {s t : State} (h : Moves ps s t) (hp : Part.hbm ∉ ps := by decide) : SameCells s t :=
  .of_hbm (h.frame .hbm hp)

theorem SameCells.raise {s t : State} {code inst data : Nat} (h : SameCells s t) : SameCells s (t.raise code inst data) :=
  h.trans (moves_raise (ps := [])).sameCells

theorem SameCells.raiseLimited {s t : State} {rcd : Bool} {code inst data : Nat} (h : SameCells s t) :
    SameCells s (t.raiseLimited rcd code inst data) := h.trans (moves_raiseLimited (ps := [])).sameCells

theorem sameCells_advance {t : Nat} {s : State} : SameCells s (s.advance t) := (moves_advance (ps := [])).sameCells

/-- An update of the controller's own records. -/
theorem sameCells_modHbm {f : Hbm → Hbm} {s : State} (hw : (f s.hbm).words = s.hbm.words := by rfl)
    (hr : (f s.hbm).raw = s.hbm.raw := by rfl) : SameCells s (s.modHbm f) := ⟨hw, hr⟩

theorem sameCells_hbmRetrain {ch : Nat} {s : State} : SameCells s (s.hbmRetrain ch) :=
  .ite (fun _ => .refl s) fun _ => sameCells_modHbm

theorem sameCells_hbmReplay {ch pc kind n : Nat} {onReplay : Bool} {s : State} : SameCells s (s.hbmReplay ch pc kind n onReplay) :=
  (SameCells.raiseLimited sameCells_modHbm).trans (.ite (fun _ => sameCells_hbmRetrain) fun _ => .refl _)

theorem sameCells_hbmTimeout {port ch : Nat} {s : State} : SameCells s (s.hbmTimeout port ch) :=
  (SameCells.raise sameCells_modHbm).trans (.ite (fun _ => sameCells_hbmRetrain) fun _ => .refl _)

theorem sameCells_hbmRetrainDone {ch step : Nat} {ok : Bool} {s : State} : SameCells s (s.hbmRetrainDone ch step ok) :=
  .ite (fun _ => .refl s) fun _ => .ite (fun _ => sameCells_modHbm) fun _ => .raise sameCells_modHbm

theorem sameCells_shadowRow {r : HRow} {s : State} : SameCells s (s.shadowRow r) := by
  refine .ite (fun _ => .refl s) fun _ => ?_
  split
  · exact sameCells_modHbm
  · exact (SameCells.refl s).raise

theorem sameCells_hbmCorrected {a : Nat} {s : State} : SameCells s (s.hbmCorrected a) :=
  .trans sameCells_modHbm (.ite (fun _ => sameCells_shadowRow.raise) fun _ => .refl _)

theorem sameCells_hbmUncorrectable {a : Nat} {s : State} : SameCells s (s.hbmUncorrectable a) :=
  (SameCells.raiseLimited sameCells_modHbm).trans sameCells_shadowRow

/-- An error is counted, and its row may claim a shadow; the cells stay as they are (R127, R128, R132). -/
theorem sameCells_hbmSeverity {a sev : Nat} {s : State} : SameCells s (s.hbmSeverity a sev) := by
  refine .ite (fun _ => .refl s) fun _ => ?_
  split
  · exact .refl s
  · exact sameCells_hbmCorrected
  · exact sameCells_hbmUncorrectable

theorem sameCells_hbmLevels {n level levelW : Nat} {s : State} : SameCells s (s.hbmLevels n level levelW) :=
  .ite (fun _ => .raise sameCells_modHbm) fun _ => sameCells_modHbm

theorem sameCells_portLevels {s : State} : SameCells s s.portLevels :=
  .foldl (fun _ _ => .ite (fun _ => sameCells_hbmLevels) fun _ => .ite (fun _ => sameCells_hbmLevels) fun _ => sameCells_hbmLevels) _ s

/-- A client that is told of a failed word marks its own data, never a cell (R126). -/
theorem sameCells_clientFailed {port w : Nat} {write : Bool} {s : State} : SameCells s (s.clientFailed port w write) := by
  refine .ite (fun _ => sameCells_modHbm) fun _ => ?_
  split
  · exact .refl s
  · exact .ite (fun _ => moves_modPlArray.sameCells) fun _ => .ite (fun _ => .refl s) fun _ =>
      .ite (fun _ => .trans sameCells_modHbm moves_findRuns.sameCells) fun _ =>
        .ite (fun _ => .foldl (fun _ _ => moves_modRx.sameCells) _ s) fun _ =>
          .ite (fun _ => (moves_discardWriting.trans moves_dropFrame).sameCells) fun _ =>
            .ite (fun _ => (moves_discardFinishing.trans moves_dropFrame).sameCells) fun _ => .refl s

theorem overrule_cells (port : Nat) (x : HWord) (h : Hbm) : (h.overrule port x).words = h.words ∧ (h.overrule port x).raw = h.raw := by
  unfold Hbm.overrule
  split <;> exact ⟨rfl, rfl⟩

/-- A request enters its port's FIFO and no cell (R120, R122). -/
theorem enter_cells (now : Nat) (h : Hbm) (r : HbmRequest) : (h.enter now r).words = h.words ∧ (h.enter now r).raw = h.raw := by
  unfold Hbm.enter
  split
  · exact ⟨rfl, rfl⟩
  · refine List.foldlRecOn (motive := fun g : Hbm => g.words = h.words ∧ g.raw = h.raw) _ _ ⟨rfl, rfl⟩ fun g hg x _ => ?_
    split
    · exact hg
    · exact ⟨(overrule_cells ..).1.trans hg.1, (overrule_cells ..).2.trans hg.2⟩

/-- Words that a client takes leave its port's level, and no cell. -/
theorem taken_cells (l : List (Nat × Nat)) (h : Hbm) :
    (l.foldl (fun (h : Hbm) q => if portReads q.1 || q.1 = 7 then
      { h with ports := modAt h.ports q.1 fun p => { p with level := p.level - q.2 } } else h) h).words = h.words ∧
    (l.foldl (fun (h : Hbm) q => if portReads q.1 || q.1 = 7 then
      { h with ports := modAt h.ports q.1 fun p => { p with level := p.level - q.2 } } else h) h).raw = h.raw :=
  List.foldlRecOn (motive := fun g : Hbm => g.words = h.words ∧ g.raw = h.raw) l _ ⟨rfl, rfl⟩ fun g hg x _ => by
    split <;> exact hg

/-- Without a scheduler's turn no word is served, so none is stored. -/
theorem sameCells_hbmTraffic {io : HbmTraffic} (h : io.turns = []) {s : State} : SameCells s (s.hbmTraffic io) := by
  have henter (g : Hbm) : (io.issued.foldl (Hbm.enter s.now) g).words = g.words ∧ (io.issued.foldl (Hbm.enter s.now) g).raw = g.raw :=
    List.foldlRecOn (motive := fun k : Hbm => k.words = g.words ∧ k.raw = g.raw) io.issued _ ⟨rfl, rfl⟩ fun k hk r _ =>
      ⟨(enter_cells s.now k r).1.trans hk.1, (enter_cells s.now k r).2.trans hk.2⟩
  have hgrown : SameCells s s.creditGrow := sameCells_modHbm
  have hissued := hgrown.trans (sameCells_modHbm (f := fun g => io.issued.foldl (Hbm.enter s.now) g) (henter _).1 (henter _).2)
  unfold State.hbmTraffic
  rw [h]
  exact hissued.trans (sameCells_modHbm (taken_cells io.taken _).1 (taken_cells io.taken _).2)

/-! ## Rows of the frame memory (R95–R140) -/

/-- The outcome goes on with the stored words as they were. -/
def StoresNothing (s : State) (o : Host.Outcome State Fault Refusal) : Prop := ∃ w, o = .next w ∧ SameCells s w

theorem StoresNothing.next {s t : State} (h : SameCells s t) : StoresNothing s (.next t) := ⟨t, rfl, h⟩

theorem StoresNothing.ite {c : Prop} [Decidable c] {s : State} {a b : Host.Outcome State Fault Refusal}
    (h : c → StoresNothing s a) (k : ¬c → StoresNothing s b) : StoresNothing s (if c then a else b) := by
  split
  · exact h ‹_›
  · exact k ‹_›

theorem MovesOnly.and_cells {ps : List Part} {s : State} {o : Host.Outcome State Fault Refusal} (h : MovesOnly ps s o)
    (k : StoresNothing s o) : ∃ w, o = .next w ∧ OnlyMoves ps s w ∧ w.hbm.words = s.hbm.words ∧ w.hbm.raw = s.hbm.raw := by
  obtain ⟨w, rfl, hw⟩ := h
  obtain ⟨v, hv, hcells⟩ := k
  obtain rfl : w = v := by simpa using hv
  exact ⟨w, rfl, hw, hcells⟩

theorem storesNothing_rowShadowCopyDone {t a : Nat} {s : State} : StoresNothing s (execRowShadowCopyDone t a s) := by
  unfold execRowShadowCopyDone
  dsimp only
  split
  · exact .ite (fun _ => .next (sameCells_advance.trans (.raise sameCells_modHbm))) fun _ => .next sameCells_advance
  · exact .next sameCells_advance

theorem storesNothing_hbmScrubPass {t a : Nat} {s : State} : StoresNothing s (execHbmScrubPass t a s) :=
  .ite (fun _ => .next ((sameCells_advance.trans sameCells_hbmSeverity).trans sameCells_modHbm)) fun _ => .next sameCells_advance

theorem storesNothing_hbmDriftTrack {t a : Nat} {look : DriftLook} {s : State} : StoresNothing s (execHbmDriftTrack t a look s) :=
  .ite (fun _ => .next (sameCells_advance.trans sameCells_modHbm)) fun _ => .next sameCells_advance

theorem storesNothing_hbmStackTempRead {t a : Nat} {i : Int} {s : State} : StoresNothing s (execHbmStackTempRead t a i s) :=
  .next (sameCells_advance.trans (.ite (fun _ => sameCells_modHbm) fun _ => .raise sameCells_modHbm))

theorem storesNothing_hbmcReqTimeout {t port chan : Nat} {s : State} : StoresNothing s (execHbmcReqTimeout t port chan s) := by
  unfold execHbmcReqTimeout
  dsimp only
  split
  · exact .next sameCells_advance
  · exact .next (.trans (.trans (.trans (sameCells_advance.trans sameCells_modHbm) sameCells_clientFailed) sameCells_hbmTimeout)
      sameCells_portLevels)

theorem storesNothing_hbmReadReturn {t port severity : Nat} {io : HbmTraffic} (h : io.turns = []) {s : State} :
    StoresNothing s (execHbmReadReturn t port severity io s) := by
  have htraffic := (sameCells_advance (t := t) (s := s)).trans ((SameCells.foldl
    (f := fun (s : State) q => s.clientFailed q.1 q.2.1 q.2.2) (fun _ _ => sameCells_clientFailed)
    ((s.advance t).hbm.turnedAway io) (s.advance t)).trans (sameCells_hbmTraffic h))
  unfold execHbmReadReturn
  dsimp only
  split
  · exact .next (htraffic.trans sameCells_portLevels)
  · exact .ite (fun _ => .next (htraffic.trans sameCells_portLevels)) fun _ => .next ((htraffic.trans (.trans sameCells_modHbm
      sameCells_hbmSeverity)).trans (.ite (fun _ => sameCells_clientFailed.trans sameCells_portLevels) fun _ => sameCells_portLevels))

/-- Settles O29: each row's frame, and no update of a row stores a word. -/
theorem frameMemoryFrame : Obligations.FrameMemoryFrame := by
  intro s t a b c d i f look io
  refine ⟨?_, movesOnly_execHbmcReqTimeout.sub.and_cells storesNothing_hbmcReqTimeout, ?_⟩
  · simp only [List.forall_mem_cons]
    exact ⟨movesOnly_execRowShadowCopyDone.and_cells storesNothing_rowShadowCopyDone,
      movesOnly_execHbmcParityReplay.and_cells (.next (sameCells_advance.trans sameCells_hbmReplay)),
      movesOnly_execHbmRetrainDone.and_cells (.next (sameCells_advance.trans sameCells_hbmRetrainDone)),
      movesOnly_execHbmScrubPass.and_cells storesNothing_hbmScrubPass,
      movesOnly_execHbmDriftTrack.and_cells storesNothing_hbmDriftTrack,
      movesOnly_execHbmRefresh.and_cells (.next (sameCells_advance.trans sameCells_modHbm)),
      movesOnly_execHbmStackTempRead.and_cells storesNothing_hbmStackTempRead,
      movesOnly_execHbmRowTrackerExpiry.and_cells (.next (sameCells_advance.trans sameCells_modHbm)), List.forall_mem_nil _⟩
  · obtain ⟨w, hw, hmoves⟩ : MovesOnly [.hbm, .plgn, .curg, .uane, .ings] s (exec (.hbmReadReturn t a b io) s) :=
      movesOnly_execHbmReadReturn.sub
    refine ⟨w, hw, hmoves, fun h => ?_⟩
    obtain ⟨v, hv, hcells⟩ : StoresNothing s (exec (.hbmReadReturn t a b io) s) := storesNothing_hbmReadReturn h
    obtain rfl : w = v := by simpa [hw] using hv
    exact hcells

/-! ## Rows of video ingest, of the arrays and of the wheels -/

/-- Settles O30: each row's frame. -/
theorem ingestFrame : Obligations.IngestFrame := by
  intro s t n a b fmt bs ls ok
  simp only [List.forall_mem_cons]
  exact ⟨movesOnly_execIngsLinkUp.sub, movesOnly_execDpSymbolLockLost.sub, movesOnly_execDpRetrainTimeout.sub,
    movesOnly_execIngsFormatChange.sub, movesOnly_execCurrencySdp.sub, movesOnly_execDpFrameStart.sub,
    movesOnly_execDpLineReceived.sub, movesOnly_execLineWriteAccepted.sub, movesOnly_execDpFrameEnd.sub,
    movesOnly_execStaticCopyComplete.sub, movesOnly_execDpLinkTrainingFail.sub, movesOnly_execHpdReassert.sub,
    List.forall_mem_nil _⟩

/-- Settles O31: each row's frame. -/
theorem arrayFrame : Obligations.ArrayFrame := by
  intro s t ap g a b f h bs found late
  simp only [List.forall_mem_cons]
  exact ⟨movesOnly_execBlockLoadWindow.sub, movesOnly_execEpochClear.sub, movesOnly_execGlobalReset.sub,
    movesOnly_execSlotReset.sub, movesOnly_execScheduleDelivery.sub, movesOnly_execCompileDeadline.sub,
    movesOnly_execPlgnPlaneLate.sub, movesOnly_execKeepaliveSend.sub, movesOnly_execArrayTraining.sub, movesOnly_execAck.sub,
    movesOnly_execStatus.sub, movesOnly_execRegData.sub, movesOnly_execEcho.sub, movesOnly_execFault.sub,
    movesOnly_execLaneSwapSend.sub, movesOnly_execLaneSwapCodeword.sub, movesOnly_execArcdAckTimeout.sub,
    movesOnly_execArcdReturnSilent.sub, List.forall_mem_nil _⟩

/-- Settles O33: each row's frame. -/
theorem wheelFrame : Obligations.WheelFrame := by
  intro s t n a b i f
  simp only [List.forall_mem_cons]
  exact ⟨movesOnly_execWheelRun.sub, movesOnly_execWheelStop.sub, movesOnly_execWhelCatch.sub, movesOnly_execAlignEnd.sub,
    movesOnly_execOpenLoopHandover.sub, movesOnly_execWhelStartFail.sub, movesOnly_execWheelLocked.sub,
    movesOnly_execZeroCrossing.sub, movesOnly_execPwmPeriodSample.sub, movesOnly_execWheelFaultInput.sub,
    movesOnly_execIndexEdge.sub, movesOnly_execIndexMissing.sub, movesOnly_execWhelLockLost.sub,
    movesOnly_execWheelRecoveryTimeout.sub, movesOnly_execWheelStandstill.sub, movesOnly_execWheelCoastTimeout.sub,
    movesOnly_execWheelMarkPass.sub, movesOnly_execSeqrWheelPhase.sub, List.forall_mem_nil _⟩

/-! ## Rows of the light loop: the interlocks stay (R373, R374) -/

/-- The kill latch and the interlock inputs are the same. -/
def SameInterlocks (s t : State) : Prop :=
  t.lamp.latch = s.lamp.latch ∧ t.lamp.intlkA = s.lamp.intlkA ∧ t.lamp.intlkB = s.lamp.intlkB

theorem SameInterlocks.refl (s : State) : SameInterlocks s s := ⟨rfl, rfl, rfl⟩

theorem SameInterlocks.trans {s t u : State} (h : SameInterlocks s t) (k : SameInterlocks t u) : SameInterlocks s u := by
  obtain ⟨h1, h2, h3⟩ := h
  obtain ⟨k1, k2, k3⟩ := k
  exact ⟨k1.trans h1, k2.trans h2, k3.trans h3⟩

theorem SameInterlocks.foldl {α : Type} {f : State → α → State} (h : ∀ s a, SameInterlocks s (f s a)) (l : List α) (s : State) :
    SameInterlocks s (l.foldl f s) :=
  List.foldlRecOn (motive := SameInterlocks s) l f (.refl s) fun t ht a _ => ht.trans (h t a)

/-- What leaves the lamp link and sensing alone leaves the interlocks alone. -/
theorem Moves.sameInterlocks {ps : List Part} {s t : State} (h : Moves ps s t) (hp : Part.lamp ∉ ps := by decide) :
    SameInterlocks s t := by
  have hlamp : t.lamp = s.lamp := h.frame .lamp hp
  exact ⟨congrArg Lamp.latch hlamp, congrArg Lamp.intlkA hlamp, congrArg Lamp.intlkB hlamp⟩

theorem sameInterlocks_fastMean {c n : Nat} {w : Int × Bool} {s : State} : SameInterlocks s (s.fastMean c n w).1 := by
  unfold State.fastMean
  dsimp only
  split
  · exact .trans (t := s.modLamp _) ⟨rfl, rfl, rfl⟩ (moves_raiseLimited (ps := [])).sameInterlocks
  · exact .refl s

theorem sameInterlocks_fastWindow {c : Nat} {w : Int × Bool} {s : State} : SameInterlocks s (s.fastWindow c w).1 := by
  have hmean : SameInterlocks s (s.fastMean c (s.num 0xC006 / 40) w).1 := sameInterlocks_fastMean
  unfold State.fastWindow
  split
  next s1 m h =>
    rw [h] at hmean
    exact hmean.trans ⟨rfl, rfl, rfl⟩
  · exact hmean

theorem sameInterlocks_meansBy {f : Nat → Int × Bool → State → State × Option Int} (hf : ∀ c w s, SameInterlocks s (f c w s).1)
    (sums : List (Int × Bool)) (s : State) : SameInterlocks s (s.meansBy f sums).1 := by
  refine List.foldlRecOn (motive := fun p : State × List (Option Int) => SameInterlocks s p.1) (upTo 8) _ (.refl s) fun p hp c _ => ?_
  split
  · exact hp
  · exact hp.trans (hf ..)

theorem sameInterlocks_learnOffsets {sums : List (Int × Bool)} {s : State} : SameInterlocks s (s.learnOffsets sums) := by
  refine .foldl (fun s c => ?_) (upTo 8) s
  split
  · split
    · exact ⟨rfl, rfl, rfl⟩
    · exact .refl s
  · exact .refl s

theorem sameInterlocks_loopTick {sums : List (Int × Bool)} {s : State} : SameInterlocks s (s.loopTick sums) := by
  have hsensed := (sameInterlocks_meansBy (f := State.fastWindow) (fun _ _ _ => sameInterlocks_fastWindow) sums s).trans
    (sameInterlocks_learnOffsets (sums := sums))
  unfold State.loopTick
  generalize s.meansBy State.fastWindow sums = m at hsensed ⊢
  dsimp only
  split
  · exact .refl s
  · exact hsensed.trans (Moves.sameInterlocks (ps := [.loop, .coh]) (.trans (.trans (.trans (.trans
      (moves_modLoop (by decide)) (.foldl (fun _ _ => moves_bandTick.sub) _ _)) moves_shiftStrings.sub)
      (.foldl (fun _ _ => moves_pilotTick.sub) _ _)) (.foldl (fun _ _ => moves_traceTick.sub) _ _)))

theorem sameInterlocks_pipWindow {g : Nat} {sums : List (Int × Bool)} {s : State} : SameInterlocks s (s.pipWindow g sums) := by
  have hsensed := sameInterlocks_meansBy (f := fun c => State.fastMean c 50) (fun _ _ _ => sameInterlocks_fastMean) sums s
  unfold State.pipWindow
  generalize s.meansBy (fun c => State.fastMean c 50) sums = m at hsensed ⊢
  dsimp only
  split
  · exact .refl s
  · refine hsensed.trans (Moves.sameInterlocks (ps := [.loop, .coh]) (.trans (.foldl (fun _ _ => ?_) _ _)
      (moves_modLoop (by decide))))
    refine .ite (fun _ => .refl _ _) fun _ => ?_
    split
    · exact moves_pipBand.sub.trans moves_modSweepBand.sub
    · exact moves_pipBand.sub

/-- Settles O32: each row's frame, and what sensing learns leaves the latch and the inputs. -/
theorem loopFrame : Obligations.LoopFrame := by
  intro s t b sums
  constructor
  · simp only [List.forall_mem_cons]
    exact ⟨movesOnly_execBandEstimateLatch.sub, movesOnly_execLoopFeedbackLost.sub, movesOnly_execLoopImplausible.sub,
      movesOnly_execBandFrozen.sub, movesOnly_execBandClose.sub, movesOnly_execWarmRampComplete.sub, movesOnly_execCalFreeze.sub,
      movesOnly_execPilotRunEnd.sub, movesOnly_execTraceTrigger.sub, movesOnly_execLoopTraceDone.sub, List.forall_mem_nil _⟩
  · have hadvance : SameInterlocks s (s.advance t) := (moves_advance (ps := [])).sameInterlocks
    simp only [List.forall_mem_cons]
    exact ⟨⟨_, rfl, (moves_advance.trans moves_loopTick).sub.frame, hadvance.trans sameInterlocks_loopTick⟩,
      ⟨_, rfl, (moves_advance.trans moves_pipWindow).sub.frame, hadvance.trans sameInterlocks_pipWindow⟩,
      List.forall_mem_nil _⟩

/-! ## Rows of the wall, of the service port and of the lamps -/

/-- Settles O34: each row's frame. -/
theorem fabricAndWallFrame : Obligations.FabricAndWallFrame := by
  intro s t n a f bs ser msg
  refine ⟨?_, ?_, movesOnly_execLease.sub⟩
  · simp only [List.forall_mem_cons]
    exact ⟨movesOnly_execHello.sub, movesOnly_execHelloSend.sub, movesOnly_execHelloTimeout.sub, movesOnly_execTopo.sub,
      movesOnly_execTopoSend.sub, movesOnly_execTopoStale.sub, movesOnly_execTimeSend.sub, movesOnly_execVoteReport.sub,
      movesOnly_execAgreement.sub, movesOnly_execAgreementIssue.sub, movesOnly_execAgreementRepeat.sub,
      movesOnly_execLeaseExpiry.sub, movesOnly_execLumaReport.sub, movesOnly_execLumaSet.sub, movesOnly_execLumaSetRepeat.sub,
      movesOnly_execPrepare.sub, movesOnly_execReady.sub, movesOnly_execRefused.sub, movesOnly_execGo.sub,
      movesOnly_execCommitAck.sub, movesOnly_execAbort.sub, movesOnly_execPrepareRepeat.sub, movesOnly_execGoRepeat.sub,
      movesOnly_execWallJoinTimeout.sub, movesOnly_execWallJoinExpiry.sub, movesOnly_execSeqrWallCommit.sub,
      movesOnly_execSweepStep.sub, movesOnly_execSweepResult.sub, movesOnly_execSweepCollect.sub, movesOnly_execSweepEnd.sub,
      movesOnly_execSweepStepTimeout.sub, movesOnly_execMgmtSweep.sub, List.forall_mem_nil _⟩
  · simp only [List.forall_mem_cons]
    exact ⟨movesOnly_execUaneTime.sub, movesOnly_execPtpMessage.sub, List.forall_mem_nil _⟩

/-- Settles O35: each instruction's frame. -/
theorem servicePortFrame : Obligations.ServicePortFrame := by
  intro s t a b c f g h
  refine ⟨?_, movesOnly_execExtest.sub, movesOnly_execPeek.sub⟩
  simp only [List.forall_mem_cons]
  exact ⟨movesOnly_execTapReset.sub, movesOnly_execIdcode.sub, movesOnly_execSamplePreload.sub, movesOnly_execBypass.sub,
    List.forall_mem_nil _⟩

/-- Settles O36: each row's frame. (The model's own `lampFrame` makes a frame's bytes.) -/
theorem Frames.lampFrame : Obligations.LampFrame := by
  intro s t n a b c d bs regs
  simp only [List.forall_mem_cons]
  exact ⟨movesOnly_execApplyLaunch.sub, movesOnly_execSetSend.sub, movesOnly_execStatusFrameSend.sub,
    movesOnly_execLampFrameReturn.sub, movesOnly_execLampDriverLost.sub, movesOnly_execLampChainDown.sub,
    movesOnly_execChainEnumerate.sub, movesOnly_execLampIntlkDiscrepancy.sub, movesOnly_execLampSensorLost.sub,
    movesOnly_execLampRail.sub, movesOnly_execInterlockClose.sub, List.forall_mem_nil _⟩

/-! ## Rows of clocks, thermal management and wear -/

/-- Outside steps 1 and 2 the boot does not move on (R554). -/
theorem bootOn_idle {s : State} (h1 : s.mews.bootStep ≠ 1) (h2 : s.mews.bootStep ≠ 2) : s.bootOn = s := by
  simp [State.bootOn, h1, h2]

/-- Settles O37: each row's frame; a conversion outside steps 1 and 2 does not move the boot on. -/
theorem clockAndThermalFrame : Obligations.ClockAndThermalFrame := by
  intro s t n a b c i f is bs
  refine ⟨fun h1 h2 => ?_, ?_, ?_, ?_, movesOnly_execClksRefLost.sub, ?_⟩
  · have hidle : ((s.advance t).dieConvert is).bootOn = (s.advance t).dieConvert is := bootOn_idle h1 h2
    exact ⟨_, congrArg Host.Outcome.next hidle, (moves_advance.trans moves_dieConvert).frame⟩
  all_goals simp only [List.forall_mem_cons]
  · exact ⟨movesOnly_execMewsThermalWarn.sub, movesOnly_execMewsThermalThrottle.sub, movesOnly_execThrottleInterval.sub,
      movesOnly_execLampThrottleInterval.sub, List.forall_mem_nil _⟩
  · exact ⟨movesOnly_execRcTrimUpdate.sub, movesOnly_execCrystalCheck.sub, movesOnly_execCrystalEdgeTimeout.sub,
      List.forall_mem_nil _⟩
  · exact ⟨movesOnly_execClksBandMiss.sub, movesOnly_execClksLockLost.sub, movesOnly_execDomainGate.sub, List.forall_mem_nil _⟩
  · exact ⟨movesOnly_execMewsWear.sub, movesOnly_execLane.sub, movesOnly_execArcdLaneSpared.sub,
      movesOnly_execBankSwapMirrored.sub, movesOnly_execSpareRejectRecheck.sub, movesOnly_execClksSpared.sub,
      movesOnly_execClksHoldoverLimit.sub, movesOnly_execSynthesiserSearchFailed.sub, List.forall_mem_nil _⟩

end Sys2Proof.Machine
end

section
set_option Elab.async false
/-! PROOFS. Unit records (R34, R603) and the device state (R31, R373). -/

namespace Sys2Proof.Machine

/-! ## Unit records (R34, R603) -/

/-- A map over the values of a finite map. -/
theorem mapGet_map {α : Type} {f : Nat × α → Nat × α} (hf : ∀ p, (f p).1 = p.1) (m : List (Nat × α)) (k : Nat) :
    mapGet (m.map f) k = (mapGet m k).map fun a => (f (k, a)).2 := by
  induction m with
  | nil => rfl
  | cons p m ih =>
    obtain ⟨j, a⟩ := p
    have hkey : f (j, a) = (j, (f (j, a)).2) := Prod.ext (hf (j, a)) rfl
    rw [List.map_cons, hkey]
    unfold mapGet
    split
    next h => subst h; rfl
    · exact ih

/-- The unit has a record. -/
def State.HasUnit (s : State) (w : Nat) : Prop := (mapGet s.units w).isSome = true

theorem mapGet_modUnit (w : Nat) (f : UnitRec → UnitRec) (s : State) (k : Nat) :
    mapGet (s.modUnit w f).units k = (mapGet s.units k).map fun u => if k = w then f u else u := by
  have h := mapGet_map (f := fun p : Nat × UnitRec => if p.1 = w then (w, f p.2) else p)
    (fun p => by split <;> simp_all) s.units k
  refine h.trans (congrArg (Option.map · _) (funext fun u => ?_))
  dsimp only
  split <;> rfl

theorem unitRec_modUnit_self {w : Nat} {f : UnitRec → UnitRec} {s : State} (h : s.HasUnit w) :
    (s.modUnit w f).unitRec w = f (s.unitRec w) := by
  obtain ⟨u, hu⟩ := Option.isSome_iff_exists.mp h
  simp [State.unitRec, mapGet_modUnit, hu]

theorem unitRec_modUnit_ne {w k : Nat} {f : UnitRec → UnitRec} {s : State} (h : k ≠ w) :
    (s.modUnit w f).unitRec k = s.unitRec k := by
  simp [State.unitRec, mapGet_modUnit, h]

theorem obs_setObs_self {w v : Nat} {s : State} (h : s.HasUnit w) : (s.setObs w v).obs w = v := by
  unfold State.setObs
  split
  · assumption
  · simp only [State.obs, unitRec_modUnit_self h]

theorem obs_setObs_ne {w v k : Nat} {s : State} (h : k ≠ w) : (s.setObs w v).obs k = s.obs k := by
  unfold State.setObs
  split
  · rfl
  · simp only [State.obs, unitRec_modUnit_ne h]

theorem Moves.obs {ps : List Part} {s t : State} (h : Moves ps s t) (hp : Part.units ∉ ps := by decide) (w : Nat) :
    t.obs w = s.obs w := by
  have hunits : t.units = s.units := h.frame .units hp
  simp only [State.obs, State.unitRec, hunits]

theorem Moves.hasUnit {ps : List Part} {s t : State} (h : Moves ps s t) (hp : Part.units ∉ ps := by decide) (w : Nat) :
    t.HasUnit w ↔ s.HasUnit w := by
  have hunits : t.units = s.units := h.frame .units hp
  simp only [State.HasUnit, hunits]

/-! ## The device state (R31) -/

/-- No entry to a device state moves the state that the Mews holds: `setDev` hands the state with the new one to `recommand` as the
old state, and goes on from the one without it. -/
theorem setDev_dev (d : DevState) (s : State) : (s.setDev d).mews.dev = s.mews.dev := by
  have hmews : (s.setDev d).mews = s.mews := moves_setDev.frame .mews (by decide)
  exact congrArg Mews.dev hmews

theorem goDark_dev (s : State) : s.goDark.mews.dev = s.mews.dev := by
  obtain ⟨t, ht, hmoves⟩ := goDark_eq s
  have hmews : t.mews = s.mews := hmoves.frame .mews (by decide)
  have hdev : t.mews.dev = s.mews.dev := congrArg Mews.dev hmews
  rw [ht]
  exact hdev

theorem wheelsSafe_dev (s : State) :
    ((upTo 2).foldl (fun (s : State) n => if s.fitted n then s.wheelSafe n else s) s).mews.dev = s.mews.dev := by
  refine List.foldlRecOn (motive := fun t : State => t.mews.dev = s.mews.dev) (upTo 2) _ rfl fun t ht n _ => ?_
  split
  · have hmews : (t.wheelSafe n).mews = t.mews := moves_wheelSafe.frame .mews (by decide)
    rw [hmews, ht]
  · exact ht

/-- The entry to SAFE marks its cause and goes dark, and the device state stays what it was. -/
theorem enterSafe_dev (cause : Nat) (s : State) : (s.enterSafe cause).mews.dev = s.mews.dev := by
  have hdue (t : State) (h : t.mews.dev = s.mews.dev) (f : Mews → Mews) (hf : ∀ m, (f m).dev = m.dev) :
      (if (decide (cause = 2) || decide (cause = 3)) = true then t.modMews f else t).mews.dev = s.mews.dev := by
    split
    · exact (hf _).trans h
    · exact h
  unfold State.enterSafe
  dsimp only
  split
  · rfl
  · split
    · rfl
    · split
      · refine hdue _ ?_ _ fun _ => rfl
        split <;> rfl
      · refine hdue _ ?_ _ fun _ => rfl
        rw [wheelsSafe_dev, goDark_dev]
        split
        · exact setDev_dev _ (s.modMews _)
        · exact setDev_dev _ (s.modMews _)

/-- STANDBY with the die released and both interlocks closed. -/
def lockedStandby : State := (State.reset.modMews fun m => { m with dev := .standby, held := false }).modLamp fun l =>
  { l with intlkA := true, intlkB := true }

/-- Refutes O56: in STANDBY with both interlocks closed, input A falls and the device state stays STANDBY. -/
theorem not_interlocksEndInSafe : ¬ Obligations.InterlocksEndInSafe := by
  intro h
  obtain ⟨w, hw, hsafe, _⟩ := h lockedStandby (lockedStandby.advance 0) 0 0 rfl rfl (.inr rfl) (fun _ => rfl) (fun _ => rfl)
  have hdev : w.mews.dev = .standby := by
    obtain rfl : (((((lockedStandby.advance 0).intlkLevel false false).modLamp fun l => { l with
      intlkCount := (l.intlkCount + 1) % 2 ^ 32 }).raise 0xE0 0 1).killPath 0).enterSafe 1 = w := Host.Outcome.next.inj hw
    have hkill (s : State) : (s.killPath 0).mews = s.mews := (moves_killPath (b := 0) (s := s)).frame .mews (by decide)
    have hraise (s : State) : (s.raise 0xE0 0 1).mews = s.mews := (moves_raise (ps := []) (s := s)).frame .mews (by decide)
    rw [enterSafe_dev, hkill, hraise]
    rfl
  rw [hdev] at hsafe
  cases hsafe

end Sys2Proof.Machine
end

section
set_option Elab.async false
/-! PROOFS. The dictionary reads back what was written (R9, R44, R47), and the address map is one-to-one (R116). -/

namespace Sys2Proof.Machine

/-! ## Sparse maps -/

/-- What a key reads as after an erasure. -/
theorem mapGet_erase {α : Type} (m : List (Nat × α)) (k j : Nat) (h : mapRising m = true) :
    mapGet (mapErase m k) j = if j = k then none else mapGet m j := by
  rw [mapRising_iff] at h
  induction m with
  | nil => simp [mapErase, mapGet]
  | cons b m ih =>
    obtain ⟨i, x⟩ := b
    obtain ⟨habove, hrest⟩ := List.pairwise_cons.mp h
    by_cases hik : i = k
    · subst hik
      have habsent : mapGet m i = none := by
        clear ih h hrest
        induction m with
        | nil => rfl
        | cons c m ih =>
          obtain ⟨hc, hm⟩ := List.forall_mem_cons.mp habove
          exact (if_neg (Nat.ne_of_gt hc)).trans (ih hm)
      by_cases hj : i = j
      · subst hj
        simp [mapErase, habsent]
      · simp [mapErase, mapGet, hj, Ne.symm hj]
    · by_cases hj : i = j
      · subst hj
        simp [mapErase, mapGet, hik]
      · simp [mapErase, mapGet, hik, hj, ih hrest]

/-- What a key reads as after a canonical write, where an unlisted key reads as the default. -/
theorem getD_mapSet {α : Type} [DecidableEq α] {d e a : α} {m : List (Nat × α)} {k j : Nat} (h : mapRising m = true)
    (he : j = k → e = d) : (mapGet (mapSet d m k a) j).getD e = if j = k then a else (mapGet m j).getD e := by
  unfold mapSet
  split
  next ha =>
    rw [mapGet_erase m k j h]
    split
    next hj => exact (he hj).trans ha.symm
    · rfl
  · rw [mapGet_put m k j a h]
    split <;> rfl

/-! ## The dictionary -/

theorem okey_inj {obj sub obj' sub' : Nat} (h : sub < 256) (h' : sub' < 256) :
    okey obj' sub' = okey obj sub ↔ obj' = obj ∧ sub' = sub := by
  unfold okey
  omega

/-- Every object and subindex after a write of one. -/
theorem get_setVal {s : State} {obj sub obj' sub' : Nat} {v : Val} (hs : mapRising s.dict.vals = true) (h : sub < 256)
    (h' : sub' < 256) :
    (s.setVal obj sub v).dict.get obj' sub' = if obj' = obj ∧ sub' = sub then v else s.dict.get obj' sub' := by
  refine (getD_mapSet hs fun hk => ?_).trans (if_congr (okey_inj h h') rfl rfl)
  obtain ⟨rfl, rfl⟩ := (okey_inj h h').mp hk
  rfl

/-- Settles O46: a canonical write changes one key. -/
theorem dictionaryReadsBack : Obligations.DictionaryReadsBack := by
  intro s obj sub n obj' sub' hs hn hsub hsub'
  have hget : (s.setNum obj sub n).dict.get obj' sub' = _ := get_setVal (v := nv n) hs hsub hsub'
  unfold State.num
  rw [hget]
  split
  · exact (BitVec.toNat_ofNat n 64).trans (Nat.mod_eq_of_lt hn)
  · rfl

/-! ## The address map -/

theorem fold6_lt (n t : Nat) : fold6 n t < 2 ^ 6 := by
  induction n generalizing t with
  | zero => exact Nat.two_pow_pos 6
  | succ n ih =>
    unfold fold6
    split
    · exact Nat.two_pow_pos 6
    · exact Nat.xor_lt_two_pow (Nat.mod_lt t (by decide)) (ih _)

theorem addrMap_channel_lt (grain a : Nat) : (addrMap grain a).1 < 64 :=
  Nat.xor_lt_two_pow (n := 6) (Nat.mod_lt _ (by decide)) (fold6_lt ..)

/-- Within a pool, channel and local address give the offset back. -/
theorem pool_offset_inj {g x y : Nat}
    (hp : (x >>> g % 64) ^^^ fold6 12 (x >>> g >>> 6) = (y >>> g % 64) ^^^ fold6 12 (y >>> g >>> 6))
    (hl : (x >>> g >>> 6) <<< g + x % 2 ^ g = (y >>> g >>> 6) <<< g + y % 2 ^ g) : x = y := by
  have hpos : 0 < 2 ^ g := Nat.two_pow_pos g
  simp only [Nat.shiftLeft_eq] at hl
  have hlow : x % 2 ^ g = y % 2 ^ g := by
    have h := congrArg (· % 2 ^ g) hl
    simpa [Nat.mul_add_mod_self_right, Nat.add_mod] using h
  have hhigh : x >>> g >>> 6 = y >>> g >>> 6 := by
    rw [hlow] at hl
    exact Nat.eq_of_mul_eq_mul_right hpos (Nat.add_right_cancel hl)
  have hmid : x >>> g % 64 = y >>> g % 64 := by
    rw [hhigh] at hp
    exact Nat.xor_left_injective hp
  have hblock : x >>> g = y >>> g := by
    have hx := Nat.div_add_mod (x >>> g) 64
    have hy := Nat.div_add_mod (y >>> g) 64
    simp only [Nat.shiftRight_eq_div_pow _ 6] at hhigh
    omega
  calc x = 2 ^ g * (x / 2 ^ g) + x % 2 ^ g := (Nat.div_add_mod x _).symm
    _ = 2 ^ g * (y / 2 ^ g) + y % 2 ^ g := by rw [← Nat.shiftRight_eq_div_pow, hblock, Nat.shiftRight_eq_div_pow, hlow]
    _ = y := Nat.div_add_mod y _

/-- The fixed pool takes the low local addresses, and no others do. -/
theorem addrMap_local_lt_iff (grain a : Nat) : (addrMap grain a).2 < 67108864 ↔ a < 0x100000000 := by
  unfold addrMap poolGrain
  by_cases h : a < 0x100000000
  · simp only [h, decide_true, if_true, iff_true, Nat.shiftLeft_eq, Nat.shiftRight_eq_div_pow]
    omega
  · simp [h]

/-- Settles O48: the local address tells the pool, and within a pool the map gives the address back. -/
theorem addressMapIsOneToOne : Obligations.AddressMapIsOneToOne := by
  refine fun grain a b _ _ => ⟨fun h => ?_, addrMap_channel_lt grain a⟩
  have hpool : a < 0x100000000 ↔ b < 0x100000000 := by rw [← addrMap_local_lt_iff grain a, h, addrMap_local_lt_iff]
  unfold addrMap poolGrain at h
  by_cases ha : a < 0x100000000
  · have hb := hpool.mp ha
    simp only [ha, hb, decide_true, if_true, Prod.mk.injEq] at h
    exact pool_offset_inj h.1 h.2
  · have hb := mt hpool.mpr ha
    simp only [ha, hb, decide_false, if_false, Prod.mk.injEq, Bool.false_eq_true, Nat.add_left_cancel_iff] at h
    have hoff := pool_offset_inj h.1 h.2
    omega

end Sys2Proof.Machine
end

section
set_option Elab.async false
/-! PROOFS. A pixel written to a buffer reads back, from its row or the row's shadow (R94, R99, R116, R117, R128, R132). -/

namespace Sys2Proof.Machine

/-! ## Pixels of a word (R94) -/

theorem pixelAt_testBit (w : MemWord) (j i : Nat) : (pixelAt w j).testBit i = (decide (i < 36) && w.toNat.testBit (36 * j + i)) := by
  rw [pixelAt, Nat.testBit_mod_two_pow, Nat.testBit_shiftRight]

theorem pixelAt_lt (w : MemWord) (k : Nat) : pixelAt w k < 2 ^ 36 := Nat.mod_lt _ (Nat.two_pow_pos 36)

/-- The lower 252 bits of a word around pixel `k`. -/
theorem exists_around_pixel (w : MemWord) {k : Nat} (hk : k < 7) : ∃ hi lo, hi < 2 ^ (216 - 36 * k) ∧ lo < 2 ^ (36 * k) ∧
    w.toNat % 2 ^ 252 = 2 ^ (36 * k) * (2 ^ 36 * hi + pixelAt w k) + lo := by
  obtain ⟨v, hv⟩ : ∃ v, v = w.toNat % 2 ^ 252 := ⟨_, rfl⟩
  have hvlt : v < 2 ^ 252 := hv ▸ Nat.mod_lt _ (Nat.two_pow_pos _)
  have hpixel : pixelAt w k = v / 2 ^ (36 * k) % 2 ^ 36 := by
    refine Nat.eq_of_testBit_eq fun i => ?_
    rw [pixelAt_testBit, Nat.testBit_mod_two_pow, Nat.testBit_div_two_pow, hv, Nat.testBit_mod_two_pow]
    by_cases hi : i < 36
    · rw [decide_eq_true (show i + 36 * k < 252 by omega), Nat.add_comm, Bool.true_and]
    · rw [decide_eq_false hi, Bool.false_and, Bool.false_and]
  refine ⟨v / 2 ^ (36 * k) / 2 ^ 36, v % 2 ^ (36 * k), ?_, Nat.mod_lt _ (Nat.two_pow_pos _), ?_⟩
  · rw [Nat.div_div_eq_div_mul, ← pow_add]
    refine Nat.div_lt_of_lt_mul ?_
    rwa [← pow_add, show 36 * k + 36 + (216 - 36 * k) = 252 by omega]
  · rw [hpixel, Nat.div_add_mod (v / 2 ^ (36 * k)), Nat.div_add_mod, hv]

/-- A word with pixel `k` and the nibble replaced, between the bits around the pixel. -/
theorem withPixel_toNat {w : MemWord} {k px epoch hi lo : Nat} (hk : k < 7) (hpx : px < 2 ^ 36) (he : epoch < 16)
    (hhi : hi < 2 ^ (216 - 36 * k)) (hlo : lo < 2 ^ (36 * k))
    (hw : w.toNat % 2 ^ 252 = 2 ^ (36 * k) * (2 ^ 36 * hi + pixelAt w k) + lo) :
    (withPixel w k px epoch).toNat = 2 ^ (36 * k) * (2 ^ 36 * (2 ^ (216 - 36 * k) * epoch + hi) + px) + lo := by
  have hpow : 2 ^ 252 = 2 ^ (36 * k) * (2 ^ 36 * 2 ^ (216 - 36 * k)) := by
    rw [← pow_add, ← pow_add, show 36 * k + (36 + (216 - 36 * k)) = 252 by omega]
  have htop : 2 ^ 256 = 2 ^ (36 * k) * (2 ^ 36 * (2 ^ (216 - 36 * k) * 16)) := by
    calc 2 ^ 256 = 2 ^ 252 * 16 := by norm_num
      _ = _ := by rw [hpow]; ring
  have hcut : w.toNat % 2 ^ 252 - pixelAt w k * 2 ^ (36 * k) = 2 ^ (36 * k) * (2 ^ 36 * hi) + lo := by
    rw [hw]
    refine Nat.sub_eq_of_eq_add ?_
    ring
  unfold withPixel
  rw [BitVec.toNat_ofNat, hcut, Nat.mod_eq_of_lt hpx, Nat.mod_eq_of_lt he, hpow, htop]
  generalize 2 ^ (36 * k) = low at hlo ⊢
  generalize 2 ^ (216 - 36 * k) = high at hhi ⊢
  have hsum : low * (2 ^ 36 * hi) + lo + px * low + epoch * (low * (2 ^ 36 * high)) = low * (2 ^ 36 * (high * epoch + hi) + px) + lo := by
    ring
  have hfields : high * epoch + hi + 1 ≤ high * 16 := by nlinarith
  have hbelow : 2 ^ 36 * (high * epoch + hi) + px + 1 ≤ 2 ^ 36 * (high * 16) := by omega
  rw [hsum]
  refine Nat.mod_eq_of_lt ?_
  calc low * (2 ^ 36 * (high * epoch + hi) + px) + lo < low * (2 ^ 36 * (high * epoch + hi) + px + 1) := by
        rw [Nat.mul_succ]
        exact Nat.add_lt_add_left hlo _
    _ ≤ low * (2 ^ 36 * (high * 16)) := Nat.mul_le_mul_left _ hbelow

/-- Its bits. -/
theorem withPixel_testBit {w : MemWord} {k px epoch : Nat} (hk : k < 7) (hpx : px < 2 ^ 36) (he : epoch < 16) (n : Nat) :
    (withPixel w k px epoch).toNat.testBit n = if n < 36 * k then w.toNat.testBit n else if n < 36 * k + 36 then px.testBit (n - 36 * k)
      else if n < 252 then w.toNat.testBit n else epoch.testBit (n - 252) := by
  obtain ⟨hi, lo, hhi, hlo, hw⟩ := exists_around_pixel w hk
  have hold (h : n < 252) : w.toNat.testBit n = (2 ^ (36 * k) * (2 ^ 36 * hi + pixelAt w k) + lo).testBit n := by
    rw [← hw, Nat.testBit_mod_two_pow, decide_eq_true h, Bool.true_and]
  rw [withPixel_toNat hk hpx he hhi hlo hw, Nat.testBit_two_pow_mul_add _ hlo]
  rw [Nat.testBit_two_pow_mul_add _ hlo] at hold
  by_cases h1 : n < 36 * k
  · simp only [h1, if_true] at hold ⊢
    exact (hold (by omega)).symm
  · simp only [h1, if_false] at hold ⊢
    rw [Nat.testBit_two_pow_mul_add _ hpx]
    rw [Nat.testBit_two_pow_mul_add _ (pixelAt_lt w k)] at hold
    by_cases h2 : n < 36 * k + 36
    · simp only [h2, show n - 36 * k < 36 by omega, if_true]
    · simp only [h2, show ¬ n - 36 * k < 36 by omega, if_false] at hold ⊢
      rw [Nat.testBit_two_pow_mul_add _ hhi]
      by_cases h3 : n < 252
      · simp only [h3, show n - 36 * k - 36 < 216 - 36 * k by omega, if_true]
        exact (hold h3).symm
      · simp only [h3, show ¬ n - 36 * k - 36 < 216 - 36 * k by omega, if_false]
        rw [show n - 36 * k - 36 - (216 - 36 * k) = n - 252 by omega]

/-- The pixel written. -/
theorem pixelAt_withPixel_self {w : MemWord} {k px epoch : Nat} (hk : k < 7) (hpx : px < 2 ^ 36) (he : epoch < 16) :
    pixelAt (withPixel w k px epoch) k = px := by
  refine Nat.eq_of_testBit_eq fun i => ?_
  rw [pixelAt_testBit, withPixel_testBit hk hpx he]
  by_cases hi : i < 36
  · simp [hi]
  · have hbig : px < 2 ^ i := lt_of_lt_of_le hpx (Nat.pow_le_pow_right two_pos (Nat.le_of_not_lt hi))
    simp only [hi, decide_false, Bool.false_and, Nat.testBit_lt_two_pow hbig]

/-- The other pixels of the word. -/
theorem pixelAt_withPixel_ne {w : MemWord} {k j px epoch : Nat} (hk : k < 7) (hj : j < 7) (hne : j ≠ k) (hpx : px < 2 ^ 36)
    (he : epoch < 16) : pixelAt (withPixel w k px epoch) j = pixelAt w j := by
  refine Nat.eq_of_testBit_eq fun i => ?_
  rw [pixelAt_testBit, pixelAt_testBit, withPixel_testBit hk hpx he]
  by_cases hi : i < 36
  · by_cases hlow : 36 * j + i < 36 * k
    · simp [hlow]
    · simp [hlow, show ¬ 36 * j + i < 36 * k + 36 by omega, show 36 * j + i < 252 by omega]
  · simp [hi]

theorem epochOf_withPixel {w : MemWord} {k px epoch : Nat} (hk : k < 7) (hpx : px < 2 ^ 36) (he : epoch < 16) :
    epochOf (withPixel w k px epoch) = epoch := by
  refine Nat.eq_of_testBit_eq fun i => ?_
  rw [epochOf, Nat.testBit_shiftRight, withPixel_testBit hk hpx he]
  simp [show ¬ 252 + i < 36 * k by omega, show ¬ 252 + i < 36 * k + 36 by omega]

/-! ## Places of the stacks (R116, R117) -/

/-- A pool of `c` blocks of 64 grains takes `c` grains of each channel. -/
theorem pool_local_lt {g x c : Nat} (hx : x < c * 2 ^ (g + 6)) : (x >>> g >>> 6) <<< g + x % 2 ^ g < c * 2 ^ g := by
  rw [Nat.shiftLeft_eq, ← Nat.shiftRight_add, Nat.shiftRight_eq_div_pow]
  have hblock : x / 2 ^ (g + 6) + 1 ≤ c := Nat.div_lt_of_lt_mul (by rwa [Nat.mul_comm])
  calc x / 2 ^ (g + 6) * 2 ^ g + x % 2 ^ g < x / 2 ^ (g + 6) * 2 ^ g + 2 ^ g := Nat.add_lt_add_left (Nat.mod_lt _ (Nat.two_pow_pos g)) _
    _ = (x / 2 ^ (g + 6) + 1) * 2 ^ g := (Nat.succ_mul ..).symm
    _ ≤ c * 2 ^ g := Nat.mul_le_mul_right _ hblock

/-- A local address keeps the place within a word. -/
theorem pool_local_mod {g x : Nat} (hg : 5 ≤ g) : ((x >>> g >>> 6) <<< g + x % 2 ^ g) % 2 ^ 5 = x % 2 ^ 5 := by
  have hdvd : 2 ^ 5 ∣ 2 ^ g := Nat.pow_dvd_pow 2 hg
  rw [Nat.shiftLeft_eq, Nat.add_mod, Nat.mod_eq_zero_of_dvd (hdvd.mul_left _), Nat.zero_add, Nat.mod_mod, Nat.mod_mod_of_dvd _ hdvd]

/-- The local address of a word of 32 bytes fits the fields of R117. -/
theorem addrMap_local (grain w : Nat) (hg : 8 ≤ grain) (hg' : grain ≤ 16) (hw : w < 2 ^ 30) :
    (addrMap grain (w * 32)).2 < 2 ^ 29 ∧ (addrMap grain (w * 32)).2 % 2 ^ 5 = 0 := by
  unfold addrMap poolGrain
  by_cases h : w * 32 < 0x100000000
  · have hlt := pool_local_lt (g := 12) (x := w * 32) (c := 2 ^ 14) h
    have hmod := pool_local_mod (g := 12) (x := w * 32) (by decide)
    simp only [h, decide_true, if_true]
    omega
  · have hpow : 7 * 2 ^ (26 - grain) * 2 ^ (grain + 6) = 7 * 2 ^ 32 := by
      rw [Nat.mul_assoc, ← pow_add, show 26 - grain + (grain + 6) = 32 by omega]
    have hpow' : 7 * 2 ^ (26 - grain) * 2 ^ grain = 7 * 2 ^ 26 := by
      rw [Nat.mul_assoc, ← pow_add, show 26 - grain + grain = 26 by omega]
    have hlt := pool_local_lt (g := grain) (x := w * 32 - 0x100000000) (c := 7 * 2 ^ (26 - grain)) (by omega)
    have hmod := pool_local_mod (g := grain) (x := w * 32 - 0x100000000) (by omega)
    simp only [h, decide_false, if_false, Bool.false_eq_true]
    omega

/-- Two words with the same row and column are the same word. -/
theorem placeOf_inj {grain v w : Nat} (hg : 8 ≤ grain) (hg' : grain ≤ 16) (hv : v < 2 ^ 30) (hw : w < 2 ^ 30)
    (h : placeOf grain (v * 32) = placeOf grain (w * 32)) : v = w := by
  obtain ⟨hv29, hv5⟩ := addrMap_local grain v hg hg' hv
  obtain ⟨hw29, hw5⟩ := addrMap_local grain w hg hg' hw
  have hmap : addrMap grain (v * 32) = addrMap grain (w * 32) := by
    simp only [placeOf, localPlace, Prod.mk.injEq, HRow.mk.injEq, fld, Nat.shiftRight_eq_div_pow] at h
    obtain ⟨⟨hp, hgroup, hbank, hrow⟩, hcol⟩ := h
    exact Prod.ext hp (by omega)
  have hbytes := (addressMapIsOneToOne grain (v * 32) (w * 32) (by omega) (by omega)).1 hmap
  omega

theorem placeOf_column_lt (grain a : Nat) : (placeOf grain a).2 < 32 := Nat.mod_lt _ (by decide)

/-! ## Shadows (R132) -/

/-- Bit `k` cleared. -/
theorem testBit_setBit_false (v k : Nat) : (setBit v k false).testBit k = false := by
  unfold setBit
  split
  next h =>
    have hle : 2 ^ k ≤ v := Nat.ge_two_pow_of_testBit h
    have hdiv : v / 2 ^ k = (v - 2 ^ k) / 2 ^ k + 1 := Nat.div_eq_sub_div (Nat.two_pow_pos k) hle
    simp only [Bool.false_eq_true, if_false, Nat.testBit_eq_decide_div_mod_eq, decide_eq_true_eq, decide_eq_false_iff_not] at h ⊢
    omega
  next h => simpa using h

/-- A map's part that a change of one element leaves alone. -/
theorem map_modAt {α β : Type} {f : α → α} {g : α → β} (h : ∀ a, g (f a) = g a) (l : List α) (i : Nat) :
    (modAt l i f).map g = l.map g := by
  refine List.ext_getElem? fun j => ?_
  by_cases hj : j = i
  · subst hj
    simp [getElem?_modAt_self, Function.comp_def, h]
  · simp [getElem?_modAt_ne _ _ hj]

/-- The shadow of a word address depends on the shadows' rows alone. -/
theorem shadowAt_congr {h h' : Hbm} (hrows : h'.shadows.map (Option.map Shadow.at_) = h.shadows.map (Option.map Shadow.at_))
    (hgrain : h'.grain = h.grain) (w : Nat) : h'.shadowAt w = h.shadowAt w := by
  have hnone (l : List (Option Shadow)) : l.all Option.isNone = (l.map (Option.map Shadow.at_)).all Option.isNone := by
    simp [List.all_map, Function.comp_def]
  have hidx (l : List (Option Shadow)) (r : HRow) : l.findIdx? (fun x => x.map Shadow.at_ = some r) =
      (l.map (Option.map Shadow.at_)).findIdx? fun x => x = some r := by
    simp [List.findIdx?_map, Function.comp_def]
  simp only [Hbm.shadowAt, hnone, hidx, hrows, hgrain]

/-- The shadow found holds the word's row, and the column is the word's. -/
theorem shadowAt_some {h : Hbm} {w i c : Nat} (hs : h.shadowAt w = some (i, c)) :
    c = (placeOf h.grain (w * 32)).2 ∧ ∃ x, h.shadows[i]? = some (some x) ∧ x.at_ = (placeOf h.grain (w * 32)).1 := by
  unfold Hbm.shadowAt at hs
  split at hs
  · cases hs
  · obtain ⟨j, hj, hjc⟩ := Option.map_eq_some_iff.mp hs
    obtain ⟨rfl, rfl⟩ := Prod.mk.inj hjc
    obtain ⟨hlt, hrow, _⟩ := List.findIdx?_eq_some_iff_getElem.mp hj
    obtain ⟨x, hx, hat⟩ := Option.map_eq_some_iff.mp (of_decide_eq_true hrow)
    exact ⟨rfl, x, by rw [List.getElem?_eq_getElem hlt, hx], hat⟩

/-- The word that a shadow serves for a word address. -/
def Hbm.shadowWord (h : Hbm) (w : Nat) : Option MemWord := (h.servedBy w).map fun q => q.1.words.getD q.2 0

theorem word_eq (h : Hbm) (k : Nat) : h.word k = ((h.addrOf k).bind h.shadowWord).getD ((mapGet h.words k).getD 0) := by
  unfold Hbm.word Hbm.shadowWord
  cases h.addrOf k with
  | none => rfl
  | some w => cases hs : h.servedBy w <;> simp [hs]

/-! ## A client's write (R128, R132) -/

/-- A shadow that takes a word: the word is good again. -/
def Shadow.put (c : Nat) (v : MemWord) (x : Shadow) : Shadow :=
  { x with words := x.words.setIfInBounds c v, poison := setBit x.poison c false }

theorem wrote_shadows (w : Nat) (v : MemWord) (h : Hbm) : (h.wrote w v).shadows = match h.shadowAt w with
    | some (i, c) => modAt h.shadows i (Option.map (Shadow.put c v))
    | none => h.shadows := rfl

theorem shadowAt_wrote (w a : Nat) (v : MemWord) (h : Hbm) : (h.wrote w v).shadowAt a = h.shadowAt a := by
  refine shadowAt_congr (h := h) (h' := h.wrote w v) ?_ rfl a
  rw [wrote_shadows]
  split
  · exact map_modAt (fun x => by cases x <;> rfl) _ _
  · rfl

/-- The shadow that serves the written word takes it. -/
theorem servedBy_wrote_self (w : Nat) (v : MemWord) (h : Hbm) :
    (h.wrote w v).servedBy w = (h.servedBy w).map fun q => (q.1.put q.2 v, q.2) := by
  unfold Hbm.servedBy
  rw [shadowAt_wrote, wrote_shadows]
  cases hs : h.shadowAt w with
  | none => rfl
  | some q =>
    obtain ⟨i, c⟩ := q
    obtain ⟨_, x, hx, _⟩ := shadowAt_some hs
    have hnew : (modAt h.shadows i (Option.map (Shadow.put c v)))[i]? = some (some (x.put c v)) := by simp [getElem?_modAt_self, hx]
    simp only [Option.bind_some, getD_of_getElem? hx, getD_of_getElem? hnew]
    by_cases hc : x.copying <;> simp [Shadow.put, hc]

theorem shadowWord_wrote_self (w : Nat) (v : MemWord) (h : Hbm) : (h.wrote w v).shadowWord w = (h.shadowWord w).map fun _ => v := by
  unfold Hbm.shadowWord
  rw [servedBy_wrote_self]
  cases hs : h.servedBy w with
  | none => rfl
  | some q =>
    obtain ⟨x, c⟩ := q
    have hc : c < 32 := by
      unfold Hbm.servedBy at hs
      obtain ⟨p, hp, hq⟩ := Option.bind_eq_some_iff.mp hs
      obtain ⟨y, _, hy⟩ := Option.bind_eq_some_iff.mp hq
      have hcol := (shadowAt_some (i := p.1) (c := p.2) hp).1
      split at hy
      · cases hy
      · obtain ⟨_, rfl⟩ := Prod.mk.inj (Option.some.inj hy)
        rw [hcol]
        exact placeOf_column_lt ..
    simp [Shadow.put, Vector.getD, hc]

/-- The shadow word of another place stays. -/
theorem shadowWord_wrote_ne {w a : Nat} {v : MemWord} {h : Hbm} (hne : placeOf h.grain (a * 32) ≠ placeOf h.grain (w * 32)) :
    (h.wrote w v).shadowWord a = h.shadowWord a := by
  unfold Hbm.shadowWord Hbm.servedBy
  rw [shadowAt_wrote, wrote_shadows]
  cases hw : h.shadowAt w with
  | none => rfl
  | some q =>
    cases ha : h.shadowAt a with
    | none => rfl
    | some p =>
      obtain ⟨i, c⟩ := q
      obtain ⟨j, d⟩ := p
      obtain ⟨hcol, x, hx, hrow⟩ := shadowAt_some hw
      obtain ⟨hcola, y, hy, hrowa⟩ := shadowAt_some ha
      by_cases hij : j = i
      · subst hij
        have hxy : x = y := by simpa [hx] using hy
        have hcd : c ≠ d := fun hcd => hne (Prod.ext (by rw [← hrow, ← hrowa, hxy]) (by rw [← hcol, ← hcola, hcd]))
        have hnew : (modAt h.shadows j (Option.map (Shadow.put c v)))[j]? = some (some (x.put c v)) := by
          simp [getElem?_modAt_self, hx]
        simp only [Option.bind_some, getD_of_getElem? hx, getD_of_getElem? hnew]
        by_cases hc : x.copying <;> simp [Shadow.put, hc, Vector.getD, hcd]
      · simp only [Option.bind_some, List.getD_eq_getElem?_getD, getElem?_modAt_ne _ _ hij]

/-! ## A buffer word written -/

theorem putWord_ok {k : Nat} {v : MemWord} {h : Hbm} (ok : h.Ok) : (h.putWord k v).Ok := by
  have hset : Canon 0 (mapSet 0 h.words k v) := ⟨mapRising_set _ _ _ _ ok.1.1, mapSet_listed _ _ _ _ ok.1.2⟩
  unfold Hbm.putWord
  split
  · exact ⟨hset, ok.2⟩
  · dsimp only
    split
    · exact ok
    · exact ⟨hset, ok.2⟩

theorem putWord_addrOf (k : Nat) (v : MemWord) (h : Hbm) : (h.putWord k v).addrOf = h.addrOf := by
  unfold Hbm.putWord
  split
  · rfl
  · dsimp only
    split <;> rfl

/-- The word written, from its row or its row's shadow. -/
theorem word_putWord_self {k : Nat} {v : MemWord} {h : Hbm} (ok : h.Ok) : (h.putWord k v).word k = v := by
  have hget : (mapGet (mapSet 0 h.words k v) k).getD 0 = v := (getD_mapSet ok.1.1 fun _ => rfl).trans (if_pos rfl)
  rw [word_eq, putWord_addrOf]
  cases ha : h.addrOf k with
  | none => simpa [Hbm.putWord, ha] using hget
  | some w =>
    have hself := shadowWord_wrote_self w v h
    simp only [Hbm.putWord, ha, Option.bind_some]
    cases hs : h.servedBy w with
    | none =>
      have hnone : (h.wrote w v).shadowWord w = none := hself.trans (by simp [Hbm.shadowWord, hs])
      change (Option.getD ((h.wrote w v).shadowWord w) ((mapGet (mapSet 0 h.words k v) k).getD 0)) = v
      rw [hnone]
      exact hget
    | some q =>
      have hsome : (h.wrote w v).shadowWord w = some v := hself.trans (by simp [Hbm.shadowWord, hs])
      simp [hsome]

/-- Every word at another place stays. -/
theorem word_putWord_ne {k a : Nat} {v : MemWord} {h : Hbm} (ok : h.Ok) (hne : a ≠ k)
    (hplace : ∀ x w, h.addrOf a = some x → h.addrOf k = some w → placeOf h.grain (x * 32) ≠ placeOf h.grain (w * 32)) :
    (h.putWord k v).word a = h.word a := by
  have hget : (mapGet (mapSet 0 h.words k v) a).getD 0 = (mapGet h.words a).getD 0 :=
    (getD_mapSet ok.1.1 fun _ => rfl).trans (if_neg hne)
  rw [word_eq, word_eq h, putWord_addrOf]
  cases hk : h.addrOf k with
  | none =>
    simp only [Hbm.putWord, hk, hget]
    rfl
  | some w =>
    have hshadow : ((h.addrOf a).bind (h.wrote w v).shadowWord) = (h.addrOf a).bind h.shadowWord := by
      cases ha : h.addrOf a with
      | none => rfl
      | some x => exact shadowWord_wrote_ne (hplace x w ha hk)
    simp only [Hbm.putWord, hk]
    split
    · rw [hshadow]
      rfl
    · change (Option.getD ((h.addrOf a).bind (h.wrote w v).shadowWord) ((mapGet (mapSet 0 h.words k v) a).getD 0)) = _
      rw [hshadow, hget]

/-- The word written is good, on channels of which none is quarantined. -/
theorem bad_putWord {k w : Nat} {v : MemWord} {h : Hbm} (ha : h.addrOf k = some w) (hc : (h.chans.all fun c => c.st ≠ 3) = true) :
    (h.putWord k v).bad w = false := by
  have hchans : (h.chans.any fun c => decide (c.st = 3)) = false := by simpa using hc
  have hgood : (h.wrote w v).bad w = false := by
    unfold Hbm.bad
    rw [servedBy_wrote_self]
    cases h.servedBy w with
    | none => simp [Hbm.wrote, hchans]
    | some q => simp [Hbm.wrote, hchans, Shadow.put, bit, testBit_setBit_false]
  simp only [Hbm.putWord, ha]
  split <;> exact hgood

/-- Settles O47: a pixel is replaced within its word, and a write of the word changes that word alone. -/
theorem pixelsReadBack : Obligations.PixelsReadBack := by
  rintro h h' owner buf epoch i px key ok hpx he rfl rfl
  have hk : i % 7 < 7 := Nat.mod_lt i (by decide)
  have hself : (h.putPixel owner buf epoch i px).word (wkey owner buf (i / 7)) = _ := word_putWord_self ok
  refine ⟨?_, ?_, fun k hk7 hne => ?_, fun a hne haddr hg hg' => ?_, fun w ha hc => bad_putWord ha hc, putWord_ok ok⟩
  · rw [hself, pixelAt_withPixel_self hk hpx he]
  · rw [hself, epochOf_withPixel hk hpx he]
  · rw [hself, pixelAt_withPixel_ne hk hk7 hne hpx he]
  · refine word_putWord_ne ok hne fun x w hx hw hplace => ?_
    obtain ⟨hxw, hx30, hw30⟩ := haddr x w hx hw
    exact hxw (placeOf_inj hg hg' hx30 hw30 hplace)

end Sys2Proof.Machine
end

section
set_option Elab.async false
/-! PROOFS. Drift tracking moves one step (R136). -/

namespace Sys2Proof.Machine

/-- A delay stays within its range and moves one step at most. -/
def OneStep (a b : Nat) : Prop := b ≤ 127 ∧ b ≤ a + 1 ∧ a ≤ b + 1

theorem OneStep.refl {a : Nat} (h : a ≤ 127) : OneStep a a := ⟨h, Nat.le_succ a, Nat.le_succ a⟩

theorem oneStep_stepDelay {d : Nat} (m : Int) (h : d ≤ 127) : OneStep d (stepDelay d m) := by
  unfold OneStep stepDelay clampI
  split <;> split <;> omega

theorem natAt_le {l : List Nat} (h : ∀ x ∈ l, x ≤ 127) (k : Nat) : natAt l k ≤ 127 := by
  unfold natAt
  rw [List.getD_eq_getElem?_getD]
  cases hk : l[k]? with
  | none => exact Nat.zero_le _
  | some x => exact h x (List.mem_of_getElem? hk)

/-- The read delays, each with the move asked of it. -/
theorem oneStep_reads {rd : List Nat} {asked : List Int} (hlen : rd.length ≤ asked.length) (h : ∀ x ∈ rd, x ≤ 127) (k : Nat) :
    OneStep (natAt rd k) (natAt ((rd.zip asked).map fun q => stepDelay q.1 q.2) k) := by
  obtain hk | hk := Nat.lt_or_ge k rd.length
  · have hask : k < asked.length := Nat.lt_of_lt_of_le hk hlen
    have hnew : natAt ((rd.zip asked).map fun q => stepDelay q.1 q.2) k = stepDelay (natAt rd k) asked[k] := by
      simp [natAt, hk, hask]
    rw [hnew]
    exact oneStep_stepDelay _ (natAt_le h k)
  · have hnew : natAt ((rd.zip asked).map fun q => stepDelay q.1 q.2) k = 0 := by
      simp [natAt, hk]
    have hold : natAt rd k = 0 := by simp [natAt, hk]
    rw [hnew, hold]
    exact .refl (Nat.zero_le _)

/-- The write delays, all with one move asked. -/
theorem oneStep_writes {wr : List Nat} (m : Int) (h : ∀ x ∈ wr, x ≤ 127) (k : Nat) :
    OneStep (natAt wr k) (natAt (wr.map fun d => stepDelay d m) k) := by
  obtain hk | hk := Nat.lt_or_ge k wr.length
  · have hnew : natAt (wr.map fun d => stepDelay d m) k = stepDelay (natAt wr k) m := by simp [natAt, hk]
    rw [hnew]
    exact oneStep_stepDelay _ (natAt_le h k)
  · have hnew : natAt (wr.map fun d => stepDelay d m) k = 0 := by simp [natAt, hk]
    have hold : natAt wr k = 0 := by simp [natAt, hk]
    rw [hnew, hold]
    exact .refl (Nat.zero_le _)

theorem countErrors_le (old new : List Nat) : ∀ x ∈ countErrors old new, x ≤ 65535 := by
  intro x hx
  obtain ⟨i, hi, rfl⟩ := List.mem_iff_getElem.mp hx
  simp only [countErrors, List.getElem_zipWith, sat]
  split <;> omega

theorem exec_hbmDriftTrack_due {s : State} {t n : Nat} {look : DriftLook} (hup : (s.advance t).hbm.status = 2)
    (hactive : ((s.advance t).hbm.chans.getD n {}).st = 0) (hdue : (s.advance t).driftDue n 0 = true) :
    exec (.hbmDriftTrack t n look) s = .next ((s.advance t).modHbm fun h =>
      { h with chans := modAt h.chans n (HChan.tracked (s.advance t).now look) }) := if_pos (by rw [hup, hactive, hdue]; rfl)

theorem oneStep_tracked {now : Nat} {look : DriftLook} {c : HChan} (h : ∀ x ∈ c.fit.wr, x ≤ 127) (k : Nat) :
    OneStep (natAt c.fit.wr k) (natAt (c.tracked now look).fit.wr k) := by
  unfold HChan.tracked
  dsimp only
  split
  · exact .refl (natAt_le h k)
  · exact oneStep_writes look.wr h k

/-- Settles O49: a due tracking writes its channel alone, and each delay takes a clamped step. -/
theorem driftMovesOneStep : Obligations.DriftMovesOneStep := by
  rintro s u t n look c rfl hc hlen hdelays
  have hchan : ((s.advance t).hbm.chans.getD n {}) = c := getD_of_getElem? hc _
  have hrd : ∀ x ∈ c.fit.rd, x ≤ 127 := fun x hx => hdelays x (List.mem_append_left _ hx)
  have hwr : ∀ x ∈ c.fit.wr, x ≤ 127 := fun x hx => hdelays x (List.mem_append_right _ hx)
  refine ⟨fun hearly => if_neg (by simp [hearly]), fun hup hactive hdue => ?_⟩
  refine ⟨_, c.tracked (s.advance t).now look, exec_hbmDriftTrack_due hup (hchan.symm ▸ hactive) hdue, ?_, rfl,
    oneStep_reads (by simp; omega) hrd, oneStep_tracked hwr, fun hosc => if_pos hosc, countErrors_le _ _, fun m hm => ?_⟩
  · exact (getElem?_modAt_self _ n _).trans (congrArg (Option.map _) hc)
  · exact getElem?_modAt_ne _ _ hm

end Sys2Proof.Machine
end

section
set_option Elab.async false
/-! PROOFS. A wheel's fault input (R391, R393), and feedback lost (R316, R336, R343). -/

namespace Sys2Proof.Machine

/-- A unit whose state is not the default has a record. -/
theorem hasUnit_of_obs {s : State} {w : Nat} (h : s.obs w ≠ 0) : s.HasUnit w := by
  unfold State.HasUnit
  cases hu : mapGet s.units w with
  | none => exact absurd (by simp [State.obs, State.unitRec, hu]) h
  | some u => rfl

/-! ## Wheels -/

theorem wheel_of_getElem? {s : State} {n : Nat} {x : Wheel} (h : s.whel[n]? = some x) : s.wheel n = x := getD_of_getElem? h _

theorem whel_modWheel {s : State} {n : Nat} {x : Wheel} (f : Wheel → Wheel) (h : s.whel[n]? = some x) :
    (s.modWheel n f).whel[n]? = some (f x) := (getElem?_modAt_self ..).trans (congrArg (Option.map f) h)

/-- Every gate off: the bridge after the change, and what it drives. -/
theorem gates_off_whel {s : State} {n : Nat} {x : Wheel} (h : s.whel[n]? = some x) :
    ∃ y, (s.gates n false).whel[n]? = some y ∧ y.bridge.mode = .off ∧ y.bridge.gates = List.replicate 6 .off ∧ y.faultIn = x.faultIn := by
  refine ⟨_, whel_modWheel _ h, ?_, ?_, rfl⟩
  · exact ite_self _
  · change wantGates (if (s.wheel n).faultIn then .off else .off) _ = _
    rw [ite_self]
    rfl

theorem gates_off_outs {s : State} {n : Nat} {x : Wheel} {g : Nat} (h : s.whel[n]? = some x) (hg : g < 6)
    (hon : x.bridge.gates.getD g .off ≠ .off) : Out.wheelGate n g .off s.tick25 ∈ (s.gates n false).outs := by
  have hwant (k : Nat) : (wantGates .off k)[g]?.getD .off = .off := by
    simp only [wantGates, List.getElem?_replicate, hg, if_true, Option.getD_some]
  rw [List.getD_eq_getElem?_getD] at hon
  refine List.mem_append_right _ (List.mem_map.mpr ⟨(g, .off, s.tick25), List.mem_map.mpr ⟨g, ?_, ?_⟩, rfl⟩)
  · refine List.mem_filter.mpr ⟨List.mem_range.mpr hg, ?_⟩
    simp [wheel_of_getElem? h, hwant, hon]
  · simp [wheel_of_getElem? h, hwant, hon]

theorem obs_setWheel {s : State} {n v : Nat} (h : s.HasUnit (wWheel n)) : (s.setWheel n v).obs (wWheel n) = v := by
  have hset : ((s.setObs (wWheel n) v).raise 0xF1 n (s.obs (wWheel n) * 256 + v)).obs (wWheel n) = v :=
    ((moves_raise (ps := [])).obs (by decide) _).trans (obs_setObs_self h)
  unfold State.setWheel
  dsimp only
  split
  · assumption
  · split
    · exact (moves_unlockWheel.obs (by decide) _).trans hset
    · exact hset

/-- What FAULT clears of a wheel (R393). -/
def Wheel.faulted (cause : Nat) (w : Wheel) : Wheel :=
  { w with faultCause := cause, listenEnd := none, recovering := none, seekIndex := false, stopSeen := false }

/-- A wheel taken to FAULT: its gates are off, and each that was on has been turned off at that instant. -/
theorem wheelFault_spec {s : State} {n cause : Nat} {x : Wheel} (h : s.whel[n]? = some x) (hu : s.HasUnit (wWheel n)) :
    (s.wheelFault n cause).obs (wWheel n) = 7 ∧ ((s.wheelFault n cause).wheel n).bridge.mode = .off ∧
      ((s.wheelFault n cause).wheel n).faultIn = x.faultIn ∧ ((s.wheelFault n cause).wheel n).faultCause = cause ∧
      ((s.wheelFault n cause).wheel n).bridge.gates = List.replicate 6 .off ∧
      ∀ g, g < 6 → x.bridge.gates.getD g .off ≠ .off → Out.wheelGate n g .off s.tick25 ∈ (s.wheelFault n cause).outs := by
  obtain ⟨y, hy, hmode, hgates, hin⟩ := gates_off_whel h
  obtain ⟨t, ht⟩ : ∃ t, t = (s.gates n false).modWheel n (Wheel.faulted cause) := ⟨_, rfl⟩
  have hwhel : t.whel[n]? = some (y.faulted cause) := ht ▸ whel_modWheel _ hy
  have hmoves : Moves [.whel, .outs] s t := ht ▸ moves_gates.trans moves_modWheel.sub
  have houts : t.outs = (s.gates n false).outs := ht ▸ rfl
  have hfault : s.wheelFault n cause = if s.obs (wWheel n) = 7 then t else (t.raise 0xF3 n cause).setWheel n 7 := ht ▸ rfl
  obtain ⟨hlast, hobs⟩ : Moves [.units, .seqr, .loop] t (s.wheelFault n cause) ∧ (s.wheelFault n cause).obs (wWheel n) = 7 := by
    rw [hfault]
    split
    next h7 => exact ⟨.refl _ _, (hmoves.obs (by decide) _).trans h7⟩
    · refine ⟨moves_raise.trans moves_setWheel, obs_setWheel ?_⟩
      exact ((moves_raise (ps := [])).hasUnit (by decide) _).mpr ((hmoves.hasUnit (by decide) _).mpr hu)
  have hw : (s.wheelFault n cause).wheel n = y.faulted cause := by
    have hsame : (s.wheelFault n cause).whel = t.whel := hlast.frame .whel (by decide)
    exact wheel_of_getElem? (hsame ▸ hwhel)
  have hsent : (s.wheelFault n cause).outs = t.outs := hlast.frame .outs (by decide)
  rw [hw]
  refine ⟨hobs, hmode, hin, rfl, hgates, fun g hg hon => ?_⟩
  rw [hsent, houts]
  exact gates_off_outs h hg hon

/-- Settles O57: the fault input, then FAULT; a wheel in FAULT with its input low does not start. -/
theorem faultInputStopsTheWheel : Obligations.FaultInputStopsTheWheel := by
  constructor
  · rintro s u t n x rfl hx hu
    have hlow : ((s.advance t).modWheel n fun w => { w with faultIn := true }).whel[n]? = some { x with faultIn := true } :=
      whel_modWheel _ hx
    obtain ⟨hobs, hmode, hin, hcause, hgates, houts⟩ := wheelFault_spec (cause := 1) hlow hu
    have hexec : exec (.wheelFaultInput t n true) s =
        .next (((s.advance t).modWheel n fun w => { w with faultIn := true }).wheelFault n 1) := rfl
    exact ⟨_, hexec, hobs, hmode, hin, hcause, fun g hg => List.eq_of_mem_replicate (hgates ▸ hg), houts⟩
  · rintro s u t n rfl hobs hin
    have hstays : (s.advance t).wheelRun n = s.advance t := by
      unfold State.wheelRun
      simp [hobs, hin]
    change (if _ then _ else _) = _
    rw [hstays, ite_self]

/-! ## Bands -/

theorem lband_of_getElem? {s : State} {b : Nat} {x : LBand} (h : s.loop.bands[b]? = some x) : s.lband b = x := getD_of_getElem? h _

theorem bands_modBand {s : State} {b : Nat} {x : LBand} (f : LBand → LBand) (h : s.loop.bands[b]? = some x) :
    (s.modBand b f).loop.bands[b]? = some (f x) := (getElem?_modAt_self ..).trans (congrArg (Option.map f) h)

theorem obs_followStrings {s : State} {b c : Nat} (hc : c < 4) : (s.followStrings b).obs (wBand c) = s.obs (wBand c) := by
  refine List.foldlRecOn (motive := fun t : State => t.obs (wBand c) = s.obs (wBand c)) _ _ rfl fun t ht k _ => ?_
  have hne (v : Nat) : (t.setObs (wString k) v).obs (wBand c) = t.obs (wBand c) :=
    obs_setObs_ne (by simp only [wBand, wString]; omega)
  have hstring (v : Nat) : (t.setStringObs k v).obs (wBand c) = t.obs (wBand c) := by
    unfold State.setStringObs
    dsimp only
    split
    · rfl
    · exact ((moves_raise (ps := [])).obs (by decide) _).trans (hne v)
  exact (hstring _).trans ht

/-- A band's new state: its record shows it, event 0xCC is pending, and its own marks stay. -/
theorem setBand_spec {s : State} {b v : Nat} {x : LBand} (hb : b < 4) (hold : s.obs (wBand b) ≠ v) (hu : s.HasUnit (wBand b))
    (hx : s.loop.bands[b]? = some x) :
    (s.setBand b v).obs (wBand b) = v ∧ ((s.setBand b v).lband b).fault = x.fault ∧
      (s.setBand b v).xrds.irqPending.testBit 0xCC = true := by
  obtain ⟨t, ht⟩ : ∃ t, t = ((s.setObs (wBand b) v).modBand b fun x => { x with plaus := 0 }).raise 0xCC b
    (s.obs (wBand b) * 256 + v) := ⟨_, rfl⟩
  have hset : s.setBand b v = (t.followStrings b).judgeDead := ht ▸ if_neg hold
  have hobs : t.obs (wBand b) = v := by
    rw [ht, (moves_raise (ps := [])).obs (by decide), moves_modBand.obs (by decide), obs_setObs_self hu]
  have hbands : t.loop.bands[b]? = some { x with plaus := 0 } := by
    have hloop : t.loop = ((s.setObs (wBand b) v).modBand b fun x => { x with plaus := 0 }).loop :=
      ht ▸ (moves_raise (ps := [])).frame .loop (by decide)
    have hsame : (s.setObs (wBand b) v).loop = s.loop := moves_setObs.frame .loop (by decide)
    rw [hloop]
    exact bands_modBand _ (hsame ▸ hx)
  have hpend : t.xrds.irqPending.testBit 0xCC = true := ht ▸ raise_pending ..
  have hfollow : (t.followStrings b).loop = t.loop := moves_followStrings.frame .loop (by decide)
  rw [hset]
  refine ⟨?_, ?_, (moves_followStrings.sub.trans moves_judgeDead.sub (ps := [.units, .loop])).pending _ hpend⟩
  · exact (moves_judgeDead.obs (by decide) _).trans ((obs_followStrings hb).trans hobs)
  · have hlast : (t.followStrings b).loop.bands[b]? = some { x with plaus := 0 } := hfollow.symm ▸ hbands
    have hband : ((t.followStrings b).judgeDead).lband b = { x with plaus := 0 } := lband_of_getElem? hlast
    rw [hband]

/-- A fault bit marked on a band (R333). -/
def LBand.flag (m : Nat) (x : LBand) : LBand := { x with fault := x.fault ||| m }

/-- DERATE's cap (R343). -/
def LBand.capped (x : LBand) : LBand := { x with cap := derateCap x.means, hi := min x.hi (derateCap x.means) }

theorem enterHold_eq (b m : Nat) (s : State) : s.enterHold b m = if (s.lband b).tempLost then
    ((s.modBand b (LBand.flag m)).modBand b LBand.capped).setBand b 3 else (s.modBand b (LBand.flag m)).setBand b 2 := rfl

/-- A CLOSED band that leaves for HOLD_MODEL, or for DERATE with its temperature lost. -/
theorem enterHold_spec {s : State} {b m : Nat} {x : LBand} (hb : b < 4) (hclosed : s.obs (wBand b) = 1)
    (hx : s.loop.bands[b]? = some x) :
    (s.enterHold b m).obs (wBand b) = (if x.tempLost = true then 3 else 2) ∧
      ((s.enterHold b m).lband b).fault = x.fault ||| m ∧ (s.enterHold b m).xrds.irqPending.testBit 0xCC = true := by
  have hmark := bands_modBand (LBand.flag m) hx
  have hmarked : (s.modBand b (LBand.flag m)).obs (wBand b) = 1 := (moves_modBand.obs (by decide) _).trans hclosed
  rw [enterHold_eq, lband_of_getElem? hx]
  generalize s.modBand b (LBand.flag m) = t at hmark hmarked ⊢
  cases x.tempLost with
  | true =>
    have hcapped : (t.modBand b LBand.capped).obs (wBand b) = 1 := (moves_modBand.obs (by decide) _).trans hmarked
    exact setBand_spec hb (by simp [hcapped]) (hasUnit_of_obs (by simp [hcapped])) (bands_modBand LBand.capped hmark)
  | false => exact setBand_spec hb (by simp [hmarked]) (hasUnit_of_obs (by simp [hmarked])) hmark

/-- Settles O58: event 0xC8, then the hold. -/
theorem lostFeedbackHoldsTheModel : Obligations.LostFeedbackHoldsTheModel := by
  rintro s u t b rfl hb
  refine ⟨fun hmiss hclosed => ?_, fun hnot => if_neg (by simp [hnot])⟩
  obtain ⟨x, hx⟩ : ∃ x, (s.advance t).loop.bands[b]? = some x := by
    cases h : (s.advance t).loop.bands[b]? with
    | none => simp [State.lband, List.getD_eq_getElem?_getD, h] at hmiss
    | some x => exact ⟨x, rfl⟩
  have hraise {u : State} : Moves [] u (u.raise 0xC8 b 2) := moves_raise
  have hloop : ((s.advance t).raise 0xC8 b 2).loop = (s.advance t).loop := hraise.frame .loop (by decide)
  obtain ⟨hobs, hfault, hpend⟩ := enterHold_spec (m := 4) hb ((hraise.obs (by decide) _).trans hclosed) (hloop ▸ hx)
  refine ⟨_, if_pos (by simp [hmiss, hclosed]), ?_, ?_, moves_enterHold.pending _ (raise_pending ..), hpend⟩
  · rw [hobs, lband_of_getElem? hx]
  · rw [hfault, Nat.testBit_or, show Nat.testBit 4 2 = true from rfl, Bool.or_true]

end Sys2Proof.Machine
end

section
set_option Elab.async false
/-! PROOFS. A die reset (R552, R553), the values right after reset, and the check values (R629). -/

namespace Sys2Proof.Machine

/-- A map with one key kept. -/
theorem mapGet_filter_key {α : Type} (m : List (Nat × α)) (k j : Nat) :
    mapGet (m.filter fun e => e.1 = k) j = if j = k then mapGet m j else none := by
  induction m with
  | nil => simp [mapGet]
  | cons e m ih =>
    obtain ⟨i, a⟩ := e
    by_cases hi : i = k
    · subst hi
      by_cases hj : i = j
      · subst hj
        simp [mapGet]
      · simp [mapGet, ih, hj, Ne.symm hj]
    · by_cases hj : j = k
      · subst hj
        simp [mapGet, ih, hi]
      · simp [ih, hi, hj]

/-- Of the object values, a die reset keeps 0x0015 alone (R553). -/
theorem clearDie_num (s : State) (obj sub : Nat) :
    s.clearDie.num obj sub = if okey obj sub = okey 0x0015 0 then s.num obj sub else (dfltVal obj sub).toNat := by
  change (((mapGet (s.dict.vals.filter fun e => e.1 = okey 0x0015 0) (okey obj sub)).getD (dfltVal obj sub)).toNat) = _
  rw [mapGet_filter_key]
  split <;> rfl

/-- Settles O59: RESET_N low is a die reset of cause 2, and the die is held. -/
theorem dieResetKeepsTheMews : Obligations.DieResetKeepsTheMews := by
  intro s u t hu hdev hvaon
  have hexec : exec (.resetNLow t) s = .next (((u.modMews fun m => { m with resetN := false, resetNLowAt := u.now }).dieReset 2).holdDie) := by
    subst hu
    refine if_neg ?_
    change ¬ ((decide ((s.advance t).mews.dev = .mews) || !(s.advance t).mews.vaon) = true)
    simp [hdev, hvaon]
  clear hu
  exact ⟨_, hexec, rfl, rfl, rfl, rfl, rfl, rfl, rfl, rfl, rfl, rfl, rfl, rfl, rfl, rfl, rfl, rfl, rfl, rfl, rfl,
    fun obj sub => clearDie_num _ obj sub⟩

/-! ## Reset and check values -/

/-- Settles O3: each field's value at reset, and an empty dictionary reads the defaults. -/
theorem resetValues : Obligations.ResetValues :=
  ⟨rfl, rfl, rfl, rfl, rfl, rfl, rfl, rfl, rfl, rfl, rfl, rfl, rfl, rfl, rfl, fun _ _ => rfl⟩

/-- Settles O4: at reset the memories and the dictionary are empty, and so are the queues. -/
theorem resetMeetsInvariant : Obligations.ResetMeetsInvariant where
  hbm := ⟨⟨rfl, List.forall_mem_nil _⟩, rfl, List.forall_mem_nil _⟩
  dict := ⟨rfl, rfl⟩
  xrds := ⟨Nat.zero_le _, Nat.zero_le _⟩
  gysol := ⟨Nat.zero_le _, Nat.zero_le _⟩

/-- Settles O60: the three registers, byte by byte. -/
theorem checkValues : Obligations.CheckValues := by
  unfold Obligations.CheckValues
  decide +kernel

end Sys2Proof.Machine
end

section
set_option Elab.async false
/-! PROOFS. Staged writes wait in the shadow (R59, R60), and a state request of SAFE (R31). -/

namespace Sys2Proof.Machine

/-! ## A write of one number that meets its checks -/

theorem checkObject_one {obj sub : Nat} {d : Desc} (he : objExists obj = true) (hd : leafOf obj sub = some d) :
    checkObject obj sub 1 = none := by
  refine checkObject_whole he fun k hk => ?_
  obtain rfl : k = 0 := by omega
  exact Option.isSome_of_eq_some hd

theorem checkRole_one {role obj sub : Nat} {d : Desc} (hd : leafOf obj sub = some d) (hopen : noWrite d sub = false)
    (hr : writeRole obj ≤ role) : checkRole role obj sub 1 = none := by
  have hlow : decide (role < writeRole obj) = false := decide_eq_false (Nat.not_lt.mpr hr)
  simp [checkRole_eq, upTo, subShut_of_leaf hd, hopen, hlow, refuseIf]

theorem leaves_one {obj sub : Nat} {d : Desc} (hd : leafOf obj sub = some d) : leaves obj sub 1 = [d] := by
  simp [leaves, upTo, hd]

/-- A number of its type, in its range, that the present state takes, meets the checks of staging and of disagreement last (R57). -/
theorem checkWrite_one {s : State} {c : Caller} {obj sub n : Nat} {d : Desc} (he : objExists obj = true)
    (hd : leafOf obj sub = some d) (hopen : noWrite d sub = false) (hr : writeRole obj ≤ c.role) (hty : d.ty ≠ .blob)
    (hvalue : valueOk d.ty n = true) (hrange : d.accepts sub n = true) (hn : n < 2 ^ (8 * d.ty.width)) :
    s.checkWrite c obj sub 1 (toLE d.ty.width n) =
      first (s.stateRefuses obj sub n) (first (s.checkStage c.sid obj (d.acc = .rs)) (s.checkDisagree obj sub)) := by
  have hsplit : splitVals [d] (toLE d.ty.width n) = [(d, n)] := by simp [splitVals, leAt_toLE _ n hn]
  have htype : checkType [d] (toLE d.ty.width n) = none := by simp [checkType, hsplit, hty, hvalue, length_toLE, refuseIf]
  have hnum : numbered sub [(d, n)] = [(sub, d, n)] := by simp [numbered, upTo]
  unfold State.checkWrite
  rw [checkObject_one he hd, Nat.max_self, checkRole_one hd hopen hr, leaves_one hd]
  simp [hsplit, htype, hnum, hrange, refuseIf]

/-- An operation of a served session whose write is refused changes nothing else. -/
theorem exec_write_refused {s : State} {t sid obj sub count st : Nat} {x : Session} {data : Bytes} (hs : s.Serves t sid x)
    (h : (s.served t sid x).checkWrite ⟨sid, x.role⟩ obj sub count data = some st) (hst : st ≠ 0x01) :
    exec (.write t sid obj sub count data) s = .next ((s.served t sid x).emit (.answer sid 0x02 st [])) := by
  have hflags : (⟨0x02, 0, obj, sub, count, data⟩ : GOp).badFlags = false := by simp [GOp.badFlags, bit]
  have hop : (s.served t sid x).opExec ⟨sid, x.role⟩ ⟨0x02, 0, obj, sub, count, data⟩ = (s.served t sid x, st, []) := by
    simp only [State.opExec, hflags, h]
  change Host.Outcome.next _ = _
  rw [opRow_served hs (show (0x02 : Nat) ≠ 0x11 by decide), hop]

/-! ## Staging -/

/-- The commands that staging checks are no staged objects. -/
theorem not_rs_of_command {obj sub : Nat} {d : Desc} (hobj : obj = 0xB010 ∨ obj = 0xB060 ∨ obj = 0x2021)
    (hd : lookup obj sub = some d) : d.acc ≠ .rs := by
  have hrows (o : Nat) (hview : viewOf o = none) (hall : ∀ d ∈ areaTable (o / 4096), d.num = o → d.acc ≠ .rs) (hd : lookup o sub = some d) :
      d.acc ≠ .rs := by
    unfold lookup at hd
    rw [hview] at hd
    have hnum : d.num = o := by
      have h := List.find?_some hd
      simp only [Bool.and_eq_true, decide_eq_true_eq] at h
      exact h.1.1
    exact hall d (List.mem_of_find?_eq_some hd) hnum
  obtain rfl | rfl | rfl := hobj
  · exact hrows _ (by decide) (by decide) hd
  · exact hrows _ (by decide) (by decide) hd
  · exact hrows _ (by decide) (by decide) hd

theorem checkStage_rs {s : State} {sid obj : Nat} (hobj : ¬ (obj = 0xB010 ∨ obj = 0xB060 ∨ obj = 0x2021)) :
    s.checkStage sid obj true = first (refuseIf s.dict.isSealed 0x17) (refuseIf (s.dict.owner != 0 && s.dict.owner != sid) 0x16) := by
  rw [not_or, not_or] at hobj
  obtain ⟨h1, h2, h3⟩ := hobj
  simp [State.checkStage, h1, h2, h3]

theorem moves_stageVal {sid obj sub : Nat} {v : Val} {s : State} : Moves [.dict, .seqr] s (s.stageVal sid obj sub v) :=
  .ite (fun _ => (moves_modDict (by decide)).trans (moves_modSeqr (by decide))) fun _ => moves_modDict (by decide)

theorem stageVal_dict (sid obj sub : Nat) (v : Val) (s : State) :
    (s.stageVal sid obj sub v).dict = { s.dict with shadow := mapPut s.dict.shadow (okey obj sub) v, owner := sid } := by
  unfold State.stageVal
  dsimp only
  split <;> rfl

/-- A command that staging checks is refused where another session owns the unsealed shadow. -/
theorem checkWrite_command_locked {s : State} {sid obj : Nat} {x : Session} {d : Desc} (hd : leafOf obj 0 = some d)
    (hobj : objExists obj = true ∧ noWrite d 0 = false ∧ d.ty ≠ .blob ∧ valueOk d.ty 1 = true ∧ d.accepts 0 1 = true ∧
      1 < 2 ^ (8 * d.ty.width)) (hr : writeRole obj ≤ x.role) (hstate : s.stateRefuses obj 0 1 = none)
    (hstage : s.checkStage sid obj (d.acc = .rs) = some 0x16) :
    s.checkWrite ⟨sid, x.role⟩ obj 0 1 (toLE d.ty.width 1) = some 0x16 := by
  obtain ⟨he, hopen, hty, hvalue, hrange, hn⟩ := hobj
  rw [checkWrite_one he hd hopen hr hty hvalue hrange hn, hstate, hstage]
  rfl

theorem checkStage_discard_locked {s : State} {sid : Nat} {rs : Bool} (hunsealed : s.dict.isSealed = false) (howned : s.dict.owner ≠ 0)
    (hother : s.dict.owner ≠ sid) : s.checkStage sid 0x2021 rs = some 0x16 := by
  simp [State.checkStage, hunsealed, howned, hother, refuseIf, first]

theorem checkStage_commit_locked {s : State} {sid : Nat} {rs : Bool} (hunsealed : s.dict.isSealed = false) (howned : s.dict.owner ≠ 0)
    (hother : s.dict.owner ≠ sid) (htrans : s.seqr.trans = none) : s.checkStage sid 0xB010 rs = some 0x16 := by
  simp [State.checkStage, State.commitBusy, hunsealed, howned, hother, htrans, refuseIf, first]

/-- Settles O50: the checks end with staging, and a value that meets them goes into the shadow. -/
theorem stagedWritesWait : Obligations.StagedWritesWait := by
  rintro s v t sid obj sub n x hs rfl
  refine ⟨fun d he hleaf hrow hview hrs hty hopen hrole hvalue hrange hn hstate => ?_, fun hrole hunsealed howned hother => ?_⟩
  · have hobj : ¬ (obj = 0xB010 ∨ obj = 0xB060 ∨ obj = 0x2021) := fun h => not_rs_of_command h hrow hrs
    have hcheck : (s.served t sid x).checkWrite ⟨sid, x.role⟩ obj sub 1 (toLE d.ty.width n) =
        first (refuseIf (s.served t sid x).dict.isSealed 0x17)
          (refuseIf ((s.served t sid x).dict.owner != 0 && (s.served t sid x).dict.owner != sid) 0x16) := by
      rw [checkWrite_one he hleaf hopen hrole hty hvalue hrange hn, hstate, first_none, decide_eq_true hrs, checkStage_rs hobj]
      simp [State.checkDisagree, hview, refuseIf, first]
      split <;> simp_all
    refine ⟨fun hunsealed hfree => ?_, fun hunsealed howned hother => ?_, fun hsealed => ?_⟩
    · have haccepts : (s.served t sid x).Accepts sid x obj sub d.ty.width n := by
        refine hcheck.trans ?_
        obtain h | h := hfree <;> simp [hunsealed, h, refuseIf]
      have hone : (s.served t sid x).writeOne sid obj sub n = ((s.served t sid x).stageVal sid obj sub (nv n), 0x02) := by
        simp only [State.writeOne, hrow, hrs]
      refine ⟨_, congrArg Host.Outcome.next ((writeRow_served hs hleaf rfl hn haccepts).trans (by rw [hone])), ?_, ?_, ?_,
        moves_stageVal.frame⟩ <;> rw [stageVal_dict]
    · exact exec_write_refused hs (hcheck.trans (by simp [hunsealed, howned, hother, refuseIf])) (by decide)
    · exact exec_write_refused hs (hcheck.trans (by simp [hsealed, refuseIf])) (by decide)
  · have hdiscard := checkWrite_command_locked (s := s.served t sid x) (sid := sid) (obj := 0x2021) (x := x) rfl (by decide) hrole
      rfl (checkStage_discard_locked hunsealed howned hother)
    refine ⟨exec_write_refused hs hdiscard (by decide), fun htrans => ?_⟩
    have hcommit := checkWrite_command_locked (s := s.served t sid x) (sid := sid) (obj := 0xB010) (x := x) rfl (by decide) hrole
      rfl (checkStage_commit_locked hunsealed howned hother htrans)
    exact exec_write_refused hs hcommit (by decide)

/-! ## A state request of SAFE (R31) -/

/-- Session 1 of role SERVICE, with a key. -/
def serviceSession : Session := { id := 1, role := 3, key := [], isPending := false }

/-- STANDBY with the die released, the firmware running and one session open. -/
def standbyHost : State := ((State.reset.modMews fun m => { m with dev := .standby, held := false }).modFirm fun f =>
  { f with running := true }).modGysol fun g => { g with sessions := [serviceSession] }

theorem standbyHost_serves : standbyHost.Serves 0 1 serviceSession := ⟨by decide +kernel, by decide +kernel, by decide +kernel⟩

theorem standbyHost_accepts_safe : (standbyHost.served 0 1 serviceSession).Accepts 1 serviceSession 0x0011 0 1 6 := by
  unfold State.Accepts
  decide +kernel

/-- A request of SAFE that the table allows enters SAFE. -/
theorem runCmd_safe {s : State} (hdev : s.mews.dev ≠ .mews) (hheld : s.mews.held = false) :
    s.runCmd 0x0011 0 6 = (s.enterSafe 4, 0) := by
  simp [State.runCmd, State.stateRequest, hdev, hheld]

/-- Refutes O55: in STANDBY a request of SAFE is answered OK and the device state stays STANDBY. -/
theorem not_stateRequestsFollowTheTable : ¬ Obligations.StateRequestsFollowTheTable := by
  intro h
  obtain ⟨_, _, _, hrequest⟩ := h standbyHost _ 0 1 serviceSession standbyHost_serves rfl (by decide)
  have hstandby : (standbyHost.served 0 1 serviceSession).mews.dev = .standby := by decide +kernel
  have hheld : (standbyHost.served 0 1 serviceSession).mews.held = false := by decide +kernel
  obtain ⟨w, hw, hsafe, _⟩ := hrequest (by rw [hstandby]; decide) hheld
  have hrow := writeRow_command standbyHost_serves (d := ⟨0x0011, .scalar, 0, 0, 0, .enum8, .wc, false, 0, .one [0, 2, 3, 6]⟩)
    (by decide) (by decide) rfl rfl (by decide) standbyHost_accepts_safe
  generalize standbyHost.served 0 1 serviceSession = v at *
  rw [runCmd_safe (by rw [hstandby]; decide) hheld] at hrow
  have hsame : (v.enterSafe 4).commandDone 1 0x0011 0 0 = w.emit (.answer 1 0x02 0 []) := Host.Outcome.next.inj ((congrArg _ hrow).symm.trans hw)
  have hdev : w.mews.dev = .standby := calc
    (w.emit (.answer 1 0x02 0 [])).mews.dev = ((v.enterSafe 4).commandDone 1 0x0011 0 0).mews.dev := congrArg (fun s : State => s.mews.dev) hsame.symm
    _ = (v.enterSafe 4).mews.dev := rfl
    _ = .standby := (enterSafe_dev 4 v).trans hstandby
  rw [hdev] at hsafe
  cases hsafe

end Sys2Proof.Machine
end

section
set_option Elab.async false
/-! PROOFS. Chunks out of order and wrong CRCs (R54). -/

namespace Sys2Proof.Machine

/-! ## The layout of a chunk's operation -/

/-- The data of a BLOB_WRITE: the offset, the chunk and, at LAST, the CRC (R54). -/
def blobData (offset : Nat) (chunk : Bytes) (last : Bool) (crc : Nat) : Bytes :=
  toLE 4 offset ++ chunk ++ if last then toLE 4 crc else []

/-- The operation of a BLOB_WRITE. -/
def blobOp (obj sub offset : Nat) (chunk : Bytes) (last : Bool) (crc : Nat) : GOp :=
  ⟨0x05, 2 * b2n last, obj, sub, 1, blobData offset chunk last crc⟩

theorem bit_lastFlag (last : Bool) : bit (2 * b2n last) 1 = last := by
  cases last
  · rfl
  · exact Nat.testBit_two_pow_self (n := 1)

theorem blobOp_goodFlags (obj sub offset : Nat) (chunk : Bytes) (last : Bool) (crc : Nat) :
    (⟨0x05, 2 * b2n last, obj, sub, 1, blobData offset chunk last crc⟩ : GOp).badFlags = false := by
  cases last <;> simp [GOp.badFlags, bit, b2n]

theorem length_blobData (offset : Nat) (chunk : Bytes) (last : Bool) (crc : Nat) :
    (blobData offset chunk last crc).length = chunk.length + if last then 8 else 4 := by
  cases last <;> simp [blobData, length_toLE] <;> omega

theorem leAt_blobData_offset {offset : Nat} (h : offset < 2 ^ 32) (chunk : Bytes) (last : Bool) (crc : Nat) :
    leAt (blobData offset chunk last crc) 0 4 = offset := by
  rw [blobData, List.append_assoc]
  exact leAt_front 4 _ _ h

theorem chunk_of_blobData (offset : Nat) (chunk : Bytes) (last : Bool) (crc : Nat) :
    ((blobData offset chunk last crc).drop 4).take ((blobData offset chunk last crc).length - 4 - if last then 4 else 0) = chunk := by
  have hlen : (blobData offset chunk last crc).length - 4 - (if last then 4 else 0) = chunk.length := by
    rw [length_blobData]
    cases last <;> simp
  rw [hlen, blobData, List.append_assoc, drop_toLE, List.take_left]

theorem leAt_blobData_crc {crc : Nat} (h : crc < 2 ^ 32) (offset : Nat) (chunk : Bytes) :
    leAt (blobData offset chunk true crc) ((blobData offset chunk true crc).length - 4) 4 = crc := by
  have hback := leAt_back 4 crc (toLE 4 offset ++ chunk) h
  have hlen : (toLE 4 offset ++ chunk).length = (blobData offset chunk true crc).length - 4 := by
    rw [length_blobData, List.length_append, length_toLE, if_pos rfl]
    omega
  rwa [hlen] at hback

/-! ## Chunks that are refused -/

section
variable {v : State} {sid obj sub offset crc : Nat} {x : Session} {d : Desc} {before chunk : Bytes} {last : Bool}

/-- Nothing before the stream's own checks refuses a chunk that its object takes. -/
theorem blobOp_checked (h : v.TakesChunk sid x obj sub d before chunk) :
    first (checkObject obj sub 1) (first (checkRole x.role obj sub 1)
      (first (refuseIf (false || !(Option.any (fun d => decide (d.ty = .blob)) (some d)) ||
        decide ((blobData offset chunk last crc).length < if last then 8 else 4)) 0x13) (refuseIf false 0x14))) = none := by
  rw [h.exists_, h.role, length_blobData, Option.any_some, h.blob]
  simp [refuseIf, first]

/-- A chunk whose offset is not the end of its stream ends the stream. -/
theorem opBlobWrite_out_of_order (h : v.TakesChunk sid x obj sub d before chunk) (hoffset : offset < 2 ^ 32)
    (hne : offset ≠ before.length) :
    v.opBlobWrite ⟨sid, x.role⟩ (blobOp obj sub offset chunk last crc) = (v.closeStream (okey obj sub), 0x18) := by
  obtain ⟨hbefore, _⟩ := takesChunk_facts h
  have hchecks := blobOp_checked (offset := offset) (last := last) (crc := crc) h
  unfold State.opBlobWrite blobOp
  simp only [bit_lastFlag, blobOp_goodFlags, h.leaf, hbefore, leAt_blobData_offset hoffset, bne_iff_ne.mpr hne, bne_self_eq_false, Bool.or_true, if_true]
  simp only [hchecks]

/-- A last chunk in order with a wrong CRC ends the stream. -/
theorem opBlobWrite_wrong_crc (h : v.TakesChunk sid x obj sub d before chunk) (hbound : before.length < 2 ^ 32) (hcrc : crc < 2 ^ 32)
    (hne : crc ≠ crc32c (before ++ chunk)) :
    v.opBlobWrite ⟨sid, x.role⟩ (blobOp obj sub before.length chunk true crc) =
      ((v.headerArrives obj sub before (before ++ chunk)).closeStream (okey obj sub), 0x19) := by
  obtain ⟨hbefore, howned, hheader, herror, hlong⟩ := takesChunk_facts h
  have hchecks := blobOp_checked (offset := before.length) (last := true) (crc := crc) h
  have hchunk := chunk_of_blobData before.length chunk true crc
  simp only [if_true] at hchecks hchunk
  unfold State.opBlobWrite blobOp
  simp only [bit_lastFlag, blobOp_goodFlags, h.leaf, hbefore, howned, leAt_blobData_offset hbound, bne_self_eq_false, hchunk, hheader,
    leAt_blobData_crc hcrc, bne_iff_ne.mpr hne.symm, Bool.or_self, Bool.not_true, Bool.false_eq_true, if_false, if_true]
  simp only [hchecks, herror, hlong, Bool.false_eq_true, if_false]

end

/-! ## What a graphics header moves -/

theorem gfxStart_dict (g : Nat) (s : State) : (s.gfxStart g).dict = s.dict := by
  unfold State.gfxStart
  split <;> rfl

theorem headerArrives_dict (obj sub : Nat) (before whole : Bytes) (s : State) :
    (s.headerArrives obj sub before whole).dict = s.dict := by
  unfold State.headerArrives State.gfxHeader
  split
  · split
    · exact gfxStart_dict _ _
    · rfl
  · rfl

theorem headerArrives_of_ne {obj : Nat} (h : obj ≠ 0x6032) (sub : Nat) (before whole : Bytes) (s : State) :
    s.headerArrives obj sub before whole = s := by
  simp [State.headerArrives, headerDone, h]

/-- Settles O54: the order and the CRC are judged before any value is written. -/
theorem badBlobsLeaveTheValue : Obligations.BadBlobsLeaveTheValue := by
  rintro s v h t sid obj sub offset crc x d before chunk last hs rfl htakes hbound hoffset hcrc rfl
  have hrow : exec (.blobWrite t sid obj sub offset chunk last crc) s =
      .next (((s.served t sid x).opBlobWrite ⟨sid, x.role⟩ (blobOp obj sub offset chunk last crc)).1.emit
        (.answer sid 0x05 ((s.served t sid x).opBlobWrite ⟨sid, x.role⟩ (blobOp obj sub offset chunk last crc)).2 [])) :=
    congrArg Host.Outcome.next (opRow_served hs (o := blobOp obj sub offset chunk last crc) (show (0x05 : Nat) ≠ 0x11 by decide))
  refine ⟨fun hne => ?_, fun horder hlast hne => ?_, headerArrives_dict .., fun hobj => headerArrives_of_ne hobj ..⟩
  · rw [hrow, opBlobWrite_out_of_order htakes hoffset hne]
  · subst horder hlast
    rw [hrow, opBlobWrite_wrong_crc htakes hbound hcrc hne]

end Sys2Proof.Machine
end

section
set_option Elab.async false
/-! PROOFS. Request frames over UDP: forged ones (R73), replayed ones (R62, R63) and atomic ones (R57). -/

namespace Sys2Proof.Machine

/-! ## A frame that is served at once -/

theorem readReq_fields {b : Bytes} {q : GReq} (h : readReq b = some q) : q.node = leAt b 8 2 ∧ q.view = false := by
  simp only [readReq, Option.ite_none_left_eq_some, Option.map_eq_some_iff] at h
  obtain ⟨_, ops, _, rfl⟩ := h
  exact ⟨rfl, rfl⟩

theorem pumpFrames_empty {s : State} (h : s.gysol.queue = []) (n : Nat) : s.pumpFrames n = s := by
  cases n with
  | zero => rfl
  | succ n => simp only [State.pumpFrames, h]

/-- A frame that finds an empty queue and need not wait is taken out again and served. -/
theorem pump_enqueue {s : State} {f : QFrame} (hempty : s.gysol.queue = []) (hfree : s.firm.restartUntil ≤ s.now)
    (hwait : s.atomicWaits f.bytes = false) : (s.enqueue f).pump = (s.serveFrame f).pumpFrames 31 := by
  have hback : (s.modGysol fun g => { g with queue := [f] }).modGysol (fun g => { g with queue := [] }) = s := by
    change { s with gysol := { s.gysol with queue := [] } } = s
    rw [← hempty]
  have hnext : (s.modGysol fun g => { g with queue := [f] }).pumpFrames 32 =
      if (decide (s.now < s.firm.restartUntil) || s.atomicWaits f.bytes) = true then s.modGysol fun g => { g with queue := [f] }
      else (((s.modGysol fun g => { g with queue := [f] }).modGysol fun g => { g with queue := [] }).serveFrame f).pumpFrames 31 := rfl
  have hqueue : s.enqueue f = s.modGysol fun g => { g with queue := [f] } := by
    rw [enqueue_of_room (by rw [hempty]; decide), State.modGysol, State.modGysol, hempty, List.nil_append]
  rw [hqueue, State.pump, hnext, hback, hwait, decide_eq_false (Nat.not_lt.mpr hfree)]
  rfl

theorem serveFrame_udp {s : State} {addr : Nat} {frame : Bytes} {q : GReq} (h : readReq frame = some q) :
    s.serveFrame ⟨.udp, addr, frame⟩ = s.serveHost .udp addr q := by
  unfold State.serveFrame
  simp only [h]
  exact if_neg nofun

/-- A frame that this node serves at once, and that leaves the queue empty. -/
theorem request_gets {s : State} {addr : Nat} {frame : Bytes} {q : GReq} (hg : s.Gets frame q)
    (hempty : (s.serveHost .udp addr q).gysol.queue = []) : s.request .udp addr frame false = s.serveHost .udp addr q := by
  obtain ⟨hnode, _⟩ := readReq_fields hg.parsed
  have hhere : leAt frame 8 2 = 0 ∨ leAt frame 8 2 = s.uane.node := by
    rw [← hnode]
    exact hg.here
  have hrequest : s.request .udp addr frame false = (s.enqueue ⟨.udp, addr, frame⟩).pump := request_own_node hg.running hhere
  have hpump : (s.enqueue ⟨.udp, addr, frame⟩).pump = (s.serveHost .udp addr q).pumpFrames 31 := by
    rw [pump_enqueue (f := ⟨.udp, addr, frame⟩) hg.empty hg.free hg.noWait, serveFrame_udp hg.parsed]
  exact hrequest.trans (hpump.trans (pumpFrames_empty hempty 31))

theorem exec_gysolRequest_gets {s u w : State} {t addr : Nat} {frame : Bytes} {q : GReq} (hu : u = s.advance t) (hg : u.Gets frame q)
    (hw : u.serveHost .udp addr q = w) (hempty : w.gysol.queue = []) :
    exec (.gysolRequest t .udp addr u.gysol.netPort true frame false) s = .next w := by
  subst hu hw
  rw [exec_gysolRequest_heard fun _ => ⟨rfl, rfl⟩, request_gets hg hempty]

/-! ## Frames that are dropped (R73) -/

/-- A frame with a tag and no session, or the other way round, is dropped; so is one that no key of its session signs. -/
theorem serveHost_forged {s : State} {addr : Nat} {frame : Bytes} {q : GReq} (hg : s.Gets frame q) (hf : s.Forged q) :
    s.serveHost .udp addr q = s.authDrop .udp := by
  obtain ⟨_, hview⟩ := readReq_fields hg.parsed
  have hsame : { q with view := false } = q := by rw [← hview]
  have hopen : (q.ops.any fun o => decide (o.code = 0x10)) = false := by simpa using hg.noOpen
  have hlimit : ¬ 1400 < q.len := Nat.not_lt.mpr hg.length
  unfold State.serveHost
  simp only [hg.noView, Option.any_none, Bool.and_false, hsame]
  simp only [hg.version, bne_self_eq_false, Bool.false_eq_true, if_false, payloadLimit, hlimit, hopen]
  obtain ⟨htag, hsid⟩ | ⟨htag, hsid⟩ | ⟨htag, hsid, x, hx, hkeys⟩ := hf
  · simp [htag, hsid]
  · simp [htag, hsid]
  · have hold : frameTag x.key (tagNum (extend x.last q.seq)) q.body ≠ q.tag := hkeys _ (.inl rfl)
    cases hnew : x.newKey with
    | none => simp [htag, hsid, hx, hnew, hold]
    | some k =>
      have hnext : frameTag k (tagNum (extend x.last q.seq)) q.body ≠ q.tag := hkeys _ (.inr hnew)
      simp [htag, hsid, hx, hnew, hold, hnext]

/-- The request queue, the count of dropped frames and every replay window are the same. -/
def SameHost (s t : State) : Prop :=
  t.gysol.queue = s.gysol.queue ∧ t.gysol.authFail = s.gysol.authFail ∧ t.replayWindows = s.replayWindows

theorem SameHost.refl (s : State) : SameHost s s := ⟨rfl, rfl, rfl⟩

theorem SameHost.trans {r s t : State} (h : SameHost r s) (k : SameHost s t) : SameHost r t := by
  obtain ⟨hq, ha, hw⟩ := h
  obtain ⟨kq, ka, kw⟩ := k
  exact ⟨kq.trans hq, ka.trans ha, kw.trans hw⟩

/-- A push joins its session's queue and leaves the session's replay window. -/
theorem push_replayWindows (now : Nat) (r : EvRec) (g : Gysol) :
    ((g.push now r).sessions.map fun x => (x.id, x.last, x.executed, x.cache)) =
      g.sessions.map fun x => (x.id, x.last, x.executed, x.cache) := by
  simp only [Gysol.push, List.map_map]
  refine List.map_congr_left fun x _ => ?_
  simp only [Function.comp]
  split <;> rfl

theorem sameHost_captureRecord (s : State) (o : Occ) : SameHost s (s.captureRecord o) := by
  unfold State.captureRecord
  split
  · exact ⟨rfl, rfl, push_replayWindows ..⟩
  · exact .refl s

theorem sameHost_raiseLimited (rcd : Bool) (code inst data : Nat) (s : State) : SameHost s (s.raiseLimited rcd code inst data) :=
  captureFor_keeps .refl .trans sameHost_captureRecord (fun _ _ _ => ⟨rfl, rfl, rfl⟩) (fun _ _ _ => ⟨rfl, rfl, rfl⟩) _ _ s

/-- A dropped frame is counted, and its event moves nothing else of the host interface. -/
theorem sameHost_authDrop (tr : Transport) (s : State) :
    SameHost (s.modGysol fun g => { g with authFail := (s.gysol.authFail + 1) % 2 ^ 32 }) (s.authDrop tr) := by
  unfold State.authDrop
  refine .trans ?_ (sameHost_raiseLimited ..)
  exact ⟨rfl, rfl, rfl⟩

theorem onlyMoves_authDrop (tr : Transport) (s : State) : OnlyMoves [] s (s.authDrop tr) :=
  (onlyMoves_modGysol [] _ s).trans (onlyMoves_raiseLimited [] _ _ _ _ _)

/-- Settles O51: the frame ends in `State.authDrop`, which counts it and raises its event. -/
theorem forgedFramesAreDropped : Obligations.ForgedFramesAreDropped := by
  intro s u t addr frame q hu hg hf
  obtain ⟨hqueue, hfail, hwindows⟩ := sameHost_authDrop .udp u
  have hempty : (u.authDrop .udp).gysol.queue = [] := hqueue.trans hg.empty
  exact ⟨_, exec_gysolRequest_gets hu hg (serveHost_forged hg hf) hempty, onlyMoves_authDrop .udp u, hfail, hwindows, hempty⟩

/-! ## Requests of a session (R62, R63) -/

/-- A request of a session with a good tag is judged by its number. -/
theorem serveHost_in {s : State} {addr : Nat} {frame : Bytes} {q : GReq} {x : Session} {e : Int} (hi : s.GetsIn frame q x e) :
    s.serveHost .udp addr q = s.serveSession .udp addr q x x.key e := by
  obtain ⟨hg, htag, hsid, hx, hone, rfl, hgood⟩ := hi
  obtain ⟨_, hview⟩ := readReq_fields hg.parsed
  have hsame : { q with view := false } = q := by rw [← hview]
  have hopen : (q.ops.any fun o => decide (o.code = 0x10)) = false := by simpa using hg.noOpen
  have hlimit : ¬ 1400 < q.len := Nat.not_lt.mpr hg.length
  unfold State.serveHost
  simp only [hg.noView, Option.any_none, Bool.and_false, hsame]
  simp only [hg.version, bne_self_eq_false, Bool.false_eq_true, if_false, payloadLimit, hlimit, hopen]
  simp [htag, hsid, hx, hone, hgood, hg.one]

/-- The session counts as used by a request over UDP (R74, R77). -/
def State.usedBy (x : Session) (addr : Nat) (s : State) : State :=
  s.modSession x.id fun y => { y.touch s.now .udp addr x.key with view := false }

theorem usedBy_replayWindows (x : Session) (addr : Nat) (s : State) : (s.usedBy x addr).replayWindows = s.replayWindows := by
  change ((s.gysol.sessions.map _).map _) = _
  rw [List.map_map]
  refine List.map_congr_left fun y _ => ?_
  simp only [Function.comp]
  split <;> rfl

/-- A frame sent over UDP where the network has a next hop. -/
theorem gsend_udp {s : State} {addr kind hop : Nat} {b : Bytes} (h : s.nextHop (addr / 65536) = some hop) :
    s.gsend .udp addr kind b = s.emit (.gysol .udp addr hop b) := by
  simp only [State.gsend, h]

section
variable {s : State} {addr : Nat} {q : GReq} {x : Session} {e : Int}

/-- The response to a request that was executed: the cached one, or DUPLICATE for another request under its number. -/
theorem serveSession_executed (hview : q.view = false) (hlow : (x.last : Int) - 63 ≤ e) (hhigh : e ≤ x.last) (hran : e ∈ x.executed)
    {crc : Nat} {resp : Bytes} (hcache : x.cache.find? (fun p => p.1 = e) = some (e, crc, resp)) :
    s.serveSession .udp addr q x x.key e = (s.usedBy x addr).gsend .udp addr 1 (withTag x.key (tagNum e)
      (if crc = q.crc then setFlags 0x08#8 resp else s.reply q 0x21 [])) := by
  have hseen : (decide ((x.last : Int) - 63 ≤ e) && decide (e ≤ x.last) && x.executed.contains e) = true := by simp [hlow, hhigh, hran]
  unfold State.serveSession State.usedBy
  simp only [hview, hseen, hcache, Bool.false_eq_true, if_false, if_true]
  split <;> rfl

theorem serveSession_old (hview : q.view = false) (hold : e < (x.last : Int) - 63) :
    s.serveSession .udp addr q x x.key e = (s.usedBy x addr).gsend .udp addr 1 (withTag x.key (tagNum e) (s.reply q 0x20 [])) := by
  have hseen : (decide ((x.last : Int) - 63 ≤ e) && decide (e ≤ x.last) && x.executed.contains e) = false := by
    simp [Int.not_le.mpr hold]
  unfold State.serveSession State.usedBy
  simp only [hview, hseen, hold, Bool.false_eq_true, if_false, if_true]

end

/-- A frame sent to the user of a session moves nothing but the outputs. -/
theorem usedBy_sends {s u : State} {t addr hop : Nat} {frame b : Bytes} {q : GReq} {x : Session} {e : Int} (hu : u = s.advance t)
    (hi : u.GetsIn frame q x e) (hhop : u.nextHop (addr / 65536) = some hop)
    (hserved : u.serveSession .udp addr q x x.key e = (u.usedBy x addr).gsend .udp addr 1 b) :
    ∃ w, exec (.gysolRequest t .udp addr u.gysol.netPort true frame false) s = .next w ∧ OnlyMoves [.outs] u w ∧ w.xrds = u.xrds ∧
      w.replayWindows = u.replayWindows ∧ w.outs = u.outs ++ [.gysol .udp addr hop b] := by
  have hsent : (u.usedBy x addr).gsend .udp addr 1 b = (u.usedBy x addr).emit (.gysol .udp addr hop b) := gsend_udp hhop
  exact ⟨_, exec_gysolRequest_gets hu hi.gets ((serveHost_in hi).trans (hserved.trans hsent)) hi.gets.empty,
    (onlyMoves_modGysol [.outs] _ u).trans (onlyMoves_emit (by decide) _ _), rfl, usedBy_replayWindows x addr u, rfl⟩

/-- Settles O52: the replay window judges the number before anything runs. -/
theorem replayedRequestsRunOnce : Obligations.ReplayedRequestsRunOnce := by
  intro s u t addr hop frame q x e hu hi hhop
  have hview : q.view = false := (readReq_fields hi.gets.parsed).2
  refine ⟨fun hlow hhigh hran => ⟨fun resp hcache => ?_, fun crc resp hcache hcrc => ?_⟩, fun hold => ?_⟩
  · have hserved := serveSession_executed (s := u) (addr := addr) hview hlow hhigh hran hcache
    rw [if_pos rfl] at hserved
    exact usedBy_sends hu hi hhop hserved
  · have hserved := serveSession_executed (s := u) (addr := addr) hview hlow hhigh hran hcache
    rw [if_neg hcrc] at hserved
    exact usedBy_sends hu hi hhop hserved
  · exact usedBy_sends hu hi hhop (serveSession_old hview hold)

/-! ## Atomic requests (R57) -/

/-- The head of an operation's answer that carries no data, as the parser of operations reads it. -/
theorem response_head (o : GOp) (st : Nat) (rest : Bytes) :
    leAt (o.response st [] ++ rest) 0 1 = o.code % 256 ∧ leAt (o.response st [] ++ rest) 1 1 = st % 256 ∧
      leAt (o.response st [] ++ rest) 6 2 = 0 ∧ (o.response st [] ++ rest).length = 8 + rest.length ∧
      (o.response st [] ++ rest).drop 8 = rest := by
  simp [GOp.response, toLE, pad4, padLen, leAt, slice, ofLE, Nat.add_comm 8]

/-- Answers without data are read back one for one. -/
theorem parseOps_responses (status : GOp → Nat) (os : List GOp) :
    ∃ rs, parseOps os.length (os.map fun o => o.response (status o) []).flatten = some rs ∧
      ∀ r ∈ rs, ∃ o ∈ os, r.code = o.code % 256 ∧ r.flags = status o % 256 := by
  induction os with
  | nil => exact ⟨[], rfl, nofun⟩
  | cons o os ih =>
    obtain ⟨rs, hparse, hrs⟩ := ih
    obtain ⟨hcode, hflags, hdata, hlength, hrest⟩ :=
      response_head o (status o) (os.map fun o => o.response (status o) []).flatten
    rw [List.map_cons, List.flatten_cons]
    generalize o.response (status o) [] ++ (os.map fun o => o.response (status o) []).flatten = b at *
    have hfits : ¬ b.length < 8 := by omega
    refine ⟨⟨leAt b 0 1, leAt b 1 1, leAt b 2 2, leAt b 4 1, leAt b 5 1, slice b 8 0⟩ :: rs, ?_, fun r hr => ?_⟩
    · simp only [List.length_cons, parseOps, hdata, show 8 + 0 + padLen 0 = 8 from rfl, hfits, if_false, hrest, hparse, Option.map_some]
    · obtain rfl | hr := List.mem_cons.mp hr
      · exact ⟨o, List.mem_cons_self, hcode, hflags⟩
      · obtain ⟨o', ho', h⟩ := hrs r hr
        exact ⟨o', List.mem_cons_of_mem o ho', h⟩

/-- A response whose operations answer SESSION_CLOSE with a status closes no session. -/
theorem closes_responses {status : GOp → Nat} {os : List GOp} (h : ∀ o ∈ os, o.code % 256 = 0x11 → status o % 256 ≠ 0)
    (s : State) (q : GReq) (hn : q.ops.length = os.length) :
    closes q.ops.length (s.reply q 0 (os.map fun o => o.response (status o) []).flatten) = false := by
  obtain ⟨rs, hparse, hrs⟩ := parseOps_responses status os
  have hpayload (b : Bytes) : (s.reply q 0 b).drop 16 = b := by
    refine List.drop_left' ?_
    simp [length_toLE]
  have hnone : (rs.any fun r => decide (r.code = 0x11) && decide (r.flags = 0)) = false := by
    simp only [List.any_eq_false, Bool.and_eq_true, decide_eq_true_eq, not_and]
    intro r hr hclose
    obtain ⟨o, ho, hcode, hflags⟩ := hrs r hr
    rw [hflags]
    exact h o ho (hcode ▸ hclose)
  simp only [closes, hpayload, hn, hparse, Option.any_some, hnone]

/-- A SESSION_CLOSE, or a code that no operation has, that fails an atomic request is answered with its status. -/
theorem opExec_close_status {s : State} {c : Caller} {o : GOp} (hcode : o.code % 256 = 0x11)
    (hfails : atomicFails o (s.opExec c o).2.1 = true) : (s.opExec c o).2.1 % 256 ≠ 0 := by
  have hstatus : (s.opExec c o).2.1 ∈ [0x00, 0x10, 0x11, 0x13, 0x14, 0x23] := by
    unfold State.opExec
    split
    case h_9 => simp only [GOp.plain, first, refuseIf]; grind
    case h_10 => simp
    all_goals simp_all
  simp only [List.mem_cons, List.not_mem_nil, or_false] at hstatus
  obtain h | h | h | h | h | h := hstatus <;> simp_all [atomicFails]

/-- What a failing operation answers in an atomic request, and NOT_RUN for every other. -/
def atomicStatus (s : State) (c : Caller) (o : GOp) : Nat :=
  if atomicFails o (s.opExec c o).2.1 = true then (s.opExec c o).2.1 else 0x1A

theorem response_atomicStatus (s : State) (c : Caller) (o : GOp) : o.response (atomicStatus s c o) [] =
    if atomicFails o (s.opExec c o).2.1 = true then o.response (s.opExec c o).2.1 [] else o.response 0x1A [] := by
  unfold atomicStatus
  split <;> rfl

theorem runRequest_fails {s : State} {c : Caller} {limit : Nat} {os : List GOp}
    (h : ∃ o ∈ os, atomicFails o (s.opExec c o).2.1 = true) :
    s.runRequest c limit true os = (s, (os.map fun o => o.response (atomicStatus s c o) []).flatten) := by
  have hany : (os.any fun o => atomicFails o (s.opExec c o).2.1) = true := List.any_eq_true.mpr h
  simp only [State.runRequest, hany, Bool.and_self, if_true, response_atomicStatus]

/-- A new atomic request with a failing operation ends with its answer: nothing runs and no session closes. -/
theorem serveSession_atomic_fails {s : State} {addr : Nat} {q : GReq} {x : Session} {e : Int} (hview : q.view = false)
    (hnew : (x.last : Int) < e) (hdie : q.die = 0xFF) (hatomic : q.atomic = true)
    (hfails : ∃ o ∈ q.ops, atomicFails o ((s.opened x e addr).opExec ⟨x.id, x.role⟩ o).2.1 = true) :
    s.serveSession .udp addr q x x.key e =
      ((s.opened x e addr).modSession x.id (Session.noteRun e q.crc (s.reply q 0
          (q.ops.map fun o => o.response (atomicStatus (s.opened x e addr) ⟨x.id, x.role⟩ o) []).flatten))).gsend .udp addr 1
        (withTag x.key (tagNum e) (s.reply q 0
          (q.ops.map fun o => o.response (atomicStatus (s.opened x e addr) ⟨x.id, x.role⟩ o) []).flatten)) := by
  have hseen : (decide ((x.last : Int) - 63 ≤ e) && decide (e ≤ x.last) && x.executed.contains e) = false := by
    simp [Int.not_le.mpr hnew]
  have hyoung : ¬ e < (x.last : Int) - 63 := by omega
  have hopen : closes q.ops.length (s.reply q 0
      (q.ops.map fun o => o.response (atomicStatus (s.opened x e addr) ⟨x.id, x.role⟩ o) []).flatten) = false := by
    refine closes_responses (fun o _ hcode => ?_) s q rfl
    unfold atomicStatus
    split
    · next hfail => exact opExec_close_status hcode hfail
    · decide
  have hrun := runRequest_fails (limit := payloadLimit .udp) hfails
  unfold State.opened at hrun hopen ⊢
  unfold State.serveSession State.dieOk
  simp only [hview, hseen, hyoung, hdie, hatomic, hrun, hopen, decide_true, Bool.true_or, Bool.not_true, Bool.false_and, Bool.false_eq_true,
    if_false]

/-- Settles O53: the checks of every operation run first, and their failure answers the request. -/
theorem atomicRequestsChangeAllOrNothing : Obligations.AtomicRequestsChangeAllOrNothing := by
  rintro s u v t addr hop frame q x e hu hi hhop rfl hnew hdie hatomic hfails
  have hview : q.view = false := (readReq_fields hi.gets.parsed).2
  have hserved := serveSession_atomic_fails hview hnew hdie hatomic hfails
  simp only [response_atomicStatus] at hserved
  generalize u.reply q 0 _ = answer at *
  have hsent := gsend_udp (s := (u.opened x e addr).modSession x.id (Session.noteRun e q.crc answer)) (kind := 1)
    (b := withTag x.key (tagNum e) answer) (hop := hop) (addr := addr) hhop
  exact ⟨_, exec_gysolRequest_gets hu hi.gets ((serveHost_in hi).trans (hserved.trans hsent)) hi.gets.empty,
    (onlyMoves_modGysol [.outs] _ u).trans ((onlyMoves_modGysol [.outs] _ _).trans ((onlyMoves_modGysol [.outs] _ _).trans
      (onlyMoves_emit (by decide) _ _))), rfl, rfl⟩

end Sys2Proof.Machine
end

section
set_option Elab.async false
/-! PROOFS. The rows of frame memory complete (R95–R140). -/

namespace Sys2Proof.Machine

theorem hbmLaneRepair_now (s : State) (r : Nat × Nat × Nat) : (s.hbmLaneRepair r).now = s.now := captureFor_now ..

theorem hbmLaneRepairs_now (l : List (Nat × Nat × Nat)) (s : State) : (l.foldl State.hbmLaneRepair s).now = s.now :=
  List.foldlRecOn (motive := fun w : State => w.now = s.now) l _ rfl fun w hw r _ => (hbmLaneRepair_now w r).trans hw

theorem hbmTrainingDone_ok {s : State} (h : s.hbm.training ≠ 0) (ch step : Nat) (repairs : List (Nat × Nat × Nat)) (fits : List (Nat × LaneFit)) :
    s.hbmTrainingDone true ch step repairs fits = ((repairs.foldl State.hbmLaneRepair s).modHbm fun h =>
        { h.fitted (h.training = 2) fits with
          training := 0, retrying := false, status := if s.mews.dev = .standby || s.mews.dev = .safe then 3 else 2
          scrubAt := s.now
          chans := (h.fitted (h.training = 2) fits).chans.map fun c =>
            { c with st := 0, recur := 0, retry := [], replay := [], driftAt := s.now } }).dropLease 2 := by
  rw [← hbmLaneRepairs_now repairs s]
  exact if_neg h

theorem hbmTrainingDone_full_failed {s : State} (h : s.hbm.training = 1) (ch step : Nat) (fits : List (Nat × LaneFit)) :
    s.hbmTrainingDone false ch step [] fits = ((s.modHbm fun h => { h with
        training := 0, retrying := false, status := 4, chans := modAt h.chans ch fun c => { c with st := 3 } }).dropLease 2).raise
          0x51 ch step := by
  simp [State.hbmTrainingDone, h]

/-- A replay from which no alert comes leaves its channel on the first replay (R130). -/
theorem hbmReplay_first (ch pc kind n : Nat) (s : State) :
    s.hbmReplay ch pc kind n false = (s.modHbm fun h => { h with chans := modAt h.chans ch fun c => { c with
      replays := (c.replays + 1) % 2 ^ 32, recur := 0, replay := c.retry.drop (c.retry.length - n)
      st := if c.st = 0 && !(c.retry.drop (c.retry.length - n)).isEmpty then 1 else c.st
      parityEvent := if msGap (s.hbm.chans.getD ch {}).parityEvent s.now then some s.now else c.parityEvent } }).raiseLimited
        (msGap (s.hbm.chans.getD ch {}).parityEvent s.now) 0x48 ch (kind % 2 * 32768 + pc % 2 * 256 + n % 256) := by
  simp only [State.hbmReplay, Bool.false_eq_true, if_false]
  exact if_neg (by decide)

theorem modAt_getElem? {α : Type} (l : List α) (i : Nat) (f : α → α) : modAt l i f = (l[i]?.map fun a => setAt l i (f a)).getD l := by
  rw [modAt_eq_modify]
  cases h : l[i]? with
  | none => exact List.modify_eq_self (by simpa using h)
  | some a =>
    obtain ⟨hi, rfl⟩ := List.getElem?_eq_some_iff.mp h
    simp [setAt, h, List.modify_eq_set_getElem?]

/-- Settles O8: each row's guard holds by its conditions, and its effect is the one written out. -/
theorem frameMemoryRowsComplete : Obligations.FrameMemoryRowsComplete := by
  rintro s u t hu
  refine ⟨?trained, ?failed, ?returned, ?noRead, ?copied, ?replayed, ?retrained, ?scrubbed, ?tracked, ?refreshed, ?postponed, ?temperature,
    ?expired, ?timeout⟩
  case trained =>
    rintro ch step repairs fits v htraining rfl
    change execHbmTrainingDone t true ch step repairs fits s = _
    rw [execHbmTrainingDone, ← hu, hbmTrainingDone_ok htraining]
  case failed =>
    intro ch step fits htraining
    change execHbmTrainingDone t false ch step [] fits s = _
    rw [execHbmTrainingDone, ← hu, hbmTrainingDone_full_failed htraining]
  case returned =>
    rintro port severity io v x w haway rfl hread hreplay rfl
    change execHbmReadReturn t port severity io s = _
    simp only [execHbmReadReturn, ← hu, haway, List.foldl_nil, hread, hreplay, Bool.false_eq_true, if_false]
  case noRead =>
    intro port severity io haway hread
    change execHbmReadReturn t port severity io s = _
    simp only [execHbmReadReturn, ← hu, haway, List.foldl_nil, hread]
  case copied =>
    intro n h hshadow hcopying
    change execRowShadowCopyDone t n s = _
    simp only [execRowShadowCopyDone, ← hu, hshadow, hcopying, if_true]
  case replayed =>
    intro chan pc kind n
    change execHbmcParityReplay t chan pc kind n false s = _
    rw [execHbmcParityReplay, ← hu, hbmReplay_first]
  case retrained =>
    intro chan step hst
    have hgo (ok : Bool) : exec (.hbmRetrainDone t chan step ok) s = .next (u.hbmRetrainDone chan step ok) := by rw [hu]; rfl
    rw [hgo, hgo]
    simp only [State.hbmRetrainDone, hst, bne_self_eq_false, Bool.false_eq_true, if_false, if_true, and_self]
  case scrubbed =>
    intro severity hup hdue hidle
    change execHbmScrubPass t severity s = _
    simp only [execHbmScrubPass, ← hu, hup, hdue, hidle, decide_true, Bool.not_false, Bool.and_self, if_true]
  case tracked =>
    intro chan look hup hactive hdue
    subst hu
    exact exec_hbmDriftTrack_due hup hactive (decide_eq_true hdue)
  case refreshed =>
    intro pseudo
    change execHbmRefresh t pseudo false s = _
    simp only [execHbmRefresh, ← hu, Bool.false_and, Bool.false_eq_true, if_false]
  case postponed =>
    intro pseudo hpanic hroom
    change execHbmRefresh t pseudo true s = _
    simp only [execHbmRefresh, ← hu, hpanic, hroom, decide_true, Bool.and_self, if_true]
  case temperature =>
    intro stack temp hhot hwas
    change execHbmStackTempRead t stack temp s = _
    simp only [execHbmStackTempRead, ← hu, hwas, hhot, decide_true, Bool.false_eq_true, if_false]
    rfl
  case expired =>
    rintro stack entry tr htr ⟨e, he, hold⟩
    change execHbmRowTrackerExpiry t stack entry s = _
    simp only [execHbmRowTrackerExpiry, ← hu, State.modHbm, modAt_getElem?, htr, Option.map_some, Option.getD_some, he, hold, if_true]
  case timeout =>
    intro port chan i x hdue hx
    change execHbmcReqTimeout t port chan s = _
    simp only [execHbmcReqTimeout, ← hu, hdue, getD_of_getElem? hx]

end Sys2Proof.Machine
end

section
set_option Elab.async false
/-! PROOFS. The rows of the DisplayPort ports complete (R88–R113). -/

namespace Sys2Proof.Machine

/-- A change at one place of a list is what it makes of the element there. -/
theorem modAt_congr {α : Type} {l : List α} {i : Nat} {f g : α → α} {d : α} (h : f (l.getD i d) = g (l.getD i d)) : modAt l i f = modAt l i g := by
  rw [modAt_getElem?, modAt_getElem?]
  cases hl : l[i]? with
  | none => rfl
  | some a => rw [Option.map_some, Option.map_some, ← getD_of_getElem? hl d, h]

theorem modLayer_congr {s : State} {n : Nat} {f g : VLayer → VLayer} (h : f (s.vlayer n) = g (s.vlayer n)) :
    s.modLayer n f = s.modLayer n g := by
  have hlayers : modAt s.ings.layers n f = modAt s.ings.layers n g := modAt_congr h
  simp only [State.modLayer, State.modIngs, hlayers]

theorem setFirst_of_none {l : VLayer} (h : l.finishing = none) (w : Option Writing) : l.setFirst w = { l with writing := w } :=
  if_neg (by simp [h])

/-- Settles O9: each row's guard holds by its conditions, and its effect is the one written out. -/
theorem ingestRowsComplete : Obligations.IngestRowsComplete := by
  rintro s u t port hu
  refine ⟨?linkUp, ?lockLost, ?retrainTimeout, ?formatChange, ?currency, ?frameStart, ?lineReceived, ?lineAccepted, ?frameEnd, ?staticCopy,
    ?trainFails, ?hotPlug⟩
  case linkUp =>
    intro rate lanes fmt htrain
    change execIngsLinkUp t port rate lanes fmt s = _
    simp only [execIngsLinkUp, ← hu, State.linkUp, htrain, Bool.not_true, Bool.false_eq_true, if_false]
  case lockLost =>
    intro hlocked
    change execDpSymbolLockLost t port s = _
    simp only [execDpSymbolLockLost, ← hu, State.lockLost, Bool.or_eq_true, decide_eq_true_eq, hlocked, if_true]
  case retrainTimeout =>
    intro l hlost htraining hdue
    change execDpRetrainTimeout t port s = _
    simp only [execDpRetrainTimeout, ← hu, State.retrainTimeout, hlost, htraining, hdue, decide_true, Bool.and_self, if_true]
  case formatChange =>
    intro fmt
    change execIngsFormatChange t port fmt s = _
    simp only [execIngsFormatChange, ← hu]
  case currency =>
    intro packet d hpacket hnone
    change execCurrencySdp t port packet s = _
    simp only [execCurrencySdp, ← hu, State.currencySdp, hpacket, hnone, Option.isSome_none, Bool.false_eq_true, if_false]
  case frameStart =>
    intro hgood hlocked
    change execDpFrameStart t port s = _
    simp only [execDpFrameStart, ← hu, State.frameStart, hgood, hlocked, decide_true, Bool.true_or, if_true]
  case lineReceived =>
    rintro f samples v hactive hgood hfmt hkeep hline rfl hroom
    change execDpLineReceived t port samples s = _
    simp only [execDpLineReceived, ← hu, State.lineReceived, hactive, hgood, hfmt, hkeep, Nat.not_le.mpr hline, hroom, Bool.and_self,
      decide_false, Bool.or_self, Bool.false_eq_true, if_false]
    rfl
  case lineAccepted =>
    intro layer line hnone
    change execLineWriteAccepted t layer line s = _
    simp only [execLineWriteAccepted, ← hu, State.lineAccepted]
    exact congrArg _ (modLayer_congr (by simp only [hnone]; rfl))
  case frameEnd =>
    intro f hactive hgood hfmt hkeep hheld
    change execDpFrameEnd t port s = _
    simp only [execDpFrameEnd, ← hu, State.frameEnd, State.heldLine, hactive, hgood, hfmt, hkeep, hheld, Bool.not_true, Bool.or_self,
      Bool.false_eq_true, if_false, if_true]
  case staticCopy =>
    intro layer w v hnone hwriting hversion hcopying
    have hfirst : (u.vlayer layer).first = some w := by rw [VLayer.first, hnone, hwriting]; rfl
    constructor
    · change execStaticCopyComplete t layer true s = _
      simp only [execStaticCopyComplete, ← hu, State.staticCopyDone, hfirst, hversion, hcopying, Bool.not_true, Bool.false_eq_true, if_false]
      exact congrArg _ (modLayer_congr (setFirst_of_none hnone _))
    · change execStaticCopyComplete t layer false s = _
      simp only [execStaticCopyComplete, ← hu, State.staticCopyDone, hfirst, hversion, hcopying, hnone, Bool.not_true, Bool.not_false,
        Option.isSome_none, Bool.false_eq_true, if_false, if_true]
  case trainFails =>
    intro rate lanes htraining hmore
    have hcannot : (u.port port).canTrain rate lanes = false := by
      simp only [DpPort.canTrain]
      grind
    change execDpLinkTrainingFail t port rate lanes s = _
    simp only [execDpLinkTrainingFail, ← hu, hcannot, State.trainFails, htraining, Bool.false_eq_true, if_false, if_true]
  case hotPlug =>
    intro b hback hdue hwanted
    change execHpdReassert t port s = _
    simp only [execHpdReassert, ← hu, hback, Nat.not_lt.mpr hdue, hwanted, if_false, if_true]
    rfl

end Sys2Proof.Machine
end

section
set_option Elab.async false
/-! PROOFS. The rows of the schedule and of its delivery to the arrays complete (R195–R251, R273–R300). -/

namespace Sys2Proof.Machine

theorem reached_iff {s : State} {t : Int} {span : Nat} : s.reached t span = true ↔ t ≤ (s.wall : Int) ∧ (s.wall : Int) < t + span := by
  simp [State.reached]

/-- A change at one place of a list leaves there what the change leaves. -/
theorem getD_modAt_of_keeps {α β : Type} {l : List α} {i : Nat} {f : α → α} {d : α} {p : α → β} (h : ∀ a, p (f a) = p a) :
    p ((modAt l i f).getD i d) = p (l.getD i d) := by
  rw [List.getD_eq_getElem?_getD, List.getD_eq_getElem?_getD, getElem?_modAt_self]
  cases l[i]? with
  | none => rfl
  | some a => exact h a

theorem fallback_planned {s : State} {g : Nat} {p : Plan} (h : (s.plgroup g).plan = some p) (f cause : Nat) :
    s.fallback g f cause = s.modPlGroup g fun q => q.takes (p.schedOf s.pmin f q.d cause p.safe) := by
  simp only [State.fallback, h]

/-- Settles O10: each row's guard holds by its conditions, and its effect is the one written out. -/
theorem arrayScheduleRowsComplete : Obligations.ArrayScheduleRowsComplete := by
  rintro s u t ap g hu
  refine ⟨?blockLoad, ?epochClear, ?globalReset, ?slotReset, ?delivery, ?deadline, ?planeLate, ?keepalive, ?training, ?trained⟩
  case blockLoad =>
    rintro slot block sc e i prim k a gr start rows late hsched hslot hinstant hstart htakes hfrom huntil rfl rfl
    have hreached : u.reached start (sc.timing.tblk + 1) = true := reached_iff.mpr ⟨hfrom, huntil⟩
    have hend : start + sc.timing.tblk = u.tF sc.frame + (resetAt sc.timing a block i : Int) := by rw [hstart]; omega
    refine ⟨fun hdark => ?_, fun hlight hsome hready => ?_⟩
    · change execBlockLoadWindow t ap slot block false true s = _
      simp only [execBlockLoadWindow, ← hu, State.loadWindow, hsched, hslot, hinstant, Option.map_some, Option.getD_some, ← hstart, htakes,
        hreached, Bool.not_true, Bool.or_self, Bool.false_eq_true, if_false, Bool.false_and]
      exact congrArg _ (if_pos (by simpa using hdark))
    · change execBlockLoadWindow t ap slot block false true s = _
      simp only [execBlockLoadWindow, ← hu, State.loadWindow, hsched, hslot, hinstant, Option.map_some, Option.getD_some, ← hend,
        Int.add_sub_cancel, htakes, hreached, Bool.not_true, Bool.or_self, Bool.false_eq_true, if_false, Bool.false_and, hready]
      refine congrArg _ (if_neg ?_)
      simpa [Nat.not_lt.mpr hlight] using hsome
  case epochClear =>
    rintro e b ep a gr p at_ hepoch rfl hfrom huntil
    change execEpochClear t g e b s = _
    simp only [execEpochClear, ← hu, State.epochClear, hepoch, reached_iff.mpr ⟨hfrom, huntil⟩, if_true]
  case globalReset =>
    rintro e ep a gr p at_ last hepoch rfl rfl hfrom huntil
    change execGlobalReset t g e s = _
    simp only [execGlobalReset, ← hu, State.globalReset, hepoch, reached_iff.mpr ⟨hfrom, huntil⟩, if_true]
  case slotReset =>
    rintro slot b sc e i pk a gr at_ hsched hslot hinstant rfl hruns hfrom huntil
    have hgo : exec (.slotReset t g slot b) s = .next (
        let s1 := (u.drivenOf g).foldl (fun s ap => s.modPlArray ap fun x =>
          { x with shown := setAt x.shown b (x.armed.getD b none), armed := setAt x.armed b none }) u
        if b = 0 then s1.modPlGroup g fun q => { q with slotNow := slot } else s1) := by
      change execSlotReset t g slot b s = _
      simp only [execSlotReset, ← hu, State.slotReset, hsched, Option.bind_some, hslot, Option.map_some, hinstant, Option.getD_some, hruns,
        reached_iff.mpr ⟨hfrom, huntil⟩, decide_false, Bool.not_true, Bool.or_self, Bool.false_eq_true, if_false]
    refine ⟨fun hb => ?_, fun hb => ?_⟩
    · rw [hgo, if_neg hb]
    · rw [hgo, if_pos hb, hb]
  case delivery =>
    intro found us p k aps hfree hset hnext hplan hgroup
    have hdeliver : exec (.scheduleDelivery t g found us) s = .next (u.deliver g (u.seqr.count + 1) found us).compilerLease := by
      change execScheduleDelivery t g found us s = _
      simp only [execScheduleDelivery, ← hu, Nat.not_lt.mpr hfree, if_false]
    have hmust : ((u.plgroup g).settings.isEmpty || decide ((u.plgroup g).next.map Sched.frame = some (u.seqr.count + 1))) = false := by
      simp [hset, hnext]
    refine ⟨fun c hsame hdelivered => ?_, fun hnew htime v hv => ⟨fun es hes => ?_, fun hnone => ?_⟩⟩
    · rw [hdeliver]
      simp only [State.deliver, hmust, hplan, hgroup, hsame, hdelivered, if_true, Bool.false_eq_true, if_false]
    · rw [hdeliver]
      simp only [State.deliver, hmust, hplan, hgroup, hnew, Int.not_lt.mpr htime, ← hv, hes, Bool.false_eq_true, if_false]
    · have hkept : (v.plgroup g).plan = some p := by
        rw [hv]
        exact (getD_modAt_of_keeps (f := fun q => { q with compileUs := us }) (p := PlGroup.plan) fun _ => rfl).trans hplan
      have hmin : v.pmin = u.pmin := by rw [hv]; rfl
      rw [hdeliver]
      simp only [State.deliver, hmust, hplan, hgroup, hnew, Int.not_lt.mpr htime, ← hv, hnone, Bool.false_eq_true, if_false,
        fallback_planned hkept, hmin]
  case deadline =>
    intro p hset htime hnext hplan
    change execCompileDeadline t g s = _
    simp only [execCompileDeadline, ← hu, State.compileExpires]
    refine congrArg (fun w : State => Host.Outcome.next w.compilerLease) ((if_pos ?_).trans (fallback_planned hplan _ _))
    simp [hset, htime, hnext]
  case planeLate =>
    intro late l more hdue htime hcomposes hfirst
    change execPlgnPlaneLate t late s = _
    simp only [execPlgnPlaneLate, ← hu, State.planesLate, hdue, Int.not_lt.mpr htime, hcomposes, hfirst, decide_false, Bool.not_true,
      Bool.or_self, Bool.false_eq_true, if_false, List.head?_cons]
  case keepalive =>
    intro hparked htraining
    change execKeepaliveSend t ap s = _
    simp only [execKeepaliveSend, ← hu, hparked, htraining, decide_false, Bool.or_self, Bool.false_eq_true, if_false, State.akeep]
  case training =>
    intro hcalls hidle
    change execArrayTraining t ap s = _
    simp only [execArrayTraining, ← hu, hcalls, if_true, State.atrain, hidle, if_false]
  case trained =>
    rintro step regs roundTrip turnaround v htraining rfl hready
    change execArrayTrainingDone t ap step regs roundTrip turnaround s = _
    simp only [execArrayTrainingDone, ← hu, htraining, hready, decide_true, Bool.and_self, if_true]

end Sys2Proof.Machine
end

section
set_option Elab.async false
/-! PROOFS. The rows of the return direction of the array links and those of the light loop complete (R281–R351). -/

namespace Sys2Proof.Machine

/-- A return message whose check passes and whose type is the row's counts as the last return, and then takes its effect. -/
theorem areturn_ok {s : State} {ap typ : Nat} {b : Bytes} (hok : retOk b = true) (htype : leAt b 0 1 = typ) (k : State → State) :
    s.areturn ap typ b k = k (s.modAport ap fun p => { p with lastReturn := some s.now }) := by
  simp [State.areturn, hok, htype]

/-- Settles O11: each row's guard holds by its conditions, and its effect is the one written out. -/
theorem arrayReturnRowsComplete : Obligations.ArrayReturnRowsComplete := by
  rintro s u t ap hu
  refine ⟨?returns, ?swapSend, ?swapMove, ?timeout, ?silent⟩
  case returns =>
    rintro msg v hok rfl
    refine ⟨fun htype => ?ack, fun htype => ?status, fun htype => ?regData, fun htype => ?echo, fun htype => ?fault⟩
    case ack =>
      change execAck t ap msg s = _
      rw [execAck, ← hu, areturn_ok hok htype]
    case status =>
      change execStatus t ap msg s = _
      rw [execStatus, ← hu, areturn_ok hok htype]
    case regData =>
      change execRegData t ap msg s = _
      rw [execRegData, ← hu, areturn_ok hok htype, State.aregData]
    case echo =>
      change execEcho t ap msg s = _
      rw [execEcho, ← hu, areturn_ok hok htype, id]
    case fault =>
      change execFault t ap msg s = _
      rw [execFault, ← hu, areturn_ok hok htype, State.afault]
  case swapSend =>
    intro w n hswap hn hready hmay
    change execLaneSwapSend t ap n s = _
    simp only [execLaneSwapSend, ← hu, State.aswapSend, hswap, hn, hready, hmay, Option.isNone_none, Bool.and_self, if_true]
  case swapMove =>
    intro w n hswap hn hmoved
    change execLaneSwapCodeword t ap s = _
    simp only [execLaneSwapCodeword, ← hu, State.aswapMove, hswap, hn, hmoved, Option.isSome_some, Bool.not_false, Bool.and_self, if_true]
  case timeout =>
    rintro late rfl hlate
    change execArcdAckTimeout t ap s = _
    simp only [execArcdAckTimeout, ← hu, State.aackTimeout, List.isEmpty_iff, hlate, if_false]
  case silent =>
    intro l hlast hsilent hparked htraining hlit
    change execArcdReturnSilent t ap s = _
    simp only [execArcdReturnSilent, ← hu, State.asilent, hlast, hsilent, bne_iff_ne.mpr hparked, bne_iff_ne.mpr htraining, hlit, decide_true,
      Bool.and_self, if_true]

/-- Settles O12: each row's guard holds by its conditions, and its effect is the one written out. -/
theorem lightLoopRowsComplete : Obligations.LightLoopRowsComplete := by
  rintro s u t b hu
  refine ⟨?estimate, ?pip, ?tick, ?lost, ?implausible, ?frozen, ?close, ?warm, ?freeze, ?shortPilot, ?pilot, ?trigger, ?traceDone⟩
  case estimate =>
    intro hlit htime hnew
    change execBandEstimateLatch t s = _
    simp only [execBandEstimateLatch, ← hu, hlit, show u.seqr.count + 2 - 1 = u.seqr.count + 1 from rfl, htime, hnew,
      decide_true, Bool.not_false, Bool.and_self, if_true]
  case pip =>
    intro sums v means hn hmeans
    change execPipWindow t b sums s = _
    simp only [execPipWindow, ← hu, State.pipWindow, Nat.not_le.mpr hn, if_false, hmeans] <;> rfl
  case tick =>
    rintro sums v means w hcounts hk htime hmeans rfl
    change execLoopTick t sums s = _
    simp only [execLoopTick, ← hu, State.loopTick, hcounts, Nat.not_lt.mpr hk, Int.not_lt.mpr htime, hmeans, Bool.not_true, decide_false,
      Bool.or_self, Bool.false_eq_true, if_false]
  case lost =>
    intro hmiss hclosed
    change execLoopFeedbackLost t b s = _
    simp only [execLoopFeedbackLost, ← hu, hmiss, hclosed, decide_true, Bool.and_self, if_true]
  case implausible =>
    intro himpl hclosed
    change execLoopImplausible t b s = _
    simp only [execLoopImplausible, ← hu, himpl, State.verdictDue, hclosed, decide_true, Bool.true_or, Bool.and_self, if_true]
  case frozen =>
    intro hfrozen hclosed
    change execBandFrozen t b s = _
    simp only [execBandFrozen, ← hu, hfrozen, State.verdictDue, hclosed, decide_true, Bool.true_or, Bool.and_self, if_true]
  case close =>
    intro hplaus hcmd hopen
    change execBandClose t b s = _
    simp only [execBandClose, ← hu, State.closeBand]
    exact congrArg _ (if_pos (by simpa [hplaus, hcmd, and_assoc] using hopen))
  case warm =>
    intro k hwarm hk
    change execWarmRampComplete t b s = _
    simp only [execWarmRampComplete, ← hu, State.warmEnd, hwarm, hk, if_true]
  case freeze =>
    intro hfails hnew
    change execCalFreeze t b s = _
    simp only [execCalFreeze, ← hu, hfails, hnew, decide_true, Bool.not_false, Bool.and_self, if_true]
  case shortPilot =>
    intro htick hn
    change execPilotRunEnd t b s = _
    simp only [execPilotRunEnd, ← hu, State.pilotEnd, Nat.not_lt.mpr htick, Nat.not_le.mpr hn, if_false]
  case pilot =>
    rintro v w htick hn hclosed rfl rfl
    change execPilotRunEnd t b s = _
    simp only [execPilotRunEnd, ← hu, State.pilotEnd, Nat.not_lt.mpr htick, hn, hclosed, bne_self_eq_false, Bool.false_eq_true, if_false,
      if_true]
  case trigger =>
    intro n hkind harmed
    change execTraceTrigger t n s = _
    simp only [execTraceTrigger, ← hu, State.traceTrigger, hkind, harmed, bne_self_eq_false, decide_true, Bool.true_or, Bool.false_eq_true,
      if_false, if_true]
  case traceDone =>
    intro n hruns hleft
    change execLoopTraceDone t n s = _
    simp only [execLoopTraceDone, ← hu, State.traceDone, hruns, hleft, decide_true, Bool.and_self, if_true]

end Sys2Proof.Machine
end

section
set_option Elab.async false
/-! PROOFS. The rows of the lamp link and of lamp sensing complete (R352–R389). -/

namespace Sys2Proof.Machine

/-- Settles O13: each row's guard holds by its conditions, and its effect is the one written out. -/
theorem lampRowsComplete : Obligations.LampRowsComplete := by
  rintro s u t n hu
  refine ⟨?launch, ?set, ?statusSend, ?frameReturn, ?driverLost, ?reported, ?silent, ?enumerate, ?discrepancy, ?sensorLost, ?rail, ?closeA,
    ?closeB, ?openA, ?openB, ?conversion, ?boardLevel⟩
  case launch =>
    rintro bands gated live v w d0 d1 rfl rfl hchain0 hchain1
    change execApplyLaunch t bands s = _
    simp only [execApplyLaunch, ← hu, State.launch, hchain0, hchain1]
  case set =>
    rintro bands ahead bank at_ vals hup htime ⟨b, hb, hin, hfree⟩ rfl
    have hsome : ((upTo 4).all fun b => !bit bands b || u.tickWithheld b at_) = false :=
      List.all_eq_false.mpr ⟨b, hb, by simp [hin, hfree]⟩
    change execSetSend t n bands ahead bank at_ s = _
    simp only [execSetSend, ← hu, State.sendSet', hup, Int.not_lt.mpr htime, hsome, bne_self_eq_false, decide_false, Bool.or_self,
      Bool.false_eq_true, if_false] <;> rfl
  case statusSend =>
    intro hup
    change execStatusFrameSend t n s = _
    simp only [execStatusFrameSend, ← hu, hup, if_true]
  case frameReturn =>
    intro frame hok
    change execLampFrameReturn t n frame s = _
    simp only [execLampFrameReturn, ← hu, State.lampReturn, hok, if_true]
  case driverLost =>
    intro hfitted hup hdriver hsilent
    change execLampDriverLost t n s = _
    simp only [execLampDriverLost, ← hu, hfitted, hup, bne_iff_ne.mpr hdriver, hsilent, decide_true, Bool.and_self, if_true]
  case reported =>
    intro _
    change execLampChainDown t n 1 s = _
    simp only [execLampChainDown, ← hu, decide_true, Bool.true_or, if_true]
  case silent =>
    intro _ hsilent
    change execLampChainDown t n 2 s = _
    simp only [execLampChainDown, ← hu, hsilent, decide_true, Bool.and_self, Bool.or_true, if_true]
  case enumerate =>
    intro count regs loop hstarted
    change execChainEnumerate t n count regs loop s = _
    simp only [execChainEnumerate, ← hu, hstarted, decide_true, Bool.true_or, if_true]
  case discrepancy =>
    intro since hdiffer hlong hnew
    change execLampIntlkDiscrepancy t s = _
    simp only [execLampIntlkDiscrepancy, ← hu, hdiffer, hlong, hnew, decide_true, Bool.not_false, Bool.and_self, if_true]
  case sensorLost =>
    intro hkind hst hbad
    change execLampSensorLost t n s = _
    simp only [execLampSensorLost, ← hu, State.sensorJudge, hkind, hst, hbad, bne_self_eq_false, decide_true, Bool.and_self,
      Bool.false_eq_true, if_false, if_true]
  case rail =>
    intro hkind hnew hrun
    change execLampRail t n s = _
    simp only [execLampRail, ← hu, State.railJudge, hkind, bne_iff_ne.mpr hnew, hrun, decide_true, Bool.and_self, if_true]
  case closeA =>
    intro hopen
    change execInterlockClose t 0 s = _
    simp [execInterlockClose, ← hu, hopen]
  case closeB =>
    intro hopen
    change execInterlockClose t 1 s = _
    simp [execInterlockClose, ← hu, hopen]
  case openA =>
    intro hclosed
    change execLampInterlock t 0 s = _
    simp [execLampInterlock, ← hu, hclosed]
  case openB =>
    intro hclosed
    change execLampInterlock t 1 s = _
    simp [execLampInterlock, ← hu, hclosed]
  case conversion =>
    intro code vio
    change execSlowConversion t code vio s = _
    simp only [execSlowConversion, ← hu]
  case boardLevel =>
    rintro v rfl hwas his
    change execLampBoardLevel t n s = _
    simp only [execLampBoardLevel, ← hu, hwas, his, Bool.not_false, Bool.and_self, if_true]

end Sys2Proof.Machine
end

section
set_option Elab.async false
/-! PROOFS. The rows of the wheel drive complete (R390–R412). -/

namespace Sys2Proof.Machine

/-- A wheel in closed loop is not coasting. -/
theorem not_coasting_of_closedLoop {s : State} {n : Nat} (h : s.closedLoop n = true) : s.obs (wWheel n) ≠ 5 := by
  intro hcoast
  simp [State.closedLoop, hcoast] at h

/-- Settles O14: each row's guard holds by its conditions, and its effect is the one written out. -/
theorem wheelRowsComplete : Obligations.WheelRowsComplete := by
  rintro s u t n hu
  refine ⟨?run, ?stop, ?catchRotor, ?alignEnd, ?handover, ?rampFails, ?listenFails, ?locked, ?crossing, ?sample, ?faultInput, ?index, ?firstIndex,
    ?missing, ?lost, ?recovery, ?standstill, ?coast⟩
  case run =>
    intro hcmd hfitted hstopped
    change execWheelRun t n s = _
    simp only [execWheelRun, ← hu, hcmd, State.wheelRun, hfitted, hstopped, Bool.not_true, Bool.false_eq_true, if_false, if_true]
  case stop =>
    rintro v hcmd hnew hlocked rfl
    change execWheelStop t n s = _
    simp only [execWheelStop, ← hu, hcmd, hnew, State.wheelStop, hlocked, decide_true, Bool.not_false, Bool.and_self, if_true]
  case catchRotor =>
    rintro amp e speed hlisten hend hke rfl
    change execWhelCatch t n amp s = _
    simp only [execWhelCatch, ← hu, hlisten, Nat.not_lt.mpr hend, hke, if_false]
  case alignEnd =>
    intro haligns hend
    change execAlignEnd t n s = _
    simp only [execAlignEnd, ← hu, haligns, hend, decide_true, Bool.and_self, if_true]
  case handover =>
    intro hramps hopen hspeed hseen
    change execOpenLoopHandover t n s = _
    simp only [execOpenLoopHandover, ← hu, hramps, hopen, hspeed, hseen, decide_true, Bool.not_false, Bool.and_self, if_true]
  case rampFails =>
    intro hramps hopen hspeed
    change execWhelStartFail t n s = _
    simp only [execWhelStartFail, ← hu, hramps, hopen, hspeed, decide_true, Bool.not_false, Bool.and_self, if_true]
  case listenFails =>
    intro hlistens hcmd hlate
    change execWhelStartFail t n s = _
    simp [execWhelStartFail, ← hu, hlistens, hcmd, hlate]
  case locked =>
    intro hramps hclosed hspeed hgood hindex
    change execWheelLocked t n s = _
    simp only [execWheelLocked, ← hu, hramps, hclosed, hspeed, hgood]
    exact if_pos (by simpa using hindex)
  case crossing =>
    rintro tc late back sp err target i duty htc hnonzero hloop rfl hslow hbelow rfl rfl hpi
    have hcoasts := not_coasting_of_closedLoop hloop
    change execZeroCrossing t n tc late back s = _
    simp only [execZeroCrossing, ← hu, State.crossing, Nat.not_lt.mpr htc, hnonzero, Int.not_lt.mpr hslow, Int.not_lt.mpr hbelow, hcoasts,
      hloop, hpi, decide_false, Bool.or_self, Bool.false_and, Bool.false_eq_true, if_false, if_true]
    rfl
  case sample =>
    rintro micro ma v w rfl hscale rfl rfl hlimit
    change execPwmPeriodSample t n micro s = _
    simp only [execPwmPeriodSample, ← hu, State.pwmSample, hscale, Nat.not_lt.mpr hlimit, if_false]
  case faultInput =>
    constructor
    · change execWheelFaultInput t n true s = _
      simp only [execWheelFaultInput, ← hu, if_true]
    · change execWheelFaultInput t n false s = _
      simp only [execWheelFaultInput, ← hu, Bool.false_eq_true, if_false]
  case index =>
    rintro period width err hused hwide hseek hperiod hpred rfl hclose hok
    change execIndexEdge t n period width s = _
    simp only [execIndexEdge, ← hu, State.indexEdge, hused, Nat.not_lt.mpr hwide, hperiod, hpred, hclose, Nat.not_lt.mpr hclose, hok, hseek,
      decide_false, Bool.or_self, Bool.not_true, Bool.false_and, Bool.false_eq_true, if_false, if_true]
  case firstIndex =>
    rintro period width hwide hused rfl hseek
    change execIndexEdge t n 0 width s = _
    simp only [execIndexEdge, ← hu, State.indexEdge, hused, Nat.not_lt.mpr hwide, hseek, decide_false, decide_true, Bool.or_self,
      Bool.true_or, Bool.false_and, Bool.false_eq_true, if_false, if_true]
  case missing =>
    intro l hlast hused hturns hnew hlate
    change execIndexMissing t n s = _
    simp only [execIndexMissing, ← hu, hlast, bne_iff_ne.mpr hused, bne_iff_ne.mpr hturns, hnew, hlate, decide_true, Bool.not_false,
      Bool.and_self, if_true]
  case lost =>
    intro cause hloop hlost
    change execWhelLockLost t n cause s = _
    simp only [execWhelLockLost, ← hu, hloop, hlost, Bool.and_self, if_true]
  case recovery =>
    intro r hrecovers hlate hunlocked
    change execWheelRecoveryTimeout t n s = _
    simp only [execWheelRecoveryTimeout, ← hu, hrecovers, hlate, bne_iff_ne.mpr hunlocked, decide_true, Bool.and_self, if_true]
  case standstill =>
    rintro v hbrakes rfl
    refine ⟨fun halign => ?_, fun hstop => ?_⟩
    · change execWheelStandstill t n s = _
      simp only [execWheelStandstill, ← hu, hbrakes, halign, decide_true, Bool.true_or, if_true]
    · change execWheelStandstill t n s = _
      simp only [execWheelStandstill, ← hu, hbrakes, hstop, decide_true, Bool.true_or, Bool.false_eq_true, if_false, if_true]
  case coast =>
    intro hcoasts halign hsilent hlate
    change execWheelCoastTimeout t n s = _
    simp only [execWheelCoastTimeout, ← hu, hcoasts, halign, hsilent, hlate, Option.isNone_none, decide_true, Bool.and_self, if_true]

end Sys2Proof.Machine
end

section
set_option Elab.async false
/-! PROOFS. The rows of frame timing and staging, and those of thermal management, wear and spares complete (R97, R163, R252–R272,
R494–R520). -/

namespace Sys2Proof.Machine

/-- Settles O15: each row's guard holds by its conditions, and its effect is the one written out. -/
theorem timingRowsComplete : Obligations.TimingRowsComplete := by
  rintro s u t n hu
  refine ⟨?boundary, ?mark, ?phase, ?fsync, ?missing, ?lost, ?stage, ?signature, ?version⟩
  case boundary =>
    intro late mismatch hcounts hruns htime
    change execFrameBoundary t late mismatch s = _
    simp only [execFrameBoundary, ← hu, hcounts, bne_iff_ne.mpr hruns, htime, decide_true, Bool.and_self, if_true]
  case mark =>
    intro hused
    change execWheelMarkPass t n s = _
    simp only [execWheelMarkPass, ← hu, hused, if_true]
  case phase =>
    intro hused
    change execSeqrWheelPhase t n s = _
    simp only [execSeqrWheelPhase, ← hu, hused, if_true]
  case fsync =>
    rintro width v hinput rfl
    have hedge : exec (.fsyncEdge t width) s = .next (
        if (decide (u.seqr.fsyncEdge = 0) || fsyncInRate (u.wall - u.seqr.fsyncEdge) (u.num 0xB001)) = true then
          (u.emit (.pulse .fsyncOut width)).fsyncTrack u.wall width
        else (u.emit (.pulse .fsyncOut width)).fsyncMissing.modSeqr fun q => { q with fsyncEdge := u.wall }) := by
      change execFsyncEdge t width s = _
      simp only [execFsyncEdge, ← hu, hinput, if_true]
      rfl
    refine ⟨fun hgood => ?_, fun hseen hbad => ?_⟩
    · rw [hedge, if_pos (by simpa using hgood)]
    · rw [hedge, if_neg (by simpa [hbad] using hseen)]
  case missing =>
    intro hinput hlate
    change execFsyncEdgeMissing t s = _
    simp only [execFsyncEdgeMissing, ← hu, hinput, hlate, decide_true, Bool.and_self, if_true]
  case lost =>
    intro hinput hmissed hnew
    change execFsyncLost t s = _
    simp only [execFsyncLost, ← hu, hinput, State.fsyncLost, hmissed, bne_iff_ne.mpr hnew, decide_true, Bool.and_self, if_true]
  case stage =>
    intro hnew hcopied
    change execSeqrStageReady t s = _
    simp only [execSeqrStageReady, ← hu, State.stageVerified, hnew, hcopied, Bool.not_true, Bool.or_self, Bool.false_eq_true, if_false]
  case signature =>
    intro region hon hcomposes hloud
    change execSignatureFinal t region s = _
    simp only [execSignatureFinal, ← hu, hon, hcomposes, hloud, Bool.not_false, Bool.and_self, if_true]
  case version =>
    intro w hfirst hended hcopied haccepted
    change execVersionComplete t n s = _
    simp only [execVersionComplete, ← hu, hfirst, hended, hcopied, haccepted, decide_true, Bool.not_false, Bool.or_true, Bool.and_self,
      if_true]

/-- Settles O16: each row's guard holds by its conditions, and its effect is the one written out. -/
theorem thermalAndWearRowsComplete : Obligations.ThermalAndWearRowsComplete := by
  rintro s u t hu
  refine ⟨?conversion, ?warn, ?throttle, ?shutdown, ?interval, ?lampInterval, ?excluded, ?worn, ?lane, ?laneSpared, ?bankSwap, ?rampEnd,
    ?recheck, ?trim, ?crystal, ?noEdge, ?sram⟩
  case conversion =>
    intro temps
    change execDieTempConversion t temps s = _
    rw [execDieTempConversion, ← hu, State.dieConvert]
  case warn =>
    change execMewsThermalWarn t s = _
    rw [execMewsThermalWarn, ← hu]
  case throttle =>
    change execMewsThermalThrottle t s = _
    rw [execMewsThermalThrottle, ← hu]
  case shutdown =>
    intro hwas his
    change execMewsThermalShutdown t s = _
    simp only [execMewsThermalShutdown, ← hu, hwas, his, Bool.not_false, Bool.and_self, if_true]
  case interval =>
    intro hdue
    change execThrottleInterval t s = _
    simp only [execThrottleInterval, ← hu, hdue, if_true]
  case lampInterval =>
    change execLampThrottleInterval t s = _
    rw [execLampThrottleInterval, ← hu]
  case excluded =>
    intro sensor hthrottles _ hfew
    change execDieSensorExcluded t sensor s = _
    simp only [execDieSensorExcluded, ← hu, hthrottles, Nat.ne_of_lt hfew, Bool.not_true, Bool.false_and, decide_false, Bool.and_false,
      Bool.false_eq_true, if_false]
  case worn =>
    intro area resource value hholds
    change execMewsWear t area resource 1 value s = _
    simp [execMewsWear, ← hu, hholds]
  case lane =>
    intro ap msg v w hok htype hlane
    refine ⟨fun hw => ?_, fun ph unc hw => ?_⟩
    · subst hw
      change execLane t ap msg s = _
      simp only [execLane, ← hu, areturn_ok hok htype, ← hlane]
    · subst hw
      change execLane t ap msg s = _
      simp only [execLane, ← hu, areturn_ok hok htype, ← hlane]
  case laneSpared =>
    intro ap w hswap hmoved hnone
    change execArcdLaneSpared t ap s = _
    simp only [execArcdLaneSpared, ← hu, State.aswapEnd, hswap, hmoved, hnone, if_true]
  case bankSwap =>
    intro res spare k htrans hfind
    change execBankSwapMirrored t s = _
    simp only [execBankSwapMirrored, ← hu, htrans, Option.isNone_none, Bool.and_true, hfind]
  case rampEnd =>
    intro a worn spare k hfind
    change execStringRampEnd t s = _
    simp only [execStringRampEnd, ← hu, State.rampEnd, hfind]
  case recheck =>
    intro area resource q hfind hnone
    change execSpareRejectRecheck t area resource s = _
    simp only [execSpareRejectRecheck, ← hu, hfind, hnone]
  case trim =>
    intro error hgood
    change execRcTrimUpdate t error s = _
    simp only [execRcTrimUpdate, ← hu, hgood, if_true]
  case crystal =>
    intro cycles hlow hhigh
    have hnear : ((cycles : Int) - 16000000).natAbs ≤ 16000 := by omega
    have hgood : ¬ 160000 < ((cycles : Int) - 16000000).natAbs := by omega
    change execCrystalCheck t cycles s = _
    simp only [execCrystalCheck, ← hu, hnear, hgood, decide_true, Bool.and_true, if_false, if_true]
  case noEdge =>
    change execCrystalEdgeTimeout t s = _
    rw [execCrystalEdgeTimeout, ← hu]
  case sram =>
    intro area resource value
    change execMewsWear t area resource 0 value s = _
    simp only [execMewsWear, ← hu, if_true]

end Sys2Proof.Machine
end

section
set_option Elab.async false
/-! PROOFS. The rows of clocks, resets, wake-ups and power states complete (R541–R572). -/

namespace Sys2Proof.Machine

/-- Settles O17: each row's guard holds by its conditions, and its effect is the one written out. -/
theorem clockAndPowerRowsComplete : Obligations.ClockAndPowerRowsComplete := by
  rintro s u t hu
  refine ⟨?bandMiss, ?searchFailed, ?lockLost, ?holdover, ?refLost, ?refGood, ?pllLocked, ?gate, ?spared, ?release, ?retry, ?bootEnd, ?autoWarm,
    ?thermalReset, ?watchdogReset, ?watchdog, ?resetLow, ?railOut, ?wakeTimer, ?wakeGpio, ?wakeReset, ?railBack, ?vaon, ?powerOn⟩
  case bandMiss =>
    intro pll hsearches hfirst
    change execClksBandMiss t pll s = _
    simp only [execClksBandMiss, ← hu, Pll.searching, hsearches, hfirst, decide_true, Bool.true_or, Bool.not_false, Bool.and_self, if_true]
  case searchFailed =>
    intro pll hst hfull href
    have hsearches : (u.pll pll).searching = true := by
      obtain h | h := hst <;> simp [Pll.searching, h]
    have halive : (u.pll pll).st ≠ 4 := by omega
    change execSynthesiserSearchFailed t pll s = _
    simp only [execSynthesiserSearchFailed, ← hu, hsearches, hfull, href, halive, decide_true, Bool.and_self, if_true, if_false]
  case lockLost =>
    intro pll err hlocked href
    change execClksLockLost t pll err s = _
    simp only [execClksLockLost, ← hu, hlocked, bne_iff_ne.mpr href, decide_true, Bool.and_self, if_true]
  case holdover =>
    intro pll since hsince hcoasts hnew hlong href
    change execClksHoldoverLimit t pll s = _
    simp only [execClksHoldoverLimit, ← hu, hsince, hcoasts, hnew, hlong, href, decide_true, Bool.not_false, Bool.and_self, if_true]
  case refLost =>
    intro href
    change execClksRefLost t s = _
    simp only [execClksRefLost, ← hu, href, if_true]
  case refGood =>
    intro href hdev
    change execRefGood t s = _
    simp only [execRefGood, ← hu, State.refGood, href, hdev, decide_false, Bool.or_self, Bool.false_eq_true, if_false]
  case pllLocked =>
    intro pll band err
    change execClksLocked t pll band err s = _
    rw [execClksLocked, ← hu]
  case gate =>
    intro domain idle hlow hhigh hon
    change execDomainGate t domain idle s = _
    simp only [execDomainGate, ← hu, hlow, hhigh, bne_iff_ne.mpr hon, decide_true, Bool.and_self, if_true]
  case spared =>
    change execClksSpared t s = _
    rw [execClksSpared, ← hu]
  case release =>
    intro sigs eeprom kib sfdp logOk hdue hboot hstep hvaon hrails
    change execResetRelease t sigs eeprom kib sfdp logOk s = _
    simp only [execResetRelease, ← hu, hdue, hboot, hstep, hvaon, hrails, decide_true, Bool.and_self, if_true]
  case retry =>
    intro sigs hboot hstep hstopped hdue
    change execBootRetry t sigs s = _
    simp only [execBootRetry, ← hu, hboot, hstep, hstopped, hdue, decide_true, Bool.not_false, Bool.and_self, if_true]
  case bootEnd =>
    intro hboot hstep htrained hcool
    change execBootComplete t s = _
    simp only [execBootComplete, ← hu, hboot, hstep, htrained, hcool, decide_true, Bool.and_self, if_true]
  case autoWarm =>
    rintro past rfl hdev hcause hon hlit hfew hallowed hmemory
    have hrequest : ∀ w : State, w.mews.dev = .standby → w.warmRefused = false → w.hbm.status ≠ 4 →
        (w.stateRequest 3 id).getD w = w.enterWarming := fun w hd hw hm => by simp [State.stateRequest, hd, hw, hm]
    change execAutoWarmRequest t s = _
    simp only [execAutoWarmRequest, ← hu, hdev, hcause, hon, hlit, hfew, decide_true, Bool.and_self, if_true]
    exact congrArg _ (hrequest _ hdev hallowed hmemory)
  case thermalReset =>
    intro due hdue hnow
    change execThermalDieReset t s = _
    simp only [execThermalDieReset, ← hu, hdue, hnow, decide_true, Bool.and_self, if_true]
  case watchdogReset =>
    intro due hdue hnow
    change execWatchdogDieReset t s = _
    simp only [execWatchdogDieReset, ← hu, hdue, hnow, decide_true, Bool.and_self, if_true]
  case watchdog =>
    intro hdev hheld hstep
    change execMewsWatchdog t s = _
    simp only [execMewsWatchdog, ← hu, hdev, hheld, hstep, decide_false, Bool.or_self, Bool.false_eq_true, if_false]
  case resetLow =>
    intro hdev hvaon
    change execResetNLow t s = _
    simp only [execResetNLow, ← hu]
    refine if_neg (show ¬ (decide (u.mews.dev = .mews) || !u.mews.vaon) = true from ?_)
    simp [hdev, hvaon]
  case railOut =>
    intro rail hdev hheld hstep
    change execRailOutOfRange t rail s = _
    simp only [execRailOutOfRange, ← hu]
    refine if_neg (show ¬ (decide (u.mews.dev = .mews) || u.mews.held || decide (u.mews.bootStep = 0)) = true from ?_)
    simp [hdev, hheld, hstep]
  case wakeTimer =>
    intro hset hdue
    change execWakeTimer t s = _
    simp only [execWakeTimer, ← hu, bne_iff_ne.mpr hset, hdue, decide_true, Bool.and_self, if_true]
  case wakeGpio =>
    intro gpio hgpio
    refine ⟨fun hrise => ?_, fun hfall => ?_⟩
    · change execWakeGpioEdge t gpio true s = _
      simp only [execWakeGpioEdge, ← hu, hgpio, hrise, decide_true, Bool.and_self, if_true]
    · change execWakeGpioEdge t gpio false s = _
      simp only [execWakeGpioEdge, ← hu, hgpio, hfall, decide_true, Bool.and_self, Bool.false_eq_true, if_false, if_true]
  case wakeReset =>
    intro hdev
    change execWakeResetNRise t s = _
    simp only [execWakeResetNRise, ← hu, hdev, if_true]
  case railBack =>
    intro hdev hvaon
    have hawake : u.wakeUp = u := if_pos (by simp [hdev])
    change execRailRecovered t s = _
    simp only [execRailRecovered, ← hu, hawake, hdev, hvaon, decide_false, Bool.not_true, Bool.or_self, Bool.false_eq_true, if_false]
  case vaon =>
    change execVaonRemoved t s = _
    rw [execVaonRemoved, ← hu]
  case powerOn =>
    change execPowerOn t s = _
    rw [execPowerOn, ← hu]

end Sys2Proof.Machine
end

section
set_option Elab.async false
/-! PROOFS. The rows of the Uane ports, links, time and video transit complete (R426–R443). -/

namespace Sys2Proof.Machine

/-- Settles O18: each row's guard holds by its conditions, and its effect is the one written out. -/
theorem fabricRowsComplete : Obligations.FabricRowsComplete := by
  rintro s u t n hu
  refine ⟨?hello, ?helloTraining, ?helloErrors, ?helloBad, ?helloSend, ?helloTimeout, ?lockLost, ?lockLostLong, ?retrain, ?locked, ?trainingTimeout,
    ?swapTaken, ?swapSent, ?framing, ?forward, ?frame, ?topo, ?topoSend, ?topoStale, ?time, ?timeFirst, ?timeSend, ?ptp, ?ppsRise, ?ppsFall, ?pixel,
    ?pixels, ?pixelEnd, ?pixelAbort, ?lineSend, ?lineSent, ?endTimeout, ?mgmt, ?mgmtRequest⟩
  case hello =>
    intro payload hn hon
    change execHello t n true payload [] s = _
    simp [execHello, ← hu, Nat.not_le.mpr hn, hon]
  case helloTraining =>
    rintro payload run v hn hon htraining rfl rfl
    change execHello t n true payload [] s = _
    simp only [execHello, ← hu, Nat.not_le.mpr hn, hon, decide_false, Bool.not_true, Bool.or_self, Bool.false_eq_true, if_false,
      List.length_nil, show (0 : Nat) ≠ 5 from nofun, State.takeHello, htraining, if_true]
  case helloErrors =>
    intro ser payload hn hon hser
    change execHello t n true payload ser s = _
    simp only [execHello, ← hu, Nat.not_le.mpr hn, hon, hser, decide_false, Bool.not_true, Bool.or_self, Bool.false_eq_true, if_false, if_true]
  case helloBad =>
    intro payload ser hn hon
    change execHello t n false payload ser s = _
    simp only [execHello, ← hu, Nat.not_le.mpr hn, hon, decide_false, Bool.not_true, Bool.not_false, Bool.or_self, Bool.false_eq_true, if_false,
      if_true]
  case helloSend =>
    intro aligned
    change execHelloSend t aligned s = _
    rw [execHelloSend, ← hu]
  case helloTimeout =>
    intro hup hsilent
    change execHelloTimeout t n s = _
    simp only [execHelloTimeout, ← hu, hup, hsilent, decide_true, Bool.and_self, if_true]
  case lockLost =>
    intro lane hn hup hused hnew
    change execUaneLockLost t n lane s = _
    simp only [execUaneLockLost, ← hu, Nat.not_le.mpr hn, hup, hused, hnew, Bool.and_self, Bool.not_true, Bool.false_eq_true, if_false]
  case lockLostLong =>
    intro lane e hn hup hused hlost hlong
    change execUaneLockLost t n lane s = _
    simp only [execUaneLockLost, ← hu, Nat.not_le.mpr hn, hup, hused, hlost, hlong, Bool.and_self, Bool.not_true, Bool.false_eq_true, if_false,
      if_true]
  case retrain =>
    intro hn hpause hdown hcmd hused
    change execUanePortTraining t n false s = _
    simp only [execUanePortTraining, ← hu, Nat.not_le.mpr hn, State.uaneRetrain, hpause, State.uaneTrain, hdown, hcmd, hused,
      decide_true, Bool.and_self, Bool.false_eq_true, if_false, if_true]
  case locked =>
    intro hn htraining
    change execUanePortTraining t n true s = _
    simp only [execUanePortTraining, ← hu, Nat.not_le.mpr hn, htraining, State.uaneLocked, if_false, if_true]
  case trainingTimeout =>
    intro htraining hlong
    change execUaneTrainingTimeout t n s = _
    simp only [execUaneTrainingTimeout, ← hu, htraining, hlong, decide_true, Bool.and_self, if_true]
  case swapTaken =>
    intro w hswap
    change execUaneLaneSwap t n false s = _
    simp only [execUaneLaneSwap, ← hu, State.uaneSwapTaken, hswap, Bool.not_false, if_true]
  case swapSent =>
    intro w k hswap hk hdue hnone
    have hswapDue : u.uaneSwapDue w = true := by simp [State.uaneSwapDue, hk, hdue]
    change execUaneLaneSwap t n true s = _
    simp only [execUaneLaneSwap, ← hu, State.uaneSwapSent, hswap, hswapDue, hnone, List.any_nil, Bool.and_false, Bool.not_true,
      Bool.false_eq_true, if_false]
  case framing =>
    change execUaneFramingLost t n s = _
    rw [execUaneFramingLost, ← hu]
  case forward =>
    intro frame tenths named hn
    change execUaneFrameForward t n frame tenths named s = _
    simp only [execUaneFrameForward, ← hu, Nat.not_le.mpr hn, if_false]
  case frame =>
    rintro frame tenths v w c hn rfl rfl hon hup hport hhead hclass hremote hpay
    change execUaneFrameForward t n frame tenths true s = _
    simp only [execUaneFrameForward, ← hu, Nat.not_le.mpr hn, if_false, State.recvFrame, hon, hup, hhead, hclass, hremote, hpay, hport,
      Option.isNone_some, show PayCheck.good ≠ .bad from nofun, decide_false, decide_true, Bool.not_true, Bool.and_false, Bool.or_self,
      Bool.false_eq_true, if_true]
  case topo =>
    intro payload hon
    change execTopo t n payload s = _
    simp only [execTopo, ← hu, hon, if_true, State.topoFrame]
  case topoSend =>
    rintro v hon rfl
    change execTopoSend t s = _
    simp only [execTopoSend, ← hu, hon, Bool.not_true, Bool.false_eq_true, if_false]
  case topoStale =>
    rintro v rfl
    change execTopoStale t s = _
    simp only [execTopoStale, ← hu]
  case time =>
    intro payload tenths hon hup
    change execUaneTime t n payload tenths s = _
    simp only [execUaneTime, ← hu, hon, hup, Bool.and_self, if_true]
  case timeFirst =>
    intro payload tenths hon hup hfirst
    change execUaneTime t n payload tenths s = _
    simp only [execUaneTime, ← hu, hon, hup, Bool.and_self, if_true, State.takeTime]
    exact congrArg _ (if_pos (by simpa using hfirst))
  case timeSend =>
    change execTimeSend t s = _
    rw [execTimeSend, ← hu]
  case ptp =>
    intro msg hon
    change execPtpMessage t msg s = _
    simp only [execPtpMessage, ← hu, hon, if_false]
  case ppsRise =>
    intro hon hnear
    change execPpsEdge t true s = _
    simp only [execPpsEdge, ← hu, hon, hnear, decide_true, Bool.and_self, if_true]
  case ppsFall =>
    intro hnear
    change execPpsEdge t false s = _
    simp only [execPpsEdge, ← hu, Nat.add_assoc, Nat.reduceAdd, hnear, decide_true, Bool.false_eq_true, if_false, if_true]
  case pixel =>
    intro spec payload
    change execPixel t n spec payload s = _
    rw [execPixel, ← hu]
  case pixels =>
    intro spec payload l w hlayer hwriting hnum hrow hcolumn hkeep
    change execPixel t n spec payload s = _
    simp only [execPixel, ← hu, State.takePixel, hlayer, hwriting, Option.map_some, hnum, if_true, bne_self_eq_false, Nat.not_le.mpr hrow,
      Nat.not_lt.mpr hcolumn, decide_false, Bool.or_self, Bool.false_eq_true, if_false, hkeep]
  case pixelEnd =>
    intro spec payload
    change execPixelEnd t n spec payload s = _
    rw [execPixelEnd, ← hu]
  case pixelAbort =>
    intro spec payload l w hlayer hwriting hnum habort
    change execPixelEnd t n spec payload s = _
    simp only [execPixelEnd, ← hu, State.takePixelEnd, hlayer, hwriting, Option.map_some, hnum, if_true, bne_self_eq_false, Bool.false_eq_true,
      if_false, habort]
  case lineSend =>
    intro line
    change execTransitLineSend t n line s = _
    rw [execTransitLineSend, ← hu]
  case lineSent =>
    intro line v hstream hversion hline hfind hbit
    change execTransitLineSend t n line s = _
    simp only [execTransitLineSend, ← hu, State.streamSend, Nat.not_le.mpr hstream, Nat.not_le.mpr hline, hversion, hfind, hbit, decide_false,
      Bool.or_self, Bool.false_eq_true, if_false, if_true]
  case endTimeout =>
    intro hfed hwriting hlong
    change execTransitEndTimeout t n s = _
    simp only [execTransitEndTimeout, ← hu, hfed, hwriting, hlong, decide_true, Bool.and_self, if_true]
  case mgmt =>
    intro src spec payload
    change execMgmt t n src spec payload s = _
    rw [execMgmt, ← hu]
  case mgmtRequest =>
    intro src spec payload hkind hmember
    change execMgmt t n src spec payload s = _
    simp only [execMgmt, ← hu, State.takeMgmt, hkind, hmember, if_true, Bool.false_eq_true, if_false]

end Sys2Proof.Machine
end

section
set_option Elab.async false
/-! PROOFS. The rows of the vote, the lease, luminance, wall commits and calibration sweeps complete (R182–R191, R447–R469). -/

namespace Sys2Proof.Machine

/-- Settles O19: each row's guard holds by its conditions, and its effect is the one written out. -/
theorem wallRowsComplete : Obligations.WallRowsComplete := by
  rintro s u t hu
  refine ⟨?report, ?agreement, ?agreed, ?issue, ?repeated, ?lease, ?expiry, ?luma, ?lumaSet, ?lumaRepeat, ?localEnd, ?joinEnd, ?prepare, ?ready,
    ?refused, ?go, ?ack, ?abort, ?prepareRepeat, ?goRepeat, ?joinTimeout, ?joinExpiry, ?commit⟩
  case report =>
    intro report hcoord
    change execVoteReport t report s = _
    simp only [execVoteReport, ← hu, hcoord, if_true]
  case agreement =>
    intro agreement
    change execAgreement t agreement s = _
    rw [execAgreement, ← hu]
  case agreed =>
    rintro agreement a n rfl hlayer htime hnew
    change execAgreement t agreement s = _
    simp only [execAgreement, ← hu, State.takeAgreement, hlayer, htime, hnew, Bool.not_true, Bool.false_eq_true, if_false]
  case issue =>
    intro hcoord hruns hnew
    change execAgreementIssue t s = _
    simp only [execAgreementIssue, ← hu, hcoord, hruns, hnew, Bool.not_true, decide_false, Bool.or_self, Bool.false_eq_true, if_false]
  case repeated =>
    intro hcoord hnew htime
    change execAgreementRepeat t s = _
    simp only [execAgreementRepeat, ← hu, hcoord, State.repeatAgreements, hnew, Int.not_lt.mpr htime, decide_false, Bool.or_self,
      Bool.false_eq_true, if_false, if_true]
  case lease =>
    intro lease
    change execLease t lease s = _
    rw [execLease, ← hu, State.lease]
  case expiry =>
    intro heligible hfollows hturn
    change execLeaseExpiry t s = _
    simp only [execLeaseExpiry, ← hu, heligible, hfollows, hturn, Bool.not_false, Bool.and_self, if_true]
  case luma =>
    intro node report hcoord
    change execLumaReport t node report s = _
    simp only [execLumaReport, ← hu, hcoord, State.takeLuma, if_true]
  case lumaSet =>
    intro set hmoves hnew
    change execLumaSet t set s = _
    simp only [execLumaSet, ← hu, State.takeSet, hnew, Bool.or_false]
    exact congrArg _ (if_neg (by simpa [imp_iff_not_or, or_assoc] using hmoves))
  case lumaRepeat =>
    rintro x b hlast hcoord hage rfl
    change execLumaSetRepeat t s = _
    simp only [execLumaSetRepeat, ← hu, hlast, hcoord, hage, decide_true, Bool.and_self, if_true]
  case localEnd =>
    intro hstate hruns hfree hnone
    change execCommitValidationEnd t s = _
    simp only [execCommitValidationEnd, ← hu, hstate, hruns, Nat.not_lt.mpr hfree, hnone, bne_self_eq_false, Bool.not_true, decide_false,
      Bool.or_self, Bool.false_eq_true, if_false]
  case joinEnd =>
    intro j hstate hruns hfree hjoin
    change execCommitValidationEnd t s = _
    simp only [execCommitValidationEnd, ← hu, hstate, hruns, Nat.not_lt.mpr hfree, hjoin, bne_self_eq_false, Bool.not_true, decide_false,
      Bool.or_self, Bool.false_eq_true, if_false]
  case prepare =>
    intro src j hjoin
    change execPrepare t src j.id s = _
    simp only [execPrepare, ← hu, State.takePrepare, hjoin, decide_true, if_true]
  case ready =>
    rintro c node ready hcommit hgo hpart rfl hsome
    change execReady t node c.id s = _
    simp only [execReady, ← hu, State.commitReady, hcommit, hgo, hpart, hsome, Option.isSome_none, Bool.not_true, Bool.not_false, Bool.or_self,
      Bool.false_eq_true, if_false, if_true]
  case refused =>
    intro c hcommit hgo
    change execRefused t c.id s = _
    simp only [execRefused, ← hu, State.commitRefused, hcommit, hgo, Option.isNone_none, if_true]
  case go =>
    rintro src j g v hjoin hgo hstate hready htime rfl hsrc
    change execGo t src j.id g s = _
    simp only [execGo, ← hu, State.takeGo, hjoin, hgo, hstate, hready, htime, bne_self_eq_false, Option.isSome_none, Bool.not_true, Bool.or_self,
      Bool.false_eq_true, if_false]
    exact congrArg _ (if_neg hsrc)
  case ack =>
    intro c g node hcommit hgo hall
    change execCommitAck t node c.id s = _
    simp only [execCommitAck, ← hu, State.commitAck, hcommit, hgo, hall, Option.isSome_some, Bool.and_self, if_true]
  case abort =>
    intro j hjoined
    change execAbort t j.id s = _
    simp only [execAbort, ← hu, State.takeAbort, hjoined, if_true]
  case prepareRepeat =>
    change execPrepareRepeat t s = _
    rw [execPrepareRepeat, ← hu]
  case goRepeat =>
    intro c g hcommit hgo htime
    change execGoRepeat t s = _
    simp only [execGoRepeat, ← hu, hcommit, hgo, htime, Option.any_some, if_true]
  case joinTimeout =>
    intro c hcommit hgo hlate
    change execWallJoinTimeout t s = _
    simp only [execWallJoinTimeout, ← hu, hcommit, hgo, hlate, Option.isNone_none, decide_true, Bool.and_self, if_true]
  case joinExpiry =>
    intro j hjoined hlate
    change execWallJoinExpiry t s = _
    simp only [execWallJoinExpiry, ← hu, hjoined, hlate, if_true]
  case commit =>
    rintro c g out hcommit hgo htime rfl
    change execSeqrWallCommit t s = _
    simp only [execSeqrWallCommit, ← hu, hcommit, hgo, htime, if_true]

/-- Settles O20: each row's guard holds by its conditions, and its effect is the one written out. -/
theorem sweepRowsComplete : Obligations.SweepRowsComplete := by
  rintro s u t n hu
  refine ⟨?step, ?lateResult, ?result, ?collect, ?ends, ?timeout, ?silent⟩
  case step =>
    intro payload x nodes hstep hnamed htime
    have hmine : (nodes.isEmpty || nodes.contains u.uane.node) = true := by simpa using hnamed
    have hgo : exec (.sweepStep t n payload) s = .next (
        if u.coh.node.cur.isSome = true then u.modNode fun m => { m with next := some x }
        else u.modNode fun m => { m with cur := some x, endedAt := none, bands := List.replicate 4 {} }) := by
      change execSweepStep t n payload s = _
      simp only [execSweepStep, hstep, ← hu, State.takeStep, hmine, Nat.not_le.mpr htime, Bool.not_true, decide_false, Bool.or_self,
        Bool.false_eq_true, if_false]
    refine ⟨fun hnone => ?_, fun hruns => ?_⟩
    · rw [hgo, if_neg (by simp [hnone])]
    · rw [hgo, if_pos (Option.isSome_iff_ne_none.mpr hruns)]
  case lateResult =>
    intro payload hdone
    change execSweepResult t n payload s = _
    simp only [execSweepResult, ← hu, State.takeResult, hdone, if_true]
  case result =>
    intro payload hopen
    change execSweepResult t n payload s = _
    simp only [execSweepResult, ← hu, State.takeResult, hopen, Bool.false_eq_true, if_false]
  case collect =>
    intro sweep
    change execSweepCollect t n sweep s = _
    rw [execSweepCollect, ← hu, State.takeCollect]
  case ends =>
    intro sweep
    change execSweepEnd t sweep s = _
    rw [execSweepEnd, ← hu, State.takeEnd]
  case timeout =>
    intro hruns hopen hlate
    change execSweepStepTimeout t s = _
    simp only [execSweepStepTimeout, ← hu, hruns, hopen, hlate, decide_true, Bool.not_false, Bool.and_self, if_true]
  case silent =>
    intro e hended hlate
    change execMgmtSweep t s = _
    simp only [execMgmtSweep, ← hu, hended, hlate, if_true]

end Sys2Proof.Machine
end

section
set_option Elab.async false
/-! PROOFS. The rows of firmware and leases, of the JTAG port, and of events and tasks complete (R43, R48, R474–R490, R523–R529, R558,
R616–R624). -/

namespace Sys2Proof.Machine

/-- Settles O21: each row's guard holds by its conditions, and its effect is the one written out. -/
theorem firmwareRowsComplete : Obligations.FirmwareRowsComplete := by
  rintro s u t hu
  refine ⟨?verified, ?unsigned, ?core, ?watchdog, ?unanswered, ?thirdMiss, ?answered, ?lease, ?compiler, ?save, ?erase⟩
  case verified =>
    intro n hverifies hheader hdigest hruns
    change execMgmtFwUpdate t true s = _
    simp only [execMgmtFwUpdate, ← hu, hverifies, hheader, hdigest, hruns, Bool.and_self, if_true]
  case unsigned =>
    intro n hverifies hruns
    change execMgmtFwUpdate t false s = _
    simp only [execMgmtFwUpdate, ← hu, hverifies, hruns, Bool.and_false, Bool.false_eq_true, if_false, if_true]
  case core =>
    intro core held sectors hcore hruns
    change execMgmtCoreSpared t core held sectors s = _
    simp only [execMgmtCoreSpared, ← hu, Nat.not_le.mpr hcore, hruns, bne_self_eq_false, decide_false, Bool.or_self, Bool.false_eq_true,
      if_false]
  case watchdog =>
    rintro task held sectors retained v hruns hfree rfl
    refine ⟨fun hfirst => ?_, fun hagain => ?_⟩
    · change execMgmtFwWatchdog t task held sectors retained s = _
      simp only [execMgmtFwWatchdog, ← hu, hruns, Nat.not_lt.mpr hfree, hfirst, Bool.not_true, decide_false, Bool.or_self,
        Bool.false_eq_true, if_false]
    · change execMgmtFwWatchdog t task held sectors retained s = _
      simp only [execMgmtFwWatchdog, ← hu, hruns, Nat.not_lt.mpr hfree, hagain, Bool.not_true, decide_false, Bool.or_self,
        Bool.false_eq_true, if_false, if_true]
  case unanswered =>
    intro area harea hfew
    have hcount : natAt u.firm.busPort area + 1 ≠ 3 := by omega
    change execBusTransactionTimeout t area false s = _
    simp only [execBusTransactionTimeout, ← hu, Nat.not_le.mpr harea, hcount, Bool.false_eq_true, if_false]
  case thirdMiss =>
    rintro area v harea hcount rfl
    change execBusTransactionTimeout t area false s = _
    simp only [execBusTransactionTimeout, ← hu, Nat.not_le.mpr harea, hcount, Bool.false_eq_true, if_false, Nat.reduceAdd, if_true]
  case answered =>
    intro area harea
    change execBusTransactionTimeout t area true s = _
    simp only [execBusTransactionTimeout, ← hu, Nat.not_le.mpr harea, if_false, if_true]
  case lease =>
    intro lease sectors hlease hdue
    have hother : lease ≠ 10 := by omega
    have hfree : ¬ 11 ≤ lease := by omega
    change execMgmtLeaseRevoked t lease sectors s = _
    simp only [execMgmtLeaseRevoked, ← hu, hdue, hother, hfree, decide_true, decide_false, Bool.or_true, Bool.not_true, Bool.false_and,
      Bool.or_self, Bool.false_eq_true, if_false]
  case compiler =>
    intro sectors htime hdue
    have hlate : (u.firm.leases.getD 10 {}).renewed + leasePeriod 10 ≤ u.now := hdue
    change execMgmtLeaseRevoked t 10 sectors s = _
    simp only [execMgmtLeaseRevoked, ← hu, Int.not_lt.mpr htime, hlate, decide_true, decide_false, Bool.and_false, Bool.or_true,
      Bool.not_true, Bool.or_false, Bool.false_eq_true, if_false]
    rfl
  case save =>
    intro es hjob hfits
    change execProfileSaveComplete t true s = _
    simp only [execProfileSaveComplete, ← hu, State.saveEnd, hjob, Nat.not_lt.mpr hfits, if_false, if_true]
    rfl
  case erase =>
    intro hjob
    change execProfileEraseComplete t s = _
    simp only [execProfileEraseComplete, ← hu, State.eraseEnd, hjob]

/-- Settles O22: each instruction's guard holds by its conditions, and its effect is the one written out. -/
theorem jtagRowsComplete : Obligations.JtagRowsComplete := by
  rintro s u t hu
  refine ⟨?reset, ?idcode, ?boundary, ?bypass, ?mailbox, ?mailboxBusy, ?peek, ?dieReset⟩
  case reset =>
    change execTapReset t s = _
    rw [execTapReset, ← hu]
  case idcode =>
    change execIdcode t s = _
    rw [execIdcode, ← hu, State.tapTake]
  case boundary =>
    intro cells sample hdev
    have hon : u.tapOff = false := decide_eq_false hdev
    constructor
    · change execExtest t cells sample s = _
      simp only [execExtest, ← hu, hon, Bool.false_eq_true, if_false]
      rfl
    · change execSamplePreload t cells sample s = _
      simp only [execSamplePreload, ← hu, hon, Bool.false_eq_true, if_false]
      rfl
  case bypass =>
    change execBypass t 0xFF s = _
    rw [execBypass, ← hu, State.tapTake, ite_self]
  case mailbox =>
    intro v w ctl data wait hcapture
    change execMailbox t ctl data false wait s = _
    simp only [execMailbox, ← hu, hcapture, Bool.false_and, Bool.false_eq_true, if_false]
  case mailboxBusy =>
    intro v w ctl data wait hcapture hctl
    change execMailbox t ctl data true wait s = _
    simp only [execMailbox, ← hu, hcapture, bne_iff_ne.mpr hctl, Bool.and_self, if_true]
  case peek =>
    intro write space addr data hdev
    have hon : u.tapOff = false := decide_eq_false hdev
    change execPeek t true write space addr data true s = _
    simp only [execPeek, ← hu, hon, Bool.false_eq_true, if_false, if_true]
  case dieReset =>
    intro hdev hvaon
    change execDieReset t s = _
    simp only [execDieReset, ← hu]
    refine if_neg (show ¬ (u.tapOff || !u.mews.vaon) = true from ?_)
    simp [State.tapOff, hdev, hvaon]

/-- Settles O23: each row's guard holds by its conditions, and its effect is the one written out. -/
theorem eventRowsComplete : Obligations.EventRowsComplete := by
  rintro s u t n hu
  refine ⟨?occurrence, ?lost, ?activation, ?pulseWaits, ?pulseEnd, ?edge, ?cycles, ?disagree, ?allowance⟩
  case occurrence =>
    intro occs
    change execEventOccurrence t occs s = _
    rw [execEventOccurrence, ← hu]
  case lost =>
    intro hlost hroom
    change execXrdsEventsLost t s = _
    simp only [execXrdsEventsLost, ← hu, bne_iff_ne.mpr hlost, hroom, decide_true, Bool.and_self, if_true]
  case activation =>
    intro hn hpending hidle
    have hfree : (decide (20 ≤ n) && decide (n < 36) && decide (u.num 0x3041 (n - 20) = 3) && u.pulseRuns (n - 20)) = false := by
      simpa [and_assoc] using hidle
    change execTaskActivation t n s = _
    simp only [execTaskActivation, ← hu, Nat.not_le.mpr hn, hpending, hfree, decide_false, Bool.or_self, Bool.false_eq_true, if_false,
      State.taskTake]
  case pulseWaits =>
    intro hlow hhigh hmode hruns
    change execTaskActivation t n s = _
    simp only [execTaskActivation, ← hu, hlow, hhigh, hmode, hruns, decide_true, Bool.and_self, if_true, ite_self]
  case pulseEnd =>
    intro hdone
    change execGpioPulseEnd t n s = _
    simp only [execGpioPulseEnd, ← hu, hdone, Bool.false_eq_true, if_false]
  case edge =>
    intro high hn hdev hheld
    change execGpioInputEdge t n high s = _
    simp only [execGpioInputEdge, ← hu, Nat.not_le.mpr hn, hdev, hheld, decide_false, Bool.or_self, Bool.false_eq_true, if_false]
  case cycles =>
    intro cycles hruns
    change execCyclesCounterCompare t n cycles s = _
    simp only [execCyclesCounterCompare, ← hu, hruns, if_true]
  case disagree =>
    intro hdis hnew hlong
    change execMgmtUnitDisagree t n s = _
    simp only [execMgmtUnitDisagree, ← hu, State.disagreeEvent, hdis, hnew, hlong, decide_true, Bool.not_false, Bool.and_self, if_true]
  case allowance =>
    intro hdiffers hlit hnew hlong
    change execDisagreeAllowanceExpiry t n s = _
    simp only [execDisagreeAllowanceExpiry, ← hu, State.disagreeExpiry, hdiffers, hlit, hnew, Nat.not_lt.mpr hlong, decide_false, Bool.or_self,
      Bool.false_eq_true, if_false]

end Sys2Proof.Machine
end

section
set_option Elab.async false
/-! PROOFS. The operations of a served session complete (R53–R70). -/

namespace Sys2Proof.Machine

/-- WRITE runs where every check passes: its values are written, and the status of the last one that failed is answered. -/
theorem opExec_write {s : State} {c : Caller} {obj sub count : Nat} {data : Bytes} (h : s.checkWrite c obj sub count data = none) :
    s.opExec c ⟨0x02, 0, obj, sub, count, data⟩ =
      ((s.doWrite c obj sub count data).1, (s.doWrite c obj sub count data).2, []) := by
  have hflags : (⟨0x02, 0, obj, sub, count, data⟩ : GOp).badFlags = false := by simp [GOp.badFlags, bit]
  simp only [State.opExec, hflags, h]

/-- SUBSCRIBE over any transport but the mailbox sets the mask of its session. -/
theorem subscribe_session {s : State} {sid : Nat} {mask : Bytes} (h : sid ≠ 0xFFFF) :
    s.subscribe sid mask = s.modSession sid fun y => { y with mask := ofLE mask } := by
  simp only [State.subscribe, State.modSession, h, if_false]

/-- Settles O24: each operation runs on the served state, where its conditions pass its checks, and its answer is sent. -/
theorem operationsComplete : Obligations.OperationsComplete := by
  rintro s v t sid obj sub count x hs rfl
  refine ⟨?read, ?write, ?describe, ?blobRead, ?chunk, ?last, ?logRead, ?subscribe, ?nop, ?close⟩
  case read =>
    intro shadow data hread
    change Host.Outcome.next _ = _
    rw [opRow_served hs (show (0x01 : Nat) ≠ 0x11 by decide)]
    simp only [State.opExec, hread]
  case write =>
    intro data w st hchecks hwrite
    change Host.Outcome.next _ = _
    rw [opRow_served hs (show (0x02 : Nat) ≠ 0x11 by decide), opExec_write hchecks, hwrite]
  case describe =>
    intro data hdescribe
    change Host.Outcome.next _ = _
    rw [opRow_served hs (show (0x03 : Nat) ≠ 0x11 by decide)]
    simp only [State.opExec, hdescribe]
  case blobRead =>
    intro offset length data hread
    change Host.Outcome.next _ = _
    rw [opRow_served hs (show (0x04 : Nat) ≠ 0x11 by decide)]
    simp only [State.opExec, hread]
  case chunk =>
    rintro d before chunk crc h htakes hlength rfl
    change Host.Outcome.next ((s.advance t).opRow sid ⟨0x05, 0, obj, sub, 1, toLE 4 before.length ++ chunk ++ []⟩) = _
    rw [List.append_nil, opRow_chunk hs htakes hlength]
  case last =>
    rintro d before chunk h w st htakes hlength rfl hlast hblob
    change Host.Outcome.next ((s.advance t).opRow sid
      ⟨0x05, 2, obj, sub, 1, toLE 4 before.length ++ chunk ++ toLE 4 (crc32c (before ++ chunk))⟩) = _
    rw [opRow_last hs htakes hlast hlength, hblob]
  case logRead =>
    intro start n data hread
    change Host.Outcome.next _ = _
    rw [opRow_served hs (show (0x06 : Nat) ≠ 0x11 by decide)]
    simp only [State.opExec, hread]
  case subscribe =>
    intro mask hmask
    rw [exec_subscribe_served hs hmask, subscribe_session hs.numbered.2]
  case nop =>
    change Host.Outcome.next _ = _
    rw [opRow_served hs (show (0x08 : Nat) ≠ 0x11 by decide)]
    rfl
  case close =>
    change Host.Outcome.next _ = _
    rw [opRow_close hs]

end Sys2Proof.Machine
end

section
set_option Elab.async false
/-! PROOFS. The rows of sessions, transports and the gateway complete (R56–R58, R67, R74–R80, R454). -/

namespace Sys2Proof.Machine

/-- A stream that was left for 10 s is found by its key. -/
theorem streams_any_of_idle {s : State} {key : Nat} {y : BlobStream} (hmem : y ∈ s.gysol.streams) (hkey : y.key = key)
    (hidle : y.lastAt + 10000000000 ≤ s.now) :
    (s.gysol.streams.any fun x => x.key = key && decide (x.lastAt + 10000000000 ≤ s.now)) = true :=
  List.any_eq_true.mpr ⟨y, hmem, by simp [hkey, hidle]⟩

/-- Where every use of a tag is older than the session timeout, what stays is what bears another tag. -/
theorem tags_filter_of_idle {s : State} {tag : Nat} {tags : List GwTag}
    (hidle : ∀ g, g ∈ tags → g.tag = tag → g.used + s.num 0x2013 * 1000000 < s.now) :
    tags.filter (fun g => g.tag != tag || decide (s.now ≤ g.used + s.num 0x2013 * 1000000)) = tags.filter fun g => g.tag != tag := by
  refine List.filter_congr fun g hg => ?_
  by_cases htag : g.tag = tag
  · simp [htag, hidle g hg htag]
  · simp [htag]

/-- Settles O25: each row's guard holds by its conditions, and its effect is the one written out. -/
theorem sessionRowsComplete : Obligations.SessionRowsComplete := by
  rintro s u t sid hu
  refine ⟨?opened, ?pending, ?resumed, ?silent, ?stream, ?push, ?mailboxPush, ?request, ?notHeard, ?spiFrame, ?spiBusy, ?status,
    ?statusStopped, ?response, ?pushed, ?arp, ?icmp, ?tag⟩
  case opened =>
    intro tr addr role resume nonce w fst st data hruns hopen
    change execSessionOpen t tr addr role resume nonce s = _
    simp only [execSessionOpen, ← hu, hruns, hopen, Bool.not_true, Bool.false_eq_true, if_false]
  case pending =>
    intro x hx hpending hold
    refine ⟨fun hlate => ?_, fun k hk hfresh => ?_⟩
    · change execPendingSessionTimeout t sid s = _
      simp only [execPendingSessionTimeout, ← hu, hx, hpending, hold, decide_true, Bool.and_self, if_true]
      rcases hkey : x.newKey with _ | k
      · rfl
      · have hresumed : x.resumedAt + 2000000000 ≤ u.now := hlate.resolve_left (by simp [hkey])
        simp only [hresumed, if_true]
    · change execPendingSessionTimeout t sid s = _
      simp only [execPendingSessionTimeout, ← hu, hx, hpending, hold, hk, Nat.not_le.mpr hfresh, decide_true, Bool.and_self, if_true,
        if_false]
  case resumed =>
    intro x hx hopen hkey hold
    have hsome : x.newKey.isSome = true := Option.isSome_iff_ne_none.mpr hkey
    change execPendingSessionTimeout t sid s = _
    simp only [execPendingSessionTimeout, ← hu, hx, hopen, hsome, hold, decide_true, Bool.false_and, Bool.and_self, Bool.false_eq_true,
      if_false, if_true]
  case silent =>
    intro x hx hopen hold
    change execSessionTimeout t sid s = _
    simp only [execSessionTimeout, ← hu, hx, hopen, hold, decide_true, Bool.not_false, Bool.and_self, if_true]
  case stream =>
    intro obj sub y hmem hkey hidle
    change execBlobStreamAbandon t obj sub s = _
    simp only [execBlobStreamAbandon, ← hu]
    exact if_pos (streams_any_of_idle hmem hkey hidle)
  case push =>
    rintro x n hsid hx hdue rfl
    change execEventPush t sid s = _
    simp only [execEventPush, ← hu, hsid, hx, hdue, if_false, if_true]
  case mailboxPush =>
    intro hdue
    change execEventPush t 0xFFFF s = _
    simp only [execEventPush, ← hu, hdue, if_true]
  case request =>
    intro tr addr port plain frame hruns hnode hheard
    rw [hu] at hruns hnode hheard ⊢
    rw [exec_gysolRequest_heard hheard, exec_gysolRequest_heard hheard, request_own_node hruns hnode, request_own_node hruns hnode]
    exact ⟨rfl, rfl⟩
  case notHeard =>
    intro addr port plain frame wait hother
    change execGysolRequest t .udp addr port plain frame wait s = _
    simp only [execGysolRequest, ← hu]
    refine congrArg _ (if_pos ?_)
    rcases hother with hport | hplain
    · simp [hport]
    · simp [hplain]
  case spiFrame =>
    intro frame wait hruns hfree
    change execWriteFrame t frame true wait s = _
    simp only [execWriteFrame, ← hu, hruns, hfree, Bool.not_true, Bool.false_eq_true, if_false]
  case spiBusy =>
    intro frame whole wait hruns hbusy
    change execWriteFrame t frame whole wait s = _
    simp only [execWriteFrame, ← hu, hruns, hbusy, Bool.not_true, Bool.false_eq_true, if_false, if_true]
  case status =>
    intro hruns
    change execReadStatus t s = _
    simp only [execReadStatus, ← hu, hruns, Bool.not_true, Bool.false_eq_true, if_false]
  case statusStopped =>
    intro hstopped
    change execReadStatus t s = _
    simp only [execReadStatus, ← hu, hstopped, Bool.not_false, if_true]
  case response =>
    intro b bs hruns hresp
    change execReadFrame t s = _
    simp only [execReadFrame, ← hu, hruns, hresp, Bool.not_true, Bool.false_eq_true, if_false]
  case pushed =>
    intro b bs hruns hresp hpush
    change execReadFrame t s = _
    simp only [execReadFrame, ← hu, hruns, hresp, hpush, Bool.not_true, Bool.false_eq_true, if_false]
  case arp =>
    intro asker hruns
    change execArpRequest t u.gysol.netIp asker s = _
    simp only [execArpRequest, ← hu, hruns, decide_true, Bool.and_self, if_true]
  case icmp =>
    intro asker hop data hruns hhop
    change execIcmpEcho t u.gysol.netIp asker true data s = _
    simp only [execIcmpEcho, ← hu, hruns, hhop, decide_true, Bool.and_self, if_true]
  case tag =>
    intro tag hidle
    change execGatewayTagExpiry t tag s = _
    simp only [execGatewayTagExpiry, ← hu, State.modUane, tags_filter_of_idle hidle]

end Sys2Proof.Machine
end

section
set_option Elab.async false
/-! PROOFS. The accepted commands of state, units and spares complete (R9, R31–R37, R509–R513). -/

namespace Sys2Proof.Machine

/-! ## Rows that a write of one number meets -/

/-- A subindex that takes commands of `w` bytes. -/
def isCommandRow (obj sub w : Nat) : Bool :=
  (objKind obj != .record || sub != 0) && (lookup obj sub).any fun d => d.acc = .wc && decide (d.ty.width = w)

/-- A subindex, of no unit record, that keeps a running value of `w` bytes. -/
def isValueRow (obj sub w : Nat) : Bool :=
  (objKind obj != .record || sub != 0) && (viewOf obj).isNone &&
    (lookup obj sub).any fun d => d.acc = .rw && decide (d.ty.width = w)

/-- Only subindex 0 of a record has a row of its own. -/
theorem leafOf_eq_lookup {obj sub : Nat} (h : (objKind obj != .record || sub != 0) = true) : leafOf obj sub = lookup obj sub :=
  if_neg (by simpa [or_iff_not_imp_left] using h)

theorem exists_row_of_isCommandRow {obj sub w : Nat} (h : isCommandRow obj sub w = true) :
    ∃ d, lookup obj sub = some d ∧ leafOf obj sub = some d ∧ d.acc = .wc ∧ d.ty.width = w := by
  obtain ⟨hrow, hdesc⟩ := Bool.and_eq_true_iff.mp h
  obtain ⟨d, hd, hacc⟩ := (Option.any_eq_true _ _).mp hdesc
  simp only [Bool.and_eq_true, decide_eq_true_eq] at hacc
  exact ⟨d, hd, (leafOf_eq_lookup hrow).trans hd, hacc⟩

theorem exists_row_of_isValueRow {obj sub w : Nat} (h : isValueRow obj sub w = true) :
    viewOf obj = none ∧ ∃ d, lookup obj sub = some d ∧ leafOf obj sub = some d ∧ d.acc = .rw ∧ d.ty.width = w := by
  obtain ⟨hplace, hdesc⟩ := Bool.and_eq_true_iff.mp h
  obtain ⟨hrow, hview⟩ := Bool.and_eq_true_iff.mp hplace
  obtain ⟨d, hd, hacc⟩ := (Option.any_eq_true _ _).mp hdesc
  simp only [Bool.and_eq_true, decide_eq_true_eq] at hacc
  exact ⟨Option.isNone_iff_eq_none.mp hview, d, hd, (leafOf_eq_lookup hrow).trans hd, hacc⟩

/-! ## What an accepted write has passed -/

theorem first_eq_none_iff {a b : Option Nat} : first a b = none ↔ a = none ∧ b = none := by
  cases a with
  | none => simp
  | some st => simp

theorem refuseIf_eq_none_iff {bad : Bool} {st : Nat} : refuseIf bad st = none ↔ bad = false := by
  cases bad <;> simp [refuseIf]

/-- A write of one number that is accepted has passed the check of its role, of the present state and of disagreement (R57). -/
theorem checks_of_accepts {s : State} {sid obj sub w v : Nat} {x : Session} {d : Desc} (hd : leafOf obj sub = some d)
    (hw : d.ty.width = w) (hv : v < 2 ^ (8 * w)) (h : s.Accepts sid x obj sub w v) :
    checkRole x.role obj sub 1 = none ∧ s.stateRefuses obj sub v = none ∧ s.checkDisagree obj sub = none := by
  have hsplit : splitVals [d] (toLE w v) = [(d, v)] := by simp [splitVals, hw, leAt_toLE w v hv]
  have hnum : numbered sub [(d, v)] = [(sub, d, v)] := by simp [numbered, upTo]
  simp only [State.Accepts, State.checkWrite, leaves_one hd, hsplit, hnum, List.foldl_cons, List.foldl_nil, first_eq_none_iff,
    first_none, Nat.max_self] at h
  obtain ⟨_, hrole, _, _, _, _, hstate, _, hagrees⟩ := h
  exact ⟨hrole, hstate, hagrees⟩

/-- An accepted command runs, and its status is kept and answered. -/
theorem writeRow_of_isCommandRow {s : State} {t sid obj sub w v : Nat} {x : Session} (hs : s.Serves t sid x)
    (hrow : isCommandRow obj sub w = true) (hv : v < 2 ^ (8 * w)) (ha : (s.served t sid x).Accepts sid x obj sub w v) :
    (s.advance t).writeRow sid obj sub w v =
      State.commandDone sid obj sub ((s.served t sid x).runCmd obj sub v).2 ((s.served t sid x).runCmd obj sub v).1 := by
  obtain ⟨d, hl, hd, hacc, hw⟩ := exists_row_of_isCommandRow hrow
  exact writeRow_command hs hl hd hacc hw hv ha

/-- An accepted running value takes effect at once, and the answer is OK. -/
theorem writeRow_of_isValueRow {s : State} {t sid obj sub w v : Nat} {x : Session} (hs : s.Serves t sid x)
    (hrow : isValueRow obj sub w = true) (hv : v < 2 ^ (8 * w)) (ha : (s.served t sid x).Accepts sid x obj sub w v) :
    (s.advance t).writeRow sid obj sub w v = ((s.served t sid x).putRw obj sub v).emit (.answer sid 0x02 0 []) := by
  obtain ⟨hview, d, hl, hd, hacc, hw⟩ := exists_row_of_isValueRow hrow
  rw [writeRow_served hs hd hw hv ha, State.writeOne, hl]
  simp only [hacc, hview, Option.isSome_none, Bool.false_eq_true, if_false]

/-- The present state takes a state request that was accepted (R33). -/
theorem stateRequest_of_accepts {s : State} {sid v : Nat} {x : Session} (hv : v < 2 ^ 8) (h : s.Accepts sid x 0x0011 0 1 v) :
    (s.stateRequest v State.enterMews).isSome = true := by
  obtain ⟨d, -, hd, -, hw⟩ := exists_row_of_isCommandRow (show isCommandRow 0x0011 0 1 = true by decide)
  obtain ⟨-, hstate, -⟩ := checks_of_accepts hd hw hv h
  have htaken : (s.stateRequest v State.enterMews).isNone = false := refuseIf_eq_none_iff.mp hstate
  simpa using htaken

/-! ## The records of units (R37, R603) -/

theorem lookup_of_viewOf {unit sub : Nat} {fam : Nat × Nat} (h : viewOf unit = some fam) :
    lookup unit sub = unitField fam.1 unit sub := by
  rw [lookup, h]

theorem leafOf_of_viewOf {unit sub : Nat} {fam : Nat × Nat} (h : viewOf unit = some fam) (hsub : sub ≠ 0) :
    leafOf unit sub = unitField fam.1 unit sub := by
  rw [leafOf_eq_lookup (by simp [hsub]), lookup_of_viewOf h]

/-- A role that passes its check finds a row that may be written. -/
theorem noWrite_of_checkRole {role obj sub : Nat} {d : Desc} (hd : leafOf obj sub = some d) (h : checkRole role obj sub 1 = none) :
    noWrite d sub = false := by
  by_contra hshut
  simp [checkRole_eq, upTo, subShut_of_leaf hd, Bool.eq_true_of_not_eq_false hshut] at h

/-- No unit's record is the target of another command: what is left is its `force`. -/
theorem runCmd_unit {unit sub : Nat} {s : State} (h : (viewOf unit).isSome = true) :
    s.runCmd unit sub 1 = (s.unitForce unit, 0x00) := by
  rw [State.runCmd]
  · simp [h]
  all_goals
    rintro rfl
    exact absurd h (by decide)

/-- A command to a unit that is accepted finds its states in agreement, and is applied. -/
theorem writeRow_unitCommand {s : State} {t sid unit value : Nat} {x : Session} {fam : Nat × Nat} (hs : s.Serves t sid x)
    (hfam : viewOf unit = some fam) (hv : value < 256) (ha : (s.served t sid x).Accepts sid x unit 1 1 value) :
    (s.advance t).writeRow sid unit 1 1 value = ((s.served t sid x).unitApply unit value).emit (.answer sid 0x02 0 []) := by
  have hd := leafOf_of_viewOf hfam (sub := 1) one_ne_zero
  have hbyte : value < 2 ^ (8 * 1) := hv
  obtain ⟨-, -, hagrees⟩ := checks_of_accepts hd (w := 1) rfl hbyte ha
  have hdis : ((s.served t sid x).unitRec unit).dis = false := by
    simpa [State.checkDisagree, refuseIf_eq_none_iff, hfam] using hagrees
  have hcommand : (s.served t sid x).unitCommand unit value = ((s.served t sid x).unitApply unit value, 0) := by
    rw [State.unitCommand, hdis]
    rfl
  rw [writeRow_served hs hd (w := 1) rfl hbyte ha, State.writeOne, lookup_of_viewOf hfam, unitField]
  by_cases hlayer : fam.1 = layerFamily
  · simp only [hlayer, hfam, if_true, Option.isSome_some, hcommand]
  · simp only [hlayer, hfam, if_true, if_false, Option.isSome_some, hcommand]

/-- `force` of a unit that is accepted is recorded: no role may write it in a layer's record. -/
theorem writeRow_unitForce {s : State} {t sid unit : Nat} {x : Session} {fam : Nat × Nat} (hs : s.Serves t sid x)
    (hfam : viewOf unit = some fam) (ha : (s.served t sid x).Accepts sid x unit 6 1 1) :
    (s.advance t).writeRow sid unit 6 1 1 = State.commandDone sid unit 6 0 ((s.served t sid x).unitForce unit) := by
  have hd := leafOf_of_viewOf hfam (sub := 6) (by decide)
  have hlayer : fam.1 ≠ layerFamily := by
    intro hlayer
    have hopen := noWrite_of_checkRole hd (checks_of_accepts hd (w := 1) rfl (by decide) ha).1
    simp [noWrite, hlayer] at hopen
  have hrow : isCommandRow unit 6 1 = true := by
    simp [isCommandRow, lookup_of_viewOf hfam, unitField, hlayer, Ty.width]
  rw [writeRow_of_isCommandRow hs hrow (by decide) ha, runCmd_unit (Option.isSome_of_eq_some hfam)]

/-! ## State commands -/

theorem ite_some_of_isSome {c : Prop} [Decidable c] {r : State} (h : (if c then some r else none).isSome = true) :
    (if c then some r else none) = some r := by
  by_cases hc : c
  · exact if_pos hc
  · simp [hc] at h

theorem stateRequest_mews {s : State} (h : (s.stateRequest 0 State.enterMews).isSome = true) :
    s.stateRequest 0 State.enterMews = some s.enterMews :=
  ite_some_of_isSome h

/-- A request of STANDBY ramps down where the device serves light, and leaves SAFE otherwise. -/
theorem stateRequest_standby {s : State} (h : (s.stateRequest 2 State.enterMews).isSome = true) :
    s.stateRequest 2 State.enterMews = some (if s.mews.dev = .safe then s.releaseKill.enterStandby else s.modMews fun m =>
      { m with rampDown := m.rampDown.or (some 0) }) := by
  simp only [State.stateRequest] at h ⊢
  split at h
  case isTrue hlight =>
    have hdev : s.mews.dev ≠ .safe := by rintro hdev; simp [hdev] at hlight
    rw [if_pos hlight, if_neg hdev]
  case isFalse hlight =>
    rw [if_neg hlight]
    split at h
    case isTrue hsafe =>
      have hdev : s.mews.dev = .safe := by simp only [Bool.and_eq_true, decide_eq_true_eq] at hsafe; exact hsafe.1.1
      rw [if_pos hsafe, if_pos hdev]
    case isFalse => exact absurd h Bool.false_ne_true

theorem stateRequest_warming {s : State} (h : (s.stateRequest 3 State.enterMews).isSome = true) :
    s.stateRequest 3 State.enterMews = some s.enterWarming :=
  ite_some_of_isSome h

theorem stateRequest_safe {s : State} (h : (s.stateRequest 6 State.enterMews).isSome = true) :
    s.stateRequest 6 State.enterMews = some (s.enterSafe 4) :=
  ite_some_of_isSome h

/-- Settles O26: each command's row is written with a value that passes its checks, and the command does what is written out. -/
theorem stateCommandsComplete : Obligations.StateCommandsComplete := by
  rintro s v t sid x hs rfl
  refine ⟨?mews, ?standby, ?warming, ?safe, ?reset, ?command, ?force, ?approve, ?reject, ?policy, ?commission⟩
  case mews =>
    intro ha
    have htaken := stateRequest_of_accepts (by decide) ha
    change Host.Outcome.next _ = _
    rw [writeRow_of_isCommandRow hs (by decide) (by decide) ha, State.runCmd, stateRequest_mews htaken, Option.getD_some]
  case standby =>
    intro ha
    have htaken := stateRequest_of_accepts (by decide) ha
    change Host.Outcome.next _ = _
    rw [writeRow_of_isCommandRow hs (by decide) (by decide) ha, State.runCmd, stateRequest_standby htaken, Option.getD_some]
  case warming =>
    intro ha
    have htaken := stateRequest_of_accepts (by decide) ha
    change Host.Outcome.next _ = _
    rw [writeRow_of_isCommandRow hs (by decide) (by decide) ha, State.runCmd, stateRequest_warming htaken, Option.getD_some]
  case safe =>
    intro ha
    have htaken := stateRequest_of_accepts (by decide) ha
    change Host.Outcome.next _ = _
    rw [writeRow_of_isCommandRow hs (by decide) (by decide) ha, State.runCmd, stateRequest_safe htaken, Option.getD_some]
  case reset =>
    intro ha hnone
    change Host.Outcome.next _ = _
    rw [writeRow_of_isCommandRow hs (by decide) (by decide) ha, State.runCmd]
    simp only [one_ne_zero, if_false, hnone, Option.isSome_none, Bool.false_eq_true, State.modMews]
  case command =>
    intro unit value fam hfam hv ha
    change Host.Outcome.next _ = _
    rw [writeRow_unitCommand hs hfam hv ha]
  case force =>
    intro unit fam hfam ha hheld
    change Host.Outcome.next _ = _
    rw [writeRow_unitForce hs hfam ha, State.unitForce]
  case approve =>
    rintro area res word w rfl ha hdecide
    change Host.Outcome.next _ = _
    rw [writeRow_of_isCommandRow hs (by decide) (by omega) ha, State.runCmd, hdecide, Option.getD_some]
  case reject =>
    rintro area res word w rfl ha hdecide
    change Host.Outcome.next _ = _
    rw [writeRow_of_isCommandRow hs (by decide) (by omega) ha, State.runCmd, hdecide, Option.getD_some]
  case policy =>
    intro policy hpolicy ha
    change Host.Outcome.next _ = _
    rw [writeRow_of_isValueRow hs (by decide) hpolicy ha, State.putRw]
  case commission =>
    intro ha
    change Host.Outcome.next _ = _
    rw [writeRow_of_isCommandRow hs (by decide) (by decide) ha, State.runCmd]
    rfl

end Sys2Proof.Machine
end

section
set_option Elab.async false
/-! PROOFS. The accepted commands of the profile, staging, images, commits, sweeps and graphics complete (R9, R48, R54, R59, R157). -/

namespace Sys2Proof.Machine

/-- A BLOB without a header, written as one chunk that is also the last: it takes effect, and its status is answered. -/
theorem blobRow_whole {s : State} {t sid obj sub : Nat} {x : Session} {d : Desc} {b : Bytes} (hs : s.Serves t sid x)
    (hobj : obj ≠ 0x6032) (htakes : (s.served t sid x).TakesChunk sid x obj sub d [] b)
    (hlast : (s.served t sid x).TakesLast sid obj sub d b) :
    (s.advance t).blobRow sid obj sub b =
      (((s.served t sid x).closeStream (okey obj sub)).takeBlob sid obj sub d b).1.emit
        (.answer sid 0x05 (((s.served t sid x).closeStream (okey obj sub)).takeBlob sid obj sub d b).2 []) := by
  have hrow := opRow_last hs htakes (by rwa [List.nil_append, headerArrives_of_ne hobj]) (by decide)
  rw [List.nil_append, headerArrives_of_ne hobj] at hrow
  exact hrow

/-- Settles O27: each command's row is written with a value that passes its checks, and the command does what is written out. -/
theorem storeCommandsComplete : Obligations.StoreCommandsComplete := by
  rintro s v t sid x hs rfl
  refine ⟨?save, ?erase, ?discard, ?roleKey, ?image, ?edid, ?wallStart, ?commit, ?join, ?sweepStart, ?sweepAbort, ?lines, ?lastLines,
    ?publish⟩
  case save =>
    intro ha
    change Host.Outcome.next _ = _
    rw [writeRow_of_isCommandRow hs (by decide) (by decide) ha, State.runCmd]
    rfl
  case erase =>
    intro ha
    change Host.Outcome.next _ = _
    rw [writeRow_of_isCommandRow hs (by decide) (by decide) ha, State.runCmd]
    rfl
  case discard =>
    intro ha
    change Host.Outcome.next _ = _
    rw [writeRow_of_isCommandRow hs (by decide) (by decide) ha, State.runCmd]
    rfl
  case roleKey =>
    intro role d key htakes hlast
    change Host.Outcome.next _ = _
    rw [blobRow_whole hs (by decide) htakes hlast, State.takeBlob]
  case image =>
    rintro d image w htakes hlast rfl
    have hruns : ((s.served t sid x).closeStream (okey 0x2071 0)).firm.running = true := hs.running
    change Host.Outcome.next _ = _
    rw [blobRow_whole hs (by decide) htakes hlast, State.takeBlob, if_pos hruns]
  case edid =>
    intro port d edid htakes hlast
    change Host.Outcome.next _ = _
    rw [blobRow_whole hs (by decide) htakes hlast, State.takeBlob]
    rfl
  case wallStart =>
    intro d start htakes hlast
    change Host.Outcome.next _ = _
    rw [blobRow_whole hs (by decide) htakes hlast, State.takeBlob]
  case commit =>
    intro ha
    change Host.Outcome.next _ = _
    rw [writeRow_of_isCommandRow hs (by decide) (by decide) ha, State.runCmd, State.localCommit]
  case join =>
    intro id hid ha
    change Host.Outcome.next _ = _
    rw [writeRow_of_isCommandRow hs (by decide) hid ha, State.runCmd, State.wallJoin]
  case sweepStart =>
    intro ha
    change Host.Outcome.next _ = _
    rw [writeRow_of_isCommandRow hs (by decide) (by decide) ha, State.runCmd, if_pos rfl]
  case sweepAbort =>
    intro ha
    change Host.Outcome.next _ = _
    rw [writeRow_of_isCommandRow hs (by decide) (by decide) ha, State.runCmd, if_neg (by decide)]
  case lines =>
    rintro gfx d before chunk crc h htakes hlength rfl
    change Host.Outcome.next ((s.advance t).opRow sid ⟨0x05, 0, 0x6032, gfx, 1, toLE 4 before.length ++ chunk ++ []⟩) = _
    rw [List.append_nil, opRow_chunk hs htakes hlength]
  case lastLines =>
    rintro gfx d before chunk h htakes hlength rfl hlast
    change Host.Outcome.next ((s.advance t).opRow sid
      ⟨0x05, 2, 0x6032, gfx, 1, toLE 4 before.length ++ chunk ++ toLE 4 (crc32c (before ++ chunk))⟩) = _
    rw [opRow_last hs htakes hlast hlength, State.takeBlob]
  case publish =>
    intro gfx number hgfx hnumber ha
    change Host.Outcome.next _ = _
    rw [writeRow_of_isCommandRow hs ((by decide : ∀ g < 8, isCommandRow 0x6034 g 4 = true) gfx hgfx) hnumber ha, State.runCmd]

end Sys2Proof.Machine
end

section
set_option Elab.async false
/-! PROOFS. The accepted commands of frame memory, links, the loop, chains, counters, tasks, interrupts and GPIO complete (R134, R302,
R386, R488–R490, R571). -/

namespace Sys2Proof.Machine

/-! ## The word of a register access (R302, R386) -/

theorem bit_63_read {a : Nat} (ha : a < 2 ^ 16) : bit (a * 2 ^ 32) 63 = false := by
  rw [bit, Nat.testBit_eq_decide_div_mod_eq]
  exact decide_eq_false (by omega)

theorem bit_63_write {a d : Nat} (ha : a < 2 ^ 16) (hd : d < 2 ^ 32) : bit (2 ^ 63 + a * 2 ^ 32 + d) 63 = true := by
  rw [bit, Nat.testBit_eq_decide_div_mod_eq]
  exact decide_eq_true (by omega)

/-- The address stands above bit 31, below the bit that says whether the access writes. -/
theorem fld_address {k a d : Nat} (ha : a < 2 ^ k) (hk : k ≤ 16) (hd : d < 2 ^ 32) :
    fld (2 ^ 63 + a * 2 ^ 32 + d) (31 + k) 32 = a ∧ fld (a * 2 ^ 32) (31 + k) 32 = a := by
  have hwidth : 31 + k + 1 - 32 = k := by omega
  have hdvd : 2 ^ 31 = 2 ^ k * 2 ^ (31 - k) := by rw [← pow_add, Nat.add_sub_cancel' (by omega)]
  have hread : a * 2 ^ 32 / 2 ^ 32 = a := Nat.mul_div_cancel _ (by decide)
  have hwrite : (2 ^ 63 + a * 2 ^ 32 + d) / 2 ^ 32 = a + 2 ^ k * 2 ^ (31 - k) := by omega
  simp only [fld, hwidth, Nat.shiftRight_eq_div_pow, hread, hwrite, Nat.add_mul_mod_self_left, Nat.mod_eq_of_lt ha, and_self]

theorem fld_data {a d : Nat} (hd : d < 2 ^ 32) : fld (2 ^ 63 + a * 2 ^ 32 + d) 31 0 = d := by
  simp only [fld, Nat.shiftRight_zero]
  omega

theorem arrayReg_read {s : State} {ap addr : Nat} :
    s.arrayReg ap (addr % 65536 * 2 ^ 32) = (s.takeLeaseOf (3 + ap)).acontrol ap [acmd 7 (addr % 65536) 0 0] := by
  have ha : addr % 65536 < 2 ^ 16 := Nat.mod_lt _ (by decide)
  rw [State.arrayReg, bit_63_read ha, (fld_address (k := 16) (d := 0) ha le_rfl (by decide)).2]
  rfl

theorem arrayReg_write {s : State} {ap addr data : Nat} :
    s.arrayReg ap (2 ^ 63 + addr % 65536 * 2 ^ 32 + data % 2 ^ 32) =
      (s.takeLeaseOf (3 + ap)).acontrol ap [acmd 8 (addr % 65536) 0 (data % 2 ^ 32)] := by
  have ha : addr % 65536 < 2 ^ 16 := Nat.mod_lt _ (by decide)
  have hd : data % 2 ^ 32 < 2 ^ 32 := Nat.mod_lt _ (by decide)
  rw [State.arrayReg, bit_63_write ha hd, (fld_address (k := 16) ha le_rfl hd).1, fld_data hd, if_pos rfl]

theorem lampReg_read {s : State} {driver addr : Nat} :
    s.lampReg driver (addr % 256 * 2 ^ 32) = s.lampSend (driver / 8) 3 (driver % 8) (toLE 1 (addr % 256) ++ toLE 4 0) := by
  have ha : addr % 256 < 2 ^ 8 := Nat.mod_lt _ (by decide)
  rw [State.lampReg, bit_63_read (by omega), (fld_address (k := 8) (d := 0) ha (by decide) (by decide)).2]
  rfl

theorem lampReg_write {s : State} {driver addr data : Nat} :
    s.lampReg driver (2 ^ 63 + addr % 256 * 2 ^ 32 + data % 2 ^ 32) =
      s.lampSend (driver / 8) 4 (driver % 8) (toLE 1 (addr % 256) ++ toLE 4 (data % 2 ^ 32)) := by
  have ha : addr % 256 < 2 ^ 8 := Nat.mod_lt _ (by decide)
  have hd : data % 2 ^ 32 < 2 ^ 32 := Nat.mod_lt _ (by decide)
  rw [State.lampReg, bit_63_write (by omega) hd, (fld_address (k := 8) ha (by decide) hd).1, fld_data hd, if_pos rfl, if_pos rfl]

/-! ## Rows with a subindex for each part of an engine -/

theorem isCommandRow_arrayReg {ap : Nat} (h : ap < 4) : isCommandRow 0xA009 ap 8 = true :=
  (by decide : ∀ n < 4, isCommandRow 0xA009 n 8 = true) ap h

theorem isCommandRow_lampReg {driver : Nat} (h : driver < 14) : isCommandRow 0xD009 driver 8 = true :=
  (by decide : ∀ n < 14, isCommandRow 0xD009 n 8 = true) driver h

/-- Settles O28: each command's row is written with a value that passes its checks, and the command does what is written out. -/
theorem engineCommandsComplete : Obligations.EngineCommandsComplete := by
  rintro s v t sid x hs rfl
  refine ⟨?trainFull, ?trainQuick, ?arrayRead, ?arrayWrite, ?lampRead, ?lampWrite, ?laneSwap, ?rep, ?trace, ?sat, ?chain, ?snapshot,
    ?clear, ?source, ?pending, ?sticky, ?irq, ?gpio⟩
  case trainFull =>
    intro ha
    change Host.Outcome.next _ = _
    rw [writeRow_of_isCommandRow hs (by decide) (by decide) ha, State.runCmd, State.hbmTrain]
  case trainQuick =>
    intro ha
    change Host.Outcome.next _ = _
    rw [writeRow_of_isCommandRow hs (by decide) (by decide) ha, State.runCmd, State.hbmTrain]
  case arrayRead =>
    intro ap addr hap ha
    change Host.Outcome.next _ = _
    rw [writeRow_of_isCommandRow hs (isCommandRow_arrayReg hap) (by omega) ha, State.runCmd, arrayReg_read]
  case arrayWrite =>
    intro ap addr data hap ha
    change Host.Outcome.next _ = _
    rw [writeRow_of_isCommandRow hs (isCommandRow_arrayReg hap) (by omega) ha, State.runCmd, arrayReg_write]
  case lampRead =>
    intro driver addr hdriver ha
    change Host.Outcome.next _ = _
    rw [writeRow_of_isCommandRow hs (isCommandRow_lampReg hdriver) (by omega) ha, State.runCmd, lampReg_read]
  case lampWrite =>
    intro driver addr data hdriver ha
    change Host.Outcome.next _ = _
    rw [writeRow_of_isCommandRow hs (isCommandRow_lampReg hdriver) (by omega) ha, State.runCmd, lampReg_write]
  case laneSwap =>
    intro ap lane hap hlane ha
    change Host.Outcome.next _ = _
    rw [writeRow_of_isCommandRow hs ((by decide : ∀ n < 4, isCommandRow 0xA014 n 1 = true) ap hap) hlane ha, State.runCmd]
  case rep =>
    intro band hband ha
    change Host.Outcome.next _ = _
    rw [writeRow_of_isCommandRow hs ((by decide : ∀ n < 4, isCommandRow 0xC019 n 1 = true) band hband) (by decide) ha, State.runCmd]
    rfl
  case trace =>
    intro n hn ha
    change Host.Outcome.next _ = _
    rw [writeRow_of_isCommandRow hs ((by decide : ∀ n < 4, isCommandRow 0xC061 n 1 = true) n hn) (by decide) ha, State.runCmd]
    rfl
  case sat =>
    intro band bits hband hbits ha
    change Host.Outcome.next _ = _
    rw [writeRow_of_isValueRow hs ((by decide : ∀ n < 4, isValueRow 0xC053 n 2 = true) band hband) hbits ha, State.putRw]
  case chain =>
    intro chain hchain ha
    change Host.Outcome.next _ = _
    rw [writeRow_of_isCommandRow hs ((by decide : ∀ n < 2, isCommandRow 0xD000 n 1 = true) chain hchain) (by decide) ha, State.runCmd,
      State.startEnum]
  case snapshot =>
    intro ha
    change Host.Outcome.next _ = _
    rw [writeRow_of_isCommandRow hs (by decide) (by decide) ha, State.runCmd]
    rfl
  case clear =>
    intro mask hmask ha
    change Host.Outcome.next _ = _
    rw [writeRow_of_isCommandRow hs (by decide) hmask ha, State.runCmd, State.clearCounters]
  case source =>
    intro n source hn hsource ha
    change Host.Outcome.next _ = _
    rw [writeRow_of_isValueRow hs ((by decide : ∀ n < 64, isValueRow 0x3020 n 8 = true) n hn) hsource ha, State.putRw,
      State.counterSource]
  case pending =>
    intro input hinput ha
    change Host.Outcome.next _ = _
    rw [writeRow_of_isValueRow hs ((by decide : ∀ n < 38, isValueRow 0x3012 n 1 = true) input hinput) (by decide) ha, State.putRw]
  case sticky =>
    intro bits hbits ha
    change Host.Outcome.next _ = _
    rw [writeRow_of_isValueRow hs (by decide) hbits ha, State.putRw]
  case irq =>
    intro block bits hblock hbits ha
    change Host.Outcome.next _ = _
    rw [writeRow_of_isValueRow hs ((by decide : ∀ n < 4, isValueRow 0x3031 n 8 = true) block hblock) hbits ha, State.putRw]
  case gpio =>
    intro gpio function hgpio hfunction ha
    change Host.Outcome.next _ = _
    rw [writeRow_of_isValueRow hs ((by decide : ∀ n < 16, isValueRow 0x3041 n 1 = true) gpio hgpio) hfunction ha, State.putRw]

end Sys2Proof.Machine
end
